-- ==== Sys2Proof/Word.lean ====
section
/-!
DEFINITION. The word types of the device: registers and data-path words are 32 bits wide (R12), memory is byte-addressed.
-/
namespace Sys2Proof

/-- A register or memory word (R12). -/
abbrev Word := BitVec 32

/-- One byte of memory. -/
abbrev Byte := BitVec 8

/-- A bit range of a register, high bit first as the spec writes it. -/
structure Fld where
  hi : Nat
  lo : Nat
  deriving DecidableEq, Repr

end Sys2Proof
end

