-- ==== Sys2Proof/Syntax.lean ====
section
/-!
DEFINITION. The commands of the block and their operands: register accesses by a requester, events of its clocks, pins, links and
engines, instructions of its cores, and command packets.
-/
namespace Sys2Proof

/-- Who makes an access: a core (0-3 for H0-H3, 4 for S) or the host. -/
inductive Requester where
  | core (c : Fin 5)
  | host
  deriving DecidableEq, Repr

/-- A supply against its monitor threshold (R220, R450): above it, below it, or away altogether. -/
inductive Rail where
  | good
  | low
  | absent
  deriving DecidableEq, Repr

/-- The three compares a leg commit may set. -/
inductive LegCmp where
  | cmpa
  | cmpb
  | phase
  deriving DecidableEq, Repr

/-- Operand width of an instruction: a width prefix makes it 8 or 16 bits (R253, R259). -/
inductive Width where
  | b8
  | b16
  | b32
  deriving DecidableEq, Repr

/-- Segment registers in the order of their codes (R260). -/
inductive Seg where
  | cs
  | ds
  | ss
  | es
  | xs
  | ys
  deriving DecidableEq, Repr

/-- The prefixes of an instruction (R259): a segment override, an operand width, the constant-time prefix 0xEC. -/
structure Pre where
  seg   : Option Seg := none
  width : Width := .b32
  ct    : Bool := false
  deriving DecidableEq, Repr

/-- The second operand of R263: register, immediate, memory with a short or a long displacement. -/
inductive AluB where
  | reg (b : Fin 16)
  | imm (v : Word)
  | mem8 (b : Fin 16) (disp : BitVec 8)
  | mem16 (b : Fin 16) (disp : BitVec 16)
  deriving DecidableEq, Repr

/-- The memory operand of R265, form F 0 to 3, with its base register. -/
inductive MemForm where
  | ind (b : Fin 16)
  | disp8 (b : Fin 16) (disp : BitVec 8)
  | disp16 (b : Fin 16) (disp : BitVec 16)
  | post (b : Fin 16)
  deriving DecidableEq, Repr

/-- The count operand of a shift (R266). -/
inductive ShiftBy where
  | reg (b : Fin 16)
  | imm (k : Byte)
  deriving DecidableEq, Repr

/-- The condition codes 0x0 to 0xE (R272). -/
inductive Cond where
  | alw
  | eq
  | ne
  | lt
  | ge
  | le
  | gt
  | ltu
  | geu
  | leu
  | gtu
  | neg
  | pos
  | ov
  | nov
  deriving DecidableEq, Repr

/-- A displacement of a branch or of a store of an immediate: short or long. -/
inductive Disp where
  | short (d : BitVec 8)
  | long (d : BitVec 16)
  deriving DecidableEq, Repr

/-- The pointer-handshake FIFOs of R41: the PCIe command buffer, the SPI queue, a capture staging buffer, a link port's queues. -/
inductive Fifo where
  | pcieCmd
  | spiCmd
  | capStage (r : Fin 16)
  | linkTx (p : Fin 2)
  | linkRx (p : Fin 2)
  deriving DecidableEq, Repr

/-- The registers of a fabric channel (R195, R196): its enable words, its control, its owner. -/
inductive ChanPart where
  | en (k : Fin 16)
  | ctl
  | own
  deriving DecidableEq, Repr

/-- An inbound PCIe request of whole words (R407): BAR0 or BAR2, byte offset in the BAR, byte enables of each word, the data of a
write. -/
structure Inbound where
  bar2  : Bool
  addr  : Nat
  write : Bool
  be    : List (BitVec 4)
  data  : List Word
  deriving DecidableEq, Repr

/-- The commands of the block: one constructor for each row of the command table.  `by_` is the requester of a register access, `c`
a core, `p` the prefixes of an instruction, `t` an instant in time units, `v` the value written. -/
inductive Instr where
  /-- REGISTER_WRITE (R13): A write to a register that has no row of its own takes effect under its field access codes,
  guards and ownership rules. -/
  | registerWrite (by_ : Requester) (addr v : Word)
  /-- TEMPO_WINDOW_END (R24): At the end of each 2^16-cycle PLL A window, every region's TEMPOn value and TEMPOMIN are
  updated. -/
  | tempoWindowEnd (counts : Vector Nat 12)
  /-- PACE_MODE_CHANGE (R32): A SYSCTL write whose PACE value differs from the held value sets PACE_BUSY and starts a change
  of mode in every region. -/
  | paceModeChange (by_ : Requester) (v : Word)
  /-- PACE_CHANGE_COMPLETE (R32): Once every region has changed mode, PACE_BUSY clears and SYSSTAT.PACED takes the new mode.
  -/
  | paceChangeComplete
  /-- PACE_LOCK_SET (R34): A write of 1 to SYSCTL.PACE_LOCK freezes PACE until reset. -/
  | paceLockSet (by_ : Requester) (v : Word)
  /-- SYSTEM_PHASE_WRITE (R49): A write to SYSCTL.PHASE changes the system phase, and a reserved encoding leaves it
  unchanged. -/
  | systemPhaseWrite (by_ : Requester) (v : Word)
  /-- PACE_LOST (R35): After PLL A loses lock in paced mode, the regions return to free mode, PACED clears, PACE_LOST sets
  and the pacing line asserts. -/
  | paceLost
  /-- PACE_SLIP (R36): A region that has not finished a step by its allotted grid edge sets SLIP, increments PACE_SLIP.COUNT
  and asserts the pacing line. -/
  | paceSlip (n : Fin 12)
  /-- PACE_SLIP_READ (R17): A read of PACE_SLIP returns the slip count and clears it. -/
  | paceSlipRead (by_ : Requester)
  /-- WAKE_GATE_OPEN (R38): A waiting access to a stopped clock domain proceeds once the domain's clock gate has opened. -/
  | wakeGateOpen
  /-- WAKE_TIMEOUT (R42): A wake request not served within 100 µs reads 0 or drops its write, sets WAKE_TO and pulses line
  402. -/
  | wakeTimeout
  /-- FIFO_RESYNC (R41): When both sides of a pointer-handshake FIFO are out of reset, unread entries are discarded and the
  pointers are realigned to zero. -/
  | fifoResync (f : Fifo)
  /-- TAG_RETURNED (R46): An operation's result is written, it returns its tag, and a holder waiting at its budget may issue
  again. -/
  | tagReturned (h : Fin 70) (ring : Option (Fin 16))
  /-- TAGUSE_READ (R468): A read of TAGUSEh returns the current use and the peak, and clears PEAK. -/
  | taguseRead (by_ : Requester) (h : Fin 70)
  /-- PLL_LOSS (R59): A PLL loses lock: the legs of its timebases go off within 20 ns, those timebases stop, and PLL_LOSS
  and the CLOCK lines assert. -/
  | pllLoss (pllB : Bool)
  /-- PLL_LOCK (R349): A PLL achieves lock, which sets its readiness bit and allows timebases and paced mode to start. -/
  | pllLock (pllB : Bool)
  /-- PERIOD_START (R52): A timebase counter wraps: the pending edges, period, RUN, force and dead-time changes, phase
  discipline and reef ends take effect. -/
  | periodStart (b : Fin 32)
  /-- LOAD_POINT (R72): When the counter reaches P − 3, the next period's edge instants and period are fixed. -/
  | loadPoint (b : Fin 32)
  /-- EDGE_MATCH (R66): At the match instant of edge A or B, the leg's switch command changes and the switch that ends its
  on-time turns off. -/
  | edgeMatch (n : Fin 96) (b : Bool)
  /-- DEADTIME_END (R67): A dead-time elapses and the switch turns on, provided the command is still in the matching state.
  -/
  | deadtimeEnd (n : Fin 96)
  /-- ON_TIME_CUT (R236): A switch reaches its on-time or reef limit, is turned off, and TONCUT or REEFCUT is set. -/
  | onTimeCut (n : Fin 96) (low : Bool)
  /-- COMMIT_CAPTURE (R72): A commit to a compare, phase or period is captured on a timebase tick and governs the current or
  the next period. -/
  | commitCapture (n : Fin 64)
  /-- TB_ENABLE (R57): A write of TBn_CTL.EN from 0 to 1 starts or arms the timebase. -/
  | tbEnable (by_ : Requester) (b : Fin 32) (v : Word)
  /-- TB_DISABLE (R58): A write of TBn_CTL.EN = 0 stops the timebase at once or at the next period start, as STOPMODE gives.
  -/
  | tbDisable (by_ : Requester) (b : Fin 32) (v : Word)
  /-- TBGSTART (R57): A write of 1 to bits of TBGSTART starts the named timebases on one tick. -/
  | tbgstart (by_ : Requester) (v : Word)
  /-- TBGSTOP (R58): A write of 1 to bits of TBGSTOP stops the named timebases. -/
  | tbgstop (by_ : Requester) (v : Word)
  /-- TB_START_TASK (R57): A task of channel STCH starts a timebase that has STEN = 1. -/
  | tbStartTask (ch : Fin 256)
  /-- FOLLOWER_START (R61): A follower waiting with WAIT_SYNC starts at the aligned instant of its leader's period. -/
  | followerStart (b : Fin 32)
  /-- CHAIN_TB_START (R62): A chain-mode timebase waiting for chain time starts its first period at a required period start.
  -/
  | chainTbStart (b : Fin 32)
  /-- EVCMP_MATCH (R92): An enabled TBn_EVCMPk matches, which produces its event, sets EVF and gives direct triggers. -/
  | evcmpMatch (b : Fin 32) (k : Fin 4)
  /-- LEG_RUN_WRITE (R78): A change of LEGn_CTL.RUN, written directly or staged, takes effect at a period start. -/
  | legRunWrite (by_ : Requester) (n : Fin 96) (run : Bool)
  /-- LEG_FORCE_WRITE (R84): A change of LEGn_CTL.FORCE sets the forced state on capture or at the next period start, as
  FSYNC gives. -/
  | legForceWrite (by_ : Requester) (n : Fin 96) (force : Fin 4) (fsync : Bool)
  /-- LEG_COMPARE_WRITE (R77): A register write to LEGn_CMPA, CMPB or PHASE is staged, ignored as owned, or sent to the
  timebase. -/
  | legCompareWrite (by_ : Requester) (n : Fin 96) (which : LegCmp) (v : Word)
  /-- LEGCOMMIT (R77): A write of 1 to bits of LEGCOMMITk commits each named leg's staged values as one commit. -/
  | legcommit (by_ : Requester) (k : Fin 3) (v : Word)
  /-- FORCE_OFF_TASK (R85): A task of channel FOCH with FOEN = 1 puts the leg into EVENT_OFF and sets FOFF. -/
  | forceOffTask (ch : Fin 256)
  /-- FOFF_RELEASE_REQUEST (R85): A write of 1 to LEGn_STAT.FOFF requests release from EVENT_OFF at the next period start.
  -/
  | foffReleaseRequest (by_ : Requester) (n : Fin 96)
  /-- ADC_ENABLE (R101): A write of ADCn_CTL.EN from 0 to 1 starts a continuous converter or arms a triggered one. -/
  | adcEnable (by_ : Requester) (n : Fin 32) (v : Word)
  /-- ADC_DISABLE (R103): A write of ADCn_CTL.EN = 0 stops a continuous converter under STOPMODE or disarms a triggered one.
  -/
  | adcDisable (by_ : Requester) (n : Fin 32) (v : Word)
  /-- ADCGSTART (R102): A write of 1 to bits of ADCGSTART starts the named converters on one AC cycle. -/
  | adcgstart (by_ : Requester) (v : Word)
  /-- ADCGSTOP (R103): A write of 1 to bits of ADCGSTOP stops the named converters. -/
  | adcgstop (by_ : Requester) (v : Word)
  /-- ADC_START_TASK (R101): A task of channel STCH starts a continuous converter that has STEN = 1. -/
  | adcStartTask (ch : Fin 256)
  /-- ADC_HOLD (R100): A converter holds the sample of its current entry and begins conversion. -/
  | adcHold (n : Fin 32) (raw : Int)
  /-- ADC_RESULT_READY (R110): 48 ns after its hold, the corrected result is written to RESk and LAST and presented to the
  loop engines and the capture engine. -/
  | adcResultReady (n : Fin 32)
  /-- ADC_TRIGGER_TASK (R105): A task of channel TCH reaches the converter's timebase as a trigger. -/
  | adcTriggerTask (ch : Fin 256)
  /-- ADC_BUSY_END (R106): The busy period of a triggered converter ends, and a pending trigger starts its pass. -/
  | adcBusyEnd (n : Fin 32)
  /-- ADC_CALIBRATE_START (R116): A write to ADCCALSTART starts calibration of the named idle converters and skips the
  others. -/
  | adcCalibrateStart (by_ : Requester) (v : Word)
  /-- ADC_CALIBRATION_END (R117): 2.4 ms after its start, a calibration passes or fails and sets CALDONE. -/
  | adcCalibrationEnd (n : Fin 32) (gain : Nat) (offset : Int)
  /-- ADC_LAST_READ (R110): A read of ADCn_LAST returns the last result, clears FRESH and latches its timestamp into LTSL
  and LTSH. -/
  | adcLastRead (by_ : Requester) (n : Fin 32)
  /-- ADC_RESULT_READ (R110): A read of ADCn_RESk returns the entry's result and clears FRESH. -/
  | adcResultRead (by_ : Requester) (n : Fin 32) (k : Fin 16)
  /-- LE_STROBE_ARRIVE (R127): A measurement strobe arrives and is discarded by decimation, held, or replaces a held strobe
  with MISS. -/
  | leStrobeArrive (n : Fin 64)
  /-- LE_SAMPLE (R129): An accepted strobe starts a sample that swaps the bank, forms the operands, runs the compensator and
  commits. -/
  | leSample (n : Fin 64)
  /-- LE_WAIT_RESUME (R128): An awaited operand becomes fresh, and the stalled sample continues. -/
  | leWaitResume (n : Fin 64)
  /-- LE_WAIT_TIMEOUT (R128): WAITTO expires, and the sample continues with the stale operand, setting STALE and pulsing the
  error line. -/
  | leWaitTimeout (n : Fin 64)
  /-- LE_ENABLE (R140): A write of LEn_CTL.EN from 0 to 1 checks the slots and takes ownership, or refuses with ENREJ. -/
  | leEnable (by_ : Requester) (n : Fin 64) (v : Word)
  /-- LE_DISABLE (R141): A write of EN = 0 completes or abandons the sample in progress and releases the engine's fields. -/
  | leDisable (by_ : Requester) (n : Fin 64) (v : Word)
  /-- LE_SWAP_REQUEST (R136): A write of 1 to LEn_CMD.SWAP requests a bank swap at the next sample boundary. -/
  | leSwapRequest (by_ : Requester) (n : Fin 64)
  /-- LESWAP (R136): A write of 1 to bits of LESWAPk requests bank swaps for the named engines. -/
  | leswap (by_ : Requester) (k : Fin 2) (v : Word)
  /-- LE_SWAP_TASK (R136): A task of channel SWCH with SWEN = 1 requests a bank swap. -/
  | leSwapTask (ch : Fin 256)
  /-- LE_MREG_WRITE (R124): A write to LEn_MREG is captured and strobes the engine when MSRC selects the register type. -/
  | leMregWrite (by_ : Requester) (n : Fin 64) (v : Word)
  /-- LE_REF_WRITE (R124): A write to LEn_REF is captured as the reference operand and strobes it. -/
  | leRefWrite (by_ : Requester) (n : Fin 64) (v : Word)
  /-- LE_FREG_WRITE (R124): A write to LEn_FREG is captured as the feed-forward operand and strobes it. -/
  | leFregWrite (by_ : Requester) (n : Fin 64) (v : Word)
  /-- LE_MEMORY_WRITE (R135): A write to loop engine memory updates the shadow bank or the state, or is ignored with ACTWR
  or CFG_REJ. -/
  | leMemoryWrite (by_ : Requester) (n k : Fin 64) (v : Word)
  /-- CMP_RAW_CHANGE (R155): A comparator's raw output changes, which reaches the trip path, is stamped on the digital path
  and may set WAKEF. -/
  | cmpRawChange (n : Fin 64) (v : Int × Int) (t : Nat)
  /-- CMP_FILTER_CHANGE (R157): A change of X that held through the filter run changes F, Q and WOUT, with counts, events
  and captures on its ready tick. -/
  | cmpFilterChange (n : Fin 64)
  /-- BLANK_WINDOW_CLOSE (R158): A blanking window ends or reaches the shroud's maximum, and Q or the trip path takes the
  live value again. -/
  | blankWindowClose (n : Fin 64) (trip : Bool)
  /-- CMP_ENABLE (R163): A comparator's digital path starts with F and Q set to X, and nothing is stamped or counted. -/
  | cmpEnable (by_ : Requester) (n : Fin 64) (v : Word)
  /-- CMP_CAP_READ (R162): A read of CMPn_CAP returns the capture, clears FRESH and latches its stamp into CTSL and CTSH. -/
  | cmpCapRead (by_ : Requester) (n : Fin 64)
  /-- POS_INPUT_CHANGE (R168): A filtered quadrature or Hall input change counts a step, is detected as illegal, or gives an
  index. -/
  | posInputChange (n : Fin 8) (a b z : Bool) (t : Nat × Nat)
  /-- POS_TRIGGER_TASK (R172): A task of channel TCH reaches the position channel as a trigger. -/
  | posTriggerTask (ch : Fin 256)
  /-- POS_FRAME_START (R174): A triggered serial frame starts once the data ball is high, POSnC goes low and the update
  stamp is taken. -/
  | posFrameStart (n : Fin 8) (t : Nat)
  /-- POS_FRAME_CHECK (R175): Two ticks after the last bit, the frame is checked and either updates the position or counts
  an error. -/
  | posFrameCheck (n : Fin 8) (hi lo : Word) (cds nE nW : Bool) (crc : BitVec 6) (par : Bool)
  /-- POS_FRAME_TIMEOUT (R177): A frame not finished within STIME.TMO is abandoned with ERR_TIMEOUT. -/
  | posFrameTimeout (n : Fin 8)
  /-- POS_SPEED_TIMEOUT (R173): No counted step within SPDTO sets the speed to 0 and sets SPDZERO. -/
  | posSpeedTimeout (n : Fin 8)
  /-- POS_ENABLE (R180): Enabling a position channel clears POS, REV and SPD and takes the current inputs as the reference.
  -/
  | posEnable (by_ : Requester) (n : Fin 8) (v : Word)
  /-- POS_UPOS_READ (R172): A read of POSn_UPOS latches UREV, USPD, UTSL and UTSH of the same update. -/
  | posUposRead (by_ : Requester) (n : Fin 8)
  /-- PRODUCER_EVENT (R188): A producer presents an event to the fabric, held or merged if it comes too soon after the
  previous one. -/
  | producerEvent (p : Fin 512)
  /-- HOLDOFF_END (R190): A channel's holdoff ends and a pending activation issues. -/
  | holdoffEnd (ch : Fin 256)
  /-- SWTRIG (R187): A write of 1 to SWTRIG bits fires software producers, with bits 8–15 refused except from S. -/
  | swtrig (by_ : Requester) (v : Word)
  /-- CHANNEL_WRITE (R196): A write to CHc_ENk or CHc_CTL takes effect only from the channel's owner, or sets OWNREJ or
  SECREJ. -/
  | channelWrite (by_ : Requester) (ch : Fin 256) (part : ChanPart) (v : Word)
  /-- QUEUE_RECORD (R206): A pending source is written as a record into its target's ring once the occupancy is below the
  limit. -/
  | queueRecord (c : Fin 5)
  /-- ICEOI (R203): A write to ICEOIc completes the top stack entry and resamples its source, or raises a stack error. -/
  | iceoi (by_ : Requester) (c : Fin 5) (v : Word)
  /-- ICQDONE (R210): A write to ICQDONEc makes a queued source idle and resamples it. -/
  | icqdone (by_ : Requester) (c : Fin 5) (v : Word)
  /-- ICQRD_WRITE (R206): A write to ICQRDc consumes records, so that held sources may be recorded. -/
  | icqrdWrite (by_ : Requester) (c : Fin 5) (v : Word)
  /-- IC_TARGET_ENABLE (R205): A write of ICCFGc.EN = 1 enables a target after checking its ring in queue mode. -/
  | icTargetEnable (by_ : Requester) (c : Fin 5) (v : Word)
  /-- ICENSET (R200): A write of 1 to bits of ICENSETk sets those source enables. -/
  | icenset (by_ : Requester) (k : Fin 12) (v : Word)
  /-- ICENCLR (R200): A write of 1 to bits of ICENCLRk clears those source enables. -/
  | icenclr (by_ : Requester) (k : Fin 12) (v : Word)
  /-- ISWSET (R198): A write of 1 to bits of ISWSET asserts software interrupt sources. -/
  | iswset (by_ : Requester) (v : Word)
  /-- ISWCLR (R198): A write of 1 to bits of ISWCLR deasserts software interrupt sources. -/
  | iswclr (by_ : Requester) (v : Word)
  /-- MODERATION_TIMEOUT (R211): A moderation window's time expires, and the withheld requests become presentable. -/
  | moderationTimeout (c : Fin 5)
  /-- FAULT_OCCURRENCE (R224): An unmasked error line occurrence opens or escalates its class, takes the level's actions and
  appends a record. -/
  | faultOccurrence
  /-- FACK (R226): A write of 1 to bits of FACK closes those classes, or refuses with ACKREJ. -/
  | fack (by_ : Requester) (v : Word)
  /-- SHREL (R229): A write of 1 to bits of SHRELk releases the named legs from HELD if every holding class is closed. -/
  | shrel (by_ : Requester) (k : Fin 3) (v : Word)
  /-- SHGATE_WRITE (R230): A write to SHGATE.EN drives GATE_ENk, or refuses a 1 with GATEREJ. -/
  | shgateWrite (by_ : Requester) (v : Word)
  /-- FRECPOP (R231): A write to FRECPOP removes the oldest fault record, or sets POPEMPTY. -/
  | frecpop (by_ : Requester) (v : Word)
  /-- COMPARATOR_TRIP (R237): A tripping condition held for the qualification time turns off every leg in the comparator's
  row and holds them. -/
  | comparatorTrip (m : Fin 64)
  /-- TOLL_TOGGLE (R239): Every 50 µs the TOLL ball toggles if every condition holds, and otherwise the toggle is missed. -/
  | tollToggle
  /-- TOLLFEED (R239): A write to TOLLFEED feeds the TOLL ball for the next toggle. -/
  | tollfeed (by_ : Requester) (v : Word)
  /-- WATCHDOG_ENABLE (R240): A write of 1 to WDn_CTL.EN starts the watchdog. -/
  | watchdogEnable (by_ : Requester) (n : Fin 5) (v : Word)
  /-- WATCHDOG_FEED (R240): A key write to WDn_FEED advances or breaks the feed sequence, and a completed feed restarts the
  count. -/
  | watchdogFeed (by_ : Requester) (n : Fin 5) (v : Word)
  /-- WATCHDOG_WARN (R240): The watchdog count reaches half its timeout and sets WARN. -/
  | watchdogWarn (n : Fin 5)
  /-- WATCHDOG_EXPIRY (R240): The watchdog count reaches TIMEOUT, or a feed comes early, and the device sets EXP, pulses the
  line and resets the core. -/
  | watchdogExpiry (n : Fin 5)
  /-- THERMAL_WARNING (R241): A die sensor reaches 135 °C, which asserts line 472 and sets WARNF. -/
  | thermalWarning (hot : Byte)
  /-- THERMAL_SHUTDOWN (R242): A die sensor reaches 150 °C, which raises class THERM to level 5 and plant-trips the device
  at once. -/
  | thermalShutdown
  /-- LOCKDOWN_COMPLETE (R242): Once the flash engine has stopped after a shutdown, the rest of lockdown follows. -/
  | lockdownComplete
  /-- SUPPLY_THRESHOLD_CROSS (R220): A supply rail crosses its monitor threshold and asserts its SUPPLY line. -/
  | supplyThresholdCross (k : Fin 8) (rail : Rail)
  /-- REFERENCE_LOST (R222): The 25 MHz reference has no edge for 2 AON cycles: line 405 asserts and the collector falls
  back to AON. -/
  | referenceLost
  /-- ADD (R263): Instruction ADD adds, with flags. -/
  | add (c : Fin 5) (p : Pre) (a : Fin 16) (b : AluB)
  /-- SUB (R263): Instruction SUB subtracts, with flags. -/
  | sub (c : Fin 5) (p : Pre) (a : Fin 16) (b : AluB)
  /-- AND (R263): Instruction AND computes a bitwise AND. -/
  | and (c : Fin 5) (p : Pre) (a : Fin 16) (b : AluB)
  /-- OR (R263): Instruction OR computes a bitwise OR. -/
  | or (c : Fin 5) (p : Pre) (a : Fin 16) (b : AluB)
  /-- XOR (R263): Instruction XOR computes a bitwise XOR. -/
  | xor (c : Fin 5) (p : Pre) (a : Fin 16) (b : AluB)
  /-- CMP (R263): Instruction CMP compares by subtraction and sets only the flags. -/
  | cmp (c : Fin 5) (p : Pre) (a : Fin 16) (b : AluB)
  /-- MOV (R263): Instruction MOV moves an operand into A. -/
  | mov (c : Fin 5) (p : Pre) (a : Fin 16) (b : AluB)
  /-- TST (R263): Instruction TST ANDs and sets only the flags. -/
  | tst (c : Fin 5) (p : Pre) (a : Fin 16) (b : AluB)
  /-- ADDV (R270): Instruction ADDV is a checked add that may raise OV. -/
  | addv (c : Fin 5) (p : Pre) (a : Fin 16) (b : AluB)
  /-- SUBV (R270): Instruction SUBV is a checked subtract that may raise OV. -/
  | subv (c : Fin 5) (p : Pre) (a : Fin 16) (b : AluB)
  /-- ADDSAT (R263): Instruction ADDSAT is a saturating add. -/
  | addsat (c : Fin 5) (p : Pre) (a : Fin 16) (b : AluB)
  /-- SUBSAT (R263): Instruction SUBSAT is a saturating subtract. -/
  | subsat (c : Fin 5) (p : Pre) (a : Fin 16) (b : AluB)
  /-- LD (R265): Instruction LD loads from memory with zero extension. -/
  | ld (c : Fin 5) (p : Pre) (a : Fin 16) (m : MemForm)
  /-- ST (R265): Instruction ST stores to memory. -/
  | st (c : Fin 5) (p : Pre) (a : Fin 16) (m : MemForm)
  /-- LDS (R265): Instruction LDS loads from memory with sign extension. -/
  | lds (c : Fin 5) (p : Pre) (a : Fin 16) (m : MemForm)
  /-- XCHG (R265): Instruction XCHG exchanges a register with memory indivisibly. -/
  | xchg (c : Fin 5) (p : Pre) (a b : Fin 16) (disp : BitVec 8)
  /-- SHL (R267): Instruction SHL shifts left. -/
  | shl (c : Fin 5) (p : Pre) (a : Fin 16) (k : ShiftBy)
  /-- SHR (R267): Instruction SHR shifts right logically. -/
  | shr (c : Fin 5) (p : Pre) (a : Fin 16) (k : ShiftBy)
  /-- SAR (R267): Instruction SAR shifts right arithmetically. -/
  | sar (c : Fin 5) (p : Pre) (a : Fin 16) (k : ShiftBy)
  /-- ROR (R267): Instruction ROR rotates right. -/
  | ror (c : Fin 5) (p : Pre) (a : Fin 16) (k : ShiftBy)
  /-- NEG (R266): Instruction NEG negates. -/
  | neg (c : Fin 5) (p : Pre) (a b : Fin 16)
  /-- NOT (R266): Instruction NOT inverts the bits. -/
  | not (c : Fin 5) (p : Pre) (a b : Fin 16)
  /-- CLZ (R266): Instruction CLZ counts leading zeros. -/
  | clz (c : Fin 5) (p : Pre) (a b : Fin 16)
  /-- SXT (R266): Instruction SXT sign-extends. -/
  | sxt (c : Fin 5) (p : Pre) (a b : Fin 16)
  /-- BFX (R267): Instruction BFX extracts a bit field. -/
  | bfx (c : Fin 5) (p : Pre) (a b : Fin 16) (imm : BitVec 16)
  /-- BFI (R267): Instruction BFI inserts a bit field. -/
  | bfi (c : Fin 5) (p : Pre) (a b : Fin 16) (imm : BitVec 16)
  /-- BPERM (R267): Instruction BPERM permutes bytes. -/
  | bperm (c : Fin 5) (p : Pre) (a b : Fin 16) (imm : Byte)
  /-- MUL (R268): Instruction MUL starts a signed multiply into MH:ML. -/
  | mul (c : Fin 5) (p : Pre) (a b : Fin 16)
  /-- MULU (R268): Instruction MULU starts an unsigned multiply into MH:ML. -/
  | mulu (c : Fin 5) (p : Pre) (a b : Fin 16)
  /-- MAC (R268): Instruction MAC starts a signed multiply-accumulate. -/
  | mac (c : Fin 5) (p : Pre) (a b : Fin 16)
  /-- MACU (R268): Instruction MACU starts an unsigned multiply-accumulate. -/
  | macu (c : Fin 5) (p : Pre) (a b : Fin 16)
  /-- PRODUCT_WRITE (R269): A multiplier instruction writes MH:ML 3 steps after it starts. -/
  | productWrite (c : Fin 5)
  /-- QRD (R268): Instruction QRD rounds and saturates MH:ML into a Q2.30 register. -/
  | qrd (c : Fin 5) (p : Pre) (a : Fin 16)
  /-- MWAIT (R268): Instruction MWAIT waits for earlier multiplier results. -/
  | mwait (c : Fin 5) (p : Pre)
  /-- DIV (R270): Instruction DIV starts a signed divide into DQ and DM. -/
  | div (c : Fin 5) (p : Pre) (a b : Fin 16)
  /-- DIVU (R270): Instruction DIVU starts an unsigned divide into DQ and DM. -/
  | divu (c : Fin 5) (p : Pre) (a b : Fin 16)
  /-- DIVIDE_COMPLETE (R270): A divide writes DQ and DM after 6 + ⌈q/2⌉ steps. -/
  | divideComplete (c : Fin 5)
  /-- SPRD (R252): Instruction SPRD reads a special register. -/
  | sprd (c : Fin 5) (p : Pre) (a : Fin 16) (num : Byte)
  /-- SPWR (R252): Instruction SPWR writes a special register. -/
  | spwr (c : Fin 5) (p : Pre) (a : Fin 16) (num : Byte)
  /-- MOVSG (R305): Instruction MOVSG loads a segment register through the table walk. -/
  | movsg (c : Fin 5) (p : Pre) (a : Fin 16) (sg : Seg)
  /-- MOVGS (R271): Instruction MOVGS reads a segment selector. -/
  | movgs (c : Fin 5) (p : Pre) (a : Fin 16) (sg : Seg)
  /-- BCC (R273): Instruction Bcc branches relative if its condition holds. -/
  | bcc (c : Fin 5) (p : Pre) (k : Cond) (disp : Disp)
  /-- JMP (R273): Instruction JMP jumps relative. -/
  | jmp (c : Fin 5) (p : Pre) (disp : BitVec 16)
  /-- JMPR (R273): Instruction JMPR jumps to a register target. -/
  | jmpr (c : Fin 5) (p : Pre) (a : Fin 16)
  /-- CALL (R273): Instruction CALL pushes the return offset and jumps relative. -/
  | call (c : Fin 5) (p : Pre) (disp : BitVec 16)
  /-- CALLR (R273): Instruction CALLR pushes the return offset and jumps to a register target. -/
  | callr (c : Fin 5) (p : Pre) (a : Fin 16)
  /-- RET (R273): Instruction RET pops an offset and jumps to it. -/
  | ret (c : Fin 5) (p : Pre)
  /-- JMPF (R273): Instruction JMPF loads CS and jumps. -/
  | jmpf (c : Fin 5) (p : Pre) (imm : Word)
  /-- CALLF (R273): Instruction CALLF pushes CS and the offset, then loads CS and jumps. -/
  | callf (c : Fin 5) (p : Pre) (imm : Word)
  /-- RETF (R273): Instruction RETF pops the offset and the selector and loads CS. -/
  | retf (c : Fin 5) (p : Pre)
  /-- LOOP (R283): Instruction LOOP decrements and branches, and may fill the loop buffer. -/
  | loop (c : Fin 5) (p : Pre) (a : Fin 16) (disp : BitVec 8)
  /-- PUSH (R274): Instruction PUSH pushes a register onto the stack. -/
  | push (c : Fin 5) (p : Pre) (a : Fin 16)
  /-- POP (R274): Instruction POP pops a register from the stack. -/
  | pop (c : Fin 5) (p : Pre) (a : Fin 16)
  /-- NOP (R275): Instruction NOP does nothing. -/
  | nop (c : Fin 5) (p : Pre)
  /-- WAIT (R293): Instruction WAIT stops issuing until a request, a floating-point exception or a halt arrives. -/
  | wait (c : Fin 5) (p : Pre)
  /-- RETL (R290): Instruction RETL restores PSW and CS from the save registers and signals the return to the controller. -/
  | retl (c : Fin 5) (p : Pre)
  /-- TRAP (R287): Instruction TRAP enters level 0 with a software trap. -/
  | trap (c : Fin 5) (p : Pre) (imm : Byte)
  /-- SYNC (R257): Instruction SYNC waits for all earlier accesses to complete. -/
  | sync (c : Fin 5) (p : Pre)
  /-- FBAR (R278): Instruction FBAR waits for earlier floating-point instructions and their flags. -/
  | fbar (c : Fin 5) (p : Pre)
  /-- FADD (R277): Instruction FADD adds in binary32. -/
  | fadd (c : Fin 5) (p : Pre) (a b : Fin 8)
  /-- FSUB (R277): Instruction FSUB subtracts in binary32. -/
  | fsub (c : Fin 5) (p : Pre) (a b : Fin 8)
  /-- FMUL (R277): Instruction FMUL multiplies in binary32. -/
  | fmul (c : Fin 5) (p : Pre) (a b : Fin 8)
  /-- FDIV (R277): Instruction FDIV divides in binary32. -/
  | fdiv (c : Fin 5) (p : Pre) (a b : Fin 8)
  /-- FSQRT (R277): Instruction FSQRT takes a binary32 square root. -/
  | fsqrt (c : Fin 5) (p : Pre) (a b : Fin 8)
  /-- FCMP (R277): Instruction FCMP compares floating-point values into the PSW flags. -/
  | fcmp (c : Fin 5) (p : Pre) (a b : Fin 8)
  /-- FMOV (R276): Instruction FMOV copies an F register. -/
  | fmov (c : Fin 5) (p : Pre) (a b : Fin 8)
  /-- FNEG (R276): Instruction FNEG inverts the sign. -/
  | fneg (c : Fin 5) (p : Pre) (a b : Fin 8)
  /-- FABS (R276): Instruction FABS clears the sign. -/
  | fabs (c : Fin 5) (p : Pre) (a b : Fin 8)
  /-- CVTIF (R277): Instruction CVTIF converts an integer to binary32. -/
  | cvtif (c : Fin 5) (p : Pre) (a : Fin 8) (b : Fin 16)
  /-- CVTFI (R277): Instruction CVTFI converts binary32 to an integer toward zero. -/
  | cvtfi (c : Fin 5) (p : Pre) (a : Fin 16) (b : Fin 8)
  /-- CVTQF (R277): Instruction CVTQF converts Q2.30 to binary32. -/
  | cvtqf (c : Fin 5) (p : Pre) (a : Fin 8) (b : Fin 16)
  /-- CVTFQ (R277): Instruction CVTFQ converts binary32 to Q2.30 with saturation. -/
  | cvtfq (c : Fin 5) (p : Pre) (a : Fin 16) (b : Fin 8)
  /-- FMOVWF (R276): Instruction FMOVWF copies W bits into an F register. -/
  | fmovwf (c : Fin 5) (p : Pre) (a : Fin 8) (b : Fin 16)
  /-- FMOVFW (R276): Instruction FMOVFW copies F bits into a W register. -/
  | fmovfw (c : Fin 5) (p : Pre) (a : Fin 16) (b : Fin 8)
  /-- FLD (R276): Instruction FLD loads an F register. -/
  | fld (c : Fin 5) (p : Pre) (a : Fin 8) (m : MemForm)
  /-- FST (R276): Instruction FST stores an F register. -/
  | fst (c : Fin 5) (p : Pre) (a : Fin 8) (m : MemForm)
  /-- ADC (R279): Instruction ADC adds with carry. -/
  | adc (c : Fin 5) (p : Pre) (a b : Fin 16)
  /-- SBC (R279): Instruction SBC subtracts with borrow. -/
  | sbc (c : Fin 5) (p : Pre) (a b : Fin 16)
  /-- PICK (R279): Instruction PICK selects a value by condition without a branch. -/
  | pick (c : Fin 5) (p : Pre) (a b : Fin 16) (imm : Byte)
  /-- STI (R279): Instruction STI stores an immediate to memory. -/
  | sti (c : Fin 5) (p : Pre) (b : Fin 16) (disp : Disp) (v : Word)
  /-- ILLEGAL_INSTRUCTION (R261): An unassigned opcode or an illegal prefix or operand combination raises IL. -/
  | illegalInstruction (c : Fin 5)
  /-- INTERRUPT_ENTRY (R288): After draining at a boundary, the core accepts a presented request, saves its state and enters
  the level's handler. -/
  | interruptEntry (c : Fin 5)
  /-- FP_EXCEPTION_ENTRY (R292): A pending enabled floating-point exception is taken at a boundary, entering k = 12. -/
  | fpExceptionEntry (c : Fin 5)
  /-- CORE_HALT (R294): On a halt request, the core drains at its next boundary, stops and sets CORESTAT.HALTED. -/
  | coreHalt (c : Fin 5)
  /-- VECSEL_WRITE (R299): A write to VECSELc takes effect only from core c or from S, and otherwise sets VSREJ. -/
  | vecselWrite (by_ : Requester) (c : Fin 5) (v : Word)
  /-- PATROL_READ (R318): Every INTERVAL × 100 ns the patrol reads one line and corrects or reports its errors. -/
  | patrolRead
  /-- SRAM_SCRUB_DONE (R317): The reset scrub of SRAM and loop engine memory ends and sets READY0.SRAM. -/
  | sramScrubDone
  /-- REMAP_WRITE (R320): A write to REMAPb_e starts the copy of a line to its spare, or refuses with REMAPREJ. -/
  | remapWrite (by_ : Requester) (b : Fin 8) (e : Fin 16) (v : Word)
  /-- REMAP_COPY_DONE (R320): A remap copy ends, V sets and REMAPDONE sets. -/
  | remapCopyDone
  /-- RAW_READ (R321): MEMTCMD = 0b01 reads a word raw into MEMTDATA and MEMTCHK. -/
  | rawRead (by_ : Requester)
  /-- RAW_WRITE (R321): MEMTCMD = 0b10 writes MEMTDATA and check bits raw, from S or the host only. -/
  | rawWrite (by_ : Requester)
  /-- FLASH_CLAIM (R330): A write of 1 to FLCLAIM.CLAIM makes the writer owner of the flash engine, or sets CLAIMREJ. -/
  | flashClaim (by_ : Requester)
  /-- FLASH_RELEASE (R330): A write of 1 to FLCLAIM.REL by the owner releases the flash engine. -/
  | flashRelease (by_ : Requester)
  /-- PROGRAM (R331): FLCMD operation PROGRAM programs a 128-bit word, or is refused. -/
  | program (by_ : Requester)
  /-- ERASE (R331): FLCMD operation ERASE erases a sector, marking it in FLEIC, or is refused. -/
  | erase (by_ : Requester)
  /-- VERIFY (R331): FLCMD operation VERIFY checks COUNT words at a margin. -/
  | verify (by_ : Requester) (margin : Fin 4) (count : BitVec 16)
  /-- EVALCAL (R338): FLCMD operation EVALCAL evaluates the user calibration slots. -/
  | evalcal (by_ : Requester)
  /-- FLASH_OPERATION_END (R332): A flash operation ends: BUSY clears, DONE and RESULT are written, and slots are re-
  evaluated where due. -/
  | flashOperationEnd (ok : Bool) (weak : List Nat)
  /-- FLASH_INIT_DONE (R336): After reset, the factory row check, remap load, FLEIC scan and slot evaluation complete, and
  FLASH and THERM set. -/
  | flashInitDone
  /-- POWER_ON_RESET (R344): A supply falls below its power-on threshold and holds the whole device in POR. -/
  | powerOnReset
  /-- POR_RELEASE (R343): Every supply has stayed above its threshold for 200 µs and POR ends. -/
  | porRelease (head : Bool)
  /-- PIN_RESET (R345): RST_N low for at least 1 µs, or TEST_EN high, resets the device. -/
  | pinReset
  /-- DEVICE_RESET_REQUEST (R346): RSTCTL.DEVRST with the key from S or the host starts a software device reset. -/
  | deviceResetRequest (by_ : Requester) (key : Byte)
  /-- CORE_RESET_REQUEST (R346): RSTCTL.CORERST with the key resets the named cores. -/
  | coreResetRequest (by_ : Requester) (v : Word)
  /-- CORERUN_WRITE (R347): A write to CORERUN holds helm cores in reset or releases them. -/
  | corerunWrite (by_ : Requester) (v : Word)
  /-- CORE_RESET_END (R347): A core reset ends and the core restarts from the boot ROM. -/
  | coreResetEnd (c : Fin 5)
  /-- SHROUD_READY (R349): The shroud, fabric and AON become ready, the legs are driven off, RSTOUT_N rises and S enters the
  boot ROM. -/
  | shroudReady
  /-- ANALOG_READY (R349): The VDDA bias settles and sets READY0.ANALOG. -/
  | analogReady
  /-- BOOT_ROM_RUN (R352): Once FLASH and SRAM are ready, the boot ROM verifies the candidate images, commits the policy and
  starts the cores, or enters recovery. -/
  | bootRomRun
  /-- TEST_RESET (R343): TRST low resets the test access port. -/
  | testReset
  /-- IO_BANK_LATCH (R450): 1 ms after a bank's VIO rises, its voltage class latches and IOSTAT.PRESENT sets. -/
  | ioBankLatch (k : Fin 4) (v33 : Bool)
  /-- PORT_TRAINED (R378): A link port trains: its READY2 bit sets, LSTAT(1) is broadcast and delay measurement starts. -/
  | portTrained (p : Fin 2) (inv : Fin 4) (skew : Byte)
  /-- PORT_DOWN (R377): A trained port goes down: its frames are discarded, its line asserts and LSTAT(0) is broadcast. -/
  | portDown (p : Fin 2)
  /-- LINK_ERROR_WINDOW (R364): At the end of each 1 ms window, a port whose code errors exceed ERRTH goes down. -/
  | linkErrorWindow (p : Fin 2) (errs : Nat)
  /-- TIME_FRAME (R384): A usable time frame received steps, rate-corrects or validates the unit's device time. -/
  | timeFrame (p : Fin 2) (t tx : Nat) (v back : Bool) (hops : Nat) (tail : Byte × BitVec 16)
  /-- TIME_FRAME_SEND (R383): Every SYNCINT µs a HEAD or TRACK unit sends a time frame on each trained port. -/
  | timeFrameSend
  /-- DREQ (R382): A received DREQ is stamped and answered by DRSP; or a control frame of an unlisted TYPE is received (R366). -/
  | dreq (p : Fin 2) (t : Nat) (tail : BitVec 16 × Option (Byte × List Byte))
  /-- DRSP (R382): A received DRSP completes a delay exchange, and after 16 exchanges OUT, IN and DVALID are set. -/
  | drsp (p : Fin 2) (t t2 t3 : Nat) (sum : BitVec 16)
  /-- DELAY_EXCHANGE (R382): A port sends DREQ on its delay-measurement schedule. -/
  | delayExchange (p : Fin 2)
  /-- DELAY_EXCHANGE_TIMEOUT (R382): A DRSP not received within 20 µs ends the exchange unused. -/
  | delayExchangeTimeout (p : Fin 2)
  /-- ENUM (R373): A received ENUM assigns the unit's address and is passed on, answered with ENUM_DONE, or closes the ring
  at the head. -/
  | enum (p : Fin 2) (n : Nat) (tail : Byte × BitVec 16)
  /-- ENUM_DONE (R373): A received ENUM_DONE sets COUNT, RING and READY2.ENUM and is forwarded toward the head. -/
  | enumDone (p : Fin 2) (count : Nat) (ring ovr : Bool) (sum : BitVec 16)
  /-- LSTAT (R377): A consumed LSTAT records or clears a break and may start enumeration at the head. -/
  | lstat (p : Fin 2) (addr port state : Nat) (sum : BitVec 16)
  /-- LOCKDOWN_FRAME (R379): A consumed LOCKDOWN frame sets LDNRX, writes LNKLDN and pulses line 460. -/
  | lockdownFrame (p : Fin 2) (addr cls time : Nat) (sum : BitVec 16)
  /-- PACKET_FRAME (R375): A packet frame is consumed, forwarded, broadcast, dropped for want of room or discarded for want
  of a route. -/
  | packetFrame (p : Fin 2) (dst src kind crc : Option Byte) (bytes : List Byte) (aborted : Bool)
  /-- PACKET_PAD_TIMEOUT (R370): More than 20 µs without a packet byte aborts the frame with ABORT. -/
  | packetPadTimeout (p : Fin 2) (dst src kind crc : Option Byte) (bytes : List Byte)
  /-- CHAIN_TIME_TIMEOUT (R385): No usable time frame for HOLDTO × SYNCINT makes chain time invalid and sets ACQUIRE. -/
  | chainTimeTimeout
  /-- ENUM_START (R373): A write of 1 to LNKTCMD.ENUM on the head starts enumeration. -/
  | enumStart (by_ : Requester)
  /-- DELAY_MEASURE_START (R382): A write of 1 to LNKTCMD.DMEAS restarts the 16-exchange measurement on both ports. -/
  | delayMeasureStart (by_ : Requester)
  /-- LNKTIMEL_READ (R390): A read of LNKTIMEL returns device time bits [31:0] and latches LNKTIMEH. -/
  | lnktimelRead (by_ : Requester)
  /-- STATUS (R399): Command STATUS returns the readiness words, IDENT, FSUM, BOOTSTAT and LNKADDR. -/
  | status
  /-- READ (R400): Command READ reads one register word as the host. -/
  | read
  /-- WRITE (R400): Command WRITE writes one register word as the host. -/
  | write
  /-- READ_BLOCK (R400): Command READ_BLOCK reads N bytes word by word. -/
  | readBlock
  /-- WRITE_BLOCK (R400): Command WRITE_BLOCK writes n words in ascending order. -/
  | writeBlock
  /-- ENUMERATE (R401): Command ENUMERATE starts enumeration on the head and replies when it completes. -/
  | enumerate
  /-- ENUMERATE_TIMEOUT (R401): An ENUMERATE not completed within 10 ms replies TIMEOUT. -/
  | enumerateTimeout
  /-- TIME_SYNC (R399): Command TIME_SYNC returns the device time at capture together with LNKTSTAT and LNKSTAT. -/
  | timeSync
  /-- SNAPSHOT (R401): Command SNAPSHOT makes a snapshot in each named running ring set. -/
  | snapshot
  /-- CALIBRATE (R401): Command CALIBRATE requests calibration of masked converters and replies with pass, fail and skip
  masks. -/
  | calibrate
  /-- IMAGE_CHUNK (R402): Command IMAGE_CHUNK erases where needed and programs a chunk of image into a bank. -/
  | imageChunk
  /-- IMAGE_COMMIT (R403): Command IMAGE_COMMIT asks S to verify a bank and replies with the result. -/
  | imageCommit
  /-- TK_STAGE_COMMAND (R428): Command TK_STAGE adds a stage entry and replies with the nonce, TK_PENDING or TK_REFUSED. -/
  | tkStageCommand
  /-- BAD_OPCODE (R394): A packet with opcode 0xFF or an unassigned hardware opcode is answered BAD_OPCODE. -/
  | badOpcode
  /-- FIRMWARE_OPCODE (R404): A command with opcode 0x80–0xFE is copied to FWCMDBUF for firmware, or answered NO_FIRMWARE or
  BUSY. -/
  | firmwareOpcode
  /-- FWRPL (R404): A write to FWRPL builds the firmware reply and clears PEND, or is refused. -/
  | fwrpl (by_ : Requester) (v : Word)
  /-- FIRMWARE_TIMEOUT (R404): FWTMO expiring without FWRPL replies FW_TIMEOUT and sets TMOF. -/
  | firmwareTimeout
  /-- RECOVERY_RESET (R403): After an OK IMAGE_COMMIT in recovery, a software device reset follows the reply. -/
  | recoveryReset
  /-- DOORBELL (R409): A write to HDBELL delivers the mailbox packet to the interpreter, or sets DBREJ. -/
  | doorbell (by_ : Requester) (count : BitVec 11)
  /-- HRACK (R409): A write to HRACK releases the mailbox reply and loads the next one. -/
  | hrack (by_ : Requester) (v : Word)
  /-- SPI_CMD_FRAME (R410): SPI frame code 0x01 receives command packets back to back. -/
  | spiCmdFrame (bytes : List Byte)
  /-- SPI_RPL_FRAME (R410): SPI frame code 0x02 shifts out the reply at the head of the SPI queue. -/
  | spiRplFrame (whole : Bool)
  /-- SPI_STAT_FRAME (R410): SPI frame code 0x03 shifts out SPISTAT. -/
  | spiStatFrame
  /-- SPI_GAP_TIMEOUT (R395): A 20 µs gap inside a packet discards it, replying TRUNCATED after a good header. -/
  | spiGapTimeout
  /-- SPI_CS_RISE (R395): A rise of CS_N inside a packet discards the partial packet. -/
  | spiCsRise
  /-- PCIE_INBOUND_REQUEST (R407): A BAR0 or BAR2 request is served as host register or memory accesses. -/
  | pcieInboundRequest (req : Inbound)
  /-- OUTBOUND_COMPLETION (R408): A completion for an outbound read returns its data, or signals failure or poison. -/
  | outboundCompletion (c : Fin 5) (v : Word) (ok poison : Bool)
  /-- OUTBOUND_READ_TIMEOUT (R408): An outbound read without a completion within 50 µs returns 0xFFFF_FFFF with OBERR. -/
  | outboundReadTimeout (c : Fin 5)
  /-- PCIE_LINK_UP (R406): The PCIe link enters L0 and sets READY0.PCIE. -/
  | pcieLinkUp (speed : Fin 5) (width : Fin 3)
  /-- PCIE_LINK_DOWN (R423): The PCIe link leaves L0, clearing READY0.PCIE and asserting line 467. -/
  | pcieLinkDown
  /-- PCIE_RESET (R460): PERST_N low holds the PCIe endpoint in reset. -/
  | pcieReset (low : Bool)
  /-- CAPTURE_ENABLE (R417): A write of CAPRr_CTL.EN from 0 to 1 checks and copies the descriptors and arms the ring set, or
  sets BADDESC. -/
  | captureEnable (by_ : Requester) (r : Fin 16) (v : Word)
  /-- CAPTURE_DISABLE (R421): A write of EN = 0 stops the ring set, writes a RUN record and clears ARMED. -/
  | captureDisable (by_ : Requester) (r : Fin 16) (v : Word)
  /-- CAPTURE_FLUSH (R413): FLUSHUS after its first record, a partial line is padded and written. -/
  | captureFlush (r : Fin 16)
  /-- CAPTURE_START_TASK (R421): A task of channel STCH starts an armed ring set with a RUN record. -/
  | captureStartTask (ch : Fin 256)
  /-- CAPTURE_STOP_TASK (R421): A task of channel SPCH stops a ring set and flushes its line. -/
  | captureStopTask (ch : Fin 256)
  /-- CAPTURE_SNAPSHOT_TASK (R421): A task of channel SNCH makes a snapshot and writes a SNAP record. -/
  | captureSnapshotTask (ch : Fin 256)
  /-- TK_STAGE_WRITE (R428): A write to TK_STAGE adds an entry at TK_SADDR to the stage, or refuses it with BUSYREJ or SREJ.
  -/
  | tkStageWrite (by_ : Requester) (v : Word)
  /-- NONCE_READY (R429): The nonce computation ends, TK_NONCE is written with VALID, and waiting commit writes are
  compared. -/
  | nonceReady
  /-- TK_COMMIT_A (R430): S writes the nonce as party A, sealing the stage and completing the commit if party B has
  confirmed. -/
  | tkCommitA (by_ : Requester) (v : Word)
  /-- TK_COMMIT_B (R430): Party B writes the nonce, sealing the stage and completing the commit if party A has confirmed. -/
  | tkCommitB (by_ : Requester) (v : Word)
  /-- TK_CLEAR (R431): A write to TK_CLEAR by the opener, S or party B discards the stage. -/
  | tkClear (by_ : Requester) (v : Word)
  /-- TK_EXPIRY (R431): A stage whose commit window of 1 ms lapses is discarded as EXPIRED. -/
  | tkExpiry
  /-- VERIFY_START (R437): A write of VERCTL.START by S starts verification of a bank. -/
  | verifyStart (by_ : Requester) (bank : Bool)
  /-- VERIFICATION_END (R437): The verifier ends with a result, programming the first key in blank recovery where that
  applies. -/
  | verificationEnd (progOk : Bool × Bool)
  /-- RNG_READ (R440): A read of RNG by S returns a fresh random word, and from any other requester returns 0 with WREJ. -/
  | rngRead (by_ : Requester)
  /-- JTAG_EXTEST (R462): The EXTEST instruction drives the digital outputs other than the legs and gate enables. -/
  | jtagExtest (cells : BitVec 12)
  /-- JTAG_SAMPLE_PRELOAD (R462): The SAMPLE/PRELOAD instruction samples the boundary cells. -/
  | jtagSamplePreload (cells : BitVec 12)
  /-- JTAG_IDCODE (R462): The IDCODE instruction selects the identification code. -/
  | jtagIdcode
  /-- JTAG_BYPASS (R462): The BYPASS instruction selects the bypass register. -/
  | jtagBypass
  /-- THERMAL_WARNING_CLEAR (R241): When every die sensor is below 130 °C the thermal warning deasserts, line 472 deasserts
  and THSTAT.WARN and HOT clear. -/
  | thermalWarningClear
  /-- REFERENCE_RETURN (R222): The 25 MHz reference returns: line 405 deasserts, the collector leaves the AON clock, and
  TOLL may resume toggling. -/
  | referenceReturn
  /-- DEVICE_RESET_RELEASE (R343): The internal reset of a pin or software device reset ends, 10 µs after RST_N rises or
  after the RSTCTL write, and the readiness timeline starts. -/
  | deviceResetRelease (head : Bool)
  /-- PRODUCER_HOLD_END (R188): A producer event held because it came too soon after the previous one is presented to the
  fabric 3 strobe periods after that event. -/
  | producerHoldEnd (p : Fin 512)
  /-- LANE_ALIGNMENT (R364): A port's receive lanes gain or lose alignment before training, which sets ALIGN and switches
  the transmitter between IDLE_NR and IDLE_R. -/
  | laneAlignment (p : Fin 2) (align inv : Fin 4) (skew : Byte) (partner : Bool)
  /-- SPI_IGNORED_FRAME (R410): An SPI frame whose first byte is not 0x01, 0x02 or 0x03 is ignored until CS_N rises, and
  HCNT.DROP_CNT increments. -/
  | spiIgnoredFrame
  deriving DecidableEq, Repr

end Sys2Proof
end

