-- ==== Sys2Proof/WellFormed.lean ====
section
/-!
DEFINITION. Which commands are well-formed: an operand held in a number or a list has the range that its frame, its packet or its
code gives it.  A field of a fixed width has its range by its type.
-/
namespace Sys2Proof

/-- An envelope whose symbols may be cut short, and the bytes after it: nothing follows a symbol that is missing. -/
def envelopeWf (env : List (Option Byte)) (bytes : List Byte) : Bool :=
  match env with
  | [] => true
  | some _ :: rest => envelopeWf rest bytes
  | none :: rest => rest.all Option.isNone && bytes.isEmpty

/-- The checks: a raw code of a converter (R96), the fields of link frames, a TYPE and a payload that are not listed (R365, R366),
a packet frame's envelope, cut short at its end alone (R368), the words of an inbound request, at most 256 bytes of payload (R406, R407), word numbers in flash (R325). -/
def Instr.wf : Instr → Bool
  | .adcHold _ raw => decide (-32768 ≤ raw ∧ raw ≤ 65535)
  | .flashOperationEnd _ weak => weak.all fun w => decide (0x10000 ≤ w ∧ w < 0xE1000)
  | .timeFrame _ _ tx _ _ hops _ => decide (tx < 2 ^ 64 ∧ hops < 2 ^ 6)
  | .dreq _ _ tail => tail.2.all fun x => !decide (1 ≤ x.1.toNat ∧ x.1.toNat ≤ 6) && x.2.length == 16
  | .drsp _ _ t2 t3 _ => decide (t2 < 2 ^ 64 ∧ t3 < 2 ^ 64)
  | .enum _ n _ => decide (n < 2 ^ 8)
  | .enumDone _ count _ _ _ => decide (count < 2 ^ 8)
  | .packetFrame _ dst src kind crc bytes _ => envelopeWf [dst, src, kind, crc] bytes
  | .packetPadTimeout _ dst src kind crc bytes => envelopeWf [dst, src, kind, crc] bytes
  | .lstat _ addr port state _ => decide (addr < 2 ^ 8 ∧ port < 2 ∧ state < 2)
  | .lockdownFrame _ addr cls time _ => decide (addr < 2 ^ 8 ∧ cls < 16 ∧ time < 2 ^ 64)
  | .pcieInboundRequest q => q.addr % 4 == 0 && !q.be.isEmpty && decide (q.data.length ≤ 64) && q.data.length == (if q.write then q.be.length else 0)
  | .registerWrite .. | .tempoWindowEnd .. | .paceModeChange .. | .paceChangeComplete .. | .paceLockSet .. | .systemPhaseWrite
    .. | .paceLost .. | .paceSlip .. | .paceSlipRead .. | .wakeGateOpen .. | .wakeTimeout .. | .fifoResync .. | .tagReturned ..
    | .taguseRead .. | .pllLoss .. | .pllLock .. | .periodStart .. | .loadPoint .. | .edgeMatch .. | .deadtimeEnd .. |
    .onTimeCut .. | .commitCapture .. | .tbEnable .. | .tbDisable .. | .tbgstart .. | .tbgstop .. | .tbStartTask .. |
    .followerStart .. | .chainTbStart .. | .evcmpMatch .. | .legRunWrite .. | .legForceWrite .. | .legCompareWrite .. |
    .legcommit .. | .forceOffTask .. | .foffReleaseRequest .. | .adcEnable .. | .adcDisable .. | .adcgstart .. | .adcgstop .. |
    .adcStartTask .. | .adcResultReady .. | .adcTriggerTask .. | .adcBusyEnd .. | .adcCalibrateStart .. | .adcCalibrationEnd ..
    | .adcLastRead .. | .adcResultRead .. | .leStrobeArrive .. | .leSample .. | .leWaitResume .. | .leWaitTimeout .. | .leEnable
    .. | .leDisable .. | .leSwapRequest .. | .leswap .. | .leSwapTask .. | .leMregWrite .. | .leRefWrite .. | .leFregWrite .. |
    .leMemoryWrite .. | .cmpRawChange .. | .cmpFilterChange .. | .blankWindowClose .. | .cmpEnable .. | .cmpCapRead .. |
    .posInputChange .. | .posTriggerTask .. | .posFrameStart .. | .posFrameCheck .. | .posFrameTimeout .. | .posSpeedTimeout .. | .posEnable .. |
    .posUposRead .. | .producerEvent .. | .holdoffEnd .. | .swtrig .. | .channelWrite .. | .queueRecord .. | .iceoi .. |
    .icqdone .. | .icqrdWrite .. | .icTargetEnable .. | .icenset .. | .icenclr .. | .iswset .. | .iswclr .. | .moderationTimeout
    .. | .faultOccurrence .. | .fack .. | .shrel .. | .shgateWrite .. | .frecpop .. | .comparatorTrip .. | .tollToggle .. |
    .tollfeed .. | .watchdogEnable .. | .watchdogFeed .. | .watchdogWarn .. | .watchdogExpiry .. | .thermalWarning .. |
    .thermalShutdown .. | .lockdownComplete .. | .supplyThresholdCross .. | .referenceLost .. | .add .. | .sub .. | .and .. |
    .or .. | .xor .. | .cmp .. | .mov .. | .tst .. | .addv .. | .subv .. | .addsat .. | .subsat .. | .ld .. | .st .. | .lds .. |
    .xchg .. | .shl .. | .shr .. | .sar .. | .ror .. | .neg .. | .not .. | .clz .. | .sxt .. | .bfx .. | .bfi .. | .bperm .. |
    .mul .. | .mulu .. | .mac .. | .macu .. | .productWrite .. | .qrd .. | .mwait .. | .div .. | .divu .. | .divideComplete .. |
    .sprd .. | .spwr .. | .movsg .. | .movgs .. | .bcc .. | .jmp .. | .jmpr .. | .call .. | .callr .. | .ret .. | .jmpf .. |
    .callf .. | .retf .. | .loop .. | .push .. | .pop .. | .nop .. | .wait .. | .retl .. | .trap .. | .sync .. | .fbar .. |
    .fadd .. | .fsub .. | .fmul .. | .fdiv .. | .fsqrt .. | .fcmp .. | .fmov .. | .fneg .. | .fabs .. | .cvtif .. | .cvtfi .. |
    .cvtqf .. | .cvtfq .. | .fmovwf .. | .fmovfw .. | .fld .. | .fst .. | .adc .. | .sbc .. | .pick .. | .sti .. |
    .illegalInstruction .. | .interruptEntry .. | .fpExceptionEntry .. | .coreHalt .. | .vecselWrite .. | .patrolRead .. |
    .sramScrubDone .. | .remapWrite .. | .remapCopyDone .. | .rawRead .. | .rawWrite .. | .flashClaim .. | .flashRelease .. |
    .program .. | .erase .. | .verify .. | .evalcal .. | .flashInitDone .. | .powerOnReset .. | .porRelease .. | .pinReset .. |
    .deviceResetRequest .. | .coreResetRequest .. | .corerunWrite .. | .coreResetEnd .. | .shroudReady .. | .analogReady .. |
    .bootRomRun .. | .testReset .. | .ioBankLatch .. | .portTrained .. | .portDown .. | .linkErrorWindow .. | .timeFrameSend ..
    | .delayExchange .. | .delayExchangeTimeout .. | .chainTimeTimeout .. |
    .enumStart .. | .delayMeasureStart .. | .lnktimelRead .. | .status .. | .read .. | .write .. | .readBlock .. | .writeBlock
    .. | .enumerate .. | .enumerateTimeout .. | .timeSync .. | .snapshot .. | .calibrate .. | .imageChunk .. | .imageCommit .. |
    .tkStageCommand .. | .badOpcode .. | .firmwareOpcode .. | .fwrpl .. | .firmwareTimeout .. | .recoveryReset .. | .doorbell ..
    | .hrack .. | .spiCmdFrame .. | .spiRplFrame .. | .spiStatFrame .. | .spiGapTimeout .. | .spiCsRise .. | .outboundCompletion
    .. | .outboundReadTimeout .. | .pcieLinkUp .. | .pcieLinkDown .. | .pcieReset .. | .captureEnable .. | .captureDisable .. |
    .captureFlush .. | .captureStartTask .. | .captureStopTask .. | .captureSnapshotTask .. | .tkStageWrite .. | .nonceReady ..
    | .tkCommitA .. | .tkCommitB .. | .tkClear .. | .tkExpiry .. | .verifyStart .. | .verificationEnd .. | .rngRead .. |
    .jtagExtest .. | .jtagSamplePreload .. | .jtagIdcode .. | .jtagBypass .. | .thermalWarningClear .. | .referenceReturn .. |
    .deviceResetRelease .. | .producerHoldEnd .. | .laneAlignment .. | .spiIgnoredFrame .. => true

end Sys2Proof
end

