-- ==== Sys2Proof/Decode.lean ====
section
/-!
DEFINITION. Words of commands, and the bytes of a core's instruction (R258-R261): the command table gives no row any bits, so no
word spells a command; the chapter of the cores gives the bytes of each of their instructions.
-/
namespace Sys2Proof

/-- The command that the low `nbits` bits of a word spell by the table: none. -/
def decodeTableWord (_nbits _w : Nat) : Option Instr := none

/-- The condition of a code (R272); code 0xF has none. -/
def Machine.condOf (n : Nat) : Option Cond :=
  [Cond.alw, .eq, .ne, .lt, .ge, .le, .gt, .ltu, .geu, .leu, .gtu, .neg, .pos, .ov, .nov][n]?

/-- What bytes spell: an instruction and how many of them it takes, no instruction (R261), or only the beginning of one. -/
inductive Spelled where
  | instr (i : Instr) (n : Nat)
  | illegal
  | short
  deriving DecidableEq, Repr

/-- The bytes after an opcode: the number that `n` bytes from place `o` on make, little-endian (R253). -/
def leAt (l : List Byte) (o n : Nat) : Nat := ((l.drop o).take n).foldr (fun b s => b.toNat + 256 * s) 0

/-- `n` bytes follow the opcode and are needed. -/
def needing (l : List Byte) (n : Nat) (i : Instr) : Spelled := if l.length < n then .short else .instr i n

/-- As `needing`, where the bytes break R260 or R261 if `ok` is false. -/
def needingIf (ok : Bool) (l : List Byte) (n : Nat) (i : Instr) : Spelled :=
  if l.length < n then .short else if ok then .instr i n else .illegal

/-- Fields A and B of the operand form byte (R260). -/
def ofA (l : List Byte) : Fin 16 := Fin.ofNat 16 (leAt l 0 1 / 16)
def ofB (l : List Byte) : Fin 16 := Fin.ofNat 16 (leAt l 0 1)
/-- A field as an F register, which values 8-15 do not name. -/
def ofF (x : Fin 16) : Fin 8 := Fin.ofNat 8 x.val
def isF (x : Fin 16) : Bool := decide (x.val < 8)

/-- The segment register of a code (R260). -/
def segOf (n : Nat) : Option Seg := [Seg.cs, .ds, .ss, .es, .xs, .ys][n]?

/-- The mnemonics of opcodes 0x00-0x2F in the order of their bases (R263). -/
def aluOf (c : Fin 5) (p : Pre) (a : Fin 16) (y : AluB) (k : Nat) : Instr :=
  match k with
  | 0 => .add c p a y
  | 1 => .sub c p a y
  | 2 => .and c p a y
  | 3 => .or c p a y
  | 4 => .xor c p a y
  | 5 => .cmp c p a y
  | 6 => .mov c p a y
  | 7 => .tst c p a y
  | 8 => .addv c p a y
  | 9 => .subv c p a y
  | 10 => .addsat c p a y
  | _ => .subsat c p a y

/-- Bytes of an immediate of the operand width. -/
def immBytes : Width → Nat
  | .b8 => 1
  | .b16 => 2
  | .b32 => 4

/-- Opcodes 0x00-0x2F (R263). -/
def spellAlu (c : Fin 5) (p : Pre) (op : Nat) (l : List Byte) : Spelled :=
  let i (y : AluB) : Instr := aluOf c p (ofA l) y (op / 4)
  match op % 4 with
  | 0 => needing l 1 (i (.reg (ofB l)))
  | 1 => needingIf (ofB l == 0) l (1 + immBytes p.width) (i (.imm (BitVec.ofNat 32 (leAt l 1 (immBytes p.width)))))
  | 2 => needing l 2 (i (.mem8 (ofB l) (BitVec.ofNat 8 (leAt l 1 1))))
  | _ => needing l 3 (i (.mem16 (ofB l) (BitVec.ofNat 16 (leAt l 1 2))))

/-- The memory forms of R265: the operand and the bytes after the opcode. -/
def memFormOf (l : List Byte) (f : Nat) : MemForm × Nat :=
  match f with
  | 0 => (.ind (ofB l), 1)
  | 1 => (.disp8 (ofB l) (BitVec.ofNat 8 (leAt l 1 1)), 2)
  | 2 => (.disp16 (ofB l) (BitVec.ofNat 16 (leAt l 1 2)), 3)
  | _ => (.post (ofB l), 1)

/-- Opcodes 0x30-0x3B, 0x90-0x97 (R265, R276). -/
def spellMem (c : Fin 5) (p : Pre) (op : Nat) (l : List Byte) : Spelled :=
  let (m, n) := memFormOf l (op % 4)
  let a := ofA l
  match op / 4 with
  | 0x0C => needing l n (.ld c p a m)
  | 0x0D => needing l n (.st c p a m)
  | 0x0E => needing l n (.lds c p a m)
  | 0x24 => needingIf (isF a) l n (.fld c p (ofF a) m)
  | 0x25 => needingIf (isF a) l n (.fst c p (ofF a) m)
  | _ => .illegal

/-- A shift in the order of its codes (R266). -/
def shiftOf (c : Fin 5) (p : Pre) (a : Fin 16) (k : ShiftBy) (n : Nat) : Instr :=
  match n with
  | 0 => .shl c p a k
  | 1 => .shr c p a k
  | 2 => .sar c p a k
  | _ => .ror c p a k

/-- Opcodes 0x40-0x5B: bits and shifts, multiplier and divider, special registers and segments (R266, R268, R271). -/
def spellReg (c : Fin 5) (p : Pre) (op : Nat) (l : List Byte) : Spelled :=
  let a := ofA l
  let b := ofB l
  let b0 : Bool := b == 0
  match op with
  | 0x48 => needing l 1 (.neg c p a b)
  | 0x49 => needing l 1 (.not c p a b)
  | 0x4A => needing l 1 (.clz c p a b)
  | 0x4B => needing l 1 (.sxt c p a b)
  | 0x4C => needing l 3 (.bfx c p a b (BitVec.ofNat 16 (leAt l 1 2)))
  | 0x4D => needing l 3 (.bfi c p a b (BitVec.ofNat 16 (leAt l 1 2)))
  | 0x4E => needing l 2 (.bperm c p a b (BitVec.ofNat 8 (leAt l 1 1)))
  | 0x50 => needing l 1 (.mul c p a b)
  | 0x51 => needing l 1 (.mulu c p a b)
  | 0x52 => needing l 1 (.mac c p a b)
  | 0x53 => needing l 1 (.macu c p a b)
  | 0x54 => needingIf b0 l 1 (.qrd c p a)
  | 0x55 => needing l 0 (.mwait c p)
  | 0x56 => needing l 1 (.div c p a b)
  | 0x57 => needing l 1 (.divu c p a b)
  | 0x58 => needingIf b0 l 2 (.sprd c p a (BitVec.ofNat 8 (leAt l 1 1)))
  | 0x59 => needingIf b0 l 2 (.spwr c p a (BitVec.ofNat 8 (leAt l 1 1)))
  | 0x5A => needingIf (segOf b.val).isSome l 1 (.movsg c p a ((segOf b.val).getD .cs))
  | 0x5B => needingIf (segOf b.val).isSome l 1 (.movgs c p a ((segOf b.val).getD .cs))
  | _ =>
    if op / 4 = 0x10 then needing l 1 (shiftOf c p a (.reg b) (op % 4))
    else if op / 4 = 0x11 then needingIf b0 l 2 (shiftOf c p a (.imm (BitVec.ofNat 8 (leAt l 1 1))) (op % 4))
    else .illegal

/-- Opcodes 0x60-0x75: control transfer and system (R273, R275). -/
def spellCtl (c : Fin 5) (p : Pre) (op : Nat) (l : List Byte) : Spelled :=
  let a := ofA l
  let b0 : Bool := ofB l == 0
  let k := Machine.condOf a.val
  let d16 : BitVec 16 := BitVec.ofNat 16 (leAt l 0 2)
  let i32 : Word := BitVec.ofNat 32 (leAt l 0 4)
  match op with
  | 0x60 => needingIf (b0 && k.isSome) l 2 (.bcc c p (k.getD .alw) (.short (BitVec.ofNat 8 (leAt l 1 1))))
  | 0x61 => needingIf (b0 && k.isSome) l 3 (.bcc c p (k.getD .alw) (.long (BitVec.ofNat 16 (leAt l 1 2))))
  | 0x62 => needing l 2 (.jmp c p d16)
  | 0x63 => needingIf b0 l 1 (.jmpr c p a)
  | 0x64 => needing l 2 (.call c p d16)
  | 0x65 => needingIf b0 l 1 (.callr c p a)
  | 0x66 => needing l 0 (.ret c p)
  | 0x67 => needing l 4 (.jmpf c p i32)
  | 0x68 => needing l 4 (.callf c p i32)
  | 0x69 => needing l 0 (.retf c p)
  | 0x6A => needingIf b0 l 2 (.loop c p a (BitVec.ofNat 8 (leAt l 1 1)))
  | 0x6B => needingIf b0 l 1 (.push c p a)
  | 0x6C => needingIf b0 l 1 (.pop c p a)
  | 0x70 => needing l 0 (.nop c p)
  | 0x71 => needing l 0 (.wait c p)
  | 0x72 => needing l 0 (.retl c p)
  | 0x73 => needing l 1 (.trap c p (BitVec.ofNat 8 (leAt l 0 1)))
  | 0x74 => needing l 0 (.sync c p)
  | 0x75 => needing l 0 (.fbar c p)
  | _ => .illegal

/-- Opcodes 0x80-0x8E: floating point (R276). -/
def spellFp (c : Fin 5) (p : Pre) (op : Nat) (l : List Byte) : Spelled :=
  let a := ofA l
  let b := ofB l
  let ff (i : Instr) : Spelled := needingIf (isF a && isF b) l 1 i
  match op with
  | 0x80 => ff (.fadd c p (ofF a) (ofF b))
  | 0x81 => ff (.fsub c p (ofF a) (ofF b))
  | 0x82 => ff (.fmul c p (ofF a) (ofF b))
  | 0x83 => ff (.fdiv c p (ofF a) (ofF b))
  | 0x84 => ff (.fsqrt c p (ofF a) (ofF b))
  | 0x85 => ff (.fcmp c p (ofF a) (ofF b))
  | 0x86 => ff (.fmov c p (ofF a) (ofF b))
  | 0x87 => ff (.fneg c p (ofF a) (ofF b))
  | 0x88 => ff (.fabs c p (ofF a) (ofF b))
  | 0x89 => needingIf (isF a) l 1 (.cvtif c p (ofF a) b)
  | 0x8A => needingIf (isF b) l 1 (.cvtfi c p a (ofF b))
  | 0x8B => needingIf (isF a) l 1 (.cvtqf c p (ofF a) b)
  | 0x8C => needingIf (isF b) l 1 (.cvtfq c p a (ofF b))
  | 0x8D => needingIf (isF a) l 1 (.fmovwf c p (ofF a) b)
  | 0x8E => needingIf (isF b) l 1 (.fmovfw c p a (ofF b))
  | _ => .illegal

/-- The second byte after 0xF0 (R279). -/
def spellEsc (c : Fin 5) (p : Pre) (op : Nat) (l : List Byte) : Spelled :=
  let a := ofA l
  let b := ofB l
  let a0 : Bool := a == 0
  match op with
  | 0x00 => needing l 1 (.adc c p a b)
  | 0x01 => needing l 1 (.sbc c p a b)
  | 0x02 => needing l 2 (.pick c p a b (BitVec.ofNat 8 (leAt l 1 1)))
  | 0x20 => needingIf a0 l 6 (.sti c p b (.short (BitVec.ofNat 8 (leAt l 1 1))) (BitVec.ofNat 32 (leAt l 2 4)))
  | 0x21 => needingIf a0 l 7 (.sti c p b (.long (BitVec.ofNat 16 (leAt l 1 2))) (BitVec.ofNat 32 (leAt l 3 4)))
  | _ => .illegal

/-- An opcode and the bytes after it (R258, R261). -/
def spellOp (c : Fin 5) (p : Pre) (op : Nat) (l : List Byte) : Spelled :=
  if op < 0x30 then spellAlu c p op l
  else if op < 0x3C ∨ (0x90 ≤ op ∧ op < 0x98) then spellMem c p op l
  else if op = 0x3C then needing l 2 (.xchg c p (ofA l) (ofB l) (BitVec.ofNat 8 (leAt l 1 1)))
  else if 0x40 ≤ op ∧ op < 0x5C then spellReg c p op l
  else if 0x60 ≤ op ∧ op < 0x76 then spellCtl c p op l
  else if 0x80 ≤ op ∧ op < 0x8F then spellFp c p op l
  else .illegal

/-- The bytes `k` longer. -/
def Spelled.after (k : Nat) : Spelled → Spelled
  | .instr i n => .instr i (n + k)
  | .illegal => .illegal
  | .short => .short

/-- An instruction's bytes with the prefixes read so far (R258, R259): a group that appears twice and a reserved prefix are illegal.
The checks that need the instruction as a whole (its override, its width, 0xEC off S) are made when it runs. -/
def spellFrom (c : Fin 5) (p : Pre) : List Byte → Spelled
  | [] => .short
  | b :: l =>
    if 0xE0 ≤ b.toNat ∧ b.toNat ≤ 0xE5 then
      if p.seg.isSome then .illegal else (spellFrom c { p with seg := segOf (b.toNat - 0xE0) } l).after 1
    else if b.toNat = 0xE8 ∨ b.toNat = 0xE9 then
      if p.width != .b32 then .illegal
      else (spellFrom c { p with width := if b.toNat = 0xE8 then .b8 else .b16 } l).after 1
    else if b.toNat = 0xEC then if p.ct then .illegal else (spellFrom c { p with ct := true } l).after 1
    else if b.toNat = 0xF0 then
      match l with
      | [] => .short
      | x :: t => (spellEsc c p x.toNat t).after 2
    else (spellOp c p b.toNat l).after 1

/-- The instruction that bytes spell for core c. -/
def decodeCore (c : Fin 5) (l : List Byte) : Spelled := spellFrom c {} l

/-- How many instructions bytes hold, at most `fuel`; a byte that begins none counts as one. -/
def countInstrs (c : Fin 5) : Nat → List Byte → Nat
  | 0, _ => 0
  | _ + 1, [] => 0
  | k + 1, b :: l =>
    match decodeCore c (b :: l) with
    | .instr _ n => 1 + countInstrs c k ((b :: l).drop n)
    | _ => 1 + countInstrs c k l

end Sys2Proof
end

