-- ==== Sys2Proof/Machine/Bits.lean ====
section
/-!
DEFINITION. Bit fields, sign extension, saturation and clamping: the arithmetic helpers the meanings share.
-/
namespace Sys2Proof

/-- Number of bits of a field. -/
def Fld.width (f : Fld) : Nat := f.hi - f.lo + 1

/-- The bits of a field, in place. -/
def Fld.mask (f : Fld) : Word := BitVec.ofNat 32 (2 ^ f.width - 1) <<< f.lo

/-- A field's value. -/
def Fld.get (f : Fld) (w : Word) : Nat := w.toNat / 2 ^ f.lo % 2 ^ f.width

/-- The lowest bit of a field, as a flag. -/
def Fld.bit (f : Fld) (w : Word) : Bool := w.getLsbD f.lo

/-- A word with a field replaced (the value modulo the field's width). -/
def Fld.put (f : Fld) (v : Nat) (w : Word) : Word :=
  (w &&& ~~~ f.mask) ||| ((BitVec.ofNat 32 v <<< f.lo) &&& f.mask)

end Sys2Proof

namespace Sys2Proof.Machine
open Sys2Proof

/-- A word from a natural number, modulo 2^32. -/
abbrev w32 (n : Nat) : Word := BitVec.ofNat 32 n

/-- A flag as 0 or 1. -/
def b2n (b : Bool) : Nat := if b then 1 else 0

/-- Bit `n` of a natural number. -/
def bitN (v n : Nat) : Bool := v / 2 ^ n % 2 == 1

/-- Bits `hi` down to `lo` of a natural number. -/
def bitsN (v hi lo : Nat) : Nat := v / 2 ^ lo % 2 ^ (hi - lo + 1)

/-- Two's complement value of the low `w` bits of a natural number. -/
def sextN (w v : Nat) : Int :=
  let m := v % 2 ^ w
  if m < 2 ^ (w - 1) then (m : Int) else (m : Int) - (2 ^ w : Nat)

/-- The low 32 bits of an integer, in two's complement. -/
def wInt (i : Int) : Word := BitVec.ofInt 32 i

/-- An integer clamped to a range; the lower bound wins where the range is empty. -/
def clampI (lo hi x : Int) : Int := max lo (min hi x)

/-- A natural number clamped to a range; the lower bound wins where the range is empty. -/
def clampN (lo hi x : Nat) : Nat := max lo (min hi x)

/-- A counter that saturates at `top`. -/
def satAdd (top v n : Nat) : Nat := min top (v + n)

/-- Round to nearest, ties away from zero, of `n / d` (d positive). -/
def rndAway (n : Int) (d : Nat) : Int :=
  if n < 0 then - (((2 * n.natAbs + d) / (2 * d) : Nat) : Int) else (((2 * n.natAbs + d) / (2 * d) : Nat) : Int)

/-- Round to nearest, ties to even, of `n / d` (d positive). -/
def rndEven (n : Int) (d : Nat) : Int :=
  let q := n / (d : Int)
  let r := n - q * d
  if 2 * r < d then q else if 2 * r > d then q + 1 else if q % 2 = 0 then q else q + 1

/-- The positions, ascending, of the 1 bits among the low `n` bits. -/
def onesBelow (n : Nat) (v : Nat) : List Nat := (List.range n).filter fun i => bitN v i

/-- The elements of `Fin n`, ascending. -/
def fins (n : Nat) : List (Fin n) := List.finRange n

/-- The members of `Fin n` whose bit is set in `v`. -/
def finsIn (n : Nat) (v : Nat) : List (Fin n) := (fins n).filter fun i => bitN v i.val

/-- A word from a list of flags, bit 0 first. -/
def packBits (l : List Bool) : Nat := l.foldr (fun b acc => b2n b + 2 * acc) 0

/-- One if true, as an integer: sign of a comparison. -/
def absI (x : Int) : Int := if x < 0 then -x else x

/-- Integer square root, built bit by bit from bit `k` down. -/
def isqrtFrom (n : Nat) : Nat → Nat → Nat
  | 0, r => if (r + 1) * (r + 1) ≤ n then r + 1 else r
  | k + 1, r => isqrtFrom n k (if (r + 2 ^ (k + 1)) * (r + 2 ^ (k + 1)) ≤ n then r + 2 ^ (k + 1) else r)

/-- Floor of the square root of a number below 2^160. -/
def isqrt (n : Nat) : Nat := isqrtFrom n 79 0

end Sys2Proof.Machine
end

