-- ==== Sys2Proof/Machine/Fields.lean ====
section
/-!
DEFINITION. The fields of the registers, by the spec's names: bit ranges from the field tables of the block chapters.
-/
namespace Sys2Proof.Machine
open Sys2Proof

def SYSCTL.PACE_LOCK : Fld := ⟨8, 8⟩
def SYSCTL.PACE : Fld := ⟨4, 4⟩
def SYSCTL.PHASE : Fld := ⟨2, 0⟩
def SYSSTAT.WAKE_TO : Fld := ⟨6, 6⟩
def SYSSTAT.PACE_LOST : Fld := ⟨5, 5⟩
def SYSSTAT.PACED : Fld := ⟨4, 4⟩
def SYSSTAT.PACE_BUSY : Fld := ⟨3, 3⟩
def TMONCTL.THRESH : Fld := ⟨7, 0⟩
def TMONSTAT.SLIP : Fld := ⟨31, 16⟩
def TMONSTAT.SLOW : Fld := ⟨15, 0⟩
def PACE_SLIP.COUNT : Fld := ⟨15, 0⟩
def TEMPO.VALID : Fld := ⟨8, 8⟩
def TEMPO.VALUE : Fld := ⟨7, 0⟩
def TEMPOMIN.REGION : Fld := ⟨11, 8⟩
def TEMPOMIN.VALUE : Fld := ⟨7, 0⟩
def TAGBUD.BUDGET : Fld := ⟨12, 0⟩
def TAGUSE.PEAK : Fld := ⟨28, 16⟩
def TAGUSE.IN_USE : Fld := ⟨12, 0⟩
def TAGTOTAL.BUDGET_SUM : Fld := ⟨28, 16⟩
def TAGTOTAL.USE_SUM : Fld := ⟨12, 0⟩
def CORESTAT.VSREJ : Fld := ⟨31, 31⟩
def CORESTAT.LOCK : Fld := ⟨28, 24⟩
def CORESTAT.HALTED : Fld := ⟨20, 16⟩
def CORESTAT.WAITING : Fld := ⟨12, 8⟩
def CORESTAT.INRESET : Fld := ⟨4, 0⟩
def DTBASE.BASE : Fld := ⟨31, 13⟩
def DTBASE.LAST : Fld := ⟨12, 0⟩
def MEMCTL.PATEN : Fld := ⟨16, 16⟩
def MEMCTL.INTERVAL : Fld := ⟨11, 0⟩
def MEMSTAT.TREJ : Fld := ⟨7, 7⟩
def MEMSTAT.REMAPREJ : Fld := ⟨6, 6⟩
def MEMSTAT.REMAPDONE : Fld := ⟨5, 5⟩
def MEMSTAT.PATROLUE : Fld := ⟨4, 4⟩
def MEMSTAT.POISON : Fld := ⟨3, 3⟩
def MEMSTAT.LEMUE : Fld := ⟨2, 2⟩
def MEMSTAT.UE : Fld := ⟨1, 1⟩
def MEMSTAT.CE : Fld := ⟨0, 0⟩
def MEMIEN.EN : Fld := ⟨7, 0⟩
def MEMCNT.CE_CNT : Fld := ⟨31, 16⟩
def MEMCNT.UE_CNT : Fld := ⟨15, 8⟩
def MEMCNT.POISON_CNT : Fld := ⟨7, 0⟩
def MEMUEADDR.ADDR : Fld := ⟨31, 2⟩
def MEMUEINFO.V : Fld := ⟨31, 31⟩
def MEMUEINFO.SRC : Fld := ⟨27, 24⟩
def MEMUEINFO.REQ : Fld := ⟨19, 16⟩
def MEMUEINFO.CAUSE : Fld := ⟨15, 8⟩
def MEMUEINFO.SYN : Fld := ⟨6, 0⟩
def MEMCEADDR.ADDR : Fld := ⟨31, 2⟩
def MEMCEINFO.V : Fld := ⟨31, 31⟩
def MEMCEINFO.SRC : Fld := ⟨27, 24⟩
def MEMCEINFO.REQ : Fld := ⟨19, 16⟩
def MEMCEINFO.CAUSE : Fld := ⟨15, 8⟩
def MEMCEINFO.SYN : Fld := ⟨6, 0⟩
def MEMPATROL.PASS : Fld := ⟨31, 24⟩
def MEMPATROL.LINE : Fld := ⟨16, 0⟩
def MEMTADDR.ADDR : Fld := ⟨31, 2⟩
def MEMTDATA.DATA : Fld := ⟨31, 0⟩
def MEMTCHK.SYN : Fld := ⟨14, 8⟩
def MEMTCHK.CHK : Fld := ⟨6, 0⟩
def MEMTCMD.CMD : Fld := ⟨1, 0⟩
def REMAP.V : Fld := ⟨31, 31⟩
def REMAP.FAC : Fld := ⟨30, 30⟩
def REMAP.LINE : Fld := ⟨12, 0⟩
def READY.BIT : Fld := ⟨31, 0⟩
def IDENT.PART : Fld := ⟨31, 16⟩
def IDENT.STEP : Fld := ⟨15, 8⟩
def IDENT.PKG : Fld := ⟨7, 0⟩
def RSTCAUSE.RSTREJ : Fld := ⟨31, 31⟩
def RSTCAUSE.CRST : Fld := ⟨20, 16⟩
def RSTCAUSE.WDRST : Fld := ⟨12, 8⟩
def RSTCAUSE.LOCKDN : Fld := ⟨3, 3⟩
def RSTCAUSE.SOFT : Fld := ⟨2, 2⟩
def RSTCAUSE.PIN : Fld := ⟨1, 1⟩
def RSTCAUSE.POR : Fld := ⟨0, 0⟩
def RSTCTL.KEY : Fld := ⟨31, 24⟩
def RSTCTL.DEVRST : Fld := ⟨16, 16⟩
def RSTCTL.CORERST : Fld := ⟨4, 0⟩
def CORERUN.S : Fld := ⟨4, 4⟩
def CORERUN.H : Fld := ⟨3, 0⟩
def BOOTENT.SEL : Fld := ⟨31, 16⟩
def BOOTENT.OFS : Fld := ⟨15, 0⟩
def BOOTSTAT.DONE : Fld := ⟨31, 31⟩
def BOOTSTAT.RECOV : Fld := ⟨30, 30⟩
def BOOTSTAT.IMG : Fld := ⟨27, 26⟩
def BOOTSTAT.RESA : Fld := ⟨23, 20⟩
def BOOTSTAT.RESB : Fld := ⟨19, 16⟩
def BOOTSTAT.SRESTART : Fld := ⟨15, 8⟩
def BOOTSTAT.CAND : Fld := ⟨1, 0⟩
def BOOTSEQ.SEQ : Fld := ⟨31, 0⟩
def BOOTFSEG.SAVESEG : Fld := ⟨31, 0⟩
def BOOTFPC.SAVEPC : Fld := ⟨31, 0⟩
def IOSTAT.V33 : Fld := ⟨11, 8⟩
def IOSTAT.PRESENT : Fld := ⟨3, 0⟩
def LEG_CTL.FOCH : Fld := ⟨31, 24⟩
def LEG_CTL.FOEN : Fld := ⟨23, 23⟩
def LEG_CTL.FORCE : Fld := ⟨22, 21⟩
def LEG_CTL.FSYNC : Fld := ⟨20, 20⟩
def LEG_CTL.PROF : Fld := ⟨16, 16⟩
def LEG_CTL.POLL : Fld := ⟨13, 13⟩
def LEG_CTL.POLH : Fld := ⟨12, 12⟩
def LEG_CTL.STAGE : Fld := ⟨9, 9⟩
def LEG_CTL.RUN : Fld := ⟨8, 8⟩
def LEG_CTL.TB : Fld := ⟨4, 0⟩
def LEG_CMPA.COARSE : Fld := ⟨24, 5⟩
def LEG_CMPA.FINE : Fld := ⟨4, 0⟩
def LEG_CMPB.COARSE : Fld := ⟨24, 5⟩
def LEG_CMPB.FINE : Fld := ⟨4, 0⟩
def LEG_PHASE.COARSE : Fld := ⟨24, 5⟩
def LEG_PHASE.FINE : Fld := ⟨4, 0⟩
def LEG_DT.DTL : Fld := ⟨27, 16⟩
def LEG_DT.DTH : Fld := ⟨11, 0⟩
def LEG_ADT.EN : Fld := ⟨31, 31⟩
def LEG_ADT.CPOL : Fld := ⟨30, 30⟩
def LEG_ADT.CMPSEL : Fld := ⟨29, 24⟩
def LEG_ADT.STEP : Fld := ⟨23, 16⟩
def LEG_ADT.TGT : Fld := ⟨11, 0⟩
def LEG_ADTLIM.DTMAX : Fld := ⟨27, 16⟩
def LEG_ADTLIM.DTMIN : Fld := ⟨11, 0⟩
def LEG_ADTCOMP.COMP : Fld := ⟨8, 0⟩
def LEG_DTACT.DTL : Fld := ⟨27, 16⟩
def LEG_DTACT.DTH : Fld := ⟨11, 0⟩
def LEG_ADTMEAS.VL : Fld := ⟨31, 31⟩
def LEG_ADTMEAS.TL : Fld := ⟨27, 16⟩
def LEG_ADTMEAS.VH : Fld := ⟨15, 15⟩
def LEG_ADTMEAS.TH : Fld := ⟨11, 0⟩
def LEG_STAT.LEOWN : Fld := ⟨26, 24⟩
def LEG_STAT.UPDN : Fld := ⟨19, 16⟩
def LEG_STAT.DTCLAMP : Fld := ⟨12, 12⟩
def LEG_STAT.STATE : Fld := ⟨10, 8⟩
def LEG_STAT.FOFF : Fld := ⟨7, 7⟩
def LEG_STAT.CFG_REJ : Fld := ⟨5, 5⟩
def LEG_STAT.OWNED_WR : Fld := ⟨4, 4⟩
def LEG_STAT.ADT_MISS : Fld := ⟨3, 3⟩
def LEG_STAT.UPD_OVER : Fld := ⟨2, 2⟩
def LEG_STAT.LATE : Fld := ⟨1, 1⟩
def LEG_CNT.ADTMISS_CNT : Fld := ⟨31, 24⟩
def LEG_CNT.OVER_CNT : Fld := ⟨23, 16⟩
def LEG_CNT.LATE_CNT : Fld := ⟨15, 0⟩
def LEG_IEN.DTCLAMP : Fld := ⟨12, 12⟩
def LEG_IEN.FOFF : Fld := ⟨7, 7⟩
def LEG_IEN.FLAGS : Fld := ⟨5, 1⟩
def TB_CTL.STEN : Fld := ⟨24, 24⟩
def TB_CTL.STCH : Fld := ⟨23, 16⟩
def TB_CTL.LEADER : Fld := ⟨12, 8⟩
def TB_CTL.STOPMODE : Fld := ⟨5, 5⟩
def TB_CTL.PLLSEL : Fld := ⟨4, 4⟩
def TB_CTL.SYNCSRC : Fld := ⟨2, 1⟩
def TB_CTL.EN : Fld := ⟨0, 0⟩
def TB_PERIOD.PERIOD : Fld := ⟨19, 0⟩
def TB_OFFSET.COARSE : Fld := ⟨24, 5⟩
def TB_OFFSET.FINE : Fld := ⟨4, 0⟩
def TB_SYNC.LOCKWIN : Fld := ⟨23, 16⟩
def TB_SYNC.SLEW : Fld := ⟨7, 0⟩
def TB_COUNT.COUNT : Fld := ⟨19, 0⟩
def TB_STAT.LEOWN : Fld := ⟨16, 16⟩
def TB_STAT.WAIT_SYNC : Fld := ⟨15, 15⟩
def TB_STAT.HOLDOVER : Fld := ⟨14, 14⟩
def TB_STAT.LOCKED : Fld := ⟨13, 13⟩
def TB_STAT.RUNNING : Fld := ⟨12, 12⟩
def TB_STAT.EVF : Fld := ⟨9, 6⟩
def TB_STAT.CFG_REJ : Fld := ⟨5, 5⟩
def TB_STAT.PCLAMP : Fld := ⟨4, 4⟩
def TB_STAT.UNLOCK : Fld := ⟨3, 3⟩
def TB_STAT.SLEWSAT : Fld := ⟨2, 2⟩
def TB_STAT.PLL_LOSS : Fld := ⟨1, 1⟩
def TB_STAT.PSTART : Fld := ⟨0, 0⟩
def TB_EVCMP.EN : Fld := ⟨31, 31⟩
def TB_EVCMP.COARSE : Fld := ⟨24, 5⟩
def TB_EVCMP.FINE : Fld := ⟨4, 0⟩
def TB_IEN.EN : Fld := ⟨9, 0⟩
def TB_PACT.P : Fld := ⟨19, 0⟩
def TB_PHERR.ERR : Fld := ⟨15, 0⟩
def TBGSTART.TB : Fld := ⟨31, 0⟩
def TBGSTOP.TB : Fld := ⟨31, 0⟩
def TBRUN.TB : Fld := ⟨31, 0⟩
def LEGCOMMIT.LEG : Fld := ⟨31, 0⟩
def ADC_CTL.STCH : Fld := ⟨31, 24⟩
def ADC_CTL.STEN : Fld := ⟨23, 23⟩
def ADC_CTL.SKEW : Fld := ⟨20, 16⟩
def ADC_CTL.LEN : Fld := ⟨11, 8⟩
def ADC_CTL.STOPMODE : Fld := ⟨4, 4⟩
def ADC_CTL.MODE : Fld := ⟨2, 1⟩
def ADC_CTL.EN : Fld := ⟨0, 0⟩
def ADC_TRIG.TCH : Fld := ⟨31, 24⟩
def ADC_TRIG.TSRC : Fld := ⟨23, 23⟩
def ADC_TRIG.TB : Fld := ⟨22, 18⟩
def ADC_TRIG.EVMASK : Fld := ⟨17, 14⟩
def ADC_TRIG.DLYUNIT : Fld := ⟨13, 13⟩
def ADC_TRIG.DELAY : Fld := ⟨11, 0⟩
def ADC_STAT.RUNNING : Fld := ⟨15, 15⟩
def ADC_STAT.PEND : Fld := ⟨14, 14⟩
def ADC_STAT.BUSY : Fld := ⟨13, 13⟩
def ADC_STAT.CALBUSY : Fld := ⟨12, 12⟩
def ADC_STAT.CALOK : Fld := ⟨11, 11⟩
def ADC_STAT.CFG_REJ : Fld := ⟨7, 7⟩
def ADC_STAT.TRIGABORT : Fld := ⟨6, 6⟩
def ADC_STAT.DEFER : Fld := ⟨5, 5⟩
def ADC_STAT.LIMIT : Fld := ⟨4, 4⟩
def ADC_STAT.OVERRUN : Fld := ⟨3, 3⟩
def ADC_STAT.CALFAIL : Fld := ⟨2, 2⟩
def ADC_STAT.CALDONE : Fld := ⟨1, 1⟩
def ADC_STAT.EOS : Fld := ⟨0, 0⟩
def ADC_CNT.DEFER_CNT : Fld := ⟨31, 24⟩
def ADC_CNT.LIMIT_CNT : Fld := ⟨23, 16⟩
def ADC_CNT.OVERRUN_CNT : Fld := ⟨15, 0⟩
def ADC_IEN.EN : Fld := ⟨7, 0⟩
def ADC_CALG.GAIN : Fld := ⟨15, 0⟩
def ADC_CALO.OFFSET : Fld := ⟨15, 0⟩
def ADC_LIM.HI : Fld := ⟨31, 16⟩
def ADC_LIM.LO : Fld := ⟨15, 0⟩
def ADC_LAST.FRESH : Fld := ⟨31, 31⟩
def ADC_LAST.SAT : Fld := ⟨30, 30⟩
def ADC_LAST.TV : Fld := ⟨29, 29⟩
def ADC_LAST.DIFF : Fld := ⟨28, 28⟩
def ADC_LAST.ENTRY : Fld := ⟨19, 16⟩
def ADC_LAST.DATA : Fld := ⟨15, 0⟩
def ADC_LTSL.TS : Fld := ⟨31, 0⟩
def ADC_LTSH.TS : Fld := ⟨31, 0⟩
def ADC_SEQ.CAP : Fld := ⟨15, 15⟩
def ADC_SEQ.LIMEN : Fld := ⟨14, 14⟩
def ADC_SEQ.ICH : Fld := ⟨7, 4⟩
def ADC_SEQ.SRC : Fld := ⟨2, 0⟩
def ADC_RES.FRESH : Fld := ⟨31, 31⟩
def ADC_RES.SAT : Fld := ⟨30, 30⟩
def ADC_RES.DIFF : Fld := ⟨28, 28⟩
def ADC_RES.DATA : Fld := ⟨15, 0⟩
def ADCGSTART.ADC : Fld := ⟨31, 0⟩
def ADCGSTOP.ADC : Fld := ⟨31, 0⟩
def ADCRUN.ADC : Fld := ⟨31, 0⟩
def ADCCALSTART.ADC : Fld := ⟨31, 0⟩
def ADCCALBUSY.ADC : Fld := ⟨31, 0⟩
def ADCCALFAIL.ADC : Fld := ⟨31, 0⟩
def ADCCALSKIP.ADC : Fld := ⟨31, 0⟩
def ADCICFG.VIOSEL : Fld := ⟨2, 0⟩
def LE_CTL.SWCH : Fld := ⟨31, 24⟩
def LE_CTL.DECIM : Fld := ⟨23, 16⟩
def LE_CTL.SWEN : Fld := ⟨15, 15⟩
def LE_CTL.FREEZE : Fld := ⟨12, 12⟩
def LE_CTL.ENEG : Fld := ⟨11, 11⟩
def LE_CTL.MTRACK : Fld := ⟨10, 10⟩
def LE_CTL.SSEN : Fld := ⟨9, 9⟩
def LE_CTL.MODE : Fld := ⟨8, 8⟩
def LE_CTL.STRUCT : Fld := ⟨4, 4⟩
def LE_CTL.EVSEL : Fld := ⟨2, 1⟩
def LE_CTL.EN : Fld := ⟨0, 0⟩
def LE_MSRC.WAIT : Fld := ⟨31, 31⟩
def LE_MSRC.ENTRY : Fld := ⟨18, 15⟩
def LE_MSRC.ANYE : Fld := ⟨14, 14⟩
def LE_MSRC.SEL : Fld := ⟨13, 13⟩
def LE_MSRC.TYPE : Fld := ⟨10, 8⟩
def LE_MSRC.UNIT : Fld := ⟨5, 0⟩
def LE_RSRC.WAIT : Fld := ⟨31, 31⟩
def LE_RSRC.ENTRY : Fld := ⟨18, 15⟩
def LE_RSRC.ANYE : Fld := ⟨14, 14⟩
def LE_RSRC.SEL : Fld := ⟨13, 13⟩
def LE_RSRC.TYPE : Fld := ⟨10, 8⟩
def LE_RSRC.UNIT : Fld := ⟨5, 0⟩
def LE_FSRC.WAIT : Fld := ⟨31, 31⟩
def LE_FSRC.ENTRY : Fld := ⟨18, 15⟩
def LE_FSRC.ANYE : Fld := ⟨14, 14⟩
def LE_FSRC.SEL : Fld := ⟨13, 13⟩
def LE_FSRC.TYPE : Fld := ⟨10, 8⟩
def LE_FSRC.UNIT : Fld := ⟨5, 0⟩
def LE_MGAIN.VALUE : Fld := ⟨31, 0⟩
def LE_MOFS.VALUE : Fld := ⟨31, 0⟩
def LE_RGAIN.VALUE : Fld := ⟨31, 0⟩
def LE_ROFS.VALUE : Fld := ⟨31, 0⟩
def LE_REF.VALUE : Fld := ⟨31, 0⟩
def LE_FREG.VALUE : Fld := ⟨31, 0⟩
def LE_MREG.VALUE : Fld := ⟨31, 0⟩
def LE_MANOUT.VALUE : Fld := ⟨31, 0⟩
def LE_SSRATE.RATE : Fld := ⟨30, 0⟩
def LE_OBASE.VALUE : Fld := ⟨31, 0⟩
def LE_OSPAN.VALUE : Fld := ⟨31, 0⟩
def LE_OMIN.VALUE : Fld := ⟨21, 0⟩
def LE_OMAX.VALUE : Fld := ⟨21, 0⟩
def LE_CENTRE.VALUE : Fld := ⟨21, 0⟩
def LE_DST.KIND : Fld := ⟨18, 16⟩
def LE_DST.NEG : Fld := ⟨8, 8⟩
def LE_DST.LEG : Fld := ⟨6, 0⟩
def LE_DOFS.VALUE : Fld := ⟨31, 0⟩
def LE_WAIT.SATN : Fld := ⟨31, 24⟩
def LE_WAIT.WAITTO : Fld := ⟨7, 0⟩
def LE_STAT.BANK : Fld := ⟨29, 29⟩
def LE_STAT.SWPEND : Fld := ⟨28, 28⟩
def LE_STAT.SSACT : Fld := ⟨27, 27⟩
def LE_STAT.STALLED : Fld := ⟨26, 26⟩
def LE_STAT.AUTO : Fld := ⟨25, 25⟩
def LE_STAT.ACTIVE : Fld := ⟨24, 24⟩
def LE_STAT.SSDONE : Fld := ⟨12, 12⟩
def LE_STAT.SWDONE : Fld := ⟨11, 11⟩
def LE_STAT.SWDUP : Fld := ⟨10, 10⟩
def LE_STAT.ACTWR : Fld := ⟨9, 9⟩
def LE_STAT.CFG_REJ : Fld := ⟨8, 8⟩
def LE_STAT.ENREJ : Fld := ⟨7, 7⟩
def LE_STAT.STALE : Fld := ⟨6, 6⟩
def LE_STAT.MISS : Fld := ⟨5, 5⟩
def LE_STAT.SAT_MOD : Fld := ⟨4, 4⟩
def LE_STAT.SAT_MAP : Fld := ⟨3, 3⟩
def LE_STAT.SAT_OUT : Fld := ⟨2, 2⟩
def LE_STAT.SAT_ACC : Fld := ⟨1, 1⟩
def LE_STAT.SAT_IN : Fld := ⟨0, 0⟩
def LE_CNT.STALE_CNT : Fld := ⟨31, 24⟩
def LE_CNT.SWAP_CNT : Fld := ⟨23, 16⟩
def LE_CNT.MISS_CNT : Fld := ⟨15, 0⟩
def LE_IEN.EN : Fld := ⟨12, 0⟩
def LE_OUT.VALUE : Fld := ⟨31, 0⟩
def LE_CMD.SWAP : Fld := ⟨0, 0⟩
def LEPR_CTL.POLES : Fld := ⟨23, 16⟩
def LEPR_CTL.PCH : Fld := ⟨10, 8⟩
def LEPR_CTL.EN : Fld := ⟨0, 0⟩
def LEPR_AOFS.ANGLE : Fld := ⟨15, 0⟩
def LEPR_THETA.ANGLE : Fld := ⟨15, 0⟩
def LESWAP.LE : Fld := ⟨31, 0⟩
def LEEN.LE : Fld := ⟨31, 0⟩
def CMP_CTL.WAKE : Fld := ⟨17, 16⟩
def CMP_CTL.CAPEN : Fld := ⟨15, 15⟩
def CMP_CTL.WIN : Fld := ⟨14, 14⟩
def CMP_CTL.TB : Fld := ⟨13, 9⟩
def CMP_CTL.FILT : Fld := ⟨8, 5⟩
def CMP_CTL.INV : Fld := ⟨3, 3⟩
def CMP_CTL.HYST : Fld := ⟨2, 1⟩
def CMP_CTL.EN : Fld := ⟨0, 0⟩
def CMP_BLANK.EN : Fld := ⟨31, 31⟩
def CMP_BLANK.EDGES : Fld := ⟨27, 24⟩
def CMP_BLANK.LEG : Fld := ⟨22, 16⟩
def CMP_BLANK.BLEN : Fld := ⟨9, 0⟩
def CMP_CAPCFG.CEDGE : Fld := ⟨9, 8⟩
def CMP_CAPCFG.SCALE : Fld := ⟨7, 4⟩
def CMP_CAPCFG.CSEL : Fld := ⟨1, 0⟩
def CMP_CAP.FRESH : Fld := ⟨31, 31⟩
def CMP_CAP.SAT : Fld := ⟨30, 30⟩
def CMP_CAP.TV : Fld := ⟨29, 29⟩
def CMP_CAP.VALUE : Fld := ⟨15, 0⟩
def CMP_CTSL.TS : Fld := ⟨31, 0⟩
def CMP_CTSH.TS : Fld := ⟨31, 0⟩
def CMP_STAT.QOUT : Fld := ⟨15, 15⟩
def CMP_STAT.OUT : Fld := ⟨14, 14⟩
def CMP_STAT.WOUT : Fld := ⟨13, 13⟩
def CMP_STAT.CFG_REJ : Fld := ⟨6, 6⟩
def CMP_STAT.WAKEF : Fld := ⟨5, 5⟩
def CMP_STAT.BLEDGE : Fld := ⟨4, 4⟩
def CMP_STAT.WEXIT : Fld := ⟨3, 3⟩
def CMP_STAT.CAPF : Fld := ⟨2, 2⟩
def CMP_STAT.FALL : Fld := ⟨1, 1⟩
def CMP_STAT.RISE : Fld := ⟨0, 0⟩
def CMP_CNT.FALL_CNT : Fld := ⟨31, 16⟩
def CMP_CNT.RISE_CNT : Fld := ⟨15, 0⟩
def CMP_IEN.EN : Fld := ⟨6, 0⟩
def CMPOUT.CMP : Fld := ⟨31, 0⟩
def CMPQOUT.CMP : Fld := ⟨31, 0⟩
def POS_CTL.CAP : Fld := ⟨23, 23⟩
def POS_CTL.TB : Fld := ⟨22, 18⟩
def POS_CTL.FILT : Fld := ⟨17, 14⟩
def POS_CTL.DIR : Fld := ⟨13, 13⟩
def POS_CTL.USRC : Fld := ⟨12, 12⟩
def POS_CTL.IDXMODE : Fld := ⟨11, 10⟩
def POS_CTL.IDXAB : Fld := ⟨9, 8⟩
def POS_CTL.IDXANY : Fld := ⟨7, 7⟩
def POS_CTL.MODE : Fld := ⟨2, 1⟩
def POS_CTL.EN : Fld := ⟨0, 0⟩
def POS_TRIG.TCH : Fld := ⟨31, 24⟩
def POS_TRIG.TSRC : Fld := ⟨23, 23⟩
def POS_TRIG.EVMASK : Fld := ⟨22, 19⟩
def POS_CPR.VALUE : Fld := ⟨31, 0⟩
def POS_POS.VALUE : Fld := ⟨31, 0⟩
def POS_REV.VALUE : Fld := ⟨31, 0⟩
def POS_SPD.VALUE : Fld := ⟨31, 0⟩
def POS_SPDK.VALUE : Fld := ⟨31, 0⟩
def POS_SPDTO.TO : Fld := ⟨15, 0⟩
def POS_IDX.VALUE : Fld := ⟨31, 0⟩
def POS_IDXL.VALUE : Fld := ⟨31, 0⟩
def POS_UPOS.VALUE : Fld := ⟨31, 0⟩
def POS_UREV.VALUE : Fld := ⟨31, 0⟩
def POS_USPD.VALUE : Fld := ⟨31, 0⟩
def POS_UTSL.VALUE : Fld := ⟨31, 0⟩
def POS_UTSH.VALUE : Fld := ⟨31, 0⟩
def POS_SCFG.ERRINV : Fld := ⟨31, 31⟩
def POS_SCFG.GRAY : Fld := ⟨30, 30⟩
def POS_SCFG.CRC : Fld := ⟨29, 28⟩
def POS_SCFG.STBITS : Fld := ⟨27, 22⟩
def POS_SCFG.DLEN : Fld := ⟨21, 16⟩
def POS_SCFG.DIV : Fld := ⟨11, 0⟩
def POS_STIME.TMO : Fld := ⟨23, 16⟩
def POS_STIME.DELAY : Fld := ⟨11, 0⟩
def POS_SDLY.DELAY : Fld := ⟨11, 0⟩
def POS_SRAWL.VALUE : Fld := ⟨31, 0⟩
def POS_SRAWH.VALUE : Fld := ⟨31, 0⟩
def POS_STAT.SHIFT : Fld := ⟨15, 15⟩
def POS_STAT.RUNNING : Fld := ⟨14, 14⟩
def POS_STAT.LASTDIR : Fld := ⟨13, 13⟩
def POS_STAT.SPDZERO : Fld := ⟨12, 12⟩
def POS_STAT.CFG_REJ : Fld := ⟨9, 9⟩
def POS_STAT.TRIGDROP : Fld := ⟨8, 8⟩
def POS_STAT.WARN : Fld := ⟨7, 7⟩
def POS_STAT.ERR_ENC : Fld := ⟨6, 6⟩
def POS_STAT.ERR_FORMAT : Fld := ⟨5, 5⟩
def POS_STAT.ERR_CRC : Fld := ⟨4, 4⟩
def POS_STAT.ERR_TIMEOUT : Fld := ⟨3, 3⟩
def POS_STAT.ILLEGAL : Fld := ⟨2, 2⟩
def POS_STAT.INDEX : Fld := ⟨1, 1⟩
def POS_STAT.UPD : Fld := ⟨0, 0⟩
def POS_CNT.ERR_CNT : Fld := ⟨31, 24⟩
def POS_CNT.DROP_CNT : Fld := ⟨23, 16⟩
def POS_CNT.ILLEGAL_CNT : Fld := ⟨15, 0⟩
def POS_IEN.EN : Fld := ⟨9, 0⟩
def CH_EN.BIT : Fld := ⟨31, 0⟩
def CH_CTL.IFLAG : Fld := ⟨1, 1⟩
def CH_CTL.HOLD : Fld := ⟨0, 0⟩
def CH_OWN.SEC : Fld := ⟨4, 4⟩
def CH_OWN.OWNER : Fld := ⟨2, 0⟩
def CH_CNT.ACT_CNT : Fld := ⟨31, 16⟩
def CH_CNT.MERGE : Fld := ⟨7, 0⟩
def SWTRIG.BIT : Fld := ⟨31, 0⟩
def EVCSEL.SEL : Fld := ⟨31, 0⟩
def CHFLAG.BIT : Fld := ⟨31, 0⟩
def EVSTAT.REJCH : Fld := ⟨27, 20⟩
def EVSTAT.REJREQ : Fld := ⟨18, 16⟩
def EVSTAT.SWREJ : Fld := ⟨2, 2⟩
def EVSTAT.SECREJ : Fld := ⟨1, 1⟩
def EVSTAT.OWNREJ : Fld := ⟨0, 0⟩
def EVIEN.EN : Fld := ⟨2, 0⟩
def EVCNT.PMERGE : Fld := ⟨15, 0⟩
def ICSRC.STATE : Fld := ⟨31, 30⟩
def ICSRC.ASSERTED : Fld := ⟨29, 29⟩
def ICSRC.TARGET : Fld := ⟨5, 4⟩
def ICSRC.LEVEL : Fld := ⟨2, 0⟩
def ICEN.SRC : Fld := ⟨31, 0⟩
def ICENSET.SRC : Fld := ⟨31, 0⟩
def ICENCLR.SRC : Fld := ⟨31, 0⟩
def ICPEND.SRC : Fld := ⟨31, 0⟩
def ICROUTES.SRC : Fld := ⟨31, 0⟩
def ICSTORM.SRC : Fld := ⟨31, 0⟩
def ICGCFG.STORMN : Fld := ⟨7, 0⟩
def ISWSET.SW : Fld := ⟨7, 0⟩
def ISWCLR.SW : Fld := ⟨7, 0⟩
def ICSTK.DEPTH : Fld := ⟨27, 24⟩
def ICSTK.TLEVEL : Fld := ⟨19, 16⟩
def ICSTK.P : Fld := ⟨12, 12⟩
def ICSTK.LEVEL : Fld := ⟨11, 9⟩
def ICSTK.SRC : Fld := ⟨8, 0⟩
def ICCFG.MODLVL : Fld := ⟨15, 8⟩
def ICCFG.QLVL : Fld := ⟨6, 4⟩
def ICCFG.MODE : Fld := ⟨1, 1⟩
def ICCFG.EN : Fld := ⟨0, 0⟩
def ICMOD.SCOUNT : Fld := ⟨31, 24⟩
def ICMOD.STIME : Fld := ⟨23, 16⟩
def ICMOD.NCOUNT : Fld := ⟨15, 8⟩
def ICMOD.NTIME : Fld := ⟨7, 0⟩
def ICEOI.SRC : Fld := ⟨8, 0⟩
def ICACT.DEPTH : Fld := ⟨27, 24⟩
def ICACT.TLEVEL : Fld := ⟨19, 16⟩
def ICACT.P : Fld := ⟨12, 12⟩
def ICACT.LEVEL : Fld := ⟨11, 9⟩
def ICACT.SRC : Fld := ⟨8, 0⟩
def ICQBASE.ADDR : Fld := ⟨31, 4⟩
def ICQSIZE.LIMIT : Fld := ⟨28, 16⟩
def ICQSIZE.QSZ : Fld := ⟨3, 0⟩
def ICQWR.INDEX : Fld := ⟨15, 0⟩
def ICQRD.INDEX : Fld := ⟨15, 0⟩
def ICQDONE.SRC : Fld := ⟨8, 0⟩
def ICSTAT.CAUSE : Fld := ⟨27, 24⟩
def ICSTAT.BROKEN : Fld := ⟨8, 8⟩
def ICSTAT.FULL : Fld := ⟨3, 3⟩
def ICSTAT.CFG_REJ : Fld := ⟨2, 2⟩
def ICSTAT.ENREJ : Fld := ⟨1, 1⟩
def ICSTAT.WREJ : Fld := ⟨0, 0⟩
def ICCNT.FULL_CNT : Fld := ⟨31, 16⟩
def ICCNT.WITHHELD_CNT : Fld := ⟨15, 0⟩
def FSTAT.LINE : Fld := ⟨31, 0⟩
def FLIVE.LINE : Fld := ⟨31, 0⟩
def FMASK.LINE : Fld := ⟨31, 0⟩
def FLEVEL.CEIL : Fld := ⟨6, 4⟩
def FLEVEL.LEVEL : Fld := ⟨2, 0⟩
def FCLSTAT.OPEN : Fld := ⟨31, 31⟩
def FCLSTAT.ELEVEL : Fld := ⟨18, 16⟩
def FCLSTAT.OCC : Fld := ⟨7, 0⟩
def FGMAP.LEG : Fld := ⟨31, 0⟩
def FACK.CLASS : Fld := ⟨15, 0⟩
def FSUM.LOCKDOWN : Fld := ⟨31, 31⟩
def FSUM.ANY : Fld := ⟨19, 19⟩
def FSUM.TOP : Fld := ⟨18, 16⟩
def FSUM.OPEN : Fld := ⟨15, 0⟩
def FCSTAT.OVF : Fld := ⟨2, 2⟩
def FCSTAT.ACKREJ : Fld := ⟨1, 1⟩
def FCSTAT.POPEMPTY : Fld := ⟨0, 0⟩
def FREC.WORD : Fld := ⟨31, 0⟩
def FRECCNT.LOST : Fld := ⟨31, 16⟩
def FRECCNT.COUNT : Fld := ⟨5, 0⟩
def TOLLCTL.FEEDEN : Fld := ⟨0, 0⟩
def TOLLSTAT.PIN : Fld := ⟨31, 31⟩
def TOLLSTAT.MISSF : Fld := ⟨8, 8⟩
def TOLLSTAT.LEVEL4 : Fld := ⟨3, 3⟩
def TOLLSTAT.LOCK : Fld := ⟨2, 2⟩
def TOLLSTAT.NOREF : Fld := ⟨1, 1⟩
def TOLLSTAT.NOFEED : Fld := ⟨0, 0⟩
def SHL_DT.DTMAX : Fld := ⟨27, 16⟩
def SHL_DT.DTMIN : Fld := ⟨11, 0⟩
def SHL_TONH.ON : Fld := ⟨19, 0⟩
def SHL_TONL.ON : Fld := ⟨19, 0⟩
def SHL_REEF.ON : Fld := ⟨19, 0⟩
def SHL_HOLD.REEFED : Fld := ⟨17, 17⟩
def SHL_HOLD.HELD : Fld := ⟨16, 16⟩
def SHL_HOLD.HMASK : Fld := ⟨15, 0⟩
def SHL_STAT.REEFCUT : Fld := ⟨2, 2⟩
def SHL_STAT.TONCUT : Fld := ⟨1, 1⟩
def SHL_STAT.ILOCK : Fld := ⟨0, 0⟩
def SHL_CNT.CUT_CNT : Fld := ⟨15, 0⟩
def SHTM_LEG.LEG : Fld := ⟨31, 0⟩
def SHTM_CFG.EN : Fld := ⟨31, 31⟩
def SHTM_CFG.POL : Fld := ⟨30, 30⟩
def SHTM_CFG.QUAL : Fld := ⟨1, 0⟩
def SHREL.LEG : Fld := ⟨31, 0⟩
def SHHELD.LEG : Fld := ⟨31, 0⟩
def SHREEF.LEG : Fld := ⟨31, 0⟩
def SHGATE.EN : Fld := ⟨3, 0⟩
def SHBLANKMAX.MAX : Fld := ⟨9, 0⟩
def SHSTAT.GATEREJ : Fld := ⟨1, 1⟩
def SHSTAT.RELREJ : Fld := ⟨0, 0⟩
def WD_CTL.EN : Fld := ⟨0, 0⟩
def WD_TMO.WMIN : Fld := ⟨31, 16⟩
def WD_TMO.TIMEOUT : Fld := ⟨15, 0⟩
def WD_FEED.KEY : Fld := ⟨15, 0⟩
def WD_COUNT.COUNT : Fld := ⟨15, 0⟩
def WD_STAT.CFG_REJ : Fld := ⟨3, 3⟩
def WD_STAT.BADKEY : Fld := ⟨2, 2⟩
def WD_STAT.WARN : Fld := ⟨1, 1⟩
def WD_STAT.EXP : Fld := ⟨0, 0⟩
def WD_IEN.EN : Fld := ⟨2, 0⟩
def THSTAT.SHUT : Fld := ⟨31, 31⟩
def THSTAT.WARN : Fld := ⟨30, 30⟩
def THSTAT.HOT : Fld := ⟨23, 16⟩
def THSTAT.WARNF : Fld := ⟨0, 0⟩
def THIEN.EN : Fld := ⟨0, 0⟩
def VECSEL.SEL : Fld := ⟨15, 0⟩
def LOCKINFO.KIND : Fld := ⟨31, 28⟩
def LOCKINFO.ENTRY : Fld := ⟨27, 24⟩
def LOCKINFO.DETAIL : Fld := ⟨23, 16⟩
def LOCKINFO.LEVEL : Fld := ⟨3, 0⟩
def LOCKPC.SEL : Fld := ⟨31, 16⟩
def LOCKPC.PC : Fld := ⟨15, 0⟩
def EXCCNT.INT_CNT : Fld := ⟨31, 16⟩
def EXCCNT.EXC_CNT : Fld := ⟨15, 0⟩
def FLCLAIM.OWNER : Fld := ⟨10, 8⟩
def FLCLAIM.REL : Fld := ⟨1, 1⟩
def FLCLAIM.CLAIM : Fld := ⟨0, 0⟩
def FLADDR.ADDR : Fld := ⟨31, 4⟩
def FLDATA.DATA : Fld := ⟨31, 0⟩
def FLCMD.OP : Fld := ⟨31, 28⟩
def FLCMD.MARGIN : Fld := ⟨25, 24⟩
def FLCMD.COUNT : Fld := ⟨15, 0⟩
def FLSTAT.BUSY : Fld := ⟨31, 31⟩
def FLSTAT.OP : Fld := ⟨30, 28⟩
def FLSTAT.RESULT : Fld := ⟨27, 24⟩
def FLSTAT.NOCMD : Fld := ⟨10, 10⟩
def FLSTAT.EIFOUND : Fld := ⟨9, 9⟩
def FLSTAT.FACBAD : Fld := ⟨8, 8⟩
def FLSTAT.CMDREJ : Fld := ⟨7, 7⟩
def FLSTAT.CE : Fld := ⟨6, 6⟩
def FLSTAT.ABORT : Fld := ⟨5, 5⟩
def FLSTAT.FAIL : Fld := ⟨4, 4⟩
def FLSTAT.WPREJ : Fld := ⟨3, 3⟩
def FLSTAT.DONE : Fld := ⟨2, 2⟩
def FLSTAT.CLAIMREJ : Fld := ⟨1, 1⟩
def FLIEN.EN : Fld := ⟨7, 1⟩
def FLVADDR.ADDR : Fld := ⟨31, 4⟩
def FLVFAIL.COUNT : Fld := ⟨15, 0⟩
def FLCEADDR.ADDR : Fld := ⟨31, 4⟩
def FLCNT.CE_CNT : Fld := ⟨31, 16⟩
def FLWP.SLOTB : Fld := ⟨25, 25⟩
def FLWP.SLOTA : Fld := ⟨24, 24⟩
def FLWP.BANKB : Fld := ⟨23, 12⟩
def FLWP.BANKA : Fld := ⟨11, 0⟩
def FLCAL.NONE : Fld := ⟨3, 3⟩
def FLCAL.SEL : Fld := ⟨2, 2⟩
def FLCAL.VALID : Fld := ⟨1, 0⟩
def FLCALSEQ.SEQ : Fld := ⟨31, 0⟩
def FLOPSTAT.BUSY : Fld := ⟨31, 31⟩
def FLOPSTAT.OP : Fld := ⟨30, 28⟩
def FLOPSTAT.ARRAY : Fld := ⟨27, 26⟩
def FLOPSTAT.SECTOR : Fld := ⟨8, 0⟩
def FLEIC.SEC : Fld := ⟨31, 0⟩
def LNKCTL.TEN : Fld := ⟨2, 2⟩
def LNKCTL.AUTOENUM : Fld := ⟨1, 1⟩
def LNKCTL.EN : Fld := ⟨0, 0⟩
def LNKSTAT.HEAD : Fld := ⟨31, 31⟩
def LNKSTAT.RING : Fld := ⟨30, 30⟩
def LNKSTAT.ENUMBUSY : Fld := ⟨29, 29⟩
def LNKSTAT.CTV : Fld := ⟨28, 28⟩
def LNKSTAT.DUPHEAD : Fld := ⟨9, 9⟩
def LNKSTAT.ENUMERR : Fld := ⟨8, 8⟩
def LNKSTAT.ADDRCHG : Fld := ⟨7, 7⟩
def LNKSTAT.LDNRX : Fld := ⟨6, 6⟩
def LNKSTAT.BREAKF : Fld := ⟨5, 5⟩
def LNKSTAT.CTLOST : Fld := ⟨4, 4⟩
def LNKSTAT.CTGAIN : Fld := ⟨3, 3⟩
def LNKSTAT.DROP : Fld := ⟨2, 2⟩
def LNKSTAT.DOWNF : Fld := ⟨1, 1⟩
def LNKSTAT.UPF : Fld := ⟨0, 0⟩
def LNKIEN.EN : Fld := ⟨9, 0⟩
def LNKADDR.V : Fld := ⟨31, 31⟩
def LNKADDR.COUNT : Fld := ⟨30, 24⟩
def LNKADDR.BRK : Fld := ⟨23, 23⟩
def LNKADDR.BRKA : Fld := ⟨21, 16⟩
def LNKADDR.ADDR : Fld := ⟨5, 0⟩
def LNKTCFG.SYNCINT : Fld := ⟨31, 24⟩
def LNKTCFG.LOCKWIN : Fld := ⟨23, 16⟩
def LNKTCFG.STEPTHR : Fld := ⟨15, 8⟩
def LNKTCFG.HOLDTO : Fld := ⟨7, 0⟩
def LNKTSTAT.STATE : Fld := ⟨31, 30⟩
def LNKTSTAT.SRCP : Fld := ⟨29, 29⟩
def LNKTSTAT.GOOD : Fld := ⟨23, 16⟩
def LNKTSTAT.HOPS : Fld := ⟨5, 0⟩
def LNKTERR.E : Fld := ⟨31, 0⟩
def LNKRATE.RATE : Fld := ⟨31, 0⟩
def LNKTIMEL.T : Fld := ⟨31, 0⟩
def LNKTIMEH.T : Fld := ⟨31, 0⟩
def LNKRINGERR.E : Fld := ⟨31, 0⟩
def LNKTCMD.DMEAS : Fld := ⟨1, 1⟩
def LNKTCMD.ENUM : Fld := ⟨0, 0⟩
def LNKCNT.NOROUTE : Fld := ⟨31, 24⟩
def LNKCNT.DROP_CNT : Fld := ⟨23, 16⟩
def LNKCNT.ABORT_CNT : Fld := ⟨15, 8⟩
def LNKCNT.FMTERR : Fld := ⟨7, 0⟩
def LNKLDN.V : Fld := ⟨31, 31⟩
def LNKLDN.CLASS : Fld := ⟨13, 8⟩
def LNKLDN.SRC : Fld := ⟨5, 0⟩
def LNKP_CTL.ERRTH : Fld := ⟨15, 8⟩
def LNKP_CTL.DMINT : Fld := ⟨7, 4⟩
def LNKP_CTL.EN : Fld := ⟨0, 0⟩
def LNKP_STAT.TRAINED : Fld := ⟨31, 31⟩
def LNKP_STAT.PARTRDY : Fld := ⟨30, 30⟩
def LNKP_STAT.ALIGN : Fld := ⟨29, 28⟩
def LNKP_STAT.INV : Fld := ⟨27, 26⟩
def LNKP_STAT.DVALID : Fld := ⟨25, 25⟩
def LNKP_STAT.SKEW : Fld := ⟨23, 16⟩
def LNKP_STAT.ERRTHF : Fld := ⟨2, 2⟩
def LNKP_STAT.DOWNF : Fld := ⟨1, 1⟩
def LNKP_ASYM.ASYM : Fld := ⟨15, 0⟩
def LNKP_DLY.OUT : Fld := ⟨31, 16⟩
def LNKP_DLY.IN : Fld := ⟨15, 0⟩
def LNKP_CNT.SYMERR : Fld := ⟨31, 16⟩
def LNKP_CNT.RETRAIN : Fld := ⟨15, 8⟩
def LNKP_CNT.TCRC : Fld := ⟨7, 0⟩
def HIFCFG.FWTMO : Fld := ⟨23, 16⟩
def HIFCFG.FWEN : Fld := ⟨4, 4⟩
def HIFCFG.CHAINIF : Fld := ⟨2, 2⟩
def HIFCFG.SPIEN : Fld := ⟨1, 1⟩
def HIFCFG.PCIEEN : Fld := ⟨0, 0⟩
def HSTAT.L0LOST : Fld := ⟨10, 10⟩
def HSTAT.OBPOIS : Fld := ⟨9, 9⟩
def HSTAT.OBERR : Fld := ⟨8, 8⟩
def HSTAT.WREJ : Fld := ⟨7, 7⟩
def HSTAT.UNMAP : Fld := ⟨6, 6⟩
def HSTAT.ALIGN : Fld := ⟨5, 5⟩
def HSTAT.SPIOVF : Fld := ⟨4, 4⟩
def HSTAT.DBREJ : Fld := ⟨3, 3⟩
def HSTAT.TRUNC : Fld := ⟨2, 2⟩
def HSTAT.PCRC : Fld := ⟨1, 1⟩
def HSTAT.HCRC : Fld := ⟨0, 0⟩
def HIEN.L0LOST : Fld := ⟨10, 10⟩
def HIEN.OBPOIS : Fld := ⟨9, 9⟩
def HIEN.OBERR : Fld := ⟨8, 8⟩
def HIEN.WREJ : Fld := ⟨7, 7⟩
def HIEN.UNMAP : Fld := ⟨6, 6⟩
def HIEN.ALIGN : Fld := ⟨5, 5⟩
def HIEN.SPIOVF : Fld := ⟨4, 4⟩
def HIEN.DBREJ : Fld := ⟨3, 3⟩
def HIEN.TRUNC : Fld := ⟨2, 2⟩
def HIEN.PCRC : Fld := ⟨1, 1⟩
def HIEN.HCRC : Fld := ⟨0, 0⟩
def HCNT.HCRC_CNT : Fld := ⟨31, 24⟩
def HCNT.PCRC_CNT : Fld := ⟨23, 16⟩
def HCNT.TRUNC_CNT : Fld := ⟨15, 8⟩
def HCNT.DROP_CNT : Fld := ⟨7, 0⟩
def HMBSTAT.CBUSY : Fld := ⟨31, 31⟩
def HMBSTAT.RRDY : Fld := ⟨30, 30⟩
def HMBSTAT.RQN : Fld := ⟨26, 24⟩
def HMBSTAT.RLEN : Fld := ⟨10, 0⟩
def HDBELL.COUNT : Fld := ⟨10, 0⟩
def SPISTAT.CS : Fld := ⟨31, 31⟩
def SPISTAT.RQN : Fld := ⟨10, 8⟩
def SPISTAT.SBYTE : Fld := ⟨3, 0⟩
def FWSTAT.PEND : Fld := ⟨3, 3⟩
def FWSTAT.RPLREJ : Fld := ⟨2, 2⟩
def FWSTAT.LATE : Fld := ⟨1, 1⟩
def FWSTAT.TMOF : Fld := ⟨0, 0⟩
def FWIEN.PEND : Fld := ⟨3, 3⟩
def FWIEN.RPLREJ : Fld := ⟨2, 2⟩
def FWIEN.LATE : Fld := ⟨1, 1⟩
def FWIEN.TMOF : Fld := ⟨0, 0⟩
def FWRPL.STATUS : Fld := ⟨31, 16⟩
def FWRPL.DLEN : Fld := ⟨10, 0⟩
def PCIESTAT.L0 : Fld := ⟨31, 31⟩
def PCIESTAT.SEEN : Fld := ⟨30, 30⟩
def PCIESTAT.SPEED : Fld := ⟨19, 16⟩
def PCIESTAT.WIDTH : Fld := ⟨9, 8⟩
def HOBW.EN : Fld := ⟨31, 31⟩
def HOBW.BASE : Fld := ⟨18, 0⟩
def HMBCMD.WORD : Fld := ⟨31, 0⟩
def HMBRPL.WORD : Fld := ⟨31, 0⟩
def FWCMDBUF.WORD : Fld := ⟨31, 0⟩
def FWRPLBUF.WORD : Fld := ⟨31, 0⟩
def MSIXTAB.WORD : Fld := ⟨31, 0⟩
def MSIXPBA.WORD : Fld := ⟨31, 0⟩
def CAPR_CTL.STCH : Fld := ⟨31, 24⟩
def CAPR_CTL.SPCH : Fld := ⟨23, 16⟩
def CAPR_CTL.SNCH : Fld := ⟨15, 8⟩
def CAPR_CTL.WBEN : Fld := ⟨6, 6⟩
def CAPR_CTL.SNEN : Fld := ⟨5, 5⟩
def CAPR_CTL.SPEN : Fld := ⟨4, 4⟩
def CAPR_CTL.STEN : Fld := ⟨3, 3⟩
def CAPR_CTL.EN : Fld := ⟨0, 0⟩
def CAPR_CFG.FLUSHUS : Fld := ⟨31, 24⟩
def CAPR_CFG.VEC : Fld := ⟨18, 16⟩
def CAPR_CFG.WMARK : Fld := ⟨15, 0⟩
def CAPR_DBASE.ADDR : Fld := ⟨31, 4⟩
def CAPR_NDESC.N : Fld := ⟨6, 0⟩
def CAPR_SADC.SRC : Fld := ⟨31, 0⟩
def CAPR_SCMP0.SRC : Fld := ⟨31, 0⟩
def CAPR_SCMP1.SRC : Fld := ⟨31, 0⟩
def CAPR_SLE0.SRC : Fld := ⟨31, 0⟩
def CAPR_SLE1.SRC : Fld := ⟨31, 0⟩
def CAPR_SPOS.SRC : Fld := ⟨7, 0⟩
def CAPR_SNAP.ADDR : Fld := ⟨31, 2⟩
def CAPR_SNLEN.N : Fld := ⟨8, 0⟩
def CAPR_QTA.TAGS : Fld := ⟨12, 0⟩
def CAPR_WLINE.LINE : Fld := ⟨31, 0⟩
def CAPR_RLINE.LINE : Fld := ⟨31, 0⟩
def CAPR_WBL.ADDR : Fld := ⟨31, 2⟩
def CAPR_WBH.ADDR : Fld := ⟨15, 0⟩
def CAPR_STAT.RUN : Fld := ⟨31, 31⟩
def CAPR_STAT.ARMED : Fld := ⟨30, 30⟩
def CAPR_STAT.SNAPDROP : Fld := ⟨7, 7⟩
def CAPR_STAT.CFG_REJ : Fld := ⟨6, 6⟩
def CAPR_STAT.HOSTERR : Fld := ⟨5, 5⟩
def CAPR_STAT.BADDESC : Fld := ⟨4, 4⟩
def CAPR_STAT.LOSS : Fld := ⟨3, 3⟩
def CAPR_STAT.DFILL : Fld := ⟨2, 2⟩
def CAPR_STAT.WM : Fld := ⟨1, 1⟩
def CAPR_IEN.EN : Fld := ⟨7, 1⟩
def CAPR_LOST.COUNT : Fld := ⟨31, 0⟩
def CAPR_USE.IN_USE : Fld := ⟨12, 0⟩
def TKCFG.PARTYB : Fld := ⟨2, 0⟩
def BOOTPOL.KEYMASK : Fld := ⟨3, 0⟩
def BOOTMIN.MINSEQ : Fld := ⟨31, 0⟩
def TK_SADDR.ADDR : Fld := ⟨31, 2⟩
def TK_STAGE.VALUE : Fld := ⟨31, 0⟩
def TK_COMMIT_A.NONCE : Fld := ⟨15, 0⟩
def TK_COMMIT_B.NONCE : Fld := ⟨15, 0⟩
def TK_NONCE.VALID : Fld := ⟨31, 31⟩
def TK_NONCE.NONCE : Fld := ⟨15, 0⟩
def TK_STAT.OPEN : Fld := ⟨31, 31⟩
def TK_STAT.SEALED : Fld := ⟨30, 30⟩
def TK_STAT.ADONE : Fld := ⟨29, 29⟩
def TK_STAT.BDONE : Fld := ⟨28, 28⟩
def TK_STAT.COUNT : Fld := ⟨27, 24⟩
def TK_STAT.OPENER : Fld := ⟨23, 21⟩
def TK_STAT.BOOTKEY : Fld := ⟨20, 20⟩
def TK_STAT.FAILJ : Fld := ⟨19, 16⟩
def TK_STAT.RESULT : Fld := ⟨15, 12⟩
def TK_STAT.NBUSY : Fld := ⟨7, 7⟩
def TK_STAT.SREJ : Fld := ⟨6, 6⟩
def TK_STAT.BUSYREJ : Fld := ⟨5, 5⟩
def TK_STAT.WRONGPARTY : Fld := ⟨4, 4⟩
def TK_STAT.NOSTAGE : Fld := ⟨3, 3⟩
def TK_STAT.WREJ : Fld := ⟨2, 2⟩
def TK_STAT.FAILF : Fld := ⟨1, 1⟩
def TK_STAT.DONEF : Fld := ⟨0, 0⟩
def TK_CNT.COMMIT_CNT : Fld := ⟨31, 16⟩
def TK_CNT.FAIL_CNT : Fld := ⟨15, 8⟩
def TK_CNT.REJ_CNT : Fld := ⟨7, 0⟩
def TK_ENTA.ADDR : Fld := ⟨31, 2⟩
def TK_ENTA.V : Fld := ⟨0, 0⟩
def TK_ENTV.VALUE : Fld := ⟨31, 0⟩
def VERCTL.START : Fld := ⟨8, 8⟩
def VERCTL.BANK : Fld := ⟨0, 0⟩
def VERSTAT.BUSY : Fld := ⟨31, 31⟩
def VERSTAT.RESULT : Fld := ⟨27, 24⟩
def VERSTAT.BANK : Fld := ⟨0, 0⟩
def VERSEQ.VALUE : Fld := ⟨31, 0⟩
def RNG.VALUE : Fld := ⟨31, 0⟩

/-! The bits of the readiness words (R349). -/
def READY0.AON : Fld := ⟨0, 0⟩
def READY0.SHROUD : Fld := ⟨1, 1⟩
def READY0.FABRIC : Fld := ⟨2, 2⟩
def READY0.PLLA : Fld := ⟨3, 3⟩
def READY0.PLLB : Fld := ⟨4, 4⟩
def READY0.ANALOG : Fld := ⟨5, 5⟩
def READY0.TEMPO : Fld := ⟨6, 6⟩
def READY0.FLASH : Fld := ⟨7, 7⟩
def READY0.THERM : Fld := ⟨8, 8⟩
def READY0.SRAM : Fld := ⟨9, 9⟩
def READY0.PCIE : Fld := ⟨10, 10⟩
def READY0.BOOT : Fld := ⟨11, 11⟩
def READY2.UP : Fld := ⟨0, 0⟩
def READY2.DOWN : Fld := ⟨1, 1⟩
def READY2.ENUM : Fld := ⟨2, 2⟩
def READY2.CTIME : Fld := ⟨3, 3⟩

end Sys2Proof.Machine
end

