-- ==== Sys2Proof/Config.lean ====
section
/-!
DEFINITION. What an implementation fixes and the free values: constants with no body, so that nothing proved rests on a
value the spec leaves open.  Time is counted in units of 1/192 ns, in which every instant of the spec is whole.
-/
namespace Sys2Proof

/-- Time units per nanosecond, fine unit (625/24 ps), tick (625 ps), 400 MHz AC cycle and 25 MHz reference cycle. -/
abbrev tuNs : Nat := 192
abbrev tuFine : Nat := 5
abbrev tuTick : Nat := 120
abbrev tuAc : Nat := 480
abbrev tuRef : Nat := 7680
abbrev tuUs : Nat := 192000

namespace Config

/-- A fresh value the spec leaves open: the argument is the state's own counter (see the assumption log). -/
opaque freeValue : Nat → Word

/-- A fresh choice the spec leaves open between two outcomes. -/
opaque freeBool : Nat → Bool

/-- Bytes of the listed fields of the factory-calibration row (R336), offset FORMAT apart; the row's checksum among them. -/
opaque facByte : Nat → Byte

/-- Phase of PLL B ticks against PLL A ticks, in time units (R29: fixed by the reference, its value not given). -/
opaque pllBPhase : Nat

/-- Deviation of the front end's sine and cosine of an electrical angle from their computed values, in units of 2^-30; it is
used clamped, so that the total stays within 2^-22 of the exact value (R144). -/
opaque sinErr : Nat → Int
opaque cosErr : Nat → Int

/-- Bytes of the boot ROM outside its descriptor table (R356): the spec gives what the code does, not the bytes. -/
opaque romByte : Nat → Byte

/-- Whether the parity bit of a priority stack entry makes its count of ones odd (R213: the sense is not given). -/
opaque stackOdd : Bool

/-- Whether binary32 tininess is detected after rounding (R277: IEEE 754 leaves it to the implementation). -/
opaque tinyAfter : Bool

/-- The manufacturer code in the identification code (R462): its value is not given. -/
opaque jtagMaker : BitVec 11

/-- Holtund's PCIe vendor identifier (R406): its value is not given. -/
opaque vendorId : BitVec 16

end Config

end Sys2Proof
end

