-- ==== Sys2Proof/Machine/Regs.lean ====
section
/-!
DEFINITION. The device's register map: one constructor per register of the spec's register maps, its address, its reset
value and its access masks (R12, R13).  The tables follow the maps and field tables of the block chapters.
-/
namespace Sys2Proof.Machine
open Sys2Proof

/-- The access codes of R13, as masks over the 32 bits of one register.  Bits in no mask are RO (or reserved, which read 0
by R15): a write has no effect on them. -/
structure Access where
  rw  : Word := 0
  w1c : Word := 0
  w1s : Word := 0
  rc  : Word := 0
  tk  : Word := 0
  wo  : Word := 0
  deriving DecidableEq, Repr

/-- The system control block at 0x4000_0000 (R12). -/
inductive SysReg where
  | sysctl
  | sysstat
  | tmonctl
  | tmonstat
  | pace_slip
  | tempo (n : Fin 16)
  | tempomin
  | tagbud (h : Fin 70)
  | taguse (h : Fin 70)
  | tagtotal
  | corestat
  | dtbase (c : Fin 5)
  | memctl
  | memstat
  | memien
  | memcnt
  | memueaddr
  | memueinfo
  | memceaddr
  | memceinfo
  | mempatrol
  | memtaddr
  | memtdata
  | memtchk
  | memtcmd
  | remap (b : Fin 8) (e : Fin 16)
  | ready (k : Fin 4)
  | ident
  | rstcause
  | rstctl
  | corerun
  | bootent (c : Fin 4)
  | bootstat
  | bootseq
  | bootfseg (c : Fin 5)
  | bootfpc (c : Fin 5)
  | iostat
  deriving DecidableEq, Repr

/-- Leg n (R95 map). -/
inductive LegReg where
  | ctl
  | cmpa
  | cmpb
  | phase
  | dt
  | adt
  | adtlim
  | adtcomp
  | dtact
  | adtmeas
  | stat
  | cnt
  | ien
  deriving DecidableEq, Repr

/-- Timebase n. -/
inductive TbReg where
  | ctl
  | period
  | offset
  | sync
  | count
  | stat
  | evcmp (k : Fin 4)
  | ien
  | pact
  | pherr
  deriving DecidableEq, Repr

/-- Shared registers of the timebase and leg block. -/
inductive TbgReg where
  | tbgstart
  | tbgstop
  | tbrun
  | legcommit (k : Fin 3)
  deriving DecidableEq, Repr

/-- Converter n. -/
inductive AdcReg where
  | ctl
  | trig
  | stat
  | cnt
  | ien
  | calg
  | calo
  | lim
  | last
  | ltsl
  | ltsh
  | seq (k : Fin 16)
  | res (k : Fin 16)
  deriving DecidableEq, Repr

/-- Shared converter registers. -/
inductive AdcgReg where
  | adcgstart
  | adcgstop
  | adcrun
  | adccalstart
  | adccalbusy
  | adccalfail
  | adccalskip
  | adcicfg
  deriving DecidableEq, Repr

/-- Loop engine n. -/
inductive LeReg where
  | ctl
  | msrc
  | rsrc
  | fsrc
  | mgain
  | mofs
  | rgain
  | rofs
  | ref
  | freg
  | mreg
  | manout
  | ssrate
  | obase
  | ospan
  | omin
  | omax
  | centre
  | dst (k : Fin 4)
  | dofs (k : Fin 4)
  | wait
  | stat
  | cnt
  | ien
  | out
  | cmd
  deriving DecidableEq, Repr

/-- Rotating-frame pair p. -/
inductive LeprReg where
  | ctl
  | aofs
  | theta
  deriving DecidableEq, Repr

/-- Shared loop engine registers. -/
inductive LeshReg where
  | leswap (k : Fin 2)
  | leen (k : Fin 2)
  deriving DecidableEq, Repr

/-- Comparator n (R183). -/
inductive CmpReg where
  | ctl
  | blank
  | capcfg
  | cap
  | ctsl
  | ctsh
  | stat
  | cnt
  | ien
  deriving DecidableEq, Repr

/-- Shared comparator registers (R183). -/
inductive CmpgReg where
  | cmpout (k : Fin 2)
  | cmpqout (k : Fin 2)
  deriving DecidableEq, Repr

/-- Position channel n (R184). -/
inductive PosReg where
  | ctl
  | trig
  | cpr
  | pos
  | rev
  | spd
  | spdk
  | spdto
  | idx
  | idxl
  | upos
  | urev
  | uspd
  | utsl
  | utsh
  | scfg
  | stime
  | sdly
  | srawl
  | srawh
  | stat
  | cnt
  | ien
  deriving DecidableEq, Repr

/-- Event channel c. -/
inductive ChReg where
  | en (k : Fin 16)
  | ctl
  | own
  | cnt
  deriving DecidableEq, Repr

/-- Shared event fabric registers. -/
inductive EvReg where
  | swtrig
  | evcsel (k : Fin 4)
  | chflag (k : Fin 8)
  | evstat
  | evien
  | evcnt
  deriving DecidableEq, Repr

/-- Interrupt controller registers by source, word or stack entry. -/
inductive IcReg where
  | icsrc (s : Fin 384)
  | icen (k : Fin 12)
  | icenset (k : Fin 12)
  | icenclr (k : Fin 12)
  | icpend (k : Fin 12)
  | icroutes (k : Fin 12)
  | icstorm (k : Fin 12)
  | icgcfg
  | iswset
  | iswclr
  | icstk (c : Fin 5) (j : Fin 8)
  deriving DecidableEq, Repr

/-- Interrupt controller registers of target c. -/
inductive IccReg where
  | iccfg
  | icmod
  | iceoi
  | icact
  | icqbase
  | icqsize
  | icqwr
  | icqrd
  | icqdone
  | icstat
  | iccnt
  deriving DecidableEq, Repr

/-- The fault collector (R245). -/
inductive FcReg where
  | fstat (k : Fin 16)
  | flive (k : Fin 16)
  | fmask (k : Fin 16)
  | flevel (c : Fin 16)
  | fclstat (c : Fin 16)
  | fgmap (c : Fin 16) (k : Fin 3)
  | fack
  | fsum
  | fcstat
  | frec (j : Fin 4)
  | frecpop
  | freccnt
  | tollctl
  | tollfeed
  | tollstat
  deriving DecidableEq, Repr

/-- Shroud registers of leg n (R246). -/
inductive ShlReg where
  | dt
  | tonh
  | tonl
  | reef
  | hold
  | stat
  | cnt
  deriving DecidableEq, Repr

/-- Trip-map row of comparator m (R246). -/
inductive ShtmReg where
  | leg (k : Fin 3)
  | cfg
  deriving DecidableEq, Repr

/-- Shared shroud registers (R246). -/
inductive ShgReg where
  | shrel (k : Fin 3)
  | shheld (k : Fin 3)
  | shreef (k : Fin 3)
  | shgate
  | shblankmax
  | shstat
  deriving DecidableEq, Repr

/-- Watchdog n (R247). -/
inductive WdReg where
  | ctl
  | tmo
  | feed
  | count
  | stat
  | ien
  deriving DecidableEq, Repr

/-- Thermal registers (R247). -/
inductive ThReg where
  | thstat
  | thien
  deriving DecidableEq, Repr

/-- Core registers of core c, 0-3 H0-H3, 4 S (R299). -/
inductive CoreReg where
  | vecsel
  | lockinfo
  | lockpc
  | exccnt
  deriving DecidableEq, Repr

/-- The flash engine (R342). -/
inductive FlReg where
  | flclaim
  | fladdr
  | fldata (j : Fin 4)
  | flcmd
  | flstat
  | flien
  | flvaddr
  | flvfail
  | flceaddr
  | flcnt
  | flwp
  | flcal
  | flcalseq
  | flopstat
  | fleic (k : Fin 13)
  deriving DecidableEq, Repr

/-- The link (R390). -/
inductive LnkReg where
  | lnkctl
  | lnkstat
  | lnkien
  | lnkaddr
  | lnktcfg
  | lnktstat
  | lnkterr
  | lnkrate
  | lnktimel
  | lnktimeh
  | lnkringerr
  | lnktcmd
  | lnkcnt
  | lnkldn
  deriving DecidableEq, Repr

/-- Link port p, 0 UP, 1 DOWN (R390). -/
inductive LnkpReg where
  | ctl
  | stat
  | asym
  | dly
  | cnt
  deriving DecidableEq, Repr

/-- The host interface (R425). -/
inductive HifReg where
  | hifcfg
  | hstat
  | hien
  | hcnt
  | hmbstat
  | hdbell
  | hrack
  | spistat
  | fwstat
  | fwien
  | fwrpl
  | pciestat
  | hobw (k : Fin 4)
  | hmbcmd (k : Fin 512)
  | hmbrpl (k : Fin 512)
  | fwcmdbuf (k : Fin 512)
  | fwrplbuf (k : Fin 512)
  | msixtab (k : Fin 32)
  | msixpba
  deriving DecidableEq, Repr

/-- Capture ring set r (R426). -/
inductive CaprReg where
  | ctl
  | cfg
  | dbase
  | ndesc
  | sadc
  | scmp0
  | scmp1
  | sle0
  | sle1
  | spos
  | snap
  | snlen
  | qta
  | wline
  | rline
  | wbl
  | wbh
  | stat
  | ien
  | lost
  | use
  deriving DecidableEq, Repr

/-- The security block (R443). -/
inductive SecReg where
  | tkcfg
  | bootpol
  | bootmin
  | tk_saddr
  | tk_stage
  | tk_commit_a
  | tk_commit_b
  | tk_clear
  | tk_nonce
  | tk_stat
  | tk_cnt
  | tk_enta (j : Fin 8)
  | tk_entv (j : Fin 8)
  | verctl
  | verstat
  | verseq
  | rng
  deriving DecidableEq, Repr

/-- Every register of the device region (R12). -/
inductive Reg where
  | sys (r : SysReg)
  | leg (n : Fin 96) (r : LegReg)
  | tb (n : Fin 32) (r : TbReg)
  | tbg (r : TbgReg)
  | adc (n : Fin 32) (r : AdcReg)
  | adcg (r : AdcgReg)
  | le (n : Fin 64) (r : LeReg)
  | lepr (p : Fin 32) (r : LeprReg)
  | lesh (r : LeshReg)
  | cmp (n : Fin 64) (r : CmpReg)
  | cmpg (r : CmpgReg)
  | pos (n : Fin 8) (r : PosReg)
  | ch (c : Fin 256) (r : ChReg)
  | ev (r : EvReg)
  | ic (r : IcReg)
  | icc (c : Fin 5) (r : IccReg)
  | fc (r : FcReg)
  | shl (n : Fin 96) (r : ShlReg)
  | shtm (m : Fin 64) (r : ShtmReg)
  | shg (r : ShgReg)
  | wd (n : Fin 5) (r : WdReg)
  | th (r : ThReg)
  | core (c : Fin 5) (r : CoreReg)
  | fl (r : FlReg)
  | lnk (r : LnkReg)
  | lnkp (p : Fin 2) (r : LnkpReg)
  | hif (r : HifReg)
  | capr (r : Fin 16) (r : CaprReg)
  | sec (r : SecReg)
  deriving DecidableEq, Repr

/-- Offset of a register from its block's (or instance 0's) base. -/
def SysReg.off : SysReg → Nat
  | .sysctl => 0x0
  | .sysstat => 0x4
  | .tmonctl => 0x10
  | .tmonstat => 0x14
  | .pace_slip => 0x18
  | .tempo n => 0x40 + 0x4 * n.val
  | .tempomin => 0x80
  | .tagbud h => 0x200 + 0x4 * h.val
  | .taguse h => 0x400 + 0x4 * h.val
  | .tagtotal => 0x600
  | .corestat => 0x800
  | .dtbase c => 0xc00 + 0x4 * c.val
  | .memctl => 0xc20
  | .memstat => 0xc24
  | .memien => 0xc28
  | .memcnt => 0xc2c
  | .memueaddr => 0xc30
  | .memueinfo => 0xc34
  | .memceaddr => 0xc38
  | .memceinfo => 0xc3c
  | .mempatrol => 0xc40
  | .memtaddr => 0xc50
  | .memtdata => 0xc54
  | .memtchk => 0xc58
  | .memtcmd => 0xc5c
  | .remap b e => 0xc80 + 0x40 * b.val + 0x4 * e.val
  | .ready k => 0x100 + 0x4 * k.val
  | .ident => 0x110
  | .rstcause => 0x114
  | .rstctl => 0x118
  | .corerun => 0x11c
  | .bootent c => 0x120 + 0x4 * c.val
  | .bootstat => 0x130
  | .bootseq => 0x134
  | .bootfseg c => 0x140 + 0x8 * c.val
  | .bootfpc c => 0x144 + 0x8 * c.val
  | .iostat => 0x700

/-- Access masks, from the field tables. -/
def SysReg.access : SysReg → Access
  | .sysctl => { rw := 0x17, w1s := 0x100 }
  | .sysstat => { w1c := 0x60 }
  | .tmonctl => { rw := 0xff }
  | .tmonstat => { w1c := 0xffffffff }
  | .pace_slip => { rc := 0xffff }
  | .tempo _ => {}
  | .tempomin => {}
  | .tagbud _ => { tk := 0x1fff }
  | .taguse _ => { rc := 0x1fff0000 }
  | .tagtotal => {}
  | .corestat => { w1c := 0x80000000 }
  | .dtbase _ => { tk := 0xffffffff }
  | .memctl => { rw := 0x10fff }
  | .memstat => { w1c := 0xff }
  | .memien => { rw := 0xff }
  | .memcnt => { rc := 0xffffffff }
  | .memueaddr => {}
  | .memueinfo => { w1c := 0x80000000 }
  | .memceaddr => {}
  | .memceinfo => {}
  | .mempatrol => {}
  | .memtaddr => { rw := 0xfffffffc }
  | .memtdata => { rw := 0xffffffff }
  | .memtchk => { rw := 0x7f }
  | .memtcmd => { wo := 0x3 }
  | .remap _ _ => { rw := 0x80001fff }
  | .ready _ => {}
  | .ident => {}
  | .rstcause => { w1c := 0x801f1f0f }
  | .rstctl => { wo := 0xff01001f }
  | .corerun => { rw := 0xf }
  | .bootent _ => { rw := 0xffffffff }
  | .bootstat => { rw := 0xccffff03 }
  | .bootseq => { rw := 0xffffffff }
  | .bootfseg _ => { rw := 0xffffffff }
  | .bootfpc _ => { rw := 0xffffffff }
  | .iostat => {}

/-- The committed level of fault class c after reset (R223): 3 for LEG, TRIP and IRQ, 2 for THERM, 4 for SUPPLY, else 1. -/
def flevelReset (c : Fin 16) : Nat :=
  if c.val = 0 ∨ c.val = 1 ∨ c.val = 8 then 3 else if c.val = 11 then 2 else if c.val = 12 then 4 else 1

/-- Reset values, from the maps and field tables. -/
def SysReg.reset : SysReg → Word
  | .sysctl => 0x0
  | .sysstat => 0x0
  | .tmonctl => 0x3c
  | .tmonstat => 0x0
  | .pace_slip => 0x0
  | .tempo _ => 0x0
  | .tempomin => 0x0
  | .tagbud h => if h.val < 4 then 256 else if h.val = 4 then 64 else if h.val < 69 then 32 else 960
  | .taguse _ => 0x0
  | .tagtotal => 0x10000000
  | .corestat => 0x0
  | .dtbase _ => 0xe00f
  | .memctl => 0x1000a
  | .memstat => 0x0
  | .memien => 0x0
  | .memcnt => 0x0
  | .memueaddr => 0x0
  | .memueinfo => 0x0
  | .memceaddr => 0x0
  | .memceinfo => 0x0
  | .mempatrol => 0x0
  | .memtaddr => 0x0
  | .memtdata => 0x0
  | .memtchk => 0x0
  | .memtcmd => 0x0
  | .remap _ _ => 0x0
  | .ready _ => 0x0
  | .ident => 0x9648b001
  | .rstcause => 0x1
  | .rstctl => 0x0
  | .corerun => 0x10
  | .bootent _ => 0x0
  | .bootstat => 0x0
  | .bootseq => 0x0
  | .bootfseg _ => 0x0
  | .bootfpc _ => 0x0
  | .iostat => 0x0

/-- Offset of a register from its block's (or instance 0's) base. -/
def LegReg.off : LegReg → Nat
  | .ctl => 0x0
  | .cmpa => 0x4
  | .cmpb => 0x8
  | .phase => 0xc
  | .dt => 0x10
  | .adt => 0x14
  | .adtlim => 0x18
  | .adtcomp => 0x1c
  | .dtact => 0x20
  | .adtmeas => 0x24
  | .stat => 0x28
  | .cnt => 0x2c
  | .ien => 0x30

/-- Access masks, from the field tables. -/
def LegReg.access : LegReg → Access
  | .ctl => { rw := 0xfff1331f }
  | .cmpa => { rw := 0x1ffffff }
  | .cmpb => { rw := 0x1ffffff }
  | .phase => { rw := 0x1ffffff }
  | .dt => { rw := 0xfff0fff }
  | .adt => { rw := 0xffff0fff }
  | .adtlim => { rw := 0xfff0fff }
  | .adtcomp => { rw := 0x1ff }
  | .dtact => {}
  | .adtmeas => {}
  | .stat => { w1c := 0xbe }
  | .cnt => { rc := 0xffffffff }
  | .ien => { rw := 0x10be }

/-- Reset values, from the maps and field tables. -/
def LegReg.reset : LegReg → Word
  | .ctl => 0x0
  | .cmpa => 0x0
  | .cmpb => 0x0
  | .phase => 0x0
  | .dt => 0x0
  | .adt => 0x0
  | .adtlim => 0xfff0000
  | .adtcomp => 0x133
  | .dtact => 0x0
  | .adtmeas => 0x0
  | .stat => 0x0
  | .cnt => 0x0
  | .ien => 0x0

/-- Offset of a register from its block's (or instance 0's) base. -/
def TbReg.off : TbReg → Nat
  | .ctl => 0x2000
  | .period => 0x2004
  | .offset => 0x2008
  | .sync => 0x200c
  | .count => 0x2010
  | .stat => 0x2014
  | .evcmp k => 0x2018 + 0x4 * k.val
  | .ien => 0x2028
  | .pact => 0x202c
  | .pherr => 0x2030

/-- Access masks, from the field tables. -/
def TbReg.access : TbReg → Access
  | .ctl => { rw := 0x1ff1f37 }
  | .period => { rw := 0xfffff }
  | .offset => { rw := 0x1ffffff }
  | .sync => { rw := 0xff00ff }
  | .count => {}
  | .stat => { w1c := 0x3ff }
  | .evcmp _ => { rw := 0x81ffffff }
  | .ien => { rw := 0x3ff }
  | .pact => {}
  | .pherr => {}

/-- Reset values, from the maps and field tables. -/
def TbReg.reset : TbReg → Word
  | .ctl => 0x0
  | .period => 0xfa0
  | .offset => 0x0
  | .sync => 0x18000c
  | .count => 0x0
  | .stat => 0x0
  | .evcmp _ => 0x0
  | .ien => 0x0
  | .pact => 0xfa0
  | .pherr => 0x0

/-- Offset of a register from its block's (or instance 0's) base. -/
def TbgReg.off : TbgReg → Nat
  | .tbgstart => 0x3000
  | .tbgstop => 0x3004
  | .tbrun => 0x3008
  | .legcommit k => 0x3010 + 0x4 * k.val

/-- Access masks, from the field tables. -/
def TbgReg.access : TbgReg → Access
  | .tbgstart => { wo := 0xffffffff }
  | .tbgstop => { wo := 0xffffffff }
  | .tbrun => {}
  | .legcommit _ => { wo := 0xffffffff }

/-- Reset values, from the maps and field tables. -/
def TbgReg.reset : TbgReg → Word
  | .tbgstart => 0x0
  | .tbgstop => 0x0
  | .tbrun => 0x0
  | .legcommit _ => 0x0

/-- Offset of a register from its block's (or instance 0's) base. -/
def AdcReg.off : AdcReg → Nat
  | .ctl => 0x0
  | .trig => 0x4
  | .stat => 0x8
  | .cnt => 0xc
  | .ien => 0x10
  | .calg => 0x14
  | .calo => 0x18
  | .lim => 0x1c
  | .last => 0x20
  | .ltsl => 0x24
  | .ltsh => 0x28
  | .seq k => 0x40 + 0x4 * k.val
  | .res k => 0x80 + 0x4 * k.val

/-- Access masks, from the field tables. -/
def AdcReg.access : AdcReg → Access
  | .ctl => { rw := 0xff9f0f17 }
  | .trig => { rw := 0xffffefff }
  | .stat => { w1c := 0xff }
  | .cnt => { rc := 0xffffffff }
  | .ien => { rw := 0xff }
  | .calg => { rw := 0xffff }
  | .calo => { rw := 0xffff }
  | .lim => { rw := 0xffffffff }
  | .last => { rc := 0x80000000 }
  | .ltsl => {}
  | .ltsh => {}
  | .seq _ => { rw := 0xc0f7 }
  | .res _ => { rc := 0x80000000 }

/-- Reset values, from the maps and field tables. -/
def AdcReg.reset : AdcReg → Word
  | .ctl => 0x0
  | .trig => 0x0
  | .stat => 0x0
  | .cnt => 0x0
  | .ien => 0x0
  | .calg => 0x8000
  | .calo => 0x0
  | .lim => 0x0
  | .last => 0x0
  | .ltsl => 0x0
  | .ltsh => 0x0
  | .seq _ => 0x0
  | .res _ => 0x0

/-- Offset of a register from its block's (or instance 0's) base. -/
def AdcgReg.off : AdcgReg → Nat
  | .adcgstart => 0x2000
  | .adcgstop => 0x2004
  | .adcrun => 0x2008
  | .adccalstart => 0x2010
  | .adccalbusy => 0x2014
  | .adccalfail => 0x2018
  | .adccalskip => 0x201c
  | .adcicfg => 0x2020

/-- Access masks, from the field tables. -/
def AdcgReg.access : AdcgReg → Access
  | .adcgstart => { wo := 0xffffffff }
  | .adcgstop => { wo := 0xffffffff }
  | .adcrun => {}
  | .adccalstart => { wo := 0xffffffff }
  | .adccalbusy => {}
  | .adccalfail => { w1c := 0xffffffff }
  | .adccalskip => { w1c := 0xffffffff }
  | .adcicfg => { rw := 0x7 }

/-- Reset values, from the maps and field tables. -/
def AdcgReg.reset : AdcgReg → Word
  | .adcgstart => 0x0
  | .adcgstop => 0x0
  | .adcrun => 0x0
  | .adccalstart => 0x0
  | .adccalbusy => 0x0
  | .adccalfail => 0x0
  | .adccalskip => 0x0
  | .adcicfg => 0x0

/-- Offset of a register from its block's (or instance 0's) base. -/
def LeReg.off : LeReg → Nat
  | .ctl => 0x0
  | .msrc => 0x4
  | .rsrc => 0x8
  | .fsrc => 0xc
  | .mgain => 0x10
  | .mofs => 0x14
  | .rgain => 0x18
  | .rofs => 0x1c
  | .ref => 0x20
  | .freg => 0x24
  | .mreg => 0x28
  | .manout => 0x2c
  | .ssrate => 0x30
  | .obase => 0x34
  | .ospan => 0x38
  | .omin => 0x3c
  | .omax => 0x40
  | .centre => 0x44
  | .dst k => 0x48 + 0x4 * k.val
  | .dofs k => 0x58 + 0x4 * k.val
  | .wait => 0x68
  | .stat => 0x6c
  | .cnt => 0x70
  | .ien => 0x74
  | .out => 0x78
  | .cmd => 0x7c

/-- Access masks, from the field tables. -/
def LeReg.access : LeReg → Access
  | .ctl => { rw := 0xffff9f17 }
  | .msrc => { rw := 0x8007e73f }
  | .rsrc => { rw := 0x8007e73f }
  | .fsrc => { rw := 0x8007e73f }
  | .mgain => { rw := 0xffffffff }
  | .mofs => { rw := 0xffffffff }
  | .rgain => { rw := 0xffffffff }
  | .rofs => { rw := 0xffffffff }
  | .ref => { rw := 0xffffffff }
  | .freg => { rw := 0xffffffff }
  | .mreg => { rw := 0xffffffff }
  | .manout => { rw := 0xffffffff }
  | .ssrate => { rw := 0x7fffffff }
  | .obase => { rw := 0xffffffff }
  | .ospan => { rw := 0xffffffff }
  | .omin => { rw := 0x3fffff }
  | .omax => { rw := 0x3fffff }
  | .centre => { rw := 0x3fffff }
  | .dst _ => { rw := 0x7017f }
  | .dofs _ => { rw := 0xffffffff }
  | .wait => { rw := 0xff0000ff }
  | .stat => { w1c := 0x1fff }
  | .cnt => { rc := 0xffffffff }
  | .ien => { rw := 0x1fff }
  | .out => {}
  | .cmd => { wo := 0x1 }

/-- Reset values, from the maps and field tables. -/
def LeReg.reset : LeReg → Word
  | .ctl => 0x0
  | .msrc => 0x0
  | .rsrc => 0x500
  | .fsrc => 0x0
  | .mgain => 0x40000000
  | .mofs => 0x0
  | .rgain => 0x40000000
  | .rofs => 0x0
  | .ref => 0x0
  | .freg => 0x0
  | .mreg => 0x0
  | .manout => 0x0
  | .ssrate => 0x0
  | .obase => 0x0
  | .ospan => 0x0
  | .omin => 0x0
  | .omax => 0x3fffff
  | .centre => 0x0
  | .dst _ => 0x0
  | .dofs _ => 0x0
  | .wait => 0x14
  | .stat => 0x0
  | .cnt => 0x0
  | .ien => 0x0
  | .out => 0x0
  | .cmd => 0x0

/-- Offset of a register from its block's (or instance 0's) base. -/
def LeprReg.off : LeprReg → Nat
  | .ctl => 0x2000
  | .aofs => 0x2004
  | .theta => 0x2008

/-- Access masks, from the field tables. -/
def LeprReg.access : LeprReg → Access
  | .ctl => { rw := 0xff0701 }
  | .aofs => { rw := 0xffff }
  | .theta => {}

/-- Reset values, from the maps and field tables. -/
def LeprReg.reset : LeprReg → Word
  | .ctl => 0x0
  | .aofs => 0x0
  | .theta => 0x0

/-- Offset of a register from its block's (or instance 0's) base. -/
def LeshReg.off : LeshReg → Nat
  | .leswap k => 0x2200 + 0x4 * k.val
  | .leen k => 0x2210 + 0x4 * k.val

/-- Access masks, from the field tables. -/
def LeshReg.access : LeshReg → Access
  | .leswap _ => { wo := 0xffffffff }
  | .leen _ => {}

/-- Reset values, from the maps and field tables. -/
def LeshReg.reset : LeshReg → Word
  | .leswap _ => 0x0
  | .leen _ => 0x0

/-- Offset of a register from its block's (or instance 0's) base. -/
def CmpReg.off : CmpReg → Nat
  | .ctl => 0x0
  | .blank => 0x4
  | .capcfg => 0x8
  | .cap => 0xc
  | .ctsl => 0x10
  | .ctsh => 0x14
  | .stat => 0x18
  | .cnt => 0x1c
  | .ien => 0x20

/-- Access masks, from the field tables. -/
def CmpReg.access : CmpReg → Access
  | .ctl => { rw := 0x3ffef }
  | .blank => { rw := 0x8f7f03ff }
  | .capcfg => { rw := 0x3f3 }
  | .cap => { rc := 0x80000000 }
  | .ctsl => {}
  | .ctsh => {}
  | .stat => { w1c := 0x7f }
  | .cnt => { rc := 0xffffffff }
  | .ien => { rw := 0x7f }

/-- Reset values, from the maps and field tables. -/
def CmpReg.reset : CmpReg → Word
  | .ctl => 0x0
  | .blank => 0x0
  | .capcfg => 0x0
  | .cap => 0x0
  | .ctsl => 0x0
  | .ctsh => 0x0
  | .stat => 0x0
  | .cnt => 0x0
  | .ien => 0x0

/-- Offset of a register from its block's (or instance 0's) base. -/
def CmpgReg.off : CmpgReg → Nat
  | .cmpout k => 0x1000 + 0x4 * k.val
  | .cmpqout k => 0x1008 + 0x4 * k.val

/-- Access masks, from the field tables. -/
def CmpgReg.access : CmpgReg → Access
  | .cmpout _ => {}
  | .cmpqout _ => {}

/-- Reset values, from the maps and field tables. -/
def CmpgReg.reset : CmpgReg → Word
  | .cmpout _ => 0x0
  | .cmpqout _ => 0x0

/-- Offset of a register from its block's (or instance 0's) base. -/
def PosReg.off : PosReg → Nat
  | .ctl => 0x0
  | .trig => 0x4
  | .cpr => 0x8
  | .pos => 0xc
  | .rev => 0x10
  | .spd => 0x14
  | .spdk => 0x18
  | .spdto => 0x1c
  | .idx => 0x20
  | .idxl => 0x24
  | .upos => 0x28
  | .urev => 0x2c
  | .uspd => 0x30
  | .utsl => 0x34
  | .utsh => 0x38
  | .scfg => 0x3c
  | .stime => 0x40
  | .sdly => 0x44
  | .srawl => 0x48
  | .srawh => 0x4c
  | .stat => 0x50
  | .cnt => 0x54
  | .ien => 0x58

/-- Access masks, from the field tables. -/
def PosReg.access : PosReg → Access
  | .ctl => { rw := 0xffff87 }
  | .trig => { rw := 0xfff80000 }
  | .cpr => { rw := 0xffffffff }
  | .pos => {}
  | .rev => {}
  | .spd => {}
  | .spdk => { rw := 0xffffffff }
  | .spdto => { rw := 0xffff }
  | .idx => { rw := 0xffffffff }
  | .idxl => {}
  | .upos => {}
  | .urev => {}
  | .uspd => {}
  | .utsl => {}
  | .utsh => {}
  | .scfg => { rw := 0xffff0fff }
  | .stime => { rw := 0xff0fff }
  | .sdly => {}
  | .srawl => {}
  | .srawh => {}
  | .stat => { w1c := 0x3ff }
  | .cnt => { rc := 0xffffffff }
  | .ien => { rw := 0x3ff }

/-- Reset values, from the maps and field tables. -/
def PosReg.reset : PosReg → Word
  | .ctl => 0x0
  | .trig => 0x0
  | .cpr => 0xffffffff
  | .pos => 0x0
  | .rev => 0x0
  | .spd => 0x0
  | .spdk => 0x10000
  | .spdto => 0x0
  | .idx => 0x0
  | .idxl => 0x0
  | .upos => 0x0
  | .urev => 0x0
  | .uspd => 0x0
  | .utsl => 0x0
  | .utsh => 0x0
  | .scfg => 0x1004f
  | .stime => 0x20000
  | .sdly => 0x0
  | .srawl => 0x0
  | .srawh => 0x0
  | .stat => 0x0
  | .cnt => 0x0
  | .ien => 0x0

/-- Offset of a register from its block's (or instance 0's) base. -/
def ChReg.off : ChReg → Nat
  | .en k => 0x0 + 0x4 * k.val
  | .ctl => 0x4000
  | .own => 0x4004
  | .cnt => 0x4008

/-- Access masks, from the field tables. -/
def ChReg.access : ChReg → Access
  | .en _ => { rw := 0xffffffff }
  | .ctl => { rw := 0x3 }
  | .own => { tk := 0x17 }
  | .cnt => { rc := 0xffff00ff }

/-- Reset values, from the maps and field tables. -/
def ChReg.reset : ChReg → Word
  | .en _ => 0x0
  | .ctl => 0x1
  | .own => 0x0
  | .cnt => 0x0

/-- Offset of a register from its block's (or instance 0's) base. -/
def EvReg.off : EvReg → Nat
  | .swtrig => 0x5000
  | .evcsel k => 0x5010 + 0x4 * k.val
  | .chflag k => 0x5020 + 0x4 * k.val
  | .evstat => 0x5040
  | .evien => 0x5044
  | .evcnt => 0x5048

/-- Access masks, from the field tables. -/
def EvReg.access : EvReg → Access
  | .swtrig => { wo := 0xffffffff }
  | .evcsel _ => { rw := 0xffffffff }
  | .chflag _ => { w1c := 0xffffffff }
  | .evstat => { w1c := 0x7 }
  | .evien => { rw := 0x7 }
  | .evcnt => { rc := 0xffff }

/-- Reset values, from the maps and field tables. -/
def EvReg.reset : EvReg → Word
  | .swtrig => 0x0
  | .evcsel _ => 0x0
  | .chflag _ => 0x0
  | .evstat => 0x0
  | .evien => 0x0
  | .evcnt => 0x0

/-- Offset of a register from its block's (or instance 0's) base. -/
def IcReg.off : IcReg → Nat
  | .icsrc s => 0x0 + 0x4 * s.val
  | .icen k => 0x600 + 0x4 * k.val
  | .icenset k => 0x640 + 0x4 * k.val
  | .icenclr k => 0x680 + 0x4 * k.val
  | .icpend k => 0x6c0 + 0x4 * k.val
  | .icroutes k => 0x700 + 0x4 * k.val
  | .icstorm k => 0x740 + 0x4 * k.val
  | .icgcfg => 0x800
  | .iswset => 0x804
  | .iswclr => 0x808
  | .icstk c j => 0x1400 + 0x20 * c.val + 0x4 * j.val

/-- Access masks, from the field tables. -/
def IcReg.access : IcReg → Access
  | .icsrc _ => { rw := 0x37 }
  | .icen _ => { rw := 0xffffffff }
  | .icenset _ => { w1s := 0xffffffff }
  | .icenclr _ => { w1c := 0xffffffff }
  | .icpend _ => {}
  | .icroutes _ => { tk := 0xffffffff }
  | .icstorm _ => { w1c := 0xffffffff }
  | .icgcfg => { rw := 0xff }
  | .iswset => { w1s := 0xff }
  | .iswclr => { w1c := 0xff }
  | .icstk _ _ => {}

/-- Reset values, from the maps and field tables. -/
def IcReg.reset : IcReg → Word
  | .icsrc _ => 0x7
  | .icen _ => 0x0
  | .icenset _ => 0x0
  | .icenclr _ => 0x0
  | .icpend _ => 0x0
  | .icroutes _ => 0x0
  | .icstorm _ => 0x0
  | .icgcfg => 0x0
  | .iswset => 0x0
  | .iswclr => 0x0
  | .icstk _ _ => 0x0

/-- Offset of a register from its block's (or instance 0's) base. -/
def IccReg.off : IccReg → Nat
  | .iccfg => 0x1000
  | .icmod => 0x1004
  | .iceoi => 0x1008
  | .icact => 0x100c
  | .icqbase => 0x1010
  | .icqsize => 0x1014
  | .icqwr => 0x1018
  | .icqrd => 0x101c
  | .icqdone => 0x1020
  | .icstat => 0x1024
  | .iccnt => 0x1028

/-- Access masks, from the field tables. -/
def IccReg.access : IccReg → Access
  | .iccfg => { rw := 0xff73 }
  | .icmod => { rw := 0xffffffff }
  | .iceoi => { wo := 0x1ff }
  | .icact => {}
  | .icqbase => { rw := 0xfffffff0 }
  | .icqsize => { rw := 0x1fff000f }
  | .icqwr => {}
  | .icqrd => { rw := 0xffff }
  | .icqdone => { wo := 0x1ff }
  | .icstat => { w1c := 0xf }
  | .iccnt => { rc := 0xffffffff }

/-- Reset values, from the maps and field tables. -/
def IccReg.reset : IccReg → Word
  | .iccfg => 0x70
  | .icmod => 0x0
  | .iceoi => 0x0
  | .icact => 0x80000
  | .icqbase => 0x20000000
  | .icqsize => 0x10000004
  | .icqwr => 0x0
  | .icqrd => 0x0
  | .icqdone => 0x0
  | .icstat => 0x0
  | .iccnt => 0x0

/-- Offset of a register from its block's (or instance 0's) base. -/
def FcReg.off : FcReg → Nat
  | .fstat k => 0x0 + 0x4 * k.val
  | .flive k => 0x40 + 0x4 * k.val
  | .fmask k => 0x80 + 0x4 * k.val
  | .flevel c => 0x100 + 0x4 * c.val
  | .fclstat c => 0x140 + 0x4 * c.val
  | .fgmap c k => 0x200 + 0x10 * c.val + 0x4 * k.val
  | .fack => 0x300
  | .fsum => 0x304
  | .fcstat => 0x308
  | .frec j => 0x310 + 0x4 * j.val
  | .frecpop => 0x320
  | .freccnt => 0x324
  | .tollctl => 0x330
  | .tollfeed => 0x334
  | .tollstat => 0x338

/-- Access masks, from the field tables. -/
def FcReg.access : FcReg → Access
  | .fstat _ => { w1c := 0xffffffff }
  | .flive _ => {}
  | .fmask _ => { tk := 0xffffffff }
  | .flevel _ => { tk := 0x77 }
  | .fclstat _ => {}
  | .fgmap _ _ => { tk := 0xffffffff }
  | .fack => { wo := 0xffff }
  | .fsum => {}
  | .fcstat => { w1c := 0x7 }
  | .frec _ => {}
  | .frecpop => { wo := 0xffffffff }
  | .freccnt => { rc := 0xffff0000 }
  | .tollctl => { w1s := 0x1 }
  | .tollfeed => { wo := 0xffffffff }
  | .tollstat => { w1c := 0x100 }

/-- Reset values, from the maps and field tables. -/
def FcReg.reset : FcReg → Word
  | .fstat _ => 0x0
  | .flive _ => 0x0
  | .fmask _ => 0x0
  | .flevel c => 0x50 ||| BitVec.ofNat 32 (flevelReset c)
  | .fclstat _ => 0x0
  | .fgmap c _ => if c.val = 11 ∨ c.val = 12 then 0xFFFFFFFF else 0
  | .fack => 0x0
  | .fsum => 0x0
  | .fcstat => 0x0
  | .frec _ => 0x0
  | .frecpop => 0x0
  | .freccnt => 0x0
  | .tollctl => 0x0
  | .tollfeed => 0x0
  | .tollstat => 0x0

/-- Offset of a register from its block's (or instance 0's) base. -/
def ShlReg.off : ShlReg → Nat
  | .dt => 0x0
  | .tonh => 0x4
  | .tonl => 0x8
  | .reef => 0xc
  | .hold => 0x10
  | .stat => 0x14
  | .cnt => 0x18

/-- Access masks, from the field tables. -/
def ShlReg.access : ShlReg → Access
  | .dt => { tk := 0xfff0fff }
  | .tonh => { tk := 0xfffff }
  | .tonl => { tk := 0xfffff }
  | .reef => { tk := 0xfffff }
  | .hold => {}
  | .stat => { w1c := 0x7 }
  | .cnt => { rc := 0xffff }

/-- Reset values, from the maps and field tables. -/
def ShlReg.reset : ShlReg → Word
  | .dt => 0xfff0180
  | .tonh => 0xfffff
  | .tonl => 0xfffff
  | .reef => 0x0
  | .hold => 0x0
  | .stat => 0x0
  | .cnt => 0x0

/-- Offset of a register from its block's (or instance 0's) base. -/
def ShtmReg.off : ShtmReg → Nat
  | .leg k => 0x1000 + 0x4 * k.val
  | .cfg => 0x100c

/-- Access masks, from the field tables. -/
def ShtmReg.access : ShtmReg → Access
  | .leg _ => { tk := 0xffffffff }
  | .cfg => { tk := 0xc0000003 }

/-- Reset values, from the maps and field tables. -/
def ShtmReg.reset : ShtmReg → Word
  | .leg _ => 0x0
  | .cfg => 0x0

/-- Offset of a register from its block's (or instance 0's) base. -/
def ShgReg.off : ShgReg → Nat
  | .shrel k => 0x2000 + 0x4 * k.val
  | .shheld k => 0x2010 + 0x4 * k.val
  | .shreef k => 0x2020 + 0x4 * k.val
  | .shgate => 0x2030
  | .shblankmax => 0x2034
  | .shstat => 0x2038

/-- Access masks, from the field tables. -/
def ShgReg.access : ShgReg → Access
  | .shrel _ => { wo := 0xffffffff }
  | .shheld _ => {}
  | .shreef _ => {}
  | .shgate => { rw := 0xf }
  | .shblankmax => { tk := 0x3ff }
  | .shstat => { w1c := 0x3 }

/-- Reset values, from the maps and field tables. -/
def ShgReg.reset : ShgReg → Word
  | .shrel _ => 0x0
  | .shheld _ => 0x0
  | .shreef _ => 0x0
  | .shgate => 0x0
  | .shblankmax => 0x0
  | .shstat => 0x0

/-- Offset of a register from its block's (or instance 0's) base. -/
def WdReg.off : WdReg → Nat
  | .ctl => 0x0
  | .tmo => 0x4
  | .feed => 0x8
  | .count => 0xc
  | .stat => 0x10
  | .ien => 0x14

/-- Access masks, from the field tables. -/
def WdReg.access : WdReg → Access
  | .ctl => { w1s := 0x1 }
  | .tmo => { rw := 0xffffffff }
  | .feed => { wo := 0xffff }
  | .count => {}
  | .stat => { w1c := 0xf }
  | .ien => { rw := 0x7 }

/-- Reset values, from the maps and field tables. -/
def WdReg.reset : WdReg → Word
  | .ctl => 0x0
  | .tmo => 0x8000
  | .feed => 0x0
  | .count => 0x0
  | .stat => 0x0
  | .ien => 0x0

/-- Offset of a register from its block's (or instance 0's) base. -/
def ThReg.off : ThReg → Nat
  | .thstat => 0x100
  | .thien => 0x104

/-- Access masks, from the field tables. -/
def ThReg.access : ThReg → Access
  | .thstat => { w1c := 0x1 }
  | .thien => { rw := 0x1 }

/-- Reset values, from the maps and field tables. -/
def ThReg.reset : ThReg → Word
  | .thstat => 0x0
  | .thien => 0x0

/-- Offset of a register from its block's (or instance 0's) base. -/
def CoreReg.off : CoreReg → Nat
  | .vecsel => 0x810
  | .lockinfo => 0x814
  | .lockpc => 0x818
  | .exccnt => 0x81c

/-- Access masks, from the field tables. -/
def CoreReg.access : CoreReg → Access
  | .vecsel => { rw := 0xffff }
  | .lockinfo => {}
  | .lockpc => {}
  | .exccnt => { rc := 0xffffffff }

/-- Reset values, from the maps and field tables. -/
def CoreReg.reset : CoreReg → Word
  | .vecsel => 0x0
  | .lockinfo => 0x0
  | .lockpc => 0x0
  | .exccnt => 0x0

/-- Offset of a register from its block's (or instance 0's) base. -/
def FlReg.off : FlReg → Nat
  | .flclaim => 0x0
  | .fladdr => 0x4
  | .fldata j => 0x10 + 0x4 * j.val
  | .flcmd => 0x20
  | .flstat => 0x24
  | .flien => 0x28
  | .flvaddr => 0x2c
  | .flvfail => 0x30
  | .flceaddr => 0x34
  | .flcnt => 0x38
  | .flwp => 0x40
  | .flcal => 0x44
  | .flcalseq => 0x48
  | .flopstat => 0x60
  | .fleic k => 0x80 + 0x4 * k.val

/-- Access masks, from the field tables. -/
def FlReg.access : FlReg → Access
  | .flclaim => { w1s := 0x3 }
  | .fladdr => { rw := 0xfffffff0 }
  | .fldata _ => { rw := 0xffffffff }
  | .flcmd => { wo := 0xf300ffff }
  | .flstat => { w1c := 0x2fe }
  | .flien => { rw := 0xfe }
  | .flvaddr => {}
  | .flvfail => {}
  | .flceaddr => {}
  | .flcnt => { rc := 0xffff0000 }
  | .flwp => { tk := 0x3ffffff }
  | .flcal => {}
  | .flcalseq => {}
  | .flopstat => {}
  | .fleic _ => {}

/-- Reset values, from the maps and field tables. -/
def FlReg.reset : FlReg → Word
  | .flclaim => 0x700
  | .fladdr => 0x0
  | .fldata _ => 0xffffffff
  | .flcmd => 0x0
  | .flstat => 0x0
  | .flien => 0x0
  | .flvaddr => 0x0
  | .flvfail => 0x0
  | .flceaddr => 0x0
  | .flcnt => 0x0
  | .flwp => 0x0
  | .flcal => 0x0
  | .flcalseq => 0x0
  | .flopstat => 0x0
  | .fleic _ => 0x0

/-- Offset of a register from its block's (or instance 0's) base. -/
def LnkReg.off : LnkReg → Nat
  | .lnkctl => 0x0
  | .lnkstat => 0x4
  | .lnkien => 0x8
  | .lnkaddr => 0xc
  | .lnktcfg => 0x10
  | .lnktstat => 0x14
  | .lnkterr => 0x18
  | .lnkrate => 0x1c
  | .lnktimel => 0x20
  | .lnktimeh => 0x24
  | .lnkringerr => 0x28
  | .lnktcmd => 0x2c
  | .lnkcnt => 0x30
  | .lnkldn => 0x34

/-- Access masks, from the field tables. -/
def LnkReg.access : LnkReg → Access
  | .lnkctl => { rw := 0x7 }
  | .lnkstat => { w1c := 0x3ff }
  | .lnkien => { rw := 0x3ff }
  | .lnkaddr => {}
  | .lnktcfg => { rw := 0xffffffff }
  | .lnktstat => {}
  | .lnkterr => {}
  | .lnkrate => {}
  | .lnktimel => {}
  | .lnktimeh => {}
  | .lnkringerr => {}
  | .lnktcmd => { wo := 0x3 }
  | .lnkcnt => { rc := 0xffffffff }
  | .lnkldn => {}

/-- Reset values, from the maps and field tables. -/
def LnkReg.reset : LnkReg → Word
  | .lnkctl => 0x7
  | .lnkstat => 0x0
  | .lnkien => 0x0
  | .lnkaddr => 0x0
  | .lnktcfg => 0x8081040
  | .lnktstat => 0x0
  | .lnkterr => 0x0
  | .lnkrate => 0x0
  | .lnktimel => 0x0
  | .lnktimeh => 0x0
  | .lnkringerr => 0x0
  | .lnktcmd => 0x0
  | .lnkcnt => 0x0
  | .lnkldn => 0x0

/-- Offset of a register from its block's (or instance 0's) base. -/
def LnkpReg.off : LnkpReg → Nat
  | .ctl => 0x100
  | .stat => 0x104
  | .asym => 0x108
  | .dly => 0x10c
  | .cnt => 0x110

/-- Access masks, from the field tables. -/
def LnkpReg.access : LnkpReg → Access
  | .ctl => { rw := 0xfff1 }
  | .stat => { w1c := 0x6 }
  | .asym => { rw := 0xffff }
  | .dly => {}
  | .cnt => { rc := 0xffffffff }

/-- Reset values, from the maps and field tables. -/
def LnkpReg.reset : LnkpReg → Word
  | .ctl => 0x1011
  | .stat => 0x0
  | .asym => 0x0
  | .dly => 0x0
  | .cnt => 0x0

/-- Offset of a register from its block's (or instance 0's) base. -/
def HifReg.off : HifReg → Nat
  | .hifcfg => 0x0
  | .hstat => 0x4
  | .hien => 0x8
  | .hcnt => 0xc
  | .hmbstat => 0x10
  | .hdbell => 0x14
  | .hrack => 0x18
  | .spistat => 0x1c
  | .fwstat => 0x20
  | .fwien => 0x24
  | .fwrpl => 0x28
  | .pciestat => 0x30
  | .hobw k => 0x40 + 0x4 * k.val
  | .hmbcmd k => 0x1000 + 0x4 * k.val
  | .hmbrpl k => 0x1800 + 0x4 * k.val
  | .fwcmdbuf k => 0x2000 + 0x4 * k.val
  | .fwrplbuf k => 0x2800 + 0x4 * k.val
  | .msixtab k => 0xf000 + 0x4 * k.val
  | .msixpba => 0xf800

/-- Access masks, from the field tables. -/
def HifReg.access : HifReg → Access
  | .hifcfg => { rw := 0xff0017 }
  | .hstat => { w1c := 0x7ff }
  | .hien => { rw := 0x7ff }
  | .hcnt => { rc := 0xffffffff }
  | .hmbstat => {}
  | .hdbell => { wo := 0x7ff }
  | .hrack => { wo := 0xffffffff }
  | .spistat => {}
  | .fwstat => { w1c := 0x7 }
  | .fwien => { rw := 0xf }
  | .fwrpl => { wo := 0xffff07ff }
  | .pciestat => {}
  | .hobw _ => { rw := 0x8007ffff }
  | .hmbcmd _ => { rw := 0xffffffff }
  | .hmbrpl _ => {}
  | .fwcmdbuf _ => {}
  | .fwrplbuf _ => { rw := 0xffffffff }
  | .msixtab _ => { rw := 0xffffffff }
  | .msixpba => {}

/-- Reset values, from the maps and field tables. -/
def HifReg.reset : HifReg → Word
  | .hifcfg => 0xa0003
  | .hstat => 0x0
  | .hien => 0x0
  | .hcnt => 0x0
  | .hmbstat => 0x0
  | .hdbell => 0x0
  | .hrack => 0x0
  | .spistat => 0x0
  | .fwstat => 0x0
  | .fwien => 0x0
  | .fwrpl => 0x0
  | .pciestat => 0x0
  | .hobw _ => 0x0
  | .hmbcmd _ => 0x0
  | .hmbrpl _ => 0x0
  | .fwcmdbuf _ => 0x0
  | .fwrplbuf _ => 0x0
  | .msixtab k => if k.val % 4 = 3 then 1 else 0
  | .msixpba => 0x0

/-- Offset of a register from its block's (or instance 0's) base. -/
def CaprReg.off : CaprReg → Nat
  | .ctl => 0x0
  | .cfg => 0x4
  | .dbase => 0x8
  | .ndesc => 0xc
  | .sadc => 0x10
  | .scmp0 => 0x14
  | .scmp1 => 0x18
  | .sle0 => 0x1c
  | .sle1 => 0x20
  | .spos => 0x24
  | .snap => 0x28
  | .snlen => 0x2c
  | .qta => 0x30
  | .wline => 0x34
  | .rline => 0x38
  | .wbl => 0x3c
  | .wbh => 0x40
  | .stat => 0x44
  | .ien => 0x48
  | .lost => 0x4c
  | .use => 0x50

/-- Access masks, from the field tables. -/
def CaprReg.access : CaprReg → Access
  | .ctl => { rw := 0xffffff79 }
  | .cfg => { rw := 0xff07ffff }
  | .dbase => { rw := 0xfffffff0 }
  | .ndesc => { rw := 0x7f }
  | .sadc => { rw := 0xffffffff }
  | .scmp0 => { rw := 0xffffffff }
  | .scmp1 => { rw := 0xffffffff }
  | .sle0 => { rw := 0xffffffff }
  | .sle1 => { rw := 0xffffffff }
  | .spos => { rw := 0xff }
  | .snap => { rw := 0xfffffffc }
  | .snlen => { rw := 0x1ff }
  | .qta => { rw := 0x1fff }
  | .wline => {}
  | .rline => { rw := 0xffffffff }
  | .wbl => { rw := 0xfffffffc }
  | .wbh => { rw := 0xffff }
  | .stat => { w1c := 0xfc }
  | .ien => { rw := 0xfe }
  | .lost => { rc := 0xffffffff }
  | .use => {}

/-- Reset values, from the maps and field tables. -/
def CaprReg.reset : CaprReg → Word
  | .ctl => 0x0
  | .cfg => 0xa000000
  | .dbase => 0x20000000
  | .ndesc => 0x0
  | .sadc => 0x0
  | .scmp0 => 0x0
  | .scmp1 => 0x0
  | .sle0 => 0x0
  | .sle1 => 0x0
  | .spos => 0x0
  | .snap => 0x0
  | .snlen => 0x0
  | .qta => 0x30
  | .wline => 0x0
  | .rline => 0x0
  | .wbl => 0x0
  | .wbh => 0x0
  | .stat => 0x0
  | .ien => 0x0
  | .lost => 0x0
  | .use => 0x0

/-- Offset of a register from its block's (or instance 0's) base. -/
def SecReg.off : SecReg → Nat
  | .tkcfg => 0x0
  | .bootpol => 0x4
  | .bootmin => 0x8
  | .tk_saddr => 0x10
  | .tk_stage => 0x14
  | .tk_commit_a => 0x18
  | .tk_commit_b => 0x1c
  | .tk_clear => 0x20
  | .tk_nonce => 0x24
  | .tk_stat => 0x28
  | .tk_cnt => 0x2c
  | .tk_enta j => 0x40 + 0x8 * j.val
  | .tk_entv j => 0x44 + 0x8 * j.val
  | .verctl => 0x100
  | .verstat => 0x104
  | .verseq => 0x108
  | .rng => 0x110

/-- Access masks, from the field tables. -/
def SecReg.access : SecReg → Access
  | .tkcfg => { tk := 0x7 }
  | .bootpol => { tk := 0xf }
  | .bootmin => { tk := 0xffffffff }
  | .tk_saddr => { rw := 0xfffffffc }
  | .tk_stage => { wo := 0xffffffff }
  | .tk_commit_a => { wo := 0xffff }
  | .tk_commit_b => { wo := 0xffff }
  | .tk_clear => { wo := 0xffffffff }
  | .tk_nonce => {}
  | .tk_stat => { w1c := 0x7f }
  | .tk_cnt => { rc := 0xffffffff }
  | .tk_enta _ => {}
  | .tk_entv _ => {}
  | .verctl => { wo := 0x101 }
  | .verstat => {}
  | .verseq => {}
  | .rng => {}

/-- Reset values, from the maps and field tables. -/
def SecReg.reset : SecReg → Word
  | .tkcfg => 0x5
  | .bootpol => 0xf
  | .bootmin => 0x0
  | .tk_saddr => 0x0
  | .tk_stage => 0x0
  | .tk_commit_a => 0x0
  | .tk_commit_b => 0x0
  | .tk_clear => 0x0
  | .tk_nonce => 0x0
  | .tk_stat => 0x0
  | .tk_cnt => 0x0
  | .tk_enta _ => 0x0
  | .tk_entv _ => 0x0
  | .verctl => 0x0
  | .verstat => 0x0
  | .verseq => 0x0
  | .rng => 0x0

/-- Physical address of a register. -/
def Reg.addr : Reg → Nat
  | .sys r => 0x40000000 + r.off
  | .leg i r => 0x40100000 + 0x40 * i.val + r.off
  | .tb i r => 0x40100000 + 0x40 * i.val + r.off
  | .tbg r => 0x40100000 + r.off
  | .adc i r => 0x40200000 + 0x100 * i.val + r.off
  | .adcg r => 0x40200000 + r.off
  | .le i r => 0x40400000 + 0x80 * i.val + r.off
  | .lepr i r => 0x40400000 + 0x10 * i.val + r.off
  | .lesh r => 0x40400000 + r.off
  | .cmp i r => 0x40300000 + 0x40 * i.val + r.off
  | .cmpg r => 0x40300000 + r.off
  | .pos i r => 0x40340000 + 0x100 * i.val + r.off
  | .ch i (.en k) => 0x40040000 + 0x40 * i.val + (ChReg.en k).off
  | .ch i r => 0x40040000 + 0x10 * i.val + r.off
  | .ev r => 0x40040000 + r.off
  | .ic r => 0x40060000 + r.off
  | .icc i r => 0x40060000 + 0x40 * i.val + r.off
  | .fc r => 0x40010000 + r.off
  | .shl i r => 0x40020000 + 0x20 * i.val + r.off
  | .shtm i r => 0x40020000 + 0x10 * i.val + r.off
  | .shg r => 0x40020000 + r.off
  | .wd i r => 0x40900000 + 0x20 * i.val + r.off
  | .th r => 0x40900000 + r.off
  | .core i r => 0x40000000 + 0x10 * i.val + r.off
  | .fl r => 0x40500000 + r.off
  | .lnk r => 0x40600000 + r.off
  | .lnkp i r => 0x40600000 + 0x40 * i.val + r.off
  | .hif r => 0x40700000 + r.off
  | .capr i r => 0x40780000 + 0x100 * i.val + r.off
  | .sec r => 0x40800000 + r.off

/-- Access masks of a register. -/
def Reg.access : Reg → Access
  | .sys r => r.access
  | .leg _ r => r.access
  | .tb _ r => r.access
  | .tbg r => r.access
  | .adc _ r => r.access
  | .adcg r => r.access
  | .le _ r => r.access
  | .lepr _ r => r.access
  | .lesh r => r.access
  | .cmp _ r => r.access
  | .cmpg r => r.access
  | .pos _ r => r.access
  | .ch _ r => r.access
  | .ev r => r.access
  | .ic r => r.access
  | .icc _ r => r.access
  | .fc r => r.access
  | .shl _ r => r.access
  | .shtm _ r => r.access
  | .shg r => r.access
  | .wd _ r => r.access
  | .th r => r.access
  | .core _ r => r.access
  | .fl r => r.access
  | .lnk r => r.access
  | .lnkp _ r => r.access
  | .hif r => r.access
  | .capr _ r => r.access
  | .sec r => r.access

/-- Reset value of a register. -/
def Reg.reset : Reg → Word
  | .sys r => r.reset
  | .leg _ r => r.reset
  | .tb _ r => r.reset
  | .tbg r => r.reset
  | .adc _ r => r.reset
  | .adcg r => r.reset
  | .le _ r => r.reset
  | .lepr _ r => r.reset
  | .lesh r => r.reset
  | .cmp _ r => r.reset
  | .cmpg r => r.reset
  | .pos _ r => r.reset
  | .ch _ r => r.reset
  | .ev r => r.reset
  | .ic r => r.reset
  | .icc _ r => r.reset
  | .fc r => r.reset
  | .shl _ r => r.reset
  | .shtm _ r => r.reset
  | .shg r => r.reset
  | .wd _ r => r.reset
  | .th r => r.reset
  | .core _ r => r.reset
  | .fl r => r.reset
  | .lnk r => r.reset
  | .lnkp _ r => r.reset
  | .hif r => r.reset
  | .capr _ r => r.reset
  | .sec r => r.reset

/-- The register at an aligned offset, if any. -/
def SysReg.ofOff (o : Nat) : Option SysReg :=
  if h : 0x40 ≤ o ∧ (o - 0x40) / 4 < 16 ∧ (o - 0x40) % 4 = 0 then some (.tempo ⟨(o - 0x40) / 4, h.2.1⟩) else
  if h : 0x200 ≤ o ∧ (o - 0x200) / 4 < 70 ∧ (o - 0x200) % 4 = 0 then some (.tagbud ⟨(o - 0x200) / 4, h.2.1⟩) else
  if h : 0x400 ≤ o ∧ (o - 0x400) / 4 < 70 ∧ (o - 0x400) % 4 = 0 then some (.taguse ⟨(o - 0x400) / 4, h.2.1⟩) else
  if h : 0xc00 ≤ o ∧ (o - 0xc00) / 4 < 5 ∧ (o - 0xc00) % 4 = 0 then some (.dtbase ⟨(o - 0xc00) / 4, h.2.1⟩) else
  if h : 0xc80 ≤ o ∧ (o - 0xc80) / 64 < 8 ∧ (o - 0xc80) % 64 / 4 < 16 ∧ (o - 0xc80) % 64 % 4 = 0 then
    some (.remap ⟨(o - 0xc80) / 64, h.2.1⟩ ⟨(o - 0xc80) % 64 / 4, h.2.2.1⟩) else
  if h : 0x100 ≤ o ∧ (o - 0x100) / 4 < 4 ∧ (o - 0x100) % 4 = 0 then some (.ready ⟨(o - 0x100) / 4, h.2.1⟩) else
  if h : 0x120 ≤ o ∧ (o - 0x120) / 4 < 4 ∧ (o - 0x120) % 4 = 0 then some (.bootent ⟨(o - 0x120) / 4, h.2.1⟩) else
  if h : 0x140 ≤ o ∧ (o - 0x140) / 8 < 5 ∧ (o - 0x140) % 8 = 0 then some (.bootfseg ⟨(o - 0x140) / 8, h.2.1⟩) else
  if h : 0x144 ≤ o ∧ (o - 0x144) / 8 < 5 ∧ (o - 0x144) % 8 = 0 then some (.bootfpc ⟨(o - 0x144) / 8, h.2.1⟩) else
  match o with
  | 0x0 => some .sysctl
  | 0x4 => some .sysstat
  | 0x10 => some .tmonctl
  | 0x14 => some .tmonstat
  | 0x18 => some .pace_slip
  | 0x80 => some .tempomin
  | 0x600 => some .tagtotal
  | 0x800 => some .corestat
  | 0xc20 => some .memctl
  | 0xc24 => some .memstat
  | 0xc28 => some .memien
  | 0xc2c => some .memcnt
  | 0xc30 => some .memueaddr
  | 0xc34 => some .memueinfo
  | 0xc38 => some .memceaddr
  | 0xc3c => some .memceinfo
  | 0xc40 => some .mempatrol
  | 0xc50 => some .memtaddr
  | 0xc54 => some .memtdata
  | 0xc58 => some .memtchk
  | 0xc5c => some .memtcmd
  | 0x110 => some .ident
  | 0x114 => some .rstcause
  | 0x118 => some .rstctl
  | 0x11c => some .corerun
  | 0x130 => some .bootstat
  | 0x134 => some .bootseq
  | 0x700 => some .iostat
  | _ => none

/-- The register at an aligned offset, if any. -/
def LegReg.ofOff (o : Nat) : Option LegReg :=
  match o with
  | 0x0 => some .ctl
  | 0x4 => some .cmpa
  | 0x8 => some .cmpb
  | 0xc => some .phase
  | 0x10 => some .dt
  | 0x14 => some .adt
  | 0x18 => some .adtlim
  | 0x1c => some .adtcomp
  | 0x20 => some .dtact
  | 0x24 => some .adtmeas
  | 0x28 => some .stat
  | 0x2c => some .cnt
  | 0x30 => some .ien
  | _ => none

/-- The register at an aligned offset, if any. -/
def TbReg.ofOff (o : Nat) : Option TbReg :=
  if h : 0x2018 ≤ o ∧ (o - 0x2018) / 4 < 4 ∧ (o - 0x2018) % 4 = 0 then some (.evcmp ⟨(o - 0x2018) / 4, h.2.1⟩) else
  match o with
  | 0x2000 => some .ctl
  | 0x2004 => some .period
  | 0x2008 => some .offset
  | 0x200c => some .sync
  | 0x2010 => some .count
  | 0x2014 => some .stat
  | 0x2028 => some .ien
  | 0x202c => some .pact
  | 0x2030 => some .pherr
  | _ => none

/-- The register at an aligned offset, if any. -/
def TbgReg.ofOff (o : Nat) : Option TbgReg :=
  if h : 0x3010 ≤ o ∧ (o - 0x3010) / 4 < 3 ∧ (o - 0x3010) % 4 = 0 then some (.legcommit ⟨(o - 0x3010) / 4, h.2.1⟩) else
  match o with
  | 0x3000 => some .tbgstart
  | 0x3004 => some .tbgstop
  | 0x3008 => some .tbrun
  | _ => none

/-- The register at an aligned offset, if any. -/
def AdcReg.ofOff (o : Nat) : Option AdcReg :=
  if h : 0x40 ≤ o ∧ (o - 0x40) / 4 < 16 ∧ (o - 0x40) % 4 = 0 then some (.seq ⟨(o - 0x40) / 4, h.2.1⟩) else
  if h : 0x80 ≤ o ∧ (o - 0x80) / 4 < 16 ∧ (o - 0x80) % 4 = 0 then some (.res ⟨(o - 0x80) / 4, h.2.1⟩) else
  match o with
  | 0x0 => some .ctl
  | 0x4 => some .trig
  | 0x8 => some .stat
  | 0xc => some .cnt
  | 0x10 => some .ien
  | 0x14 => some .calg
  | 0x18 => some .calo
  | 0x1c => some .lim
  | 0x20 => some .last
  | 0x24 => some .ltsl
  | 0x28 => some .ltsh
  | _ => none

/-- The register at an aligned offset, if any. -/
def AdcgReg.ofOff (o : Nat) : Option AdcgReg :=
  match o with
  | 0x2000 => some .adcgstart
  | 0x2004 => some .adcgstop
  | 0x2008 => some .adcrun
  | 0x2010 => some .adccalstart
  | 0x2014 => some .adccalbusy
  | 0x2018 => some .adccalfail
  | 0x201c => some .adccalskip
  | 0x2020 => some .adcicfg
  | _ => none

/-- The register at an aligned offset, if any. -/
def LeReg.ofOff (o : Nat) : Option LeReg :=
  if h : 0x48 ≤ o ∧ (o - 0x48) / 4 < 4 ∧ (o - 0x48) % 4 = 0 then some (.dst ⟨(o - 0x48) / 4, h.2.1⟩) else
  if h : 0x58 ≤ o ∧ (o - 0x58) / 4 < 4 ∧ (o - 0x58) % 4 = 0 then some (.dofs ⟨(o - 0x58) / 4, h.2.1⟩) else
  match o with
  | 0x0 => some .ctl
  | 0x4 => some .msrc
  | 0x8 => some .rsrc
  | 0xc => some .fsrc
  | 0x10 => some .mgain
  | 0x14 => some .mofs
  | 0x18 => some .rgain
  | 0x1c => some .rofs
  | 0x20 => some .ref
  | 0x24 => some .freg
  | 0x28 => some .mreg
  | 0x2c => some .manout
  | 0x30 => some .ssrate
  | 0x34 => some .obase
  | 0x38 => some .ospan
  | 0x3c => some .omin
  | 0x40 => some .omax
  | 0x44 => some .centre
  | 0x68 => some .wait
  | 0x6c => some .stat
  | 0x70 => some .cnt
  | 0x74 => some .ien
  | 0x78 => some .out
  | 0x7c => some .cmd
  | _ => none

/-- The register at an aligned offset, if any. -/
def LeprReg.ofOff (o : Nat) : Option LeprReg :=
  match o with
  | 0x2000 => some .ctl
  | 0x2004 => some .aofs
  | 0x2008 => some .theta
  | _ => none

/-- The register at an aligned offset, if any. -/
def LeshReg.ofOff (o : Nat) : Option LeshReg :=
  if h : 0x2200 ≤ o ∧ (o - 0x2200) / 4 < 2 ∧ (o - 0x2200) % 4 = 0 then some (.leswap ⟨(o - 0x2200) / 4, h.2.1⟩) else
  if h : 0x2210 ≤ o ∧ (o - 0x2210) / 4 < 2 ∧ (o - 0x2210) % 4 = 0 then some (.leen ⟨(o - 0x2210) / 4, h.2.1⟩) else
  none

/-- The register at an aligned offset, if any. -/
def CmpReg.ofOff (o : Nat) : Option CmpReg :=
  match o with
  | 0x0 => some .ctl
  | 0x4 => some .blank
  | 0x8 => some .capcfg
  | 0xc => some .cap
  | 0x10 => some .ctsl
  | 0x14 => some .ctsh
  | 0x18 => some .stat
  | 0x1c => some .cnt
  | 0x20 => some .ien
  | _ => none

/-- The register at an aligned offset, if any. -/
def CmpgReg.ofOff (o : Nat) : Option CmpgReg :=
  if h : 0x1000 ≤ o ∧ (o - 0x1000) / 4 < 2 ∧ (o - 0x1000) % 4 = 0 then some (.cmpout ⟨(o - 0x1000) / 4, h.2.1⟩) else
  if h : 0x1008 ≤ o ∧ (o - 0x1008) / 4 < 2 ∧ (o - 0x1008) % 4 = 0 then some (.cmpqout ⟨(o - 0x1008) / 4, h.2.1⟩) else
  none

/-- The register at an aligned offset, if any. -/
def PosReg.ofOff (o : Nat) : Option PosReg :=
  match o with
  | 0x0 => some .ctl
  | 0x4 => some .trig
  | 0x8 => some .cpr
  | 0xc => some .pos
  | 0x10 => some .rev
  | 0x14 => some .spd
  | 0x18 => some .spdk
  | 0x1c => some .spdto
  | 0x20 => some .idx
  | 0x24 => some .idxl
  | 0x28 => some .upos
  | 0x2c => some .urev
  | 0x30 => some .uspd
  | 0x34 => some .utsl
  | 0x38 => some .utsh
  | 0x3c => some .scfg
  | 0x40 => some .stime
  | 0x44 => some .sdly
  | 0x48 => some .srawl
  | 0x4c => some .srawh
  | 0x50 => some .stat
  | 0x54 => some .cnt
  | 0x58 => some .ien
  | _ => none

/-- The register at an aligned offset, if any. -/
def ChReg.ofOff (o : Nat) : Option ChReg :=
  if h : 0x0 ≤ o ∧ (o - 0x0) / 4 < 16 ∧ (o - 0x0) % 4 = 0 then some (.en ⟨(o - 0x0) / 4, h.2.1⟩) else
  match o with
  | 0x4000 => some .ctl
  | 0x4004 => some .own
  | 0x4008 => some .cnt
  | _ => none

/-- The register at an aligned offset, if any. -/
def EvReg.ofOff (o : Nat) : Option EvReg :=
  if h : 0x5010 ≤ o ∧ (o - 0x5010) / 4 < 4 ∧ (o - 0x5010) % 4 = 0 then some (.evcsel ⟨(o - 0x5010) / 4, h.2.1⟩) else
  if h : 0x5020 ≤ o ∧ (o - 0x5020) / 4 < 8 ∧ (o - 0x5020) % 4 = 0 then some (.chflag ⟨(o - 0x5020) / 4, h.2.1⟩) else
  match o with
  | 0x5000 => some .swtrig
  | 0x5040 => some .evstat
  | 0x5044 => some .evien
  | 0x5048 => some .evcnt
  | _ => none

/-- The register at an aligned offset, if any. -/
def IcReg.ofOff (o : Nat) : Option IcReg :=
  if h : 0x0 ≤ o ∧ (o - 0x0) / 4 < 384 ∧ (o - 0x0) % 4 = 0 then some (.icsrc ⟨(o - 0x0) / 4, h.2.1⟩) else
  if h : 0x600 ≤ o ∧ (o - 0x600) / 4 < 12 ∧ (o - 0x600) % 4 = 0 then some (.icen ⟨(o - 0x600) / 4, h.2.1⟩) else
  if h : 0x640 ≤ o ∧ (o - 0x640) / 4 < 12 ∧ (o - 0x640) % 4 = 0 then some (.icenset ⟨(o - 0x640) / 4, h.2.1⟩) else
  if h : 0x680 ≤ o ∧ (o - 0x680) / 4 < 12 ∧ (o - 0x680) % 4 = 0 then some (.icenclr ⟨(o - 0x680) / 4, h.2.1⟩) else
  if h : 0x6c0 ≤ o ∧ (o - 0x6c0) / 4 < 12 ∧ (o - 0x6c0) % 4 = 0 then some (.icpend ⟨(o - 0x6c0) / 4, h.2.1⟩) else
  if h : 0x700 ≤ o ∧ (o - 0x700) / 4 < 12 ∧ (o - 0x700) % 4 = 0 then some (.icroutes ⟨(o - 0x700) / 4, h.2.1⟩) else
  if h : 0x740 ≤ o ∧ (o - 0x740) / 4 < 12 ∧ (o - 0x740) % 4 = 0 then some (.icstorm ⟨(o - 0x740) / 4, h.2.1⟩) else
  if h : 0x1400 ≤ o ∧ (o - 0x1400) / 32 < 5 ∧ (o - 0x1400) % 32 / 4 < 8 ∧ (o - 0x1400) % 32 % 4 = 0 then
    some (.icstk ⟨(o - 0x1400) / 32, h.2.1⟩ ⟨(o - 0x1400) % 32 / 4, h.2.2.1⟩) else
  match o with
  | 0x800 => some .icgcfg
  | 0x804 => some .iswset
  | 0x808 => some .iswclr
  | _ => none

/-- The register at an aligned offset, if any. -/
def IccReg.ofOff (o : Nat) : Option IccReg :=
  match o with
  | 0x1000 => some .iccfg
  | 0x1004 => some .icmod
  | 0x1008 => some .iceoi
  | 0x100c => some .icact
  | 0x1010 => some .icqbase
  | 0x1014 => some .icqsize
  | 0x1018 => some .icqwr
  | 0x101c => some .icqrd
  | 0x1020 => some .icqdone
  | 0x1024 => some .icstat
  | 0x1028 => some .iccnt
  | _ => none

/-- The register at an aligned offset, if any. -/
def FcReg.ofOff (o : Nat) : Option FcReg :=
  if h : 0x0 ≤ o ∧ (o - 0x0) / 4 < 16 ∧ (o - 0x0) % 4 = 0 then some (.fstat ⟨(o - 0x0) / 4, h.2.1⟩) else
  if h : 0x40 ≤ o ∧ (o - 0x40) / 4 < 16 ∧ (o - 0x40) % 4 = 0 then some (.flive ⟨(o - 0x40) / 4, h.2.1⟩) else
  if h : 0x80 ≤ o ∧ (o - 0x80) / 4 < 16 ∧ (o - 0x80) % 4 = 0 then some (.fmask ⟨(o - 0x80) / 4, h.2.1⟩) else
  if h : 0x100 ≤ o ∧ (o - 0x100) / 4 < 16 ∧ (o - 0x100) % 4 = 0 then some (.flevel ⟨(o - 0x100) / 4, h.2.1⟩) else
  if h : 0x140 ≤ o ∧ (o - 0x140) / 4 < 16 ∧ (o - 0x140) % 4 = 0 then some (.fclstat ⟨(o - 0x140) / 4, h.2.1⟩) else
  if h : 0x200 ≤ o ∧ (o - 0x200) / 16 < 16 ∧ (o - 0x200) % 16 / 4 < 3 ∧ (o - 0x200) % 16 % 4 = 0 then
    some (.fgmap ⟨(o - 0x200) / 16, h.2.1⟩ ⟨(o - 0x200) % 16 / 4, h.2.2.1⟩) else
  if h : 0x310 ≤ o ∧ (o - 0x310) / 4 < 4 ∧ (o - 0x310) % 4 = 0 then some (.frec ⟨(o - 0x310) / 4, h.2.1⟩) else
  match o with
  | 0x300 => some .fack
  | 0x304 => some .fsum
  | 0x308 => some .fcstat
  | 0x320 => some .frecpop
  | 0x324 => some .freccnt
  | 0x330 => some .tollctl
  | 0x334 => some .tollfeed
  | 0x338 => some .tollstat
  | _ => none

/-- The register at an aligned offset, if any. -/
def ShlReg.ofOff (o : Nat) : Option ShlReg :=
  match o with
  | 0x0 => some .dt
  | 0x4 => some .tonh
  | 0x8 => some .tonl
  | 0xc => some .reef
  | 0x10 => some .hold
  | 0x14 => some .stat
  | 0x18 => some .cnt
  | _ => none

/-- The register at an aligned offset, if any. -/
def ShtmReg.ofOff (o : Nat) : Option ShtmReg :=
  if h : 0x1000 ≤ o ∧ (o - 0x1000) / 4 < 3 ∧ (o - 0x1000) % 4 = 0 then some (.leg ⟨(o - 0x1000) / 4, h.2.1⟩) else
  match o with
  | 0x100c => some .cfg
  | _ => none

/-- The register at an aligned offset, if any. -/
def ShgReg.ofOff (o : Nat) : Option ShgReg :=
  if h : 0x2000 ≤ o ∧ (o - 0x2000) / 4 < 3 ∧ (o - 0x2000) % 4 = 0 then some (.shrel ⟨(o - 0x2000) / 4, h.2.1⟩) else
  if h : 0x2010 ≤ o ∧ (o - 0x2010) / 4 < 3 ∧ (o - 0x2010) % 4 = 0 then some (.shheld ⟨(o - 0x2010) / 4, h.2.1⟩) else
  if h : 0x2020 ≤ o ∧ (o - 0x2020) / 4 < 3 ∧ (o - 0x2020) % 4 = 0 then some (.shreef ⟨(o - 0x2020) / 4, h.2.1⟩) else
  match o with
  | 0x2030 => some .shgate
  | 0x2034 => some .shblankmax
  | 0x2038 => some .shstat
  | _ => none

/-- The register at an aligned offset, if any. -/
def WdReg.ofOff (o : Nat) : Option WdReg :=
  match o with
  | 0x0 => some .ctl
  | 0x4 => some .tmo
  | 0x8 => some .feed
  | 0xc => some .count
  | 0x10 => some .stat
  | 0x14 => some .ien
  | _ => none

/-- The register at an aligned offset, if any. -/
def ThReg.ofOff (o : Nat) : Option ThReg :=
  match o with
  | 0x100 => some .thstat
  | 0x104 => some .thien
  | _ => none

/-- The register at an aligned offset, if any. -/
def CoreReg.ofOff (o : Nat) : Option CoreReg :=
  match o with
  | 0x810 => some .vecsel
  | 0x814 => some .lockinfo
  | 0x818 => some .lockpc
  | 0x81c => some .exccnt
  | _ => none

/-- The register at an aligned offset, if any. -/
def FlReg.ofOff (o : Nat) : Option FlReg :=
  if h : 0x10 ≤ o ∧ (o - 0x10) / 4 < 4 ∧ (o - 0x10) % 4 = 0 then some (.fldata ⟨(o - 0x10) / 4, h.2.1⟩) else
  if h : 0x80 ≤ o ∧ (o - 0x80) / 4 < 13 ∧ (o - 0x80) % 4 = 0 then some (.fleic ⟨(o - 0x80) / 4, h.2.1⟩) else
  match o with
  | 0x0 => some .flclaim
  | 0x4 => some .fladdr
  | 0x20 => some .flcmd
  | 0x24 => some .flstat
  | 0x28 => some .flien
  | 0x2c => some .flvaddr
  | 0x30 => some .flvfail
  | 0x34 => some .flceaddr
  | 0x38 => some .flcnt
  | 0x40 => some .flwp
  | 0x44 => some .flcal
  | 0x48 => some .flcalseq
  | 0x60 => some .flopstat
  | _ => none

/-- The register at an aligned offset, if any. -/
def LnkReg.ofOff (o : Nat) : Option LnkReg :=
  match o with
  | 0x0 => some .lnkctl
  | 0x4 => some .lnkstat
  | 0x8 => some .lnkien
  | 0xc => some .lnkaddr
  | 0x10 => some .lnktcfg
  | 0x14 => some .lnktstat
  | 0x18 => some .lnkterr
  | 0x1c => some .lnkrate
  | 0x20 => some .lnktimel
  | 0x24 => some .lnktimeh
  | 0x28 => some .lnkringerr
  | 0x2c => some .lnktcmd
  | 0x30 => some .lnkcnt
  | 0x34 => some .lnkldn
  | _ => none

/-- The register at an aligned offset, if any. -/
def LnkpReg.ofOff (o : Nat) : Option LnkpReg :=
  match o with
  | 0x100 => some .ctl
  | 0x104 => some .stat
  | 0x108 => some .asym
  | 0x10c => some .dly
  | 0x110 => some .cnt
  | _ => none

/-- The register at an aligned offset, if any. -/
def HifReg.ofOff (o : Nat) : Option HifReg :=
  if h : 0x40 ≤ o ∧ (o - 0x40) / 4 < 4 ∧ (o - 0x40) % 4 = 0 then some (.hobw ⟨(o - 0x40) / 4, h.2.1⟩) else
  if h : 0x1000 ≤ o ∧ (o - 0x1000) / 4 < 512 ∧ (o - 0x1000) % 4 = 0 then some (.hmbcmd ⟨(o - 0x1000) / 4, h.2.1⟩) else
  if h : 0x1800 ≤ o ∧ (o - 0x1800) / 4 < 512 ∧ (o - 0x1800) % 4 = 0 then some (.hmbrpl ⟨(o - 0x1800) / 4, h.2.1⟩) else
  if h : 0x2000 ≤ o ∧ (o - 0x2000) / 4 < 512 ∧ (o - 0x2000) % 4 = 0 then some (.fwcmdbuf ⟨(o - 0x2000) / 4, h.2.1⟩) else
  if h : 0x2800 ≤ o ∧ (o - 0x2800) / 4 < 512 ∧ (o - 0x2800) % 4 = 0 then some (.fwrplbuf ⟨(o - 0x2800) / 4, h.2.1⟩) else
  if h : 0xf000 ≤ o ∧ (o - 0xf000) / 4 < 32 ∧ (o - 0xf000) % 4 = 0 then some (.msixtab ⟨(o - 0xf000) / 4, h.2.1⟩) else
  match o with
  | 0x0 => some .hifcfg
  | 0x4 => some .hstat
  | 0x8 => some .hien
  | 0xc => some .hcnt
  | 0x10 => some .hmbstat
  | 0x14 => some .hdbell
  | 0x18 => some .hrack
  | 0x1c => some .spistat
  | 0x20 => some .fwstat
  | 0x24 => some .fwien
  | 0x28 => some .fwrpl
  | 0x30 => some .pciestat
  | 0xf800 => some .msixpba
  | _ => none

/-- The register at an aligned offset, if any. -/
def CaprReg.ofOff (o : Nat) : Option CaprReg :=
  match o with
  | 0x0 => some .ctl
  | 0x4 => some .cfg
  | 0x8 => some .dbase
  | 0xc => some .ndesc
  | 0x10 => some .sadc
  | 0x14 => some .scmp0
  | 0x18 => some .scmp1
  | 0x1c => some .sle0
  | 0x20 => some .sle1
  | 0x24 => some .spos
  | 0x28 => some .snap
  | 0x2c => some .snlen
  | 0x30 => some .qta
  | 0x34 => some .wline
  | 0x38 => some .rline
  | 0x3c => some .wbl
  | 0x40 => some .wbh
  | 0x44 => some .stat
  | 0x48 => some .ien
  | 0x4c => some .lost
  | 0x50 => some .use
  | _ => none

/-- The register at an aligned offset, if any. -/
def SecReg.ofOff (o : Nat) : Option SecReg :=
  if h : 0x40 ≤ o ∧ (o - 0x40) / 8 < 8 ∧ (o - 0x40) % 8 = 0 then some (.tk_enta ⟨(o - 0x40) / 8, h.2.1⟩) else
  if h : 0x44 ≤ o ∧ (o - 0x44) / 8 < 8 ∧ (o - 0x44) % 8 = 0 then some (.tk_entv ⟨(o - 0x44) / 8, h.2.1⟩) else
  match o with
  | 0x0 => some .tkcfg
  | 0x4 => some .bootpol
  | 0x8 => some .bootmin
  | 0x10 => some .tk_saddr
  | 0x14 => some .tk_stage
  | 0x18 => some .tk_commit_a
  | 0x1c => some .tk_commit_b
  | 0x20 => some .tk_clear
  | 0x24 => some .tk_nonce
  | 0x28 => some .tk_stat
  | 0x2c => some .tk_cnt
  | 0x100 => some .verctl
  | 0x104 => some .verstat
  | 0x108 => some .verseq
  | 0x110 => some .rng
  | _ => none

/-- Instance and remaining offset of an address in an array of `n` register blocks. -/
def instOf (n base stride a : Nat) : Option (Fin n × Nat) :=
  if h : base ≤ a ∧ (a - base) / stride < n then some (⟨(a - base) / stride, h.2⟩, (a - base) % stride) else none

/-- The register at a physical address, if the spec maps one there. -/
def Reg.ofAddr (a : Nat) : Option Reg :=
  (if 0x40000000 ≤ a then (SysReg.ofOff (a - 0x40000000)).map Reg.sys else none) <|>
  ((instOf 96 0x40100000 0x40 a).bind fun p => (LegReg.ofOff (p.2 + 0x0)).map (Reg.leg p.1)) <|>
  ((instOf 32 0x40102000 0x40 a).bind fun p => (TbReg.ofOff (p.2 + 0x2000)).map (Reg.tb p.1)) <|>
  (if 0x40100000 ≤ a then (TbgReg.ofOff (a - 0x40100000)).map Reg.tbg else none) <|>
  ((instOf 32 0x40200000 0x100 a).bind fun p => (AdcReg.ofOff (p.2 + 0x0)).map (Reg.adc p.1)) <|>
  (if 0x40200000 ≤ a then (AdcgReg.ofOff (a - 0x40200000)).map Reg.adcg else none) <|>
  ((instOf 64 0x40400000 0x80 a).bind fun p => (LeReg.ofOff (p.2 + 0x0)).map (Reg.le p.1)) <|>
  ((instOf 32 0x40402000 0x10 a).bind fun p => (LeprReg.ofOff (p.2 + 0x2000)).map (Reg.lepr p.1)) <|>
  (if 0x40400000 ≤ a then (LeshReg.ofOff (a - 0x40400000)).map Reg.lesh else none) <|>
  ((instOf 64 0x40300000 0x40 a).bind fun p => (CmpReg.ofOff (p.2 + 0x0)).map (Reg.cmp p.1)) <|>
  (if 0x40300000 ≤ a then (CmpgReg.ofOff (a - 0x40300000)).map Reg.cmpg else none) <|>
  ((instOf 8 0x40340000 0x100 a).bind fun p => (PosReg.ofOff (p.2 + 0x0)).map (Reg.pos p.1)) <|>
  ((instOf 256 0x40040000 0x40 a).bind fun p => (ChReg.ofOff p.2).map (Reg.ch p.1)) <|>
  ((instOf 256 0x40044000 0x10 a).bind fun p => (ChReg.ofOff (p.2 + 0x4000)).map (Reg.ch p.1)) <|>
  (if 0x40040000 ≤ a then (EvReg.ofOff (a - 0x40040000)).map Reg.ev else none) <|>
  (if 0x40060000 ≤ a then (IcReg.ofOff (a - 0x40060000)).map Reg.ic else none) <|>
  ((instOf 5 0x40061000 0x40 a).bind fun p => (IccReg.ofOff (p.2 + 0x1000)).map (Reg.icc p.1)) <|>
  (if 0x40010000 ≤ a then (FcReg.ofOff (a - 0x40010000)).map Reg.fc else none) <|>
  ((instOf 96 0x40020000 0x20 a).bind fun p => (ShlReg.ofOff (p.2 + 0x0)).map (Reg.shl p.1)) <|>
  ((instOf 64 0x40021000 0x10 a).bind fun p => (ShtmReg.ofOff (p.2 + 0x1000)).map (Reg.shtm p.1)) <|>
  (if 0x40020000 ≤ a then (ShgReg.ofOff (a - 0x40020000)).map Reg.shg else none) <|>
  ((instOf 5 0x40900000 0x20 a).bind fun p => (WdReg.ofOff (p.2 + 0x0)).map (Reg.wd p.1)) <|>
  (if 0x40900000 ≤ a then (ThReg.ofOff (a - 0x40900000)).map Reg.th else none) <|>
  ((instOf 5 0x40000810 0x10 a).bind fun p => (CoreReg.ofOff (p.2 + 0x810)).map (Reg.core p.1)) <|>
  (if 0x40500000 ≤ a then (FlReg.ofOff (a - 0x40500000)).map Reg.fl else none) <|>
  (if 0x40600000 ≤ a then (LnkReg.ofOff (a - 0x40600000)).map Reg.lnk else none) <|>
  ((instOf 2 0x40600100 0x40 a).bind fun p => (LnkpReg.ofOff (p.2 + 0x100)).map (Reg.lnkp p.1)) <|>
  (if 0x40700000 ≤ a then (HifReg.ofOff (a - 0x40700000)).map Reg.hif else none) <|>
  ((instOf 16 0x40780000 0x100 a).bind fun p => (CaprReg.ofOff (p.2 + 0x0)).map (Reg.capr p.1)) <|>
  (if 0x40800000 ≤ a then (SecReg.ofOff (a - 0x40800000)).map Reg.sec else none)

end Sys2Proof.Machine
end

