-- ==== Sys2Proof/Machine/Store.lean ====
section
/-!
DEFINITION. Sparse stores in one canonical form: a list of key and value pairs, rising in the key's order, with no entry
equal to what an unlisted key reads as.  The register file, SRAM, loop engine memory and flash are held this way.
-/
namespace Sys2Proof.Machine
open Sys2Proof

/-- What key `k` holds: its listed value, else the default `dflt k`. -/
def Store.get {κ α : Type} [DecidableEq κ] (dflt : κ → α) (k : κ) : List (κ × α) → α
  | [] => dflt k
  | (k', v) :: t => if k' = k then v else Store.get dflt k t

/-- Insert a pair before the first entry whose order is not below the key's. -/
def Store.ins {κ α : Type} (ord : κ → Nat) (k : κ) (v : α) : List (κ × α) → List (κ × α)
  | [] => [(k, v)]
  | p :: t => if ord p.1 < ord k then p :: Store.ins ord k v t else (k, v) :: p :: t

/-- The store without key `k`. -/
def Store.del {κ α : Type} [DecidableEq κ] (k : κ) : List (κ × α) → List (κ × α)
  | [] => []
  | p :: t => if p.1 = k then Store.del k t else p :: Store.del k t

/-- Write key `k`; a value equal to the default removes the entry. -/
def Store.set {κ α : Type} [DecidableEq κ] [DecidableEq α] (ord : κ → Nat) (dflt : κ → α) (k : κ) (v : α)
    (m : List (κ × α)) : List (κ × α) :=
  if v = dflt k then Store.del k m else Store.ins ord k v (Store.del k m)

/-- Canonical form: keys strictly rising, no entry equal to the default. -/
def Store.wf {κ α : Type} [DecidableEq α] (ord : κ → Nat) (dflt : κ → α) : List (κ × α) → Bool
  | [] => true
  | (k, v) :: t => decide (v ≠ dflt k) && (t.all fun p => decide (ord k < ord p.1)) && Store.wf ord dflt t

/-- The register file: registers that do not hold their reset value. -/
abbrev RegFile := List (Reg × Word)

/-- What a register holds. -/
def RegFile.get (f : RegFile) (r : Reg) : Word := Store.get Reg.reset r f

/-- Store a register. -/
def RegFile.set (f : RegFile) (r : Reg) (v : Word) : RegFile := Store.set Reg.addr Reg.reset r v f

/-- Canonical form of the register file. -/
def RegFile.wf (f : RegFile) : Bool := Store.wf Reg.addr Reg.reset f

end Sys2Proof.Machine
end

