-- ==== Sys2Proof/Machine/State.lean ====
section
/-!
DEFINITION. The state of the device as plain data: its register file and, beside it, everything the spec gives the machine
that no register shows; and the state at the release of power-on reset.
-/
namespace Sys2Proof.Machine
open Sys2Proof

/-- A register access that waits for the clock gate of a stopped domain (R38, R42). -/
structure WaitAcc where
  by_    : Requester
  addr   : Word
  /-- The value of a write; none for a read. -/
  val    : Option Word
  since  : Nat
  deriving DecidableEq, Repr

/-- The resets that hold the whole device (R343). -/
inductive RstKind where
  | por
  | pin
  | soft
  deriving DecidableEq, Repr

/-- Clocks, regions and operations in flight (R20-R49). -/
structure SysSt where
  /-- PLL A, PLL B locked; each locked once since reset (lines 403, 404). -/
  pllA   : Bool := false
  pllB   : Bool := false
  pllA1  : Bool := false
  pllB1  : Bool := false
  /-- The 25 MHz reference is present (R222). -/
  refOk  : Bool := true
  /-- PLL A was lost while PACE = 1 and the return to free mode is not yet done (R35). -/
  lossPend : Bool := false
  /-- Register accesses that wait for a stopped clock domain, oldest first. -/
  waits  : List WaitAcc := []
  /-- A whole-device reset that is held (R343), and the instant it was asserted. -/
  rst    : Option (RstKind × Nat) := none
  /-- The flash engine has not yet done its work since the latest power-on reset (R319, R348). -/
  por    : Bool := true
  /-- Instant of the latest write of ADCICFG.VIOSEL. -/
  vioAt  : Option Nat := none
  /-- VIO of each bank of balls (R450, R453).  DESIGN CHOICE (log entry 187): at the release of POR, which bank 0 must have, the others are
  still away. -/
  vio    : Vector Rail 4 := #v[.good, .absent, .absent, .absent]
  /-- Tags held across steps, by holder (R43). -/
  tags   : Vector Nat 70 := Vector.replicate 70 0
  /-- What the latest register read of a read command returned to its requester; none while it waits. -/
  rdData : Option Word := none
  deriving DecidableEq, Repr

/-- The two edges of a leg's switch command (R54). -/
inductive Edge where
  | a
  | b
  deriving DecidableEq, Repr

/-- The two switches of a leg. -/
inductive Sw where
  | h
  | l
  deriving DecidableEq, Repr

/-- One switch as the shroud sees it, before polarity (R235, R236): instants in time units. -/
structure SwSt where
  on    : Bool := false
  /-- Instant of the last turn-on. -/
  onAt  : Nat := 0
  /-- Instant of the last turn-off; none before the first. -/
  offAt : Option Nat := none
  /-- Kept off by an on-time limit until the command ends this on-time (R236). -/
  cut   : Bool := false
  /-- Changes on their way to the output stage (R71), newest first: their instants and the levels they give. -/
  way   : List (Nat × Bool) := []
  deriving DecidableEq, Repr

/-- An open measurement of adaptive dead-time (R88). -/
structure AdtWin where
  /-- Instant of the turn-off, and its stamp. -/
  off   : Nat
  offTs : Nat
  /-- Instant at which the dead-time of the other switch ended; none until it has. -/
  till  : Option Nat := none
  deriving DecidableEq, Repr

/-- One transition of adaptive dead-time in the current period (R88-R90). -/
structure AdtTr where
  win    : Option AdtWin := none
  /-- Measurement made in the period. -/
  meas   : Option Nat := none
  /-- The turn-off occurred and no qualifying crossing followed. -/
  missed : Bool := false
  deriving DecidableEq, Repr

/-- The state of a leg beside its registers (R66-R91, R229-R236). -/
structure LegSt where
  /-- Pending match instants of the current period (R72), in time units. -/
  curA   : Nat := 0
  curB   : Nat := 0
  /-- Match instants fixed for the next period (R72). -/
  nxtA   : Nat := 0
  nxtB   : Nat := 0
  spentA : Bool := false
  spentB : Bool := false
  /-- Full on-time of R94 (D = P) in the current and the next period. -/
  full   : Bool := false
  fullN  : Bool := false
  /-- The leg was on its timebase at the load point of the current period (R469). -/
  lp     : Bool := false
  /-- Staging copies (R77). -/
  stA    : Option Word := none
  stB    : Option Word := none
  stPh   : Option Word := none
  stRun  : Option Bool := none
  /-- RUN in effect, and RUN as the load point fixed it (R78). -/
  run    : Bool := false
  runN   : Bool := false
  /-- FORCE in effect, and a change waiting for a period start (R84). -/
  force  : Nat := 0
  forceP : Bool := false
  /-- Release from EVENT_OFF requested (R85). -/
  relReq : Bool := false
  /-- The switch command (R66). -/
  cmd    : Bool := false
  /-- The leg entered RUN within a period and waits for its first edge or period start (R86). -/
  wait   : Bool := false
  /-- Dead-time being counted: the switch and the instant it counts from (R67, R68). -/
  pend   : Option (Sw × Nat) := none
  /-- Instant before which the counted dead-time does not end: its start, or the latest change of the dead-time in use. -/
  pendFrom : Nat := 0
  /-- Commits captured on the tick of a period start that is still to come (R75), oldest first. -/
  defer  : List (List (LegReg × Word)) := []
  hi     : SwSt := {}
  lo     : SwSt := {}
  /-- A LEGn_DT write waits for a period start (R78, R91). -/
  dtWr   : Bool := false
  /-- Adaptation in effect (R91). -/
  adtOn  : Bool := false
  /-- The measurements of this period are undefined (a change of CMPSEL or CPOL while EN = 1). -/
  adtUn  : Bool := false
  trH    : AdtTr := {}
  trL    : AdtTr := {}
  /-- Classes that reef the leg, and those whose reef ends at the next period start (R227). -/
  reef   : Nat := 0
  reefX  : Nat := 0
  deriving DecidableEq, Repr

/-- What a timebase that is enabled but not running waits for (R57, R61, R62, R350). -/
inductive TbArm where
  | no
  /-- The lock of its PLL (R350). -/
  | pll
  /-- A task of STCH. -/
  | task
  /-- The aligned instant of its leader, or chain time; the instant the start was captured. -/
  | sync (since : Nat)
  deriving DecidableEq, Repr

/-- The state of a timebase beside its registers (R52-R65, R92). -/
structure TbSt where
  /-- Instant of the current period start (the wrap tick), in time units. -/
  start  : Nat := 0
  /-- Instant of the period start before it. -/
  prev   : Nat := 0
  /-- Stamps of those two instants (R161). -/
  startTs : Nat := 0
  prevTs  : Nat := 0
  /-- Length of the current period in ticks. -/
  len    : Nat := 4000
  /-- Number of periods started since the timebase started; 0 while stopped. -/
  period : Nat := 0
  /-- The load point of the current period has passed (R72). -/
  loaded : Bool := false
  /-- P fixed at the load point for the next period (R56). -/
  nxtP   : Nat := 4000
  /-- A stop waits for the next period start (R58). -/
  stopRq : Bool := false
  arm    : TbArm := .no
  /-- Accumulated correction in force and of the next period, fine units (R63). -/
  corr   : Int := 0
  corrN  : Int := 0
  /-- Consecutive periods within LOCKWIN, and locked once since the start (R64). -/
  good   : Nat := 0
  locked1 : Bool := false
  /-- The EVCMP compares have produced their event of this period, or produce none in it (R92). -/
  evDone : Vector Bool 4 := Vector.replicate 4 false
  /-- Tick of each compare's latest event: compares that match on one tick make one trigger (R105, R172). -/
  evAt   : Vector (Option Nat) 4 := Vector.replicate 4 none
  /-- Period and phase are undefined until the next start (a period commit in chain mode). -/
  undef  : Bool := false
  deriving DecidableEq, Repr

/-- A conversion between its hold and its result (R109, R110). -/
structure AdcConv where
  entry : Fin 16
  /-- Sequence entry in force at the hold. -/
  seq   : Word
  /-- Raw code before correction, read by the coding of the entry (R97). -/
  raw   : Int
  /-- Hold instant, and its stamp on the device time line. -/
  at_   : Nat
  ts    : Nat
  tv    : Bool
  /-- This is the last entry of a pass (EOS, R114). -/
  last  : Bool
  /-- A skipped entry (SRC = 0b111) produces no result. -/
  skip  : Bool
  /-- A factor or selection changed during the conversion: which value applies is open. -/
  openV : Bool
  deriving DecidableEq, Repr

/-- What a converter is doing (R101-R108). -/
inductive AdcRun where
  | idle
  /-- Continuous: start cycle t0 and number of holds taken; `stop` is the index of the last hold where one is decided. -/
  | cont (t0 : Nat) (holds : Nat) (stop : Option Nat)
  /-- Triggered pass in progress: instant of hold 0 and number of holds taken. -/
  | pass (hold0 : Nat) (holds : Nat)
  deriving DecidableEq, Repr

/-- The state of a converter beside its registers (R96-R121). -/
structure AdcSt where
  run    : AdcRun := .idle
  /-- A start task waits for PLL A, from which the clock of the AC domain comes (R38, R42). -/
  wake   : Bool := false
  /-- Waiting for a task of STCH (R101). -/
  armed  : Bool := false
  /-- A start captured after the last hold waits for RUNNING to clear (R103). -/
  startW : Bool := false
  /-- Trigger tick of the pending trigger (R106). -/
  pend   : Option Nat := none
  conv   : List AdcConv := []
  /-- Stamp of the result in ADCn_LAST (R110). -/
  lastTs : Nat := 0
  /-- Instant of the latest write of each sequence entry. -/
  seqAt  : Vector (Option Nat) 16 := Vector.replicate 16 none
  /-- Entry 0 as it stood when the tracking of a run's first hold began (R103, R121). -/
  seq0   : Word := 0
  /-- Calibration: the instant it ends. -/
  calEnd : Option Nat := none
  deriving DecidableEq, Repr

/-- A field a loop engine owns (R140). -/
inductive LeField where
  | cmpa (n : Fin 96)
  | cmpb (n : Fin 96)
  | phase (n : Fin 96)
  | period (n : Fin 32)
  deriving DecidableEq, Repr

/-- A stalled sample: past its boundary, waiting for an operand (R128). -/
structure LeStall where
  /-- The measurement formed at the boundary; saturation seen while forming it. -/
  m     : Word
  sat   : Bool
  at_   : Nat
  /-- Operands that were fresh at the boundary. -/
  frR   : Bool
  frF   : Bool
  /-- The operands' raw values at the boundary, of the reference and of the feed-forward. -/
  rx    : Word
  fx    : Word
  /-- Any destination leg was not in RUN or was reefed at the boundary (R134). -/
  frozen : Bool
  /-- MODE as captured before the boundary. -/
  auto  : Bool
  /-- The engine's registers at the boundary: they govern this sample (R142). -/
  snap  : List (LeReg × Word)
  /-- Tags held from the boundary on (R468). -/
  tags  : Nat
  deriving DecidableEq, Repr

/-- One engine's half of a pair sample, waiting for the other half (R143, R145). -/
structure LeHalf where
  u    : Word
  scnt : Word
  tags : Nat
  /-- The engine's registers at the boundary. -/
  snap : List (LeReg × Word)
  deriving DecidableEq, Repr

/-- One commit of an engine: new values of fields, in slot order (R139). -/
structure LeCommit where
  vals : List (LeField × Nat)
  /-- The destination legs, in rising order: those that a slot names (R139). -/
  legs : List (Fin 96)
  /-- Output u and sample count of the sample, for the capture record (R414). -/
  u    : Word
  scnt : Word
  /-- Its presentation is an event of the engine (R149). -/
  ev   : Bool
  /-- Tags held until the capture (R468), by the engine and by the other engine of its pair. -/
  tags : Nat
  tagsO : Nat
  deriving DecidableEq, Repr

/-- The state of a loop engine beside its registers and its memory (R124-R151). -/
structure LeSt where
  /-- Measurement strobes on their way from the source. -/
  inbound : List Word := []
  /-- Measurement strobes counted since the enable (R126). -/
  count  : Nat := 0
  /-- Strobe held on the crossing (R127). -/
  held   : Option Word := none
  /-- Latest raw values of the reference and feed-forward sources, and whether they strobed since the previous boundary. -/
  xr     : Word := 0
  xf     : Word := 0
  frR    : Bool := false
  frF    : Bool := false
  /-- The flag `first` of R129. -/
  first  : Bool := false
  stall  : Option LeStall := none
  /-- Instant of the previous boundary. -/
  bound  : Nat := 0
  /-- The SAT_OUT condition held in the previous sample; consecutive samples it has held (R149, R151). -/
  satPrev : Bool := false
  satRun : Nat := 0
  /-- This engine's half of a pair sample while the other half is still to come; `some none` where it makes no commit (R315). -/
  pairU  : Option (Option LeHalf) := none
  /-- The counts per revolution or mode of a position channel it uses changed while it was enabled. -/
  openPos : Bool := false
  owns   : List LeField := []
  /-- Commits not yet captured, oldest first: the first is presented, the others wait for its capture (R39). -/
  commits : List LeCommit := []
  deriving DecidableEq, Repr

/-- A transition of X whose filter run is in progress or complete (R157). -/
structure CmpRun where
  val  : Bool
  /-- Instant of the transition, and its stamp. -/
  at_  : Nat
  ts   : Nat
  /-- Chain time was valid at the stamp (R162). -/
  tv   : Bool
  /-- A write of INV or FILT came during the run: its stamp is undefined. -/
  un   : Bool := false
  deriving DecidableEq, Repr

/-- A blanking window on the trip path (R156, R158, R238). -/
structure TripWin where
  /-- Instant the window opened. -/
  since : Nat
  /-- Instant the window ends, before the shroud's maximum cuts it short. -/
  till : Nat
  /-- Raw output when the window opened. -/
  held : Bool
  deriving DecidableEq, Repr

/-- The state of a comparator beside its registers (R155-R165, R237). -/
structure CmpSt where
  /-- The inputs CMPnP and CMPnN, in units of 0.1 mV. -/
  vp     : Int := 0
  vn     : Int := 0
  /-- Raw output of the front end. -/
  raw    : Bool := false
  /-- The digital path has started (R163). -/
  live   : Bool := false
  /-- Transitions of X not yet ready, oldest first. -/
  runs   : List CmpRun := []
  /-- End of the open blanking window of the digital path. -/
  win    : Option Nat := none
  /-- Open blanking window of the trip path. -/
  twin   : Option TripWin := none
  /-- Stamp of the previous qualifying change, and of the last rise (R161). -/
  lastQ  : Option Nat := none
  lastRise : Option Nat := none
  /-- Stamp of the capture in CMPn_CAP, latched by its read. -/
  capTs  : Nat := 0
  /-- Since when the tripping condition of the trip map holds (R237). -/
  cond   : Option Nat := none
  /-- The comparator has tripped and its condition still holds. -/
  tripped : Bool := false
  deriving DecidableEq, Repr

/-- Progress of a serial frame (R174). -/
inductive PosFrame where
  | idle
  /-- Waiting for the data ball to be high, since the trigger tick. -/
  | waiting (ts : Nat)
  /-- Shifting: trigger tick, start instant, and that instant's chain validity and stamp (the update stamp). -/
  | shifting (ts start : Nat) (tv : Bool) (stamp : Nat)
  deriving DecidableEq, Repr

/-- A latched position update (R172). -/
structure PosUpd where
  pos : Word := 0
  rev : Word := 0
  spd : Word := 0
  ts  : Nat := 0
  deriving DecidableEq, Repr

/-- The state of a position channel beside its registers (R166-R181). -/
structure PosSt where
  /-- Filtered inputs A, B, Z of the last sample, the reference. -/
  a      : Bool := false
  b      : Bool := false
  z      : Bool := false
  /-- Instant of the last change of the quadrature or Hall inputs since the enable. -/
  moved  : Option Nat := none
  /-- Instant of the last counted step, and its interval in ticks where timed. -/
  stepAt : Option Nat := none
  lastDt : Option Nat := none
  /-- The next step's interval is timed (R173). -/
  timed  : Bool := false
  /-- Instant from which the zero-speed timeout counts. -/
  zeroAt : Nat := 0
  /-- Store that POSn_UPOS reads (R172). -/
  upd    : PosUpd := {}
  frame  : PosFrame := .idle
  /-- SLO has been seen low since the frame started, and its start transition: the index of the rising edge before it, and the ticks
  from that edge to it (R174). -/
  low    : Bool := false
  slo    : Option (Nat × Nat) := none
  /-- Start instant of the last valid frame since enable (R176). -/
  lastFr : Option Nat := none
  /-- The frame in progress is undefined (R184 list: SCFG or STIME written while shifting). -/
  undef  : Bool := false
  deriving DecidableEq, Repr

/-- What a task of a channel does at its consumer (R193). -/
inductive TaskKind where
  | forceOff
  | tbStart
  | adcStart
  | adcTrig
  | posTrig
  | leSwap
  | capStart
  | capStop
  | capSnap
  deriving DecidableEq, Repr

/-- A channel of the event fabric (R189-R191): the sample edge of its latest activation, and a pending activation. -/
structure ChanSt where
  act  : Option Nat := none
  pend : Bool := false
  deriving DecidableEq, Repr

/-- The event fabric beside its registers (R185-R197). -/
structure FabSt where
  /-- Events presented by producers and not yet sampled, oldest first. -/
  raised : List (Fin 512) := []
  /-- Instant of each producer's previous presented event; unlisted: long ago. -/
  last   : List (Fin 512 × Nat) := []
  /-- Producers whose event is held (R188). -/
  held   : List (Fin 512) := []
  chan   : Vector ChanSt 256 := Vector.replicate 256 {}
  /-- Tasks of activations on their way to the consumers that name the channel (R192), oldest first, each with the instant of the
  activation's sample edge. -/
  tasks  : List (TaskKind × Fin 256 × Nat) := []
  /-- Activations that some clocked consumer has received: channel, sample edge and the instant of their reception (R192). -/
  got    : List (Fin 256 × Nat × Nat) := []
  deriving DecidableEq, Repr

/-- Whether a source is in service (R201); pending is derived. -/
inductive SrcServe where
  | free
  | queued
  | active
  deriving DecidableEq, Repr

/-- An interrupt source beside its registers (R201, R204, R212). -/
structure SrcSt where
  serve  : SrcServe := .free
  /-- Instant at which the controller saw it become pending; none while it is not pending. -/
  pendAt : Option Nat := none
  /-- Stamp of the strobe edge on which the controller saw that, and whether chain time was valid there (R209). -/
  pendTs : Nat := 0
  pendTv : Bool := false
  /-- It became pending by a resample. -/
  resamp : Bool := false
  /-- It is held by the ring limit and has been counted (R206). -/
  heldQ  : Bool := false
  /-- Consecutive resamples that found it asserted and enabled. -/
  storm  : Nat := 0
  /-- Its TARGET, LEVEL or route changed while it was pending, queued or active: its presentation is open. -/
  open_  : Bool := false
  deriving DecidableEq, Repr

/-- An entry of a priority stack (R213): source, level, parity bit. -/
structure StkEnt where
  src : Nat
  lvl : Nat
  par : Bool
  deriving DecidableEq, Repr

/-- A moderation window (R211): opening instant and moderated events since. -/
structure ModWin where
  at_   : Nat
  count : Nat
  /-- ICMOD was written while the window was open and the window keeps this earlier value. -/
  mod   : Option Word := none
  deriving DecidableEq, Repr

/-- A target of the interrupt controller beside its registers (R202-R214). -/
structure TgtSt where
  /-- Entries, the top first. -/
  stack    : List StkEnt := []
  full     : Bool := false
  fullCnt  : Nat := 0
  withheld : Nat := 0
  broken   : Bool := false
  cause    : Nat := 0
  /-- ICQRD was written past WR or more than SLOTS behind it: the records and the queue request are undefined. -/
  ringOpen : Bool := false
  /-- A source's TARGET, LEVEL or route changed while it was in service: the stack checks are open. -/
  chkOpen  : Bool := false
  win      : Option ModWin := none
  /-- The controller has presented a request since the core went into its wait state, which ended that state (R293). -/
  woke     : Bool := false
  deriving DecidableEq, Repr

/-- The interrupt controller beside its registers (R198-R215). -/
structure IcSt where
  src : Vector SrcSt 384 := Vector.replicate 384 {}
  tgt : Vector TgtSt 5 := Vector.replicate 5 {}
  deriving DecidableEq, Repr

/-- A fault record (R232). -/
structure FRec where
  w0 : Word
  w1 : Word
  w2 : Word
  w3 : Word
  deriving DecidableEq, Repr

/-- A watchdog beside its registers (R240). -/
structure WdSt where
  /-- Instant from which the count runs; none while it does not run. -/
  from_ : Option Nat := none
  /-- The count held while it does not run. -/
  held  : Nat := 0
  /-- The first key has been written. -/
  key   : Bool := false
  /-- WARN has been raised since the last feed. -/
  warned : Bool := false
  deriving DecidableEq, Repr

/-- The fault collector, TOLL and the watchdogs beside their registers (R220-R242). -/
structure FcSt where
  /-- Lines held asserted, rising. -/
  level  : List Nat := []
  /-- Assertions that wait to be captured by the collector, rising. -/
  fresh  : List Nat := []
  /-- Lines captured asserted in the collector cycle of the latest capture. -/
  live   : List Nat := []
  /-- Instant of the collector cycle of the latest capture. -/
  cycle  : Nat := 0
  /-- Instant at which each line was last known asserted: captured, or its held assertion ended; unlisted: long ago. -/
  last   : List (Nat × Nat) := []
  /-- Lines that a commit has masked, with its instant: in that cycle they still block an acknowledgement (R228). -/
  masked : List (Nat × Nat) := []
  recs   : List FRec := []
  seq    : Nat := 0
  /-- Leg set of each class, bit n for leg n. -/
  legs   : Vector Nat 16 := Vector.replicate 16 0
  /-- The rest of lockdown waits for the flash engine (R242). -/
  rest   : Bool := false
  /-- Cores halted and notice sent. -/
  locked : Bool := false
  /-- Instant of the next TOLL toggle; none before the shroud is ready. -/
  tollAt : Option Nat := none
  /-- TOLLFEED has been written since the previous toggle. -/
  fed    : Bool := false
  wd     : Vector WdSt 5 := Vector.replicate 5 {}
  deriving DecidableEq, Repr

/-- A descriptor as loaded into a segment register (R303). -/
structure Desc where
  base  : Word
  limit : Nat
  x     : Bool
  w     : Bool
  r     : Bool
  deriving DecidableEq, Repr

/-- A segment register: its selector and the descriptor loaded from it; no descriptor is the null descriptor (R302). -/
structure SegSt where
  sel  : BitVec 16 := 0
  desc : Option Desc := none
  deriving DecidableEq, Repr

/-- The boot CS descriptor (R302). -/
def bootCs : Desc := { base := 0, limit := 0xFFFF, x := true, w := false, r := true }

/-- What a core is doing (R293, R294, R297, R347). -/
inductive CoreRun where
  /-- Held in reset. -/
  | held
  | run
  /-- In its wait state. -/
  | waiting
  | halted
  | locked
  deriving DecidableEq, Repr

/-- The window after a multiplier instruction in which a read is not interlocked (R269): MH:ML before and after it, and the
instructions executed since. -/
structure ProdWin where
  prev  : BitVec 64
  new   : BitVec 64
  since : Nat
  deriving DecidableEq, Repr

/-- A core (R249-R252, R281-R298). -/
structure CoreSt where
  run    : CoreRun := .held
  w      : Vector Word 16 := Vector.replicate 16 0
  f      : Vector Word 8 := Vector.replicate 8 0
  /-- CS, DS, SS, ES, XS, YS. -/
  seg    : Vector SegSt 6 := #v[{ sel := 0, desc := some bootCs }, {}, {}, {}, {}, {}]
  /-- CS offset of the next instruction; 0x10000 where the last one ended at 0xFFFF (offsets do not wrap, R255). -/
  pc     : BitVec 17 := 0
  mh     : Word := 0
  ml     : Word := 0
  dq     : Word := 0
  dm     : Word := 0
  psw    : Word := 8
  fpsr   : Word := 0
  fpxpc  : Word := 0
  savepc  : Vector Word 8 := Vector.replicate 8 0
  savepsw : Vector Word 8 := Vector.replicate 8 0
  saveseg : Vector Word 8 := Vector.replicate 8 0
  /-- A product on its way to MH:ML, and the window of R269. -/
  prod   : Option (BitVec 64) := none
  win    : Option ProdWin := none
  /-- A quotient and remainder on their way to DQ and DM. -/
  divn   : Option (Word × Word) := none
  /-- A floating-point exception must be taken at the next boundary (R278, after FBAR). -/
  fpDue  : Bool := false
  /-- A halt has been requested (R294). -/
  haltRq : Bool := false
  /-- Range of CS offsets held by the loop buffer (R283). -/
  buf    : Option (Nat × Nat) := none
  /-- Physical addresses of the issued reads of the load at the boundary that have not been used, and the values that have come back. -/
  ldWait : List Nat := []
  ldBack : List (Nat × Word) := []
  /-- Instant at which the latest reset of the core was asserted (R347). -/
  resetAt : Nat := 0
  /-- The boot ROM handler has parked the core (R355). -/
  parked : Bool := false
  deriving DecidableEq, Repr

/-- A raw access that waits for the scrub or for the copy of its line (R317, R320, R321): the word it writes; none for a read. -/
structure RawOp where
  by_  : Requester
  addr : Nat
  val  : Option (BitVec 39)
  deriving DecidableEq, Repr

/-- Loop engine memory at reset, until the scrub writes 0 (R317): the output limits UMIN and UMAX of both banks of every engine at
their reset values (R153), with their check bits (R311). -/
def lemReset : List (Nat × BitVec 39) :=
  (List.range 64).flatMap fun n =>
    [(64 * n + 8, 0x3C0000000), (64 * n + 9, 0x1B3FFFFFFF), (64 * n + 24, 0x3C0000000), (64 * n + 25, 0x1B3FFFFFFF)]

/-- Memories beside their registers (R300-R321).  SRAM and loop engine memory are stored as 39-bit words: data in the low 32
bits, check bits C0-C6 above them. -/
structure MemSt where
  /-- SRAM array words by cell: 16 words per line, then the spare lines; unlisted: the scrubbed word 0. -/
  sram  : List (Nat × BitVec 39) := []
  /-- Loop engine memory words by index; unlisted: the scrubbed word 0. -/
  lem   : List (Nat × BitVec 39) := lemReset
  /-- Boot ROM words whose parity bit is wrong, rising. -/
  romBad : List Nat := []
  /-- Remap copies in progress: bank, entry, line (R320). -/
  copies : List (Fin 8 × Fin 16 × Nat) := []
  /-- Raw accesses that wait, oldest first. -/
  rawQ  : List RawOp := []
  /-- Instant of the latest patrol read. -/
  patAt : Nat := 0
  deriving DecidableEq, Repr

/-- The flash engine's operations (R331). -/
inductive FlKind where
  | program
  | erase
  | verify
  | evalcal
  deriving DecidableEq, Repr

/-- A flash operation in progress, with what the engine copied at its start (R331). -/
structure FlOp where
  kind   : FlKind
  addr   : Nat
  data   : BitVec 128
  margin : Nat
  count  : Nat
  /-- Requester number of its command. -/
  by_    : Nat
  deriving DecidableEq, Repr

/-- Flash and its engine beside the registers (R325-R338). -/
structure FlashSt where
  /-- Stored words by address / 16: data in bits 127-0, check bits C0-C8 above them; unlisted: erased, or the factory row. -/
  words : List (Nat × BitVec 137) := []
  /-- Sectors marked erase-incomplete in the engine's own record (R333), rising. -/
  eic   : List Nat := []
  /-- Words a failed or interrupted program left undetermined, rising. -/
  undet : List Nat := []
  op    : Option FlOp := none
  /-- Shutdown or lockdown has been met: the engine stops after the operation in progress (R335). -/
  stop  : Bool := false
  deriving DecidableEq, Repr

/-- A frame on the link, without its CRC (R366-R368). -/
inductive Frame where
  /-- The sender's device time and sequence number are those of the instant it leaves. -/
  | time (tx : Nat) (v back : Bool) (hops seq : Nat)
  | dreq
  | drsp (t2 t3 : Nat)
  | enum (next flags : Nat)
  | enumDone (count : Nat) (ring ovr : Bool)
  | lstat (addr port state : Nat)
  | lockdown (addr cls time : Nat)
  /-- Packet frame: envelope DST, SRC, KIND and the packet's bytes; ended by ABORT or whole. -/
  | packet (dst src kind : Nat) (bytes : List Byte) (aborted : Bool)
  deriving DecidableEq, Repr

/-- A frame waiting at a port: the frame, when it was queued, and whether it is forwarded rather than the unit's own. -/
structure TxFrame where
  frame : Frame
  at_   : Nat
  fwd   : Bool
  deriving DecidableEq, Repr

/-- The last usable time frame of a port (R384): arrival instant and hop count. -/
structure TimeRx where
  at_  : Nat
  hops : Nat
  deriving DecidableEq, Repr

/-- A port of the link beside its registers (R363-R371, R382). -/
structure PortSt where
  /-- Frames that wait for a frame boundary, and the end of the frame in progress. -/
  txq    : List TxFrame := []
  busy   : Nat := 0
  /-- The transmitter sends IDLE_R rather than IDLE_NR (R364). -/
  idleR  : Bool := false
  /-- Trained once since reset (lines 456, 457). -/
  once   : Bool := false
  /-- Delay exchanges under way, oldest first: the instant the exchange began, and once its DREQ has left that instant and the
  device time then.  The earliest instant of the next exchange. -/
  exch   : List (Nat × Option Nat) := []
  nextEx : Nat := 0
  /-- Exchanges of the initial 16 still to make; delays of the last exchanges in 1/16 fine unit, newest first, at most 16. -/
  left   : Nat := 0
  dels   : List Int := []
  /-- Exchanges completed since the port trained, at most 16. -/
  done_  : Nat := 0
  rx     : Option TimeRx := none
  deriving DecidableEq, Repr

/-- The link beside its registers (R363-R387). -/
structure LnkSt where
  /-- Device time at instant `baseAt`, in 2^-32 fine units; the rate correction; the phase correction still to apply, in eighths
  of a fine unit (R380, R384). -/
  base   : Int := 0
  baseAt : Nat := 0
  rate   : Int := 0
  pend   : Int := 0
  /-- Device time advances: PLL A is locked. -/
  runs   : Bool := false
  port   : Vector PortSt 2 := Vector.replicate 2 {}
  /-- SEQ of the next time frame; the instant of the last sending, from which SYNCINT counts (R383). -/
  seq    : Nat := 0
  sentAt : Nat := 0
  /-- The address changed in the enumeration in progress (R373). -/
  moved  : Bool := false
  /-- The last enumeration reported more than 64 units. -/
  ovr   : Bool := false
  /-- LNKTIMEL has been read since the last time service update. -/
  latched : Bool := false
  /-- LNKPp_ASYM or LNKTCFG was written while tracking: the next e is open. -/
  openE  : Bool := false
  deriving DecidableEq, Repr

/-- A ring buffer descriptor copied at the enable (R416, R417). -/
structure CapDesc where
  addr : Nat
  len  : Nat
  irq  : Bool
  deriving DecidableEq, Repr

/-- A snapshot being read (R421); `asked`: its next read has been issued and waits. -/
structure CapSnap where
  stamp  : Nat
  tv     : Bool
  words  : List Word
  poison : Bool
  asked  : Bool := false
  deriving DecidableEq, Repr

/-- What a line holds of a record (R413, R414): a converter result, a MARKER, another long record, or a line's part of the SNAP record
with the given number. -/
inductive CapBody where
  | adc (n : Fin 32) (entry : Nat) (sat tv : Bool) (data : Nat)
  | marker
  | long (words : List Word)
  | snap (num : Nat) (words : List Word)
  deriving DecidableEq, Repr

/-- A record: the instant the engine received it, and its own stamp. -/
structure CapRec where
  at_  : Nat
  ts   : Nat
  body : CapBody
  deriving DecidableEq, Repr

/-- A line: its words and its records; a LOSS record in front of them stands in the words alone. -/
structure CapLine where
  words : List Word := []
  recs  : List CapRec := []
  deriving DecidableEq, Repr

/-- The state of a capture ring set beside its registers (R412-R422). -/
structure CapSt where
  descs  : List CapDesc := []
  /-- The line under assembly, and the instant of its first record. -/
  line   : CapLine := {}
  since  : Nat := 0
  /-- Complete lines waiting for a tag (the staging buffer, R420), and lines issued and not yet accepted by their destination (R43). -/
  staged : List CapLine := []
  sent   : List CapLine := []
  /-- SNAP records begun, and the number of the last one of which a line was dropped (R420). -/
  snaps    : Nat := 0
  snapLost : Option Nat := none
  /-- Previous stamp and TV of each converter's chain; none asks for a MARKER (R415). -/
  chain  : Vector (Option (Nat × Bool)) 32 := Vector.replicate 32 none
  /-- Records dropped since the previous LOSS record, and the stamp of the first. -/
  drops  : Nat := 0
  dropTs : Nat := 0
  /-- A line has been dropped since a line was last written (line 469). -/
  dropping : Bool := false
  snap   : Option CapSnap := none
  /-- Instant of the last write-back, and one is held back to be coalesced (R419). -/
  wbAt   : Option Nat := none
  wbPend : Bool := false
  /-- An enable waits to read its descriptors (R317, R320, R417). -/
  enW    : Bool := false
  /-- CAPRr_RLINE was moved backwards or beyond the capacity: the ring's lines are undefined until the next enable. -/
  ringOpen : Bool := false
  deriving DecidableEq, Repr

/-- What leaves the device towards the host or the chain. -/
inductive Outbound where
  /-- A posted write to host memory. -/
  | hostWrite (addr : Nat) (words : List Word)
  /-- A posted write of some bytes to host memory. -/
  | hostBytes (addr : Nat) (bytes : List Byte)
  /-- MSI-X vector. -/
  | msix (vec : Nat)
  /-- A frame on a link port. -/
  | frame (port : Fin 2) (f : Frame)
  /-- A reply packet on the SPI queue being shifted out, or an SPISTAT answer. -/
  | spi (bytes : List Byte)
  /-- An outbound read request to host memory. -/
  | hostRead (addr : Nat)
  /-- Completion of an inbound PCIe read: successful or Unsupported Request, and its EP bit. -/
  | completion (words : List Word) (ok ep : Bool)
  deriving DecidableEq, Repr

/-- The interfaces that deliver command packets (R395, R398). -/
inductive Iface where
  | link
  | pcie
  | spi
  deriving DecidableEq, Repr

/-- What a reply needs of its command (R393, R396). -/
structure CmdHdr where
  iface : Iface
  op    : Nat
  tag   : Nat
  flags : Nat
  bcast : Bool
  /-- SRC of the envelope of a command from the link. -/
  src   : Nat
  deriving DecidableEq, Repr

/-- A command packet that waits for the interpreter (R398); `err` is the status of the check it failed (R394). -/
structure Cmd where
  hdr     : CmdHdr
  payload : List Byte
  raw     : List Byte
  at_     : Nat
  err     : Option Nat := none
  /-- Device time when the last CRC byte was captured, and whether it was chain time. -/
  stamp   : Nat := 0
  tv      : Bool := false
  deriving DecidableEq, Repr

/-- A CALIBRATE in progress (R401): the named converters, those skipped and those still calibrating. -/
structure CalCmd where
  hdr   : CmdHdr
  mask  : Nat
  skip  : Nat
  wait  : Nat
  fail  : Nat
  deriving DecidableEq, Repr

/-- An IMAGE_CHUNK in progress (R402): next address, words still to program, bytes programmed, and whether the word's sector has
been erased for it. -/
structure ChunkCmd where
  hdr    : CmdHdr
  addr   : Nat
  words  : List (BitVec 128)
  done_  : Nat
  erased : Bool
  /-- The flash operation in progress is the chunk's own. -/
  going  : Bool := false
  deriving DecidableEq, Repr

/-- An outbound read (R408): the core that waits, the window address, its issue; `dead` once the core has been reset. -/
structure OutRead where
  core : Fin 5
  addr : Nat
  at_  : Nat
  dead : Bool := false
  deriving DecidableEq, Repr

/-- The SPI target (R410, R411): CS_N low in a CMD frame, bytes of a partial packet, input being discarded, bytes still to skip. -/
structure SpiSt where
  low  : Bool := false
  buf  : List Byte := []
  drop : Bool := false
  skip : Nat := 0
  /-- Instant of the latest byte. -/
  at_  : Nat := 0
  deriving DecidableEq, Repr

/-- What the endpoint's configuration space says of the function (R406).  No command writes it; its vendor identifier, which the
spec does not give as a number, is `Config.vendorId`. -/
structure PcieCfg where
  deviceId   : BitVec 16 := 0x9648
  revisionId : BitVec 8 := 0xB0
  classCode  : BitVec 24 := 0x118000
  aer        : Bool := true
  aspmL1     : Bool := true
  aspmL0s    : Bool := false
  /-- Power states D0 and D3hot. -/
  d0         : Bool := true
  d3hot      : Bool := true
  /-- Maximum payload and maximum read request, in bytes. -/
  maxPayload : Nat := 256
  maxRead    : Nat := 512
  /-- MSI-X vectors; where the table and the pending bits stand in BAR0. -/
  vectors    : Nat := 8
  table      : Nat := 0x0070F000
  pba        : Nat := 0x0070F800
  /-- Sizes of BAR0 and BAR2, both 64-bit and non-prefetchable. -/
  bar0       : Nat := 2 ^ 28
  bar2       : Nat := 2 ^ 30
  deriving DecidableEq, Repr

/-- The host interface and the command interpreter beside their registers (R391-R411). -/
structure HstSt where
  out    : List Outbound := []
  cfg    : PcieCfg := {}
  cmds   : List Cmd := []
  /-- Replies made that wait for room at their interface, with their destination, oldest first (R398). -/
  late   : List (Iface × Nat × List Byte) := []
  /-- Replies queued for the mailbox and for SPI; replies for the link wait in the link's own queue. -/
  pcie   : List (List Byte) := []
  spiQ   : List (List Byte) := []
  spi    : SpiSt := {}
  /-- The endpoint is held in reset by PERST_N (R460). -/
  perst  : Bool := false
  enum   : Option (CmdHdr × Nat) := none
  cal    : Option CalCmd := none
  chunk  : Option ChunkCmd := none
  commit : Option CmdHdr := none
  /-- The firmware command in FWCMDBUF and the instant PEND set (R404). -/
  fw     : Option (CmdHdr × Nat) := none
  /-- The latest firmware command has timed out: a later FWRPL is late (R404). -/
  fwLate : Bool := false
  /-- A software device reset follows the reply to an IMAGE_COMMIT: its instant as known, and the reply's interface and bytes (R403). -/
  recAt  : Option (Nat × Iface × List Byte) := none
  /-- Words of the host's writes that wait for a tag, in order: address, byte enables and value (R46). -/
  posted : List (Nat × BitVec 4 × Word) := []
  reads  : List OutRead := []
  /-- Values that have come back for register reads of the host that had to wait. -/
  back   : List (Nat × Word) := []
  deriving DecidableEq, Repr

/-- What started a verification (R437). -/
inductive VerFor where
  | restart
  | command
  | firmware
  deriving DecidableEq, Repr

/-- A verification in progress. -/
structure VerSt where
  bank : Bool
  for_ : VerFor
  /-- The image was programmed or erased meanwhile: the result is open. -/
  open_ : Bool := false
  deriving DecidableEq, Repr

/-- The security block beside its registers (R427-R441). -/
structure SecSt where
  /-- The random word of the latest accepted entry (R429). -/
  rnd    : Word := 0
  /-- Instants of the last accepted entry and of the first commit write. -/
  entryAt : Nat := 0
  firstAt : Option Nat := none
  /-- Commit writes that wait for the nonce (R430). -/
  waitA  : Option Word := none
  waitB  : Option Word := none
  ver    : Option VerSt := none
  /-- The entry point that S is about to enter from the boot ROM, while the walk of its segment must wait (R352, R357). -/
  entry  : Option Word := none
  /-- The latest write of TK_SADDR named an address that is no multiple of 4. -/
  odd    : Bool := false
  deriving DecidableEq, Repr

/-- The instruction of the test access port (R462). -/
inductive JtagIr where
  | bypass
  | idcode
  | sample
  | extest
  deriving DecidableEq, Repr

/-- A ball that the device drives low or high, or leaves at high impedance (R360, R464). -/
inductive Ball where
  | low
  | high
  | z
  deriving DecidableEq, Repr

/-- The digital output balls that EXTEST may drive, as they stand. -/
structure OutBalls where
  toll   : Ball
  lockup : Ball
  rstout : Ball
  posC   : Vector Ball 8
  miso   : Ball
  deriving DecidableEq, Repr

/-- Levels of the digital input balls that the model has: POS0A-POS7Z by channel, PERST_N, CS_N, RST_N. -/
structure InBalls where
  posA   : Vector Bool 8 := Vector.replicate 8 false
  posB   : Vector Bool 8 := Vector.replicate 8 false
  posZ   : Vector Bool 8 := Vector.replicate 8 false
  perstN : Bool := true
  csN    : Bool := true
  rstN   : Bool := true
  deriving DecidableEq, Repr

/-- A level for each digital output ball that EXTEST may drive (R462): TOLL, LOCKUP, RSTOUT_N, POS0C-POS7C, MISO. -/
structure TestBalls where
  toll   : Bool := false
  lockup : Bool := false
  rstout : Bool := false
  posC   : Vector Bool 8 := Vector.replicate 8 false
  miso   : Bool := false
  deriving DecidableEq, Repr

/-- The test access port (R462). -/
structure JtagSt where
  /-- TRST is low. -/
  trst   : Bool := false
  ir     : JtagIr := .idcode
  /-- What the boundary cells of the driven balls hold. -/
  cells  : TestBalls := {}
  /-- What the latest SAMPLE observed of those balls. -/
  seen   : TestBalls := {}
  /-- Legs (LnH, then LnL), gate enables and inputs that the latest SAMPLE or EXTEST observed. -/
  legs   : List Bool := []
  gates  : List Bool := []
  ins    : InBalls := {}
  deriving DecidableEq, Repr

/-- Everything the spec gives the device: instants are in time units of 1/192 ns. -/
structure Dev where
  now  : Nat := 0
  free : Nat := 0
  regs : RegFile := []
  sys  : SysSt := {}
  leg  : Vector LegSt 96 := Vector.replicate 96 {}
  tb   : Vector TbSt 32 := Vector.replicate 32 {}
  adc  : Vector AdcSt 32 := Vector.replicate 32 {}
  le   : Vector LeSt 64 := Vector.replicate 64 {}
  cmp  : Vector CmpSt 64 := Vector.replicate 64 {}
  pos  : Vector PosSt 8 := Vector.replicate 8 {}
  cap  : Vector CapSt 16 := Vector.replicate 16 {}
  mem  : MemSt := {}
  core : Vector CoreSt 5 := Vector.replicate 5 {}
  fab  : FabSt := {}
  ic   : IcSt := {}
  fc   : FcSt := {}
  lnk  : LnkSt := {}
  fl   : FlashSt := {}
  sec  : SecSt := {}
  hst  : HstSt := {}
  jtag : JtagSt := {}
  deriving DecidableEq, Repr

/-- The machine: the device, and the commands that wait, first in, first out. -/
structure State extends Dev where
  pending : List Instr := []
  deriving DecidableEq, Repr

/-- No command ends in a fault: where the spec leaves a value open it is a free value, and where a command finds nothing to act on
it changes nothing. -/
inductive Fault where
  deriving DecidableEq, Repr

/-- Reasons to refuse a command. -/
inductive Refusal where
  /-- Answered by the dispatch for a command that has no meaning yet: safe, the machine stops. -/
  | notModelled (mnemonic : String)
  deriving DecidableEq, Repr

/-- The release of power-on reset (R343, R348) with the strap NL_HEAD low: every register at its reset value, RSTCAUSE naming the
power-on reset, the cores held, no readiness bit set, no command waiting. -/
def State.reset : State := {}

end Sys2Proof.Machine
end

