-- ==== Sys2Proof/Machine/Ops.lean ====
section
/-!
DEFINITION. The named operations every meaning shares: reading and storing registers and fields, flags and counters (R13,
R16, R17), free values, events raised to the fabric, error lines, instants and device time.
-/
namespace Sys2Proof.Machine
open Sys2Proof

/-- What a register holds. -/
def Dev.get (d : Dev) (r : Reg) : Word := d.regs.get r

/-- Store a register whole, with no side effect. -/
def Dev.put (d : Dev) (r : Reg) (v : Word) : Dev := { d with regs := d.regs.set r v }

/-- A field's value. -/
def Dev.f (d : Dev) (r : Reg) (f : Fld) : Nat := f.get (d.get r)

/-- A one-bit field. -/
def Dev.b (d : Dev) (r : Reg) (f : Fld) : Bool := f.bit (d.get r)

/-- Store a field, with no side effect. -/
def Dev.setF (d : Dev) (r : Reg) (f : Fld) (v : Nat) : Dev := d.put r (f.put v (d.get r))

/-- Store a one-bit field. -/
def Dev.setB (d : Dev) (r : Reg) (f : Fld) (b : Bool) : Dev := d.setF r f (b2n b)

/-- Set a sticky flag. -/
def Dev.flag (d : Dev) (r : Reg) (f : Fld) : Dev := d.setB r f true

/-- Set a sticky flag where a condition holds. -/
def Dev.flagIf (d : Dev) (c : Bool) (r : Reg) (f : Fld) : Dev := if c then d.flag r f else d

/-- Add to a counter field that saturates at its largest value (R17 counters). -/
def Dev.bumpBy (d : Dev) (r : Reg) (f : Fld) (n : Nat) : Dev := d.setF r f (satAdd (2 ^ f.width - 1) (d.f r f) n)

/-- Count one in a saturating counter field. -/
def Dev.bump (d : Dev) (r : Reg) (f : Fld) : Dev := d.bumpBy r f 1

/-- Set one bit of a word-wide register. -/
def Dev.setBit (d : Dev) (r : Reg) (i : Nat) (b : Bool) : Dev := d.setB r ⟨i, i⟩ b

/-- The value a plain write leaves, by the access codes of R13: RW bits take the value, W1C bits clear, W1S bits set; RO,
RC, WO, TK and reserved bits are unchanged. -/
def plainWrite (a : Access) (old v : Word) : Word :=
  (((old &&& ~~~ a.rw) ||| (v &&& a.rw)) &&& ~~~ (v &&& a.w1c)) ||| (v &&& a.w1s)

/-- A plain write of a register, with no side effect beyond R13. -/
def Dev.wr (d : Dev) (r : Reg) (v : Word) : Dev := d.put r (plainWrite r.access (d.get r) v)

/-- Clear the RC fields a read clears (R13). -/
def Dev.clearRC (d : Dev) (r : Reg) : Dev := d.put r (d.get r &&& ~~~ r.access.rc)

/-- Advance the instant of the machine; time never runs back. -/
def Dev.at (d : Dev) (t : Nat) : Dev := { d with now := max d.now t }

/-- Do something as of instant t, for the members of a group that a command starts or stops together. -/
def Dev.asOf (d : Dev) (t : Nat) (g : Dev → Dev) : Dev := (g { d with now := t }).at d.now

/-- The next free value's index: each use takes a fresh one. -/
def Dev.bumpFree (d : Dev) : Dev := { d with free := d.free + 1 }

/-- A producer presents an event to the fabric (R185, R188): it waits for the PRODUCER_EVENT row. -/
def Dev.raise (d : Dev) (p : Nat) : Dev :=
  if h : p < 512 then { d with fab := { d.fab with raised := d.fab.raised ++ [⟨p, h⟩] } } else d

/-- Raise an event where a condition holds. -/
def Dev.raiseIf (d : Dev) (c : Bool) (p : Nat) : Dev := if c then d.raise p else d

/-- Put a line number into a rising list without repeats. -/
def insLine (l : Nat) : List Nat → List Nat
  | [] => [l]
  | x :: t => if x = l then x :: t else if l < x then l :: x :: t else x :: insLine l t

/-- An error line is pulsed for one collector cycle (R221): it waits for the FAULT_OCCURRENCE row. -/
def Dev.pulse (d : Dev) (l : Nat) : Dev := { d with fc := { d.fc with fresh := insLine l d.fc.fresh } }

/-- An error line is held asserted (R221); its first assertion waits for the FAULT_OCCURRENCE row. -/
def Dev.lineOn (d : Dev) (l : Nat) : Dev :=
  if l ∈ d.fc.level then d
  else { d with fc := { d.fc with level := insLine l d.fc.level, fresh := insLine l d.fc.fresh } }

/-- A held error line deasserts; where the collector had captured it, this instant ends its assertion (R221). -/
def Dev.lineOff (d : Dev) (l : Nat) : Dev :=
  let known := d.fc.level.contains l && !d.fc.fresh.contains l
  { d with fc := { d.fc with level := d.fc.level.filter (· ≠ l),
                             last := if known then (l, d.now) :: d.fc.last.filter (fun x => x.1 ≠ l) else d.fc.last } }

/-- Hold or release a level line as its condition says. -/
def Dev.line (d : Dev) (l : Nat) (on : Bool) : Dev := if on then d.lineOn l else d.lineOff l

/-- First instant at or after `t` of a grid of step `s` with phase `ph`. -/
def gridUp (s ph t : Nat) : Nat := if t ≤ ph then ph else ph + (t - ph + s - 1) / s * s

/-- First tick at or after an instant: PLL A ticks lie on multiples of a tick, PLL B ticks at the free phase the reference
fixes (R29). -/
def tickUp (pllB : Bool) (t : Nat) : Nat :=
  if pllB then gridUp tuTick (Config.pllBPhase % tuTick) t else gridUp tuTick 0 t

/-- First AC cycle (400 MHz) at or after an instant. -/
def acUp (t : Nat) : Nat := gridUp tuAc 0 t

/-- Phase correction applied by an instant, in eighths of a fine unit: 1 fine unit per 8 ticks (R384).  DESIGN CHOICE (log entry 184):
an eighth on each tick, so that a tick never advances by more than 25 or less than 23 fine units (R380). -/
def Dev.phaseBy (d : Dev) (t : Nat) : Int :=
  let n : Int := ((t - d.lnk.baseAt) / tuTick : Nat)
  clampI (-n) n d.lnk.pend

/-- Device time at an instant, in 2^-32 fine units (R380): 24 fine units a tick, with the rate and phase corrections. -/
def Dev.timeQ (d : Dev) (t : Nat) : Int :=
  if d.lnk.runs then
    d.lnk.base + (((t : Int) - d.lnk.baseAt) * (2 ^ 32 + d.lnk.rate)) / (tuFine : Int) + d.phaseBy t * 2 ^ 29
  else d.lnk.base

/-- Device time, in fine units, at an instant (R380). -/
def Dev.devTime (d : Dev) (t : Nat) : Int := d.timeQ t / 2 ^ 32

/-- Device time as the 64 bits of a stamp. -/
def Dev.stamp (d : Dev) (t : Nat) : Nat := (d.devTime t % (2 ^ 64 : Nat)).toNat

/-- Chain time is valid (R381, LNKSTAT.CTV). -/
def Dev.ctv (d : Dev) : Bool := d.b (.lnk .lnkstat) LNKSTAT.CTV

/-- The low and high halves of a 64-bit stamp. -/
def lo32 (n : Nat) : Word := w32 (n % 2 ^ 32)
def hi32 (n : Nat) : Word := w32 (n / 2 ^ 32 % 2 ^ 32)

/-- A reply's last byte leaves its interface at instant t: a reset that follows it comes then at the latest (R403). -/
def Dev.replyLeft (d : Dev) (i : Iface) (b : List Byte) (t : Nat) : Dev :=
  match d.hst.recAt with
  | some (due, j, c) => if j = i ∧ c = b then { d with hst := { d.hst with recAt := some (min due t, j, c) } } else d
  | none => d

/-- Replace leg n's state. -/
def Dev.legU (d : Dev) (n : Fin 96) (g : LegSt → LegSt) : Dev := { d with leg := d.leg.set n (g d.leg[n]) }

/-- Replace timebase n's state. -/
def Dev.tbU (d : Dev) (n : Fin 32) (g : TbSt → TbSt) : Dev := { d with tb := d.tb.set n (g d.tb[n]) }

/-- Apply an update for each element of a list, in order. -/
def Dev.each {α : Type} (d : Dev) (l : List α) (g : α → Dev → Dev) : Dev := l.foldl (fun d a => g a d) d

/-- Timebase n's counter runs. -/
def Dev.tbRun (d : Dev) (n : Fin 32) : Bool := d.b (.tb n .stat) TB_STAT.RUNNING

/-- The timebase a leg takes its edges from. -/
def Dev.legTb (d : Dev) (n : Fin 96) : Fin 32 := Fin.ofNat 32 (d.f (.leg n .ctl) LEG_CTL.TB)

/-- The legs on a timebase. -/
def Dev.legsOn (d : Dev) (t : Fin 32) : List (Fin 96) := (fins 96).filter fun n => d.legTb n = t

end Sys2Proof.Machine
end

