-- ==== Sys2Proof/Machine/Capture.lean ====
section
/-!
DEFINITION. The capture engine's ring sets (R412-R422): records, lines, the ring in host memory, write-back and MSI-X.
-/
namespace Sys2Proof.Machine
open Sys2Proof

/-- Replace ring set r's state. -/
def Dev.capU (d : Dev) (r : Fin 16) (g : CapSt → CapSt) : Dev := { d with cap := d.cap.set r (g d.cap[r]) }

/-- Something leaves the device. -/
def Dev.send (d : Dev) (o : Outbound) : Dev := { d with hst := { d.hst with out := d.hst.out ++ [o] } }

/-- The PCIe link is in L0. -/
def Dev.l0 (d : Dev) : Bool := d.b (.hif .pciestat) PCIESTAT.L0

/-- Send an MSI-X vector (R406): a masked entry sets its pending bit instead; an endpoint in reset does neither (R460). -/
def Dev.msix (d : Dev) (vec : Nat) : Dev :=
  let e : Fin 32 := Fin.ofNat 32 (4 * (vec % 8) + 3)
  if d.hst.perst then d
  else if (d.get (.hif (.msixtab e))).getLsbD 0 then d.setBit (.hif .msixpba) (vec % 8) true
  else if d.l0 then d.send (.msix (vec % 8)) else d

/-- Ring capacity in lines (R416). -/
def capLines (c : CapSt) : Nat := (c.descs.map fun e => e.len / 64).sum

/-- Host address of a byte offset in the concatenated buffers, and whether a line at it ends a buffer with IRQ. -/
def capAddr : List CapDesc → Nat → Option (Nat × Bool)
  | [], _ => none
  | e :: t, o => if o < e.len then some (e.addr + o, e.irq && decide (o + 64 = e.len)) else capAddr t (o - e.len)

/-- Lines written and not consumed (R419). -/
def capOcc (d : Dev) (r : Fin 16) : Nat := ((d.get (.capr r .wline)) - (d.get (.capr r .rline))).toNat

/-- The requester whose operations holder h's tags serve, for the holders whose operations may wait in the register path. -/
def holderReq (h : Fin 70) : Option Requester :=
  if h.val < 5 then some (.core (Fin.ofNat 5 h.val)) else if h.val = 69 then some .host else none

/-- Operations of a holder that wait for a destination, and results of a core that are still to be written (R43): a register access
whose clock is stopped, a raw access that waits, a product, a quotient. -/
def heldOps (d : Dev) (h : Fin 70) : Nat :=
  match holderReq h with
  | none => 0
  | some q =>
    (d.sys.waits.filter fun w => w.by_ == q).length + (d.mem.rawQ.filter fun o => o.by_ == q).length +
      match q with
      | .core c => b2n d.core[c].prod.isSome + b2n d.core[c].divn.isSome
      | .host => 0

/-- Tags that holder h holds (R43, R468). -/
def Dev.inUse (d : Dev) (h : Fin 70) : Nat := d.sys.tags[h] + heldOps d h

/-- Holder 69's tags in use. -/
def capTagsAll (d : Dev) : Nat := d.inUse 69

/-- Ring set r may take one more tag (R422, R46). -/
def capMayIssue (d : Dev) (r : Fin 16) : Bool :=
  d.f (.capr r .use) CAPR_USE.IN_USE < d.f (.capr r .qta) CAPR_QTA.TAGS &&
    capTagsAll d < d.f (.sys (.tagbud 69)) TAGBUD.BUDGET

/-- Holder h takes a tag; PEAK follows (R43, R468). -/
def Dev.tagTake (d : Dev) (h : Fin 70) (n : Nat) : Dev :=
  let d1 := { d with sys := { d.sys with tags := d.sys.tags.set h (d.sys.tags[h] + n) } }
  d1.setF (.sys (.taguse h)) TAGUSE.PEAK (max (d.f (.sys (.taguse h)) TAGUSE.PEAK) (d.inUse h + n))

/-- Holder h returns n tags. -/
def Dev.tagBack (d : Dev) (h : Fin 70) (n : Nat) : Dev :=
  { d with sys := { d.sys with tags := d.sys.tags.set h (d.sys.tags[h] - n) } }

/-- Holder number of core c's tags (R44). -/
def coreHolder (c : Fin 5) : Fin 70 := Fin.ofNat 70 c.val

/-- Operations that take n tags and return them within the step: PEAK follows (R43, R468). -/
def Dev.tagPulse (d : Dev) (h : Fin 70) (n : Nat) : Dev := (d.tagTake h n).tagBack h n

/-- Keep CAPRr_STAT.WM at its level; a rise sends the vector (R419). -/
def capWm (r : Fin 16) (d : Dev) : Dev :=
  let on := d.b (.capr r .stat) CAPR_STAT.ARMED && decide (d.f (.capr r .cfg) CAPR_CFG.WMARK ≤ capOcc d r)
  let was := d.b (.capr r .stat) CAPR_STAT.WM
  let d1 := d.setB (.capr r .stat) CAPR_STAT.WM on
  if on && !was then d1.msix (d.f (.capr r .cfg) CAPR_CFG.VEC) else d1

/-- A microsecond has passed since the previous write-back. -/
def capWbDue (at_ : Option Nat) (now : Nat) : Bool :=
  match at_ with
  | none => true
  | some t => decide (t + tuUs ≤ now)

/-- A posted write of ring set r that the link does not carry (R420). -/
def capHostErr (r : Fin 16) (d : Dev) : Dev := (d.flag (.capr r .stat) CAPR_STAT.HOSTERR).pulse 470

/-- Write WLINE back to the host (R419), at most once per microsecond. -/
def capWriteBack (r : Fin 16) (d : Dev) : Dev :=
  if d.b (.capr r .ctl) CAPR_CTL.WBEN then
    if capWbDue d.cap[r].wbAt d.now then
      let a := (d.get (.capr r .wbh)).toNat % 2 ^ 16 * 2 ^ 32 + (d.get (.capr r .wbl)).toNat
      let d1 := d.capU r fun c => { c with wbAt := some d.now, wbPend := false }
      if d.l0 then d1.send (.hostWrite a [d.get (.capr r .wline)]) else capHostErr r d1
    else d.capU r fun c => { c with wbPend := true }
  else d

/-- A line begins with a LOSS record (R414). -/
def CapLine.hasLoss (x : CapLine) : Bool := x.words.head? == some 0x94000000

/-- What the LOSS record of a line reports: how many records, and the stamp of the first. -/
def CapLine.lossN (x : CapLine) : Nat := (x.words.getD 1 0).toNat
def CapLine.lossTs (x : CapLine) : Nat := (x.words.getD 2 0).toNat + 2 ^ 32 * (x.words.getD 3 0).toNat

/-- The SNAP record that a line's record is a part of. -/
def CapRec.snapNum (x : CapRec) : Option Nat :=
  match x.body with
  | .snap num _ => some num
  | _ => none

/-- The records that are lost with a line: a SNAP record is lost once, with the first of its lines (R420). -/
def capGone (lost : Option Nat) (recs : List CapRec) : List CapRec :=
  recs.filter fun x => x.snapNum.isNone || x.snapNum != lost

/-- Records not yet reported by a LOSS record that reached the ring: n more (R414).  They are the first of them, at stamp ts, where they
come before those counted already, or where none is. -/
def capUnreported (r : Fin 16) (before : Bool) (n ts : Nat) (d : Dev) : Dev :=
  if n = 0 then d
  else d.capU r fun c => { c with drops := satAdd (2 ^ 32 - 1) c.drops n, dropTs := if before || c.drops == 0 then ts else c.dropTs }

/-- A line is dropped with its records (R420): it came before what is counted already, or after.  What its LOSS record would have reported
is unreported again. -/
def capDrop (r : Fin 16) (before : Bool) (x : CapLine) (d : Dev) : Dev :=
  let gone := capGone d.cap[r].snapLost x.recs
  let d1 := capUnreported r before gone.length ((gone.map (·.ts)).headD 0) ((d.bumpBy (.capr r .lost) CAPR_LOST.COUNT gone.length).flag (.capr r .stat) CAPR_STAT.LOSS)
  let d2 := if before && x.hasLoss then capUnreported r true x.lossN x.lossTs d1 else d1
  let d3 := d2.capU r fun c => { c with dropping := true, snapLost := (gone.reverse.findSome? CapRec.snapNum).orElse fun _ => c.snapLost }
  if d.cap[r].dropping then d3 else d3.pulse 469

/-- The words of a line as they are written: open where the ring's lines are. -/
def capWords (r : Fin 16) (ws : List Word) (d : Dev) : List Word × Dev :=
  if d.cap[r].ringOpen then ((List.range 16).map fun k => Config.freeValue (d.free + k), { d with free := d.free + 16 }) else (ws, d)

/-- Issue the write of one complete line: its place in the ring, the tag, WLINE, DFILL, WM and write-back (R419, R422). -/
def capIssue (r : Fin 16) (x : CapLine) (d0 : Dev) : Dev :=
  let (ws, d) := capWords r x.words d0
  let c := d.cap[r]
  let l := (d.get (.capr r .wline)).toNat
  match capAddr c.descs (64 * (l % max 1 (capLines c))) with
  | none => d
  | some (a, irq) =>
    let d1 := (d.send (.hostWrite a ws)).put (.capr r .wline) (w32 (l + 1))
    let d2 := (d1.tagTake 69 1).setF (.capr r .use) CAPR_USE.IN_USE (d.f (.capr r .use) CAPR_USE.IN_USE + 1)
    let d3 := if irq then (d2.flag (.capr r .stat) CAPR_STAT.DFILL).msix (d.f (.capr r .cfg) CAPR_CFG.VEC) else d2
    capWriteBack r (capWm r (d3.capU r fun c => { c with dropping := false, sent := c.sent ++ [x] }))

/-- Lines staged by all ring sets: 64 KiB is 1,024 lines (R420). -/
def capStaged (d : Dev) : Nat := ((fins 16).map fun r => d.cap[r].staged.length).sum

/-- The ring has no place for a further line (R419, R420): open where its lines are. -/
def capNoRoom (r : Fin 16) (d : Dev) : Bool × Dev :=
  if d.cap[r].ringOpen then (Config.freeBool d.free, d.bumpFree)
  else (decide (capLines d.cap[r] ≤ capOcc d r + d.cap[r].staged.length), d)

/-- The words of a LOSS record (R414). -/
def capLossWords (c : CapSt) : List Word := [0x94000000, w32 c.drops, lo32 c.dropTs, hi32 c.dropTs]

/-- The open line is complete: it is staged, padded, with the drops so far in its LOSS record; or dropped where the ring or the staging
buffer is full (R413, R420), as the buffer reads while the PCIe side is in reset (R41). -/
def capCloseOne (r : Fin 16) (d1 : Dev) : Dev :=
  let (noRoom, d) := capNoRoom r d1
  let c := d.cap[r]
  let d0 := d.capU r fun c => { c with line := {} }
  if noRoom || decide (1024 ≤ capStaged d) || d.hst.perst then capDrop r false c.line d0
  else
    let loss := c.line.hasLoss
    let ws := (if loss then capLossWords c ++ c.line.words.drop 4 else c.line.words) ++ List.replicate (16 - c.line.words.length) 0
    d0.capU r fun x => { x with staged := x.staged ++ [{ c.line with words := ws }], drops := if loss then 0 else x.drops }

/-- The open line ends, if there is one (R413).  One without a LOSS record has a line with it in front where records have been dropped:
a SNAP record begins a line, so no LOSS record stands before it in its own (R420). -/
def capClose (r : Fin 16) (d : Dev) : Dev :=
  let c := d.cap[r]
  if c.line.words.isEmpty then d
  else if c.drops = 0 || c.line.hasLoss then capCloseOne r d
  else
    let d1 := capCloseOne r (d.capU r fun c => { c with line := { words := capLossWords c } })
    capCloseOne r (d1.capU r fun x => { x with line := c.line })

/-- Begin a line if none is open, for a record received at `at_`: with a LOSS record where records were dropped, after which every chain
starts again (R415, R420). -/
def capOpen (r : Fin 16) (at_ : Nat) (d : Dev) : Dev :=
  let c := d.cap[r]
  if !c.line.words.isEmpty then d
  else if c.drops = 0 then d.capU r fun c => { c with since := at_ }
  else d.capU r fun c => { c with since := at_, line := { words := capLossWords c }, chain := Vector.replicate 32 none }

/-- Put words of a record into the open line, which ends when it is full. -/
def capPut (r : Fin 16) (x : CapRec) (ws : List Word) (d : Dev) : Dev :=
  let d1 := d.capU r fun c => { c with line := { words := c.line.words ++ ws, recs := c.line.recs ++ [x] } }
  if 16 ≤ d1.cap[r].line.words.length then capClose r d1 else d1

/-- Place one record that lies within a line (R413): no record is longer than the rest of a line that begins with LOSS. -/
def capPlace (r : Fin 16) (x : CapRec) (ws : List Word) (d : Dev) : Dev :=
  let d0 := if 16 < d.cap[r].line.words.length + ws.length then capClose r d else d
  capPut r x ws (capOpen r x.at_ d0)

/-- Place a line's part of a SNAP record: at a line start (R413); a record of which a line was dropped goes no further (R420). -/
def capPlacePart (r : Fin 16) (x : CapRec) (ws : List Word) (d : Dev) : Dev :=
  if x.snapNum.isSome && x.snapNum == d.cap[r].snapLost then d
  else
    let d1 := capClose r d
    capPut r x ws (d1.capU r fun c => { c with since := x.at_, chain := if c.drops = 0 then c.chain else Vector.replicate 32 none })

/-- The parts of a SNAP record, a line each. -/
def capParts (r : Fin 16) (at_ ts num : Nat) : Nat → List Word → Dev → Dev
  | 0, _, d => d
  | _ + 1, [], d => d
  | k + 1, w :: ws, d =>
    let part := (w :: ws).take 16
    capParts r at_ ts num k ((w :: ws).drop 16) (capPlacePart r { at_ := at_, ts := ts, body := .snap num part } part d)

/-- Place a SNAP record, padded to a multiple of 16 bytes (R413, R414). -/
def capPlaceSnap (r : Fin 16) (ts : Nat) (ws : List Word) (d : Dev) : Dev :=
  let num := d.cap[r].snaps
  capParts r d.now ts num 40 (ws ++ List.replicate ((4 - ws.length % 4) % 4) 0) (d.capU r fun c => { c with snaps := c.snaps + 1 })

/-- Word 0 of a long record (R414). -/
def capW0 (ty : Nat) (tv : Bool) (rest : Nat) : Word := w32 (2 ^ 31 + ty * 2 ^ 26 + b2n tv * 2 ^ 25 + rest)

/-- Deviation of a stamp from 50 ns (1,920 fine units) after the previous one of its chain; out of range where there is none or
TV differs (R415). -/
def capDiff (prev : Option (Nat × Bool)) (tv : Bool) (ts : Nat) : Int :=
  match prev with
  | some (p, ptv) => if ptv = tv then (ts : Int) - p - 1920 else 100
  | none => 100

/-- Place a converter result: a MARKER where R415 asks for one, then the result. -/
def capPlaceAdc (r : Fin 16) (x : CapRec) (n : Fin 32) (entry : Nat) (sat tv : Bool) (data : Nat) (d : Dev) : Dev :=
  let d0 := capOpen r x.at_ d
  let diff := capDiff d0.cap[r].chain[n] tv x.ts
  let near := decide (-8 ≤ diff ∧ diff ≤ 7)
  let mk := capPlace r { x with body := .marker } [capW0 0 tv (n.val * 2 ^ 16), 0, lo32 x.ts, hi32 x.ts]
  let d1a := if near then d0 else mk d0
  -- where the line just closed was dropped, the next one begins with LOSS and asks for the MARKER again
  let d1 := if d1a.cap[r].line.words.isEmpty && d1a.cap[r].drops != 0 then mk d1a else d1a
  let dt : Nat := if near then (diff % 16).toNat else 0
  let w := w32 (2 ^ 30 + n.val * 2 ^ 25 + entry * 2 ^ 21 + b2n sat * 2 ^ 20 + dt * 2 ^ 16 + data)
  (capPlace r x [w] d1).capU r fun c => { c with chain := c.chain.set n (some (x.ts, tv)) }

/-- Place a record again, into lines that begin with LOSS. -/
def capAgain (r : Fin 16) (x : CapRec) (d : Dev) : Dev :=
  match x.body with
  | .adc n entry sat tv data => capPlaceAdc r x n entry sat tv data d
  | .marker => d
  | .long ws => capPlace r x ws d
  | .snap _ ws => capPlacePart r x ws d

/-- Lines of a ring set have been dropped that came before others still to be written: the next line written begins with LOSS and every
chain starts again, so the records that are left are placed anew (R420). -/
def capRepack (r : Fin 16) (d : Dev) : Dev :=
  let c := d.cap[r]
  let recs := c.staged.flatMap (·.recs) ++ c.line.recs
  if c.drops = 0 || recs.isEmpty then d
  else
    let d0 := (c.staged.filter CapLine.hasLoss).foldl (fun d x => capUnreported r false x.lossN x.lossTs d) d
    let d1 := d0.capU r fun c => { c with staged := [], line := {}, chain := Vector.replicate 32 none }
    let d2 := recs.foldl (fun d x => capAgain r x d) d1
    if c.line.words.isEmpty then capClose r d2 else d2

/-- Drop lines that came before all others that are held, the last first, so that the first one's stamp is kept. -/
def capDropAll (r : Fin 16) (l : List CapLine) (d : Dev) : Dev := l.foldr (fun x d => capDrop r true x d) d

/-- Issue staged lines while tags allow. -/
def capIssueAll (r : Fin 16) : Nat → Dev → Dev
  | 0, d => d
  | k + 1, d =>
    match d.cap[r].staged with
    | [] => d
    | x :: t => if capMayIssue d r then capIssueAll r k (capIssue r x (d.capU r fun c => { c with staged := t })) else d

/-- Staged lines are written, or dropped where the link does not carry them (R420). -/
def capPump (r : Fin 16) (d : Dev) : Dev :=
  if d.cap[r].staged.isEmpty || !capMayIssue d r then d
  else if d.l0 then capIssueAll r 1024 d
  else capRepack r (capHostErr r (capDropAll r d.cap[r].staged (d.capU r fun c => { c with staged := [] })))

/-- Lines issued and not yet accepted are lost with the link: their writes failed, and their tags return (R420, R422). -/
def capLinkLost (r : Fin 16) (d : Dev) : Dev :=
  let l := d.cap[r].sent
  if l.isEmpty then d
  else
    let d1 := ((d.capU r fun c => { c with sent := [] }).tagBack 69 l.length).setF (.capr r .use) CAPR_USE.IN_USE
      (d.f (.capr r .use) CAPR_USE.IN_USE - l.length)
    capRepack r (capHostErr r (capDropAll r l d1))

/-- Ring sets that record now (R412). -/
def capRunning (d : Dev) : List (Fin 16) := (fins 16).filter fun r => d.b (.capr r .stat) CAPR_STAT.RUN

/-- A record that the engine receives now goes into a line, and complete lines are written (R413). -/
def capTakeIn (r : Fin 16) (ts : Nat) (ws : List Word) (d : Dev) : Dev := capPump r (capPlace r { at_ := d.now, ts := ts, body := .long ws } ws d)

/-- A converter result is presented to the capture engine (R412, R110). -/
def capAdc (n : Fin 32) (entry : Nat) (sat tv : Bool) (data ts : Nat) (d : Dev) : Dev :=
  d.each ((capRunning d).filter fun r => (d.get (.capr r .sadc)).getLsbD n.val) fun r d =>
    capPump r (capPlaceAdc r { at_ := d.now, ts := ts, body := .adc n entry sat tv data } n entry sat tv data d)

/-- A comparator capture is presented to the capture engine (R412, R162). -/
def capCmp (n : Fin 64) (sat tv : Bool) (val ts : Nat) (d : Dev) : Dev :=
  let mask (r : Fin 16) := if n.val < 32 then d.get (.capr r .scmp0) else d.get (.capr r .scmp1)
  d.each ((capRunning d).filter fun r => (mask r).getLsbD (n.val % 32))
    (fun r => capTakeIn r ts [capW0 1 tv (b2n sat * 2 ^ 24 + n.val * 2 ^ 16 + val), 0, lo32 ts, hi32 ts])

/-- A position update is presented to the capture engine (R412, R172). -/
def capPos (n : Fin 8) (tv : Bool) (u : PosUpd) (d : Dev) : Dev :=
  d.each ((capRunning d).filter fun r => bitN (d.f (.capr r .spos) CAPR_SPOS.SRC) n.val)
    (fun r => capTakeIn r u.ts [capW0 2 tv (n.val * 2 ^ 16), u.pos, u.rev, u.spd, lo32 u.ts, hi32 u.ts, 0, 0])

/-- A loop engine commit is presented to the capture engine (R412). -/
def capLe (n : Fin 64) (tv : Bool) (scnt u : Word) (ts : Nat) (d : Dev) : Dev :=
  let mask (r : Fin 16) := if n.val < 32 then d.get (.capr r .sle0) else d.get (.capr r .sle1)
  d.each ((capRunning d).filter fun r => (mask r).getLsbD (n.val % 32))
    (fun r => capTakeIn r ts [capW0 3 tv (n.val * 2 ^ 16 + scnt.toNat % 2 ^ 16), u, lo32 ts, hi32 ts])

/-- A RUN record (R414, R421). -/
def capRunRec (r : Fin 16) (on : Bool) (d : Dev) : Dev :=
  let ts := d.stamp d.now
  capTakeIn r ts [capW0 6 d.ctv (b2n on), 0, lo32 ts, hi32 ts] d

/-- Start a ring set (R421). -/
def capStart (r : Fin 16) (d : Dev) : Dev :=
  if d.b (.capr r .stat) CAPR_STAT.RUN then d
  else capRunRec r true ((d.flag (.capr r .stat) CAPR_STAT.RUN).capU r fun c => { c with chain := Vector.replicate 32 none })

/-- Stop a ring set: a RUN record, the partial line flushed, RUN cleared (R421). -/
def capStop (r : Fin 16) (d : Dev) : Dev :=
  if d.b (.capr r .stat) CAPR_STAT.RUN then
    (capPump r (capClose r (capRunRec r false d))).setB (.capr r .stat) CAPR_STAT.RUN false
  else d

/-- Deassert or keep the write-back held for coalescing, once its microsecond has passed (R419). -/
def capTick (d : Dev) : Dev :=
  d.each ((fins 16).filter fun r => d.cap[r].wbPend) capWriteBack

end Sys2Proof.Machine
end

