-- ==== Sys2Proof/Machine/LoopIn.lean ====
section
/-!
DEFINITION. The sources of the loop engines' operands (R124): values presented to every engine that takes the source.
-/
namespace Sys2Proof.Machine
open Sys2Proof

/-- Replace loop engine n's state. -/
def Dev.leU (d : Dev) (n : Fin 64) (g : LeSt → LeSt) : Dev := { d with le := d.le.set n (g d.le[n]) }

/-- A source strobes engine n: a measurement is sent over the crossing, an operand's latest value is replaced and fresh
(R124, R128).  `hit` says whether a source register names the source, `x` the raw value it takes. -/
def leOffer (hit : Word → Bool) (x : Word → Word) (n : Fin 64) (d : Dev) : Dev :=
  let ms := d.get (.le n .msrc)
  let rs := d.get (.le n .rsrc)
  let fs := d.get (.le n .fsrc)
  let d1 := if hit ms && d.b (.le n .stat) LE_STAT.ACTIVE then
      d.leU n fun e => { e with inbound := e.inbound ++ [x ms] } else d
  let d2 := if hit rs then d1.leU n fun e => { e with xr := x rs, frR := true } else d1
  if hit fs then d2.leU n fun e => { e with xf := x fs, frF := true } else d2

/-- A source strobes every engine that takes it (R111, R124). -/
def leOfferAll (hit : Word → Bool) (x : Word → Word) (d : Dev) : Dev := d.each (fins 64) (leOffer hit x)

/-- A source register's TYPE and UNIT name a unit. -/
def srcIs (ty unit : Nat) (w : Word) : Bool := LE_MSRC.TYPE.get w == ty && LE_MSRC.UNIT.get w == unit

/-- A converter result (TYPE 0b001): DATA × 2^14 unsigned, DATA × 2^15 two's complement. -/
def leFromAdc (n : Fin 32) (entry : Nat) (diff : Bool) (data : Nat) (d : Dev) : Dev :=
  let x := if diff then wInt (sextN 16 data * 2 ^ 15) else w32 (data * 2 ^ 14)
  leOfferAll (fun w => srcIs 1 n.val w && (LE_MSRC.ANYE.bit w || LE_MSRC.ENTRY.get w == entry)) (fun _ => x) d

/-- A comparator capture (TYPE 0b010). -/
def leFromCmp (n : Fin 64) (val : Nat) (d : Dev) : Dev :=
  leOfferAll (srcIs 2 n.val) (fun _ => wInt (sextN 16 val * 2 ^ 15)) d

/-- A position update (TYPE 0b011): angle or speed, as SEL says. -/
def leFromPos (n : Fin 8) (pos cpr : Nat) (spd : Word) (d : Dev) : Dev :=
  leOfferAll (srcIs 3 n.val)
    (fun w => if LE_MSRC.SEL.bit w then spd else w32 (pos * 2 ^ 30 / max 1 cpr)) d

/-- Another engine's output u (TYPE 0b100), at step 5 of its sample. -/
def leFromLe (n : Fin 64) (u : Word) (d : Dev) : Dev := leOfferAll (srcIs 4 n.val) (fun _ => u) d

/-- Engine n takes angle or speed from position channel c, or its running pair takes its angle from it. -/
def leUsesPos (d : Dev) (n : Fin 64) (c : Nat) : Bool :=
  let p : Fin 32 := Fin.ofNat 32 (n.val / 2)
  srcIs 3 c (d.get (.le n .msrc)) || srcIs 3 c (d.get (.le n .rsrc)) || srcIs 3 c (d.get (.le n .fsrc)) ||
    (d.b (.lepr p .ctl) LEPR_CTL.EN && d.f (.lepr p .ctl) LEPR_CTL.PCH == c)

/-- A position channel's counts per revolution or mode changed: the enabled engines that use it get undefined operands from it. -/
def lePosChanged (c : Nat) (d : Dev) : Dev :=
  d.each ((fins 64).filter fun n => d.b (.le n .stat) LE_STAT.ACTIVE && leUsesPos d n c)
    (fun n d => d.leU n fun e => { e with openPos := true })

end Sys2Proof.Machine
end

