-- ==== Sys2Proof/Machine/Comparator.lean ====
section
/-!
DEFINITION. Comparators (R155-R165): raw output, trip path, filter, blanking, window monitors and captures; and the transition
measurement of adaptive dead-time that F's stamps give (R88).
-/
namespace Sys2Proof.Machine
open Sys2Proof

/-- Replace comparator n's state. -/
def Dev.cmpU (d : Dev) (n : Fin 64) (g : CmpSt → CmpSt) : Dev := { d with cmp := d.cmp.set n (g d.cmp[n]) }

/-- The timebase of a comparator's digital path. -/
def cmpTb (d : Dev) (n : Fin 64) : Fin 32 := Fin.ofNat 32 (d.f (.cmp n .ctl) CMP_CTL.TB)

/-- Timebase n is fed by PLL B. -/
def tbB (d : Dev) (n : Fin 32) : Bool := d.b (.tb n .ctl) TB_CTL.PLLSEL

/-- Start of the tick that contains an instant, on timebase n's grid. -/
def tickOf (d : Dev) (n : Fin 32) (t : Nat) : Nat := tickUp (tbB d n) (t + 1) - tuTick

/-- X: the raw output exclusive-or INV (R157). -/
def cmpX (d : Dev) (n : Fin 64) : Bool := d.cmp[n].raw ^^ d.b (.cmp n .ctl) CMP_CTL.INV

/-- Q of a comparator. -/
def cmpQ (d : Dev) (n : Fin 64) : Bool := d.b (.cmp n .stat) CMP_STAT.QOUT

/-- The even comparator of n's pair, and the odd one. -/
def cmpEven (n : Fin 64) : Fin 64 := Fin.ofNat 64 (n.val / 2 * 2)
def cmpOdd (n : Fin 64) : Fin 64 := Fin.ofNat 64 (n.val / 2 * 2 + 1)

/-- WOUT of n's window monitor follows Q of the pair (R159); a rise sets WEXIT and produces EXIT unless `quiet` (R160,
R163). -/
def cmpWout (quiet : Bool) (n : Fin 64) (d : Dev) : Dev :=
  let e := cmpEven n
  if d.b (.cmp e .ctl) CMP_CTL.WIN then
    let w := !cmpQ d e || cmpQ d (cmpOdd n)
    let was := d.b (.cmp e .stat) CMP_STAT.WOUT
    let d1 := d.setB (.cmp e .stat) CMP_STAT.WOUT w
    if w && !was && !quiet then (d1.flag (.cmp e .stat) CMP_STAT.WEXIT).raise (416 + n.val / 2) else d1
  else d.setB (.cmp e .stat) CMP_STAT.WOUT false

/-- The raw output that the front end gives for inputs in units of 0.1 mV, from the output it had (R155): above CMPnN + h/2 it is 1, below
CMPnN - h/2 it is 0, between it keeps.  Without hysteresis a difference within the input offset of 3 mV may give either value. -/
def cmpFront (d : Dev) (n : Fin 64) (vp vn : Int) (old : Bool) : Bool :=
  let half : Int := match d.f (.cmp n .ctl) CMP_CTL.HYST with
    | 1 => 25
    | 2 => 50
    | 3 => 100
    | _ => 0
  if half = 0 ∧ -30 ≤ vp - vn ∧ vp - vn ≤ 30 then Config.freeBool d.free
  else if vn + half < vp then true
  else if vp < vn - half then false
  else old

/-- Instant at which a window of the trip path stops presenting the held value: its end, or the shroud's maximum in force (R156, R238). -/
def tripEnd (d : Dev) (w : TripWin) : Nat := min w.till (w.since + d.f (.shg .shblankmax) SHBLANKMAX.MAX * tuTick)

/-- The level the trip path presents to the trip map (R156): the tripping level until READY0.ANALOG, the held value in an
open window, the raw output otherwise. -/
def tripLevel (d : Dev) (m : Fin 64) : Bool :=
  if !(d.b (.sys (.ready 0)) READY0.ANALOG) then !(d.b (.shtm m .cfg) SHTM_CFG.POL)
  else match d.cmp[m].twin with
    | some w => if d.now < tripEnd d w then w.held else d.cmp[m].raw
    | none => d.cmp[m].raw

/-- The tripping condition of comparator m (R237). -/
def tripCond (d : Dev) (m : Fin 64) : Bool :=
  d.b (.shtm m .cfg) SHTM_CFG.EN && (tripLevel d m != d.b (.shtm m .cfg) SHTM_CFG.POL)

/-- Follow the tripping condition: since when it holds; its end deasserts line 328 + m (R237). -/
def tripTrack (m : Fin 64) (d : Dev) : Dev :=
  if tripCond d m then
    if d.cmp[m].cond = none then d.cmpU m fun c => { c with cond := some d.now } else d
  else (d.cmpU m fun c => { c with cond := none, tripped := false }).lineOff (328 + m.val)

/-- The value and saturation of a capture of t fine units (R161). -/
def cmpValue (d : Dev) (n : Fin 64) (t : Nat) : Nat × Bool :=
  let v := t / 2 ^ d.f (.cmp n .capcfg) CMP_CAPCFG.SCALE
  (min 0x7FFF v, decide (0x7FFF < v))

/-- Stamp of the start of the period of timebase b in which an instant lies (R161). -/
def periodOf (d : Dev) (b : Fin 32) (t : Nat) : Nat := if d.tb[b].start ≤ t then d.tb[b].startTs else d.tb[b].prevTs

/-- The difference of two stamps. -/
def stampDiff (a b : Nat) : Nat := (a + 2 ^ 64 - b) % 2 ^ 64

/-- A capture of t fine units, stamped ts, is ready (R162). -/
def cmpCapture (n : Fin 64) (t ts : Nat) (tv : Bool) (d : Dev) : Dev :=
  let (v, sat) := cmpValue d n t
  let w := ((0 : Word) |> CMP_CAP.FRESH.put 1 |> CMP_CAP.SAT.put (b2n sat) |> CMP_CAP.TV.put (b2n tv) |> CMP_CAP.VALUE.put v)
  let d1 := ((d.put (.cmp n .cap) w).flag (.cmp n .stat) CMP_STAT.CAPF).cmpU n fun c => { c with capTs := ts }
  let d2 := leFromCmp n v d1
  if d.b (.cmp n .ctl) CMP_CTL.CAPEN then capCmp n sat tv v ts d2 else d2

/-- What a change of Q captures (R161): the change lies at instant `stampAt` and is stamped ts. -/
def cmpCapMode (n : Fin 64) (v : Bool) (stampAt ts : Nat) (tv : Bool) (d : Dev) : Dev :=
  let c := d.cmp[n]
  let edge := d.f (.cmp n .capcfg) CMP_CAPCFG.CEDGE
  let qual := if v then bitN edge 0 else bitN edge 1
  let d1 :=
    match d.f (.cmp n .capcfg) CMP_CAPCFG.CSEL with
    | 1 => if qual then cmpCapture n (stampDiff ts (periodOf d (cmpTb d n) stampAt)) ts tv d else d
    | 2 => if qual then
        (match c.lastQ with
         | some p => cmpCapture n (stampDiff ts p) ts tv d
         | none => d)
      else d
    | 3 => if v then d else
        (match c.lastRise with
         | some p => cmpCapture n (stampDiff ts p) ts tv d
         | none => d)
    | _ => d
  d1.cmpU n fun c => { c with lastQ := if qual then some ts else c.lastQ,
                              lastRise := if v then some ts else c.lastRise }

/-- Q changes on its ready tick (R160-R162, R186). -/
def cmpQset (n : Fin 64) (v : Bool) (stampAt ts : Nat) (tv : Bool) (d : Dev) : Dev :=
  let d1 := d.setB (.cmp n .stat) CMP_STAT.QOUT v
  let d2 := if v then (d1.flag (.cmp n .stat) CMP_STAT.RISE).bump (.cmp n .cnt) CMP_CNT.RISE_CNT
    else (d1.flag (.cmp n .stat) CMP_STAT.FALL).bump (.cmp n .cnt) CMP_CNT.FALL_CNT
  let sel := bitsN (d.get (.ev (.evcsel (Fin.ofNat 4 (n.val / 16))))).toNat (2 * (n.val % 16) + 1) (2 * (n.val % 16))
  let d3 := d2.raiseIf (if v then bitN sel 0 else bitN sel 1) (352 + n.val)
  cmpCapMode n v stampAt ts tv (cmpWout false n d3)

/-- The digital path idle: OUT and QOUT show X through an unclocked path (R163). -/
def cmpShow (n : Fin 64) (d : Dev) : Dev :=
  let x := cmpX d n
  cmpWout true n ((d.setB (.cmp n .stat) CMP_STAT.OUT x).setB (.cmp n .stat) CMP_STAT.QOUT x)

/-- The digital path starts or stops with EN and its timebase (R163): F and Q take X with no stamp, event or count. -/
def cmpPath (n : Fin 64) (d : Dev) : Dev :=
  let on := d.b (.cmp n .ctl) CMP_CTL.EN && d.tbRun (cmpTb d n)
  if on != d.cmp[n].live then
    cmpShow n (d.cmpU n fun c => { c with live := on, runs := [], win := none, lastQ := none, lastRise := none })
  else if on then d else cmpShow n d

/-- Every comparator on a timebase follows its start or stop. -/
def cmpPathAll (b : Fin 32) (d : Dev) : Dev := d.each ((fins 64).filter fun n => cmpTb d n = b) cmpPath

/-- End of the filter run that a transition stamped at `t` begins, and its ready tick (R157). -/
def runEnd (d : Dev) (n : Fin 64) (t : Nat) : Nat :=
  tickOf d (cmpTb d n) t + (d.f (.cmp n .ctl) CMP_CTL.FILT + 1) * tuTick
def runReady (d : Dev) (n : Fin 64) (t : Nat) : Nat :=
  tickOf d (cmpTb d n) t + (d.f (.cmp n .ctl) CMP_CTL.FILT + 3) * tuTick

/-- A transition of X at `t`: it breaks a run in progress and, where X then differs from the value the path is going to take,
begins a run (R157). -/
def runNext (d : Dev) (n : Fin 64) (x : Bool) (t : Nat) (un : Bool) : List CmpRun :=
  let rs := d.cmp[n].runs
  let keep := match rs.getLast? with
    | some r => if t < runEnd d n r.at_ then rs.dropLast else rs
    | none => rs
  let target := match keep.getLast? with
    | some r => r.val
    | none => d.b (.cmp n .stat) CMP_STAT.OUT
  if x = target then keep else keep ++ [{ val := x, at_ := t, ts := d.stamp t, tv := d.ctv, un := un }]

/-- X has changed at the present instant: wake flag, digital path (R157, R163). -/
def cmpXchange (n : Fin 64) (x : Bool) (un : Bool) (d : Dev) : Dev :=
  let wake := d.f (.cmp n .ctl) CMP_CTL.WAKE
  let d1 := d.flagIf (d.b (.cmp n .ctl) CMP_CTL.EN && (if x then bitN wake 0 else bitN wake 1)) (.cmp n .stat) CMP_STAT.WAKEF
  if d.cmp[n].live then d1.cmpU n fun c => { c with runs := runNext d n x d.now un } else cmpShow n d1

/-- The raw output takes a level (R155, R156). -/
def cmpRaw (n : Fin 64) (v : Bool) (d : Dev) : Dev :=
  if d.cmp[n].raw = v then d
  else
    let d1 := d.cmpU n fun c => { c with raw := v }
    cmpXchange n (cmpX d1 n) false (tripTrack n d1)

/-- The inputs of comparator n change (R155): the raw output follows them. -/
def cmpInput (n : Fin 64) (vp vn : Int) (d : Dev) : Dev :=
  let v := cmpFront d n vp vn d.cmp[n].raw
  cmpRaw n v (d.bumpFree.cmpU n fun c => { c with vp := vp, vn := vn })

/-- An output change of a leg's switch opens or extends the blanking windows that name it (R156, R158): one that comes while a window
is open moves that window's end. -/
def cmpLegEdgeOne (n : Fin 96) (bit : Nat) (t : Nat) (m : Fin 64) (d : Dev) : Dev :=
  let w := d.get (.cmp m .blank)
  if CMP_BLANK.EN.bit w && CMP_BLANK.BLEN.get w != 0 && CMP_BLANK.LEG.get w == n.val && bitN (CMP_BLANK.EDGES.get w) bit then
    let till := t + CMP_BLANK.BLEN.get w * tuTick
    let d1 := if d.cmp[m].live then d.cmpU m fun c => { c with win := some till } else d
    let new : TripWin := { since := t, till := till, held := d.cmp[m].raw }
    let tw : TripWin := match d.cmp[m].twin with
      | some x => if t < x.till then { x with till := till } else new
      | none => new
    tripTrack m (d1.cmpU m fun c => { c with twin := some tw })
  else d

/-- A switch of leg n turned on or off: blanking bit 0 LnH on, 1 LnH off, 2 LnL on, 3 LnL off (R158). -/
def cmpLegEdge (n : Fin 96) (sw : Sw) (on : Bool) (t : Nat) (d : Dev) : Dev :=
  let bit := (match sw with | .h => 0 | .l => 2) + (if on then 0 else 1)
  d.each (fins 64) (cmpLegEdgeOne n bit t)

/-- The window of the digital path closes: Q takes F, stamped with the closing instant (R158). -/
def cmpWinClose (n : Fin 64) (t : Nat) (d : Dev) : Dev :=
  let d1 := d.cmpU n fun c => { c with win := none }
  let f := d.b (.cmp n .stat) CMP_STAT.OUT
  if f = cmpQ d n then d1 else cmpQset n f t (d.stamp t) d.ctv (d1.flag (.cmp n .stat) CMP_STAT.BLEDGE)

/-- The leg adapts its dead-times (R91, R94). -/
def legAdapts (d : Dev) (n : Fin 96) : Bool := d.leg[n].adtOn && !(d.b (.leg n .ctl) LEG_CTL.PROF)

/-- The transition measurement of one leg from a change of F (R88). -/
def adtCrossOne (m : Fin 64) (level : Bool) (stampAt ts : Nat) (n : Fin 96) (d : Dev) : Dev :=
  let g := d.leg[n]
  if legAdapts d n && d.f (.leg n .adt) LEG_ADT.CMPSEL == m.val then
    -- towards high (low with CPOL) ends the LnL-off transition, the other direction the LnH-off one
    let up := level != d.b (.leg n .adt) LEG_ADT.CPOL
    let tr := if up then g.trH else g.trL
    match tr.win with
    | some w =>
      if decide (w.off ≤ stampAt) && w.till.all (decide <| stampAt < ·) then
        let t := min 0xFFF (stampDiff ts w.offTs - d.f (.leg n .adtcomp) LEG_ADTCOMP.COMP)
        let tr' : AdtTr := { win := none, meas := some t }
        if up then
          (((d.setF (.leg n .adtmeas) LEG_ADTMEAS.TH t).flag (.leg n .adtmeas) LEG_ADTMEAS.VH)).legU n
            fun g => { g with trH := tr' }
        else
          (((d.setF (.leg n .adtmeas) LEG_ADTMEAS.TL t).flag (.leg n .adtmeas) LEG_ADTMEAS.VL)).legU n
            fun g => { g with trL := tr' }
      else d
    | none => d
  else d

/-- F changes on its ready tick: OUT, the adaptive dead-time of the legs that watch it, and Q outside a window (R157, R158). -/
def cmpFset (n : Fin 64) (r : CmpRun) (ready : Nat) (d : Dev) : Dev :=
  let d0 := if r.un then d.bumpFree else d
  let st := if r.un then (Config.freeValue d.free).toNat else r.at_
  let ts := if r.un then (Config.freeValue d.free).toNat else r.ts
  let d1 := d0.setB (.cmp n .stat) CMP_STAT.OUT r.val
  let d2 := d1.each (fins 96) (adtCrossOne n r.val st ts)
  let blanked := match d.cmp[n].win with
    | some e => decide (ready < e)
    | none => false
  if blanked || cmpQ d2 n = r.val then d2 else cmpQset n r.val st ts r.tv d2

/-- Write of CMPn_CTL (R159, R163, R164). -/
def cmpWriteCtl (n : Fin 64) (v : Word) (d : Dev) : Dev :=
  let old := d.get (.cmp n .ctl)
  let guard := CMP_CTL.EN.bit old && (CMP_CTL.TB.get v != CMP_CTL.TB.get old)
  let v1 := if guard then CMP_CTL.TB.put (CMP_CTL.TB.get old) v else v
  let v2 := if n.val % 2 = 1 then CMP_CTL.WIN.put 0 v1 else v1
  let o := d.get (.cmp (cmpOdd n) .ctl)
  let winOk := CMP_CTL.EN.bit v2 && CMP_CTL.EN.bit o && CMP_CTL.TB.get v2 == CMP_CTL.TB.get o
  let winRej := n.val % 2 = 0 && CMP_CTL.WIN.bit v2 && !winOk
  let v3 := if winRej then CMP_CTL.WIN.put 0 v2 else v2
  let d1 := (d.wr (.cmp n .ctl) v3).flagIf (guard || (winRej && CMP_CTL.EN.bit v2)) (.cmp n .stat) CMP_STAT.CFG_REJ
  let d1 := d1.flagIf (winRej && !CMP_CTL.WIN.bit old) (.cmp n .stat) CMP_STAT.CFG_REJ
  let d2 := if CMP_CTL.EN.bit v3 then d1 else d1.setB (.cmp (cmpEven n) .ctl) CMP_CTL.WIN false
  let touched := CMP_CTL.EN.bit old && d.cmp[n].live &&
    (CMP_CTL.INV.bit old != CMP_CTL.INV.bit v3 || CMP_CTL.FILT.get old != CMP_CTL.FILT.get v3)
  let d3 := if touched then d2.cmpU n fun c => { c with runs := c.runs.map fun r => { r with un := true } } else d2
  let d4 := if CMP_CTL.INV.bit old != CMP_CTL.INV.bit v3 then cmpXchange n (cmpX d3 n) true d3 else d3
  -- new thresholds meet the inputs that stand
  let d5 := if CMP_CTL.HYST.get old != CMP_CTL.HYST.get v3 then cmpInput n d.cmp[n].vp d.cmp[n].vn d4 else d4
  cmpWout false n (cmpPath n d5)

/-- Write of CMPn_BLANK: while a window is open it leaves that window's end on the digital path undefined. -/
def cmpWriteBlank (n : Fin 64) (v : Word) (d : Dev) : Dev :=
  let d1 := d.wr (.cmp n .blank) v
  match d.cmp[n].win with
  | some _ => (d1.bumpFree).cmpU n fun c => { c with win := some (d.now + (Config.freeValue d.free).toNat % (1024 * tuTick)) }
  | none => d1

/-- Write of a comparator register. -/
def cmpWrite (n : Fin 64) (r : CmpReg) (v : Word) (d : Dev) : Dev :=
  match r with
  | .ctl => cmpWriteCtl n v d
  | .blank => cmpWriteBlank n v d
  | .capcfg => d.wr (.cmp n .capcfg) v
  | .cap => d
  | .ctsl => d
  | .ctsh => d
  | .stat => d.wr (.cmp n .stat) v
  | .cnt => d
  | .ien => d.wr (.cmp n .ien) v

/-- Read of CMPn_CAP: FRESH clears and the capture's stamp is latched (R162). -/
def cmpReadCap (n : Fin 64) (d : Dev) : Word × Dev :=
  let ts := d.cmp[n].capTs
  (d.get (.cmp n .cap), ((d.clearRC (.cmp n .cap)).put (.cmp n .ctsl) (lo32 ts)).put (.cmp n .ctsh) (hi32 ts))

end Sys2Proof.Machine
end

