-- ==== Sys2Proof/Machine/Position.lean ====
section
/-!
DEFINITION. Position channels (R166-R181): incremental decoding, index, updates, speed, serial frames.
-/
namespace Sys2Proof.Machine
open Sys2Proof

/-- Replace position channel n's state. -/
def Dev.posU (d : Dev) (n : Fin 8) (g : PosSt → PosSt) : Dev := { d with pos := d.pos.set n (g d.pos[n]) }

/-- The timebase of a channel, its mode (R166), and whether it samples. -/
def posTb (d : Dev) (n : Fin 8) : Fin 32 := Fin.ofNat 32 (d.f (.pos n .ctl) POS_CTL.TB)
def posMode (d : Dev) (n : Fin 8) : Nat := d.f (.pos n .ctl) POS_CTL.MODE
def posSerial (d : Dev) (n : Fin 8) : Bool := decide (2 ≤ posMode d n)
def posOn (d : Dev) (n : Fin 8) : Bool := d.b (.pos n .ctl) POS_CTL.EN && d.tbRun (posTb d n)

/-- Counts per revolution (R170). -/
def posCpr (d : Dev) (n : Fin 8) : Nat := (d.get (.pos n .cpr)).toNat + 1

/-- A speed: K × counts × 2^14 / ticks, rounded and saturated to 32 bits (R173, R176). -/
def posSpeed (k : Nat) (counts : Int) (ticks : Nat) : Word :=
  wInt (clampI (-(2 ^ 31)) (2 ^ 31 - 1) (rndAway (2 ^ 14 * k * counts) (max 1 ticks)))

/-- RUNNING follows EN and the timebase. -/
def posPath (n : Fin 8) (d : Dev) : Dev := d.setB (.pos n .stat) POS_STAT.RUNNING (posOn d n)
def posPathAll (b : Fin 32) (d : Dev) : Dev := d.each ((fins 8).filter fun n => posTb d n = b) posPath

/-- An update (R172): stored, flagged, produced, strobed and recorded, with the instant of its stamp. -/
def posUpdate (n : Fin 8) (t stamp : Nat) (tv : Bool) (d : Dev) : Dev :=
  let p := d.pos[n]
  let k := (d.get (.pos n .spdk)).toNat
  -- the speed falls with the time since the last counted step (R173)
  let spd := if posSerial d n then d.get (.pos n .spd) else
    match p.stepAt, p.lastDt with
    | some s, some dt =>
      let el := (t - s) / tuTick
      if dt < el then posSpeed k (if d.b (.pos n .stat) POS_STAT.LASTDIR then -1 else 1) el else d.get (.pos n .spd)
    | _, _ => d.get (.pos n .spd)
  let d1 := d.put (.pos n .spd) spd
  let u : PosUpd := { pos := d.get (.pos n .pos), rev := d.get (.pos n .rev), spd := spd, ts := stamp }
  let d2 := (((d1.put (.pos n .upos) u.pos).flag (.pos n .stat) POS_STAT.UPD).posU n fun p => { p with upd := u }).raise (448 + n.val)
  let d3 := leFromPos n u.pos.toNat (posCpr d n) spd d2
  if d.b (.pos n .ctl) POS_CTL.CAP then capPos n tv u d3 else d3

/-- A trigger at tick `tt` (R172, R174, R178). -/
def posTrigger (n : Fin 8) (tt : Nat) (d : Dev) : Dev :=
  if !posOn d n then d
  else if posSerial d n then
    match d.pos[n].frame with
    | .idle => (d.posU n fun p => { p with frame := .waiting tt }).flag (.pos n .stat) POS_STAT.SHIFT
    | _ => (d.flag (.pos n .stat) POS_STAT.TRIGDROP).bump (.pos n .cnt) POS_CNT.DROP_CNT
  else if d.b (.pos n .ctl) POS_CTL.USRC then posUpdate n tt (d.stamp tt) d.ctv d else d

/-- An illegal change (R168, R169). -/
def posIllegal (n : Fin 8) (d : Dev) : Dev :=
  ((((d.flag (.pos n .stat) POS_STAT.ILLEGAL).bump (.pos n .cnt) POS_CNT.ILLEGAL_CNT).raise (464 + n.val)).pulse (320 + n.val)).posU n
    fun p => { p with timed := false }

/-- Move the position by one count (R170). -/
def posMove (n : Fin 8) (up : Bool) (d : Dev) : Dev :=
  let c := posCpr d n
  let p := (d.get (.pos n .pos)).toNat
  let r := d.get (.pos n .rev)
  if up then
    if p + 1 = c then (d.put (.pos n .pos) 0).put (.pos n .rev) (r + 1) else d.put (.pos n .pos) (w32 (p + 1))
  else
    if p = 0 then (d.put (.pos n .pos) (w32 (c - 1))).put (.pos n .rev) (r - 1) else d.put (.pos n .pos) (w32 (p - 1))

/-- A counted step stamped at `t` (R168-R170, R173). -/
def posStep (n : Fin 8) (fwd : Bool) (t : Nat) (d : Dev) : Dev :=
  let p := d.pos[n]
  let up := fwd != d.b (.pos n .ctl) POS_CTL.DIR
  let lastUp := !(d.b (.pos n .stat) POS_STAT.LASTDIR)
  let timed := p.timed && up == lastUp
  let dt : Option Nat := match p.stepAt with
    | some s => if timed then some ((tickOf d (posTb d n) t - tickOf d (posTb d n) s) / tuTick) else none
    | none => none
  let d1 := posMove n up d
  let d2 := (d1.setB (.pos n .stat) POS_STAT.LASTDIR (!up)).setB (.pos n .stat) POS_STAT.SPDZERO false
  let d3 := match dt with
    | some k => d2.put (.pos n .spd) (posSpeed (d.get (.pos n .spdk)).toNat (if up then 1 else -1) k)
    | none => d2
  let d4 := d3.posU n fun p =>
    { p with stepAt := some t, lastDt := (match dt with | some k => some k | none => p.lastDt), timed := true, zeroAt := t }
  if d.b (.pos n .ctl) POS_CTL.USRC then d4 else posUpdate n t (d.stamp t) d.ctv d4

/-- An index (R171). -/
def posIndex (n : Fin 8) (d : Dev) : Dev :=
  let d1 := (d.flag (.pos n .stat) POS_STAT.INDEX).raise (456 + n.val)
  match d.f (.pos n .ctl) POS_CTL.IDXMODE with
  | 1 => d1.put (.pos n .idxl) (d.get (.pos n .pos))
  | 2 => (d1.put (.pos n .pos) (d.get (.pos n .idx))).put (.pos n .idxl) (d.get (.pos n .idx))
  | _ => d1

/-- Position of a state in the quadrature cycle 00, 10, 11, 01 of (A, B). -/
def quadPos (a b : Bool) : Nat := if a then (if b then 2 else 1) else (if b then 3 else 0)

/-- Position of a Hall code in the forward sequence 1, 3, 2, 6, 4, 5; none for 0 and 7 (R169). -/
def hallPos (h : Nat) : Option Nat :=
  match h with
  | 1 => some 0
  | 3 => some 1
  | 2 => some 2
  | 6 => some 3
  | 4 => some 4
  | 5 => some 5
  | _ => none

/-- What a change of the Hall code is, as `posMoved` numbers it (R169). -/
def hallMove (x y : Nat) : Nat :=
  match hallPos x, hallPos y with
  | some i, some j => if j = i then 0 else if j = (i + 1) % 6 then 1 else if j = (i + 5) % 6 then 3 else 2
  | some _, none => 2
  | none, some _ => 0
  | none, none => if x = y then 0 else 2

/-- Half clock period in ticks (R174). -/
def posHalf (d : Dev) (n : Fin 8) : Nat := max 79 (d.f (.pos n .scfg) POS_SCFG.DIV) + 1

/-- SLO changes on tick `tr` while a BiSS-C frame is shifted (R174): its first rise after it was low is the start transition, which gives the
rising edge before it and the ticks from there.  A transition that no rising edge precedes, or one past the range of SDLY, leaves the frame
open. -/
def posSlo (n : Fin 8) (hi : Bool) (tr : Nat) (d : Dev) : Dev :=
  match d.pos[n].frame with
  | .shifting _ start _ _ =>
    if !hi then d.posU n fun p => { p with low := true }
    else if d.pos[n].low && d.pos[n].slo.isNone then
      let h := posHalf d n * tuTick
      let edges := (tr - start - 1) / h
      let s := (edges - 1) / 2
      let sdly := (tr - (start + (2 * s + 1) * h)) / tuTick
      let bad := edges == 0 || decide (4095 < sdly)
      let d1 := d.posU n fun p => { p with slo := some (s, sdly), undef := p.undef || bad }
      if bad then (d1.setF (.pos n .sdly) POS_SDLY.DELAY (Config.freeValue d.free).toNat).bumpFree
      else d1.setF (.pos n .sdly) POS_SDLY.DELAY sdly
    else d
  | .idle | .waiting _ => d

/-- End of the filter run that a change stamped at `t` begins, and its ready tick (R157, R167). -/
def posRunEnd (d : Dev) (n : Fin 8) (t : Nat) : Nat :=
  tickOf d (posTb d n) t + (d.f (.pos n .ctl) POS_CTL.FILT + 1) * tuTick
def posReady (d : Dev) (n : Fin 8) (t : Nat) : Nat :=
  tickOf d (posTb d n) t + (d.f (.pos n .ctl) POS_CTL.FILT + 3) * tuTick

/-- The effect of a change: 1 a step forward, 3 a step back, 2 an illegal change, 0 none of them (R168, R169). -/
def posMoved (n : Fin 8) (k t : Nat) (d : Dev) : Dev :=
  if k = 1 then posStep n true t d else if k = 3 then posStep n false t d else if k = 2 then posIllegal n d else d

/-- A change stamped at `t` comes closer to the one before than 25 ns or FILT + 1 ticks: the count is undefined. -/
def posRush (d : Dev) (n : Fin 8) (t : Nat) : Bool :=
  match d.pos[n].moved with
  | some m => decide (t < m + max (25 * tuNs) ((d.f (.pos n .ctl) POS_CTL.FILT + 1) * tuTick))
  | none => false

/-- The effect of such a change, stamped at `t`: a step, none, or for an illegal one its detection; the count is open. -/
def posRushed (n : Fin 8) (ill : Bool) (t : Nat) (d : Dev) : Dev :=
  let c := (Config.freeValue d.free).toNat % 4
  let d1 := (d.put (.pos n .pos) (w32 ((Config.freeValue (d.free + 1)).toNat % posCpr d n))).put (.pos n .rev) (Config.freeValue (d.free + 2))
  posMoved n (if c = 2 then 2 * ill.toNat else c) t { d1 with free := d.free + 3 }

/-- A change of the filtered inputs on one tick, stamped at `t` (R168, R169, R171). -/
def posInput (n : Fin 8) (a b z : Bool) (t : Nat) (d : Dev) : Dev :=
  let p := d.pos[n]
  let same := match posMode d n with
    | 0 => a == p.a && b == p.b
    | 1 => a == p.a && b == p.b && z == p.z
    | _ => true
  let rush := !same && posRush d n t
  let d0 := d.posU n fun p => { p with a := a, b := b, z := z, moved := if same then p.moved else some t }
  let count (k : Nat) : Dev := if rush then posRushed n (k == 2) t d0 else posMoved n k t d0
  match posMode d n with
  | 0 =>
    let d1 := count ((quadPos a b + 4 - quadPos p.a p.b) % 4)
    let ab := b2n a + 2 * b2n b
    let q := d.b (.pos n .ctl) POS_CTL.IDXANY || (bitN ab 0 == bitN (d.f (.pos n .ctl) POS_CTL.IDXAB) 1 &&
      bitN ab 1 == bitN (d.f (.pos n .ctl) POS_CTL.IDXAB) 0)
    if z && !p.z && q then posIndex n d1 else d1
  | 1 =>
    let code (x y w : Bool) : Nat := 4 * b2n w + 2 * b2n y + b2n x
    count (hallMove (code p.a p.b p.z) (code a b z))
  | 3 => if a != p.a then posSlo n a (posReady d n t) d0 else d0
  | _ => d0

/-- End a frame in error: each condition sets its flag (R175, R177, R179). -/
def posFrameErr (n : Fin 8) (fls : List Fld) (d : Dev) : Dev :=
  ((((d.each fls fun fl x => x.flag (.pos n .stat) fl).bump (.pos n .cnt) POS_CNT.ERR_CNT).pulse (320 + n.val)).raise (472 + n.val))

/-- The frame is over: the channel re-arms. -/
def posFrameEnd (n : Fin 8) (d : Dev) : Dev :=
  (d.posU n fun p => { p with frame := .idle, undef := false, low := false, slo := none }).setB (.pos n .stat) POS_STAT.SHIFT false

/-- A swap request aborts a frame being shifted (R137, R179). -/
def posAbort (n : Fin 8) (d : Dev) : Dev :=
  match d.pos[n].frame with
  | .shifting _ _ _ _ => posFrameEnd n (posFrameErr n [POS_STAT.ERR_FORMAT] d)
  | _ => d

/-- Gray to binary over `w` bits. -/
def grayDecode : Nat → Nat → Nat
  | 0, v => v
  | k + 1, v => v ^^^ grayDecode k (v / 2)

/-- CRC of x^6 + x + 1, initial value 0, over bits most significant first (R175). -/
def crc6 (bits : List Bool) : Nat :=
  bits.foldl (fun c b => if (c / 32 % 2 == 1) != b then (c * 2 % 64) ^^^ 3 else c * 2 % 64) 0

/-- The low `w` bits of a value, most significant first. -/
def bitsMsb : Nat → Nat → List Bool
  | 0, _ => []
  | k + 1, v => bitN v k :: bitsMsb k v

/-- Data field and single-turn lengths; 0 means 64. -/
def len64 (v : Nat) : Nat := if v = 0 then 64 else v
def posDlen (d : Dev) (n : Fin 8) : Nat := len64 (d.f (.pos n .scfg) POS_SCFG.DLEN)

/-- Instant at which the last bit of a frame that started at `start` is sampled (R174); none for a BiSS-C frame whose start transition has
not come. -/
def posLastSample (d : Dev) (n : Fin 8) (start : Nat) : Option Nat :=
  let h := posHalf d n
  let r (j : Nat) : Nat := start + (2 * j + 1) * h * tuTick
  if posMode d n = 3 then d.pos[n].slo.map fun x => r (x.1 + posDlen d n + 9) + (x.2 + h) * tuTick
  else
    let last := if d.f (.pos n .scfg) POS_SCFG.CRC = 2 then posDlen d n else posDlen d n - 1
    some (r last + d.f (.pos n .stime) POS_STIME.DELAY * tuTick)

/-- Level of POSnC (R166, R174): high when idle or waiting, low from a frame's start, toggling every half period; after the last sample it
makes no falling edge.  None where the ball is not driven, and where the frame is open. -/
def posClock (d : Dev) (n : Fin 8) : Option Bool :=
  if !posSerial d n then none
  else match d.pos[n].frame with
  | .shifting _ start _ _ =>
    if d.pos[n].undef || !posOn d n then none
    else
      let h := posHalf d n * tuTick
      let k := (d.now - start) / h
      some (k % 2 == 1 || (match posLastSample d n start with
        | some last => decide (last < start + k * h)
        | none => false))
  | .idle | .waiting _ => some true

/-- The timeout of a frame from its trigger tick (R177). -/
def posTimeout (d : Dev) (n : Fin 8) : Nat := max 2 (d.f (.pos n .stime) POS_STIME.TMO) * tuUs

/-- The flags of the conditions that make a received frame invalid (R175). -/
def posFrameBad (d : Dev) (n : Fin 8) (data : Nat) (cds nE nW : Bool) (crc : BitVec 6) (par : Bool) : List Fld :=
  let dl := posDlen d n
  let c := d.f (.pos n .scfg) POS_SCFG.CRC
  if posMode d n = 3 then
    (if cds then [POS_STAT.ERR_FORMAT] else []) ++
    (if c = 1 ∧ crc.toNat ≠ 63 - crc6 (bitsMsb dl data ++ [nE, nW]) then [POS_STAT.ERR_CRC] else []) ++
    (if !nE && d.b (.pos n .scfg) POS_SCFG.ERRINV then [POS_STAT.ERR_ENC] else [])
  else if c = 2 ∧ ((bitsMsb dl data).foldl (fun p b => p != b) par) = true then [POS_STAT.ERR_CRC]
  else []

/-- A valid frame updates the position (R176). -/
def posFrameGood (n : Fin 8) (raw start stamp : Nat) (tv : Bool) (d : Dev) : Dev :=
  let dl := posDlen d n
  let stb := min (len64 (d.f (.pos n .scfg) POS_SCFG.STBITS)) dl
  let v := if d.b (.pos n .scfg) POS_SCFG.GRAY then grayDecode (dl - 1) raw else raw
  let cpr := posCpr d n
  let pos := (d.get (.pos n .pos)).toNat
  let rev := (d.get (.pos n .rev)).toInt
  let posN := v % 2 ^ stb % cpr
  let half : Int := ((cpr / 2 : Nat) : Int)
  let delta : Int := (((posN : Int) - pos + half) % cpr) - half
  let revN : Int := if stb < dl then ((v / 2 ^ stb : Nat) : Int) else rev + ((pos : Int) + delta - posN) / cpr
  let turns : Int := if stb < dl then sextN (dl - stb) ((revN - rev) % (2 ^ (dl - stb) : Nat)).toNat else revN - rev
  let dc : Int := turns * cpr + posN - pos
  let spd : Word := match d.pos[n].lastFr with
    | none => 0
    | some p => posSpeed (d.get (.pos n .spdk)).toNat dc ((start - p) / tuTick)
  let d1 := ((d.put (.pos n .pos) (w32 posN)).put (.pos n .rev) (wInt revN)).put (.pos n .spd) spd
  posUpdate n start stamp tv (d1.posU n fun p => { p with lastFr := some start })

/-- A frame starts: POSnC goes low and the update stamp is taken (R174). -/
def posFrameStart (n : Fin 8) (t : Nat) (d : Dev) : Dev :=
  match d.pos[n].frame with
  | .waiting ts =>
    if posOn d n then
      let s := tickUp (tbB d (posTb d n)) (max ts (max t d.now))
      (d.at s).posU n fun p => { p with frame := .shifting ts s d.ctv (d.stamp s), low := !p.a, slo := none }
    else d
  | _ => d

/-- A frame times out (R177). -/
def posFrameLate (n : Fin 8) (ts : Nat) (d : Dev) : Dev :=
  posFrameEnd n (posFrameErr n [POS_STAT.ERR_TIMEOUT] (d.at (ts + posTimeout d n)))

/-- The frame is checked two ticks after its last sample (R174-R176). -/
def posFrameCheck (n : Fin 8) (data : Nat) (cds nE nW : Bool) (crc : BitVec 6) (par : Bool) (d : Dev) : Dev :=
  match d.pos[n].frame with
  | .shifting ts start tv stamp =>
    if !posOn d n then d
    else
      match posLastSample d n start with
      | none => d
      | some last =>
      if ts + posTimeout d n < last then posFrameLate n ts d
      else
        let d0 := d.at (last + 2 * tuTick)
        let biss := decide (posMode d n = 3)
        -- a configuration changed during the frame, or a start transition that SDLY cannot tell: the frame is undefined
        let open_ := d.pos[n].undef
        let raw := if open_ then (Config.freeValue d.free).toNat % 2 ^ posDlen d n else data % 2 ^ posDlen d n
        let d2 := (d0.put (.pos n .srawl) (w32 (raw % 2 ^ 32))).put (.pos n .srawh) (w32 (raw / 2 ^ 32))
        let bad := if open_ then (if Config.freeBool d.free then [POS_STAT.ERR_CRC] else [])
          else posFrameBad d n data cds nE nW crc par
        let d3 := ((posFrameEnd n (if open_ then d2.bumpFree else d2)).flagIf (biss && !nE) (.pos n .stat) POS_STAT.ERR_ENC).flagIf
          (biss && !nW) (.pos n .stat) POS_STAT.WARN
        if bad.isEmpty then posFrameGood n raw start stamp tv d3 else posFrameErr n bad d3
  | _ => d

/-- No step for SPDTO µs (R173). -/
def posSpeedTimeout (n : Fin 8) (d : Dev) : Dev :=
  let lim := d.f (.pos n .spdto) POS_SPDTO.TO
  if posOn d n && !posSerial d n && lim != 0 then
    let d1 := d.at (d.pos[n].zeroAt + lim * tuUs)
    (((d1.put (.pos n .spd) 0).flag (.pos n .stat) POS_STAT.SPDZERO).posU n fun p => { p with timed := false, lastDt := none })
  else d

/-- Enabling a channel (R180). -/
def posEnable (n : Fin 8) (d : Dev) : Dev :=
  ((((d.put (.pos n .pos) 0).put (.pos n .rev) 0).put (.pos n .spd) 0).setB (.pos n .stat) POS_STAT.SPDZERO false).posU n fun p =>
    { p with moved := none, stepAt := none, lastDt := none, timed := false, zeroAt := d.now, frame := .idle, lastFr := none, undef := false, low := false, slo := none }

/-- Write of POSn_CTL (R180). -/
def posWriteCtl (n : Fin 8) (v : Word) (d : Dev) : Dev :=
  let old := d.get (.pos n .ctl)
  let en := POS_CTL.EN.bit old
  let guard := en && (POS_CTL.MODE.get v != POS_CTL.MODE.get old || POS_CTL.TB.get v != POS_CTL.TB.get old)
  let v1 := if en then POS_CTL.MODE.put (POS_CTL.MODE.get old) (POS_CTL.TB.put (POS_CTL.TB.get old) v) else v
  let d1 := (d.wr (.pos n .ctl) v1).flagIf guard (.pos n .stat) POS_STAT.CFG_REJ
  let d1 := if POS_CTL.MODE.get v1 != POS_CTL.MODE.get old then lePosChanged n.val d1 else d1
  let d2 := if POS_CTL.EN.bit v1 && !en then posEnable n d1
    else if en && !POS_CTL.EN.bit v1 then posFrameEnd n d1 else d1
  posPath n d2

/-- A guarded field of POSn_SCFG keeps its value while EN = 1; DIV, CRC or ERRINV rewritten during a frame leave it undefined. -/
def posWriteScfg (n : Fin 8) (v : Word) (d : Dev) : Dev :=
  let old := d.get (.pos n .scfg)
  let en := d.b (.pos n .ctl) POS_CTL.EN
  let keep (f : Fld) (w : Word) : Word := f.put (f.get old) w
  let guard := en && (POS_SCFG.DLEN.get v != POS_SCFG.DLEN.get old || POS_SCFG.STBITS.get v != POS_SCFG.STBITS.get old ||
    POS_SCFG.GRAY.get v != POS_SCFG.GRAY.get old)
  let v1 := if en then keep POS_SCFG.DLEN (keep POS_SCFG.STBITS (keep POS_SCFG.GRAY v)) else v
  let d1 := (d.wr (.pos n .scfg) v1).flagIf guard (.pos n .stat) POS_STAT.CFG_REJ
  if d.b (.pos n .stat) POS_STAT.SHIFT then d1.posU n fun p => { p with undef := true } else d1

/-- Write of a position channel register. -/
def posWrite (n : Fin 8) (r : PosReg) (v : Word) (d : Dev) : Dev :=
  let en := d.b (.pos n .ctl) POS_CTL.EN
  match r with
  | .ctl => posWriteCtl n v d
  | .cpr => if en then d.flagIf (v != d.get (.pos n .cpr)) (.pos n .stat) POS_STAT.CFG_REJ
    else if v != d.get (.pos n .cpr) then lePosChanged n.val (d.wr (.pos n .cpr) v) else d.wr (.pos n .cpr) v
  | .scfg => posWriteScfg n v d
  | .stime =>
    let d1 := d.wr (.pos n .stime) v
    if d.b (.pos n .stat) POS_STAT.SHIFT then d1.posU n fun p => { p with undef := true } else d1
  | r => d.wr (.pos n r) v

/-- Read of POSn_UPOS: the rest of the same update is latched (R172). -/
def posReadUpos (n : Fin 8) (d : Dev) : Word × Dev :=
  let u := d.pos[n].upd
  (d.get (.pos n .upos), (((d.put (.pos n .urev) u.rev).put (.pos n .uspd) u.spd).put (.pos n .utsl) (lo32 u.ts)).put (.pos n .utsh) (hi32 u.ts))

end Sys2Proof.Machine
end

