-- ==== Sys2Proof/Machine/Adc.lean ====
section
/-!
DEFINITION. Converters (R96-R121): sequences, continuous and triggered mode, correction, results, limits and calibration.
-/
namespace Sys2Proof.Machine
open Sys2Proof

/-- Replace converter n's state. -/
def Dev.adcU (d : Dev) (n : Fin 32) (g : AdcSt → AdcSt) : Dev := { d with adc := d.adc.set n (g d.adc[n]) }

def adcMode (d : Dev) (n : Fin 32) : Nat := d.f (.adc n .ctl) ADC_CTL.MODE
def adcTb (d : Dev) (n : Fin 32) : Fin 32 := Fin.ofNat 32 (d.f (.adc n .trig) ADC_TRIG.TB)

/-- Entries used; 0 means 16 (R99). -/
def adcLen (d : Dev) (n : Fin 32) : Nat := let l := d.f (.adc n .ctl) ADC_CTL.LEN; if l = 0 then 16 else l

/-- Instant of hold j of a continuous run that started on cycle t0 (R101). -/
def adcHoldAt (d : Dev) (n : Fin 32) (t0 j : Nat) : Nat :=
  t0 + (4 + d.f (.adc n .ctl) ADC_CTL.SKEW) * tuAc + j * (50 * tuNs)

/-- Correction of a raw code (R97): the result as signed or unsigned number, and saturation. -/
def adcCorrect (calo calg : Word) (diff : Bool) (x : Int) : Int × Bool :=
  let hi : Int := if diff then 32767 else 65535
  let lo : Int := if diff then -32768 else 0
  let y := rndAway ((x - sextN 16 calo.toNat) * calg.toNat) 32768
  (clampI lo hi y, decide (y < lo ∨ hi < y ∨ x ≤ lo ∨ hi ≤ x))

/-- The entry's coding is two's complement (R96). -/
def seqDiff (w : Word) : Bool := let s := ADC_SEQ.SRC.get w; s == 4 || s == 5

/-- Delay of the first hold after a trigger, in time units (R105). -/
def adcDelay (d : Dev) (n : Fin 32) : Nat :=
  (if d.b (.adc n .trig) ADC_TRIG.DLYUNIT then 16 else 1) * d.f (.adc n .trig) ADC_TRIG.DELAY * tuTick

/-- RUNNING of a converter. -/
def adcRunSet (n : Fin 32) (b : Bool) (d : Dev) : Dev := d.setB (.adc n .stat) ADC_STAT.RUNNING b

/-- Begin a continuous run whose start is captured on cycle t0 (R101). -/
def adcGo (n : Fin 32) (t0 : Nat) (d : Dev) : Dev :=
  adcRunSet n true (d.adcU n fun a =>
    { a with run := .cont t0 0 none, armed := false, startW := false, seq0 := d.get (.adc n (.seq 0)) })

/-- A start that takes effect now: continuous or arming (R101, R103).
DESIGN CHOICE (log entry 165): a start cancels a stop with STOPMODE = 1 too while its last hold is still in tracking. -/
def adcStart (n : Fin 32) (d : Dev) : Dev :=
  match adcMode d n with
  | 1 =>
    match d.adc[n].run with
    | .cont t0 h (some s) =>
      -- a stop that waits for its last hold is cancelled; after the last hold the start waits for RUNNING to clear
      if h ≤ s then d.adcU n fun a => { a with run := .cont t0 h none }
      else d.adcU n fun a => { a with startW := true }
    | .cont _ _ none => d
    | _ => adcGo n (acUp d.now) d
  | 2 => adcRunSet n true d
  | _ => d

/-- A write of EN from 0 to 1, or of the bit in ADCGSTART (R101): with STEN a continuous converter's start is the task that follows. -/
def adcEnable (n : Fin 32) (d : Dev) : Dev :=
  if adcMode d n = 1 && d.b (.adc n .ctl) ADC_CTL.STEN then d.adcU n fun a => { a with armed := true }
  else adcStart n d

/-- Index of the last hold of a continuous run stopped now (R103). -/
def adcLastHold (d : Dev) (n : Fin 32) (t0 h : Nat) : Nat :=
  let l := adcLen d n
  if d.b (.adc n .ctl) ADC_CTL.STOPMODE then
    -- the hold already taken, or the one in tracking: tracking begins 10 ns before a hold, and from t0 before the first
    if h = 0 then 0 else if adcHoldAt d n t0 h ≤ d.now + 10 * tuNs then h else h - 1
  else if h = 0 then l - 1
  else if h % l = 0 then
    -- between passes: entry 0 of the next pass tracks from 40 ns after the last hold
    if adcHoldAt d n t0 (h - 1) + 40 * tuNs ≤ d.now then h + l - 1 else h - 1
  else h / l * l + l - 1

/-- EN = 0, or the bit in ADCGSTOP (R103, R108).  DESIGN CHOICE (log entry 190): a start that waits for RUNNING to clear, or for PLL A, is
dropped. -/
def adcDisable (n : Fin 32) (d : Dev) : Dev :=
  let d1 := d.adcU n fun a => { a with armed := false, startW := false, wake := false }
  match d.adc[n].run with
  | .cont t0 h stop =>
    -- a further stop can only bring the last hold forward, as one with STOPMODE = 1 does
    let l := adcLastHold d n t0 h
    d1.adcU n fun a => { a with run := .cont t0 h (some (min l (stop.getD l))) }
  | .pass _ _ => adcRunSet n false ((d1.adcU n fun a => { a with pend := none }).setB (.adc n .stat) ADC_STAT.PEND false)
  | .idle => adcRunSet n false ((d1.adcU n fun a => { a with pend := none }).setB (.adc n .stat) ADC_STAT.PEND false)

/-- Start the pass of a trigger whose hold 0 falls at `h0` (R105, R106). -/
def adcPass (n : Fin 32) (h0 : Nat) (d : Dev) : Dev :=
  (d.adcU n fun a => { a with run := .pass h0 0 }).flag (.adc n .stat) ADC_STAT.BUSY

/-- A trigger at tick `tt` (R105, R106): a pass, a pending trigger, or a dropped one. -/
def adcTrigger (n : Fin 32) (tt : Nat) (d : Dev) : Dev :=
  if adcMode d n = 2 && d.b (.adc n .ctl) ADC_CTL.EN && d.tbRun (adcTb d n) then
    if !(d.b (.adc n .stat) ADC_STAT.BUSY) then adcPass n (tt + adcDelay d n) d
    else if d.adc[n].pend = none then (d.adcU n fun a => { a with pend := some tt }).flag (.adc n .stat) ADC_STAT.PEND
    else (((d.flag (.adc n .stat) ADC_STAT.OVERRUN).bump (.adc n .cnt) ADC_CNT.OVERRUN_CNT).raise (224 + n.val)).pulse (160 + n.val)
  else d

/-- The trigger timebase stops (R107). -/
def adcTbStop (n : Fin 32) (d : Dev) : Dev :=
  if adcMode d n = 2 && d.b (.adc n .stat) ADC_STAT.BUSY then
    let d1 := (d.adcU n fun a => { a with run := .idle, pend := none }).setB (.adc n .stat) ADC_STAT.PEND false
    ((d1.setB (.adc n .stat) ADC_STAT.BUSY false).flag (.adc n .stat) ADC_STAT.TRIGABORT).pulse (224 + n.val)
  else d
def adcTbStopAll (b : Fin 32) (d : Dev) : Dev := d.each ((fins 32).filter fun n => adcTb d n = b) adcTbStop

/-- An entry measures the VIO of the bank that VIOSEL names. -/
def seqVio (w : Word) : Bool := ADC_SEQ.SRC.get w == 6 && ADC_SEQ.ICH.get w == 3

/-- An entry converts analogue ground in place of a signal (R98): ICH 6 and 7, and VIO of a bank that VIOSEL does not name. -/
def seqGround (d : Dev) (w : Word) : Bool :=
  ADC_SEQ.SRC.get w == 6 &&
    (ADC_SEQ.ICH.get w == 6 || ADC_SEQ.ICH.get w == 7 || (ADC_SEQ.ICH.get w == 3 && 3 < d.f (.adcg .adcicfg) ADCICFG.VIOSEL))

/-- A write falls within the 10 ns before an instant. -/
def justBefore (w : Option Nat) (t : Nat) : Bool :=
  match w with
  | some x => decide (t < x + 10 * tuNs)
  | none => false

/-- The sequence entry that governs hold j at instant t (R121): the one in force when its tracking began.  The first hold of a
continuous run is tracked from its start; the others for 10 ns, and a triggered converter that idles tracks entry 0 as it stands. -/
def adcSeqFor (d : Dev) (n : Fin 32) (j : Nat) : Word :=
  match d.adc[n].run with
  | .cont _ _ _ => if j = 0 then d.adc[n].seq0 else d.get (.adc n (.seq (Fin.ofNat 16 (j % adcLen d n))))
  | _ => d.get (.adc n (.seq (Fin.ofNat 16 (j % adcLen d n))))

/-- Take one hold: the conversion begins (R100, R109).  Its value is undefined before READY0.ANALOG and where the selection was written
in the 10 ns before the hold; analogue ground gives the converter's residual offset, which the spec leaves open. -/
def adcTake (n : Fin 32) (j : Nat) (t : Nat) (raw : Int) (d : Dev) : Dev :=
  let l := adcLen d n
  let e : Fin 16 := Fin.ofNat 16 (j % l)
  let seq := adcSeqFor d n j
  let diff := seqDiff seq
  let lo : Int := if diff then -32768 else 0
  let open_ := !(d.b (.sys (.ready 0)) READY0.ANALOG) || seqGround d seq
  let late := justBefore d.adc[n].seqAt[e] t || (seqVio seq && justBefore d.sys.vioAt t)
  let raw' := if open_ then lo + (Config.freeValue d.free).toNat % 65536 else clampI lo (lo + 65535) raw
  let c : AdcConv := { entry := e, seq := seq, raw := raw', at_ := t, ts := d.stamp t, tv := d.ctv,
                       last := decide (j % l = l - 1), skip := ADC_SEQ.SRC.get seq == 7, openV := late }
  let d1 := (d.at t).adcU n fun a => { a with conv := a.conv ++ [c] }
  if open_ then d1.bumpFree else d1

/-- A converter holds the sample of its current entry (R100, R101, R105): `raw` is what its core converts. -/
def adcHold (n : Fin 32) (raw : Int) (d : Dev) : Dev :=
  match d.adc[n].run with
  | .idle => d
  | .cont t0 h stop =>
    let ok := match stop with
      | none => true
      | some s => decide (h ≤ s)
    if ok then (adcTake n h (adcHoldAt d n t0 h) raw d).adcU n fun a => { a with run := .cont t0 (h + 1) stop } else d
  | .pass h0 h =>
    if h < adcLen d n then
      (adcTake n h (h0 + h * (80 * tuTick)) raw d).adcU n fun a => { a with run := .pass h0 (h + 1) }
    else d

/-- Limit check of a corrected result (R113). -/
def adcLimit (n : Fin 32) (seq : Word) (y : Int) (d : Dev) : Dev :=
  let w := d.get (.adc n .lim)
  let v (x : Nat) : Int := if seqDiff seq then sextN 16 x else (x : Int)
  if ADC_SEQ.LIMEN.bit seq && decide (y < v (ADC_LIM.LO.get w) ∨ v (ADC_LIM.HI.get w) < y) then
    (((d.flag (.adc n .stat) ADC_STAT.LIMIT).bump (.adc n .cnt) ADC_CNT.LIMIT_CNT).raise (192 + n.val)).pulse (192 + n.val)
  else d

/-- RUNNING clears 48 ns after the last hold of a continuous run; a waiting start is captured then (R103).  DESIGN CHOICE (log entry
189): its t0 is the first AC cycle at or after that instant, which is no AC cycle itself. -/
def adcRunEnd (n : Fin 32) (d : Dev) : Dev :=
  match d.adc[n].run with
  | .cont _ h (some s) =>
    if s < h && d.adc[n].conv.isEmpty then
      let d1 := adcRunSet n false (d.adcU n fun a => { a with run := .idle })
      if d.adc[n].startW then adcGo n (acUp d.now) d1 else d1
    else d
  | _ => d

/-- A result is ready 48 ns after its hold (R97, R110-R114). -/
def adcReady (n : Fin 32) (d : Dev) : Dev :=
  match d.adc[n].conv with
  | [] => d
  | c :: rest =>
    let d0 := (d.at (c.at_ + 48 * tuNs)).adcU n fun a => { a with conv := rest }
    let eos (x : Dev) : Dev := if c.last then (x.flag (.adc n .stat) ADC_STAT.EOS).raise (160 + n.val) else x
    if c.skip then adcRunEnd n (eos d0)
    else
      let diff := seqDiff c.seq
      let raw : Int := if c.openV then (if diff then (-32768 : Int) else 0) + (Config.freeValue d.free).toNat % 65536 else c.raw
      let (y, sat) := adcCorrect (d.get (.adc n .calo)) (d.get (.adc n .calg)) diff raw
      let data := (y % 65536).toNat
      let ts := c.ts
      let res := (0 : Word) |> ADC_RES.FRESH.put 1 |> ADC_RES.SAT.put (b2n sat) |> ADC_RES.DIFF.put (b2n diff) |> ADC_RES.DATA.put data
      let last := res |> ADC_LAST.TV.put (b2n c.tv) |> ADC_LAST.ENTRY.put c.entry.val
      let d1 := ((d0.put (.adc n (.res c.entry)) res).put (.adc n .last) last).adcU n fun a => { a with lastTs := ts }
      let d2 := adcLimit n c.seq y (eos (if c.openV then d1.bumpFree else d1))
      let d3 := leFromAdc n c.entry.val diff data d2
      let d4 := if ADC_SEQ.CAP.bit c.seq then capAdc n c.entry.val sat c.tv data ts d3 else d3
      adcRunEnd n d4

/-- The busy period of a triggered pass ends 80 ticks after its last hold; a pending trigger starts its pass (R106). -/
def adcBusyEnd (n : Fin 32) (d : Dev) : Dev :=
  match d.adc[n].run with
  | .pass h0 h =>
    let l := adcLen d n
    if l ≤ h then
      let tf := h0 + l * (80 * tuTick)
      let d0 := d.at tf
      match d.adc[n].pend with
      | some tp =>
        let d1 := (d0.adcU n fun a => { a with pend := none }).setB (.adc n .stat) ADC_STAT.PEND false
        let want := tp + adcDelay d n
        let d2 := if want < tf then (d1.flag (.adc n .stat) ADC_STAT.DEFER).bump (.adc n .cnt) ADC_CNT.DEFER_CNT else d1
        adcPass n (max want tf) d2
      | none => (d0.adcU n fun a => { a with run := .idle }).setB (.adc n .stat) ADC_STAT.BUSY false
    else d
  | _ => d

/-- The end of a calibration (R117, R118). -/
def adcCalDone (n : Fin 32) (pass : Bool) (gain offset : Nat) (d : Dev) : Dev :=
  let d0 := ((d.adcU n fun a => { a with calEnd := none }).setB (.adc n .stat) ADC_STAT.CALBUSY false).flag (.adc n .stat) ADC_STAT.CALDONE
  let d1 := d0.raise (256 + n.val)
  if pass then
    let d2 := ((d1.setF (.adc n .calg) ADC_CALG.GAIN gain).setF (.adc n .calo) ADC_CALO.OFFSET offset).flag (.adc n .stat) ADC_STAT.CALOK
    ((d2.setB (.adc n .stat) ADC_STAT.CALFAIL false).setBit (.adcg .adccalfail) n.val false).setBit (.sys (.ready 1)) n.val true
  else ((d1.flag (.adc n .stat) ADC_STAT.CALFAIL).setBit (.adcg .adccalfail) n.val true).pulse (128 + n.val)

/-- The measured factors pass (R117). -/
def adcCalOk (gain : Nat) (offset : Int) : Bool := decide (0x7333 ≤ gain ∧ gain ≤ 0x8CCD ∧ -2048 ≤ offset ∧ offset ≤ 2047)

/-- A calibration ends 2.4 ms after its start with the measured factors. -/
def adcCalEnd (n : Fin 32) (gain : Nat) (offset : Int) (d : Dev) : Dev :=
  match d.adc[n].calEnd with
  | some t => adcCalDone n (adcCalOk gain offset) gain ((offset % 65536).toNat) (d.at t)
  | none => d

/-- A calibration request for one named converter (R116). -/
def adcCalOne (n : Fin 32) (d : Dev) : Dev :=
  if adcMode d n = 0 && !(d.b (.adc n .stat) ADC_STAT.CALBUSY) then
    if d.sys.pllA then
      (d.adcU n fun a => { a with calEnd := some (acUp d.now + 960000 * tuAc) }).flag (.adc n .stat) ADC_STAT.CALBUSY
    else adcCalDone n false 0 0 d
  else d.setBit (.adcg .adccalskip) n.val true

/-- A calibration request by mask (R116). -/
def adcCalibrate (mask : Nat) (d : Dev) : Dev := d.each (finsIn 32 mask) adcCalOne

/-- Loss of PLL A ends calibrations in progress as failures (R117).
DESIGN CHOICE (log entry 164): a continuous run stays as it is; the spec names no effect on it. -/
def adcPllLoss (d : Dev) : Dev :=
  d.each ((fins 32).filter fun n => d.b (.adc n .stat) ADC_STAT.CALBUSY) (fun n => adcCalDone n false 0 0)

/-- Write of ADCn_CTL (R101, R103, R121).
DESIGN CHOICE (log entry 166): CFG_REJ sets where a guarded field of the write differs from the one held. -/
def adcWriteCtl (n : Fin 32) (v : Word) (d : Dev) : Dev :=
  let old := d.get (.adc n .ctl)
  let en := ADC_CTL.EN.bit old
  let locked := en || d.b (.adc n .stat) ADC_STAT.RUNNING || d.b (.adc n .stat) ADC_STAT.BUSY
  let keep (f : Fld) (w : Word) : Word := f.put (f.get old) w
  let differs (f : Fld) : Bool := f.get v != f.get old
  let guard := locked && (differs ADC_CTL.MODE || differs ADC_CTL.LEN || differs ADC_CTL.SKEW)
  let v1 := if locked then keep ADC_CTL.MODE (keep ADC_CTL.LEN (keep ADC_CTL.SKEW v)) else v
  let v2 := if ADC_CTL.MODE.get v1 = 3 then keep ADC_CTL.MODE v1 else v1
  let v3 := if 20 ≤ ADC_CTL.SKEW.get v2 then keep ADC_CTL.SKEW v2 else v2
  let calRej := ADC_CTL.EN.bit v3 && !en && d.b (.adc n .stat) ADC_STAT.CALBUSY
  let v4 := if calRej then ADC_CTL.EN.put 0 v3 else v3
  let d1 := (d.wr (.adc n .ctl) v4).flagIf (guard || calRej) (.adc n .stat) ADC_STAT.CFG_REJ
  if ADC_CTL.EN.bit v4 && !en then adcEnable n d1
  -- EN = 0 written again while a stop waits for its last hold: STOPMODE may bring that hold forward
  else if (en || d.b (.adc n .stat) ADC_STAT.RUNNING) && !ADC_CTL.EN.bit v4 then adcDisable n d1 else d1

/-- A bit of ADCGSTART: EN sets and acts as a start (R101, R121); a converter that already runs goes on. -/
def adcGstartOne (n : Fin 32) (d : Dev) : Dev :=
  if d.b (.adc n .ctl) ADC_CTL.EN then
    if d.b (.adc n .stat) ADC_STAT.CALBUSY then d.flag (.adc n .stat) ADC_STAT.CFG_REJ else adcEnable n d
  else adcWriteCtl n (d.get (.adc n .ctl) ||| 1) d
def adcGstopOne (n : Fin 32) (d : Dev) : Dev :=
  if d.b (.adc n .ctl) ADC_CTL.EN || d.b (.adc n .stat) ADC_STAT.RUNNING then adcDisable n (d.setB (.adc n .ctl) ADC_CTL.EN false) else d

/-- A task starts every armed converter that names its channel (R101); while PLL A is not locked it waits for the clock of the AC domain
(R192, R38).  DESIGN CHOICE (log entry 191): without a bound in time. -/
def adcTaskStart (ch : Nat) (d : Dev) : Dev :=
  d.each ((fins 32).filter fun n => d.adc[n].armed && d.b (.adc n .ctl) ADC_CTL.STEN && d.f (.adc n .ctl) ADC_CTL.STCH == ch)
    (fun n x =>
      if d.sys.pllA then adcStart n (x.adcU n fun a => { a with armed := false })
      else x.adcU n fun a => { a with armed := false, wake := true })

/-- PLL A has locked: the start tasks that waited for it are captured. -/
def adcPllLock (d : Dev) : Dev :=
  d.each ((fins 32).filter fun n => d.adc[n].wake) (fun n x => adcStart n (x.adcU n fun a => { a with wake := false }))

/-- A task reaches the timebases of the converters it triggers (R105). -/
def adcTaskTrigger (ch : Nat) (d : Dev) : Dev :=
  d.each ((fins 32).filter fun n => !(d.b (.adc n .trig) ADC_TRIG.TSRC) && d.f (.adc n .trig) ADC_TRIG.TCH == ch)
    (fun n x => adcTrigger n (tickUp (tbB x (adcTb x n)) x.now) x)

/-- Conversions in flight whose selection or factors a write changes: their value is open. -/
def adcOpen (n : Fin 32) (p : AdcConv → Bool) (d : Dev) : Dev :=
  d.adcU n fun a => { a with conv := a.conv.map fun c => if p c then { c with openV := true } else c }

/-- Entry 0 still governs the first hold of a continuous run: its sampling has not begun (R121). -/
def adcEarly (a : AdcSt) (now : Nat) : Bool :=
  match a.run with
  | .cont t0 holds _ => holds == 0 && decide (now < t0)
  | .idle | .pass _ _ => false

/-- A write of a sequence entry (R121). -/
def adcWriteSeq (n : Fin 32) (k : Fin 16) (v : Word) (d : Dev) : Dev :=
  let d1 := adcOpen n (fun c => c.entry == k && decide (d.now < c.at_ + 40 * tuNs)) (d.wr (.adc n (.seq k)) v)
  let early := k == 0 && adcEarly d.adc[n] d.now
  d1.adcU n fun a => { a with seqAt := a.seqAt.set k (some d.now), seq0 := if early then d1.get (.adc n (.seq 0)) else a.seq0 }

/-- A write of ADCICFG: conversions of VIO between their hold and their end are undefined. -/
def adcWriteIcfg (v : Word) (d : Dev) : Dev :=
  let d1 := d.wr (.adcg .adcicfg) v
  let d2 := d1.each (fins 32) (fun n => adcOpen n (fun c => seqVio c.seq && decide (d.now < c.at_ + 40 * tuNs)))
  { d2 with sys := { d2.sys with vioAt := some d.now } }

/-- Write of a converter register. -/
def adcWrite (n : Fin 32) (r : AdcReg) (v : Word) (d : Dev) : Dev :=
  match r with
  | .ctl => adcWriteCtl n v d
  | .trig =>
    let old := d.get (.adc n .trig)
    let locked := d.b (.adc n .ctl) ADC_CTL.EN || d.b (.adc n .stat) ADC_STAT.RUNNING || d.b (.adc n .stat) ADC_STAT.BUSY
    if locked then d.flagIf (plainWrite (AdcReg.access .trig) old v != old) (.adc n .stat) ADC_STAT.CFG_REJ else d.wr (.adc n .trig) v
  | .calg =>
    if d.b (.adc n .stat) ADC_STAT.CALBUSY then d.flag (.adc n .stat) ADC_STAT.CFG_REJ
    else adcOpen n (fun _ => true) (d.wr (.adc n .calg) v)
  | .calo =>
    if d.b (.adc n .stat) ADC_STAT.CALBUSY then d.flag (.adc n .stat) ADC_STAT.CFG_REJ
    else adcOpen n (fun _ => true) (d.wr (.adc n .calo) v)
  | .seq k => adcWriteSeq n k v d
  | r => d.wr (.adc n r) v

/-- Write of a shared converter register. -/
def adcgWrite (r : AdcgReg) (v : Word) (d : Dev) : Dev :=
  match r with
  | .adcgstart => d.each (finsIn 32 v.toNat) adcGstartOne
  | .adcgstop => d.each (finsIn 32 v.toNat) adcGstopOne
  | .adccalstart => adcCalibrate v.toNat d
  | .adcicfg => adcWriteIcfg v d
  | .adccalfail => d.wr (.adcg .adccalfail) v
  | .adccalskip => d.wr (.adcg .adccalskip) v
  | .adcrun => d
  | .adccalbusy => d

/-- Read of ADCn_LAST: FRESH clears and the stamp is latched (R110). -/
def adcReadLast (n : Fin 32) (d : Dev) : Word × Dev :=
  let ts := d.adc[n].lastTs
  (d.get (.adc n .last), ((d.clearRC (.adc n .last)).put (.adc n .ltsl) (lo32 ts)).put (.adc n .ltsh) (hi32 ts))

/-- Read of ADCn_RESk: FRESH clears. -/
def adcReadRes (n : Fin 32) (k : Fin 16) (d : Dev) : Word × Dev := (d.get (.adc n (.res k)), d.clearRC (.adc n (.res k)))

end Sys2Proof.Machine
end

