-- ==== Sys2Proof/Machine/Memory.lean ====
section
/-!
DEFINITION. SRAM and loop engine memory with their code (R310-R321): cells and spare lines, reads with correction and logging,
full and partial writes, patrol, remap and raw access; and the boot ROM (R356).
-/
namespace Sys2Proof.Machine
open Sys2Proof

/-- A stored word: data in bits 31-0, check bits C0-C6 in bits 38-32. -/
abbrev Ecc := BitVec 39

/-- Position of data bit i in the code (R311). -/
def eccPos (i : Nat) : Nat :=
  if i = 0 then 3 else if i < 4 then i + 4 else if i < 11 then i + 5 else if i < 26 then i + 6 else i + 7

/-- Parity of the low `n` bits of a number. -/
def parity : Nat → Nat → Bool
  | 0, _ => false
  | k + 1, v => (v % 2 == 1) != parity k (v / 2)

/-- Exclusive-or of the positions of the 1 bits of a data word: its check bits C0-C5. -/
def eccSyn (w : Nat) : Nat → Nat
  | 0 => 0
  | k + 1 => (if bitN w k then eccPos k else 0) ^^^ eccSyn w k

/-- The seven check bits of a data word (R311). -/
def eccCheck (w : Word) : Nat :=
  let c := eccSyn w.toNat 32
  c + 64 * b2n (parity 32 w.toNat != parity 6 c)

/-- A word as it is stored. -/
def eccEnc (w : Word) : Ecc := BitVec.ofNat 39 (w.toNat + 2 ^ 32 * eccCheck w)

/-- The poison encoding: C0 and C1 inverted (R312). -/
def eccPoison (w : Word) : Ecc := BitVec.ofNat 39 (w.toNat + 2 ^ 32 * (eccCheck w ^^^ 3))

/-- Data of a stored word, and its syndrome: S and P (R312). -/
def eccData (v : Ecc) : Word := w32 (v.toNat % 2 ^ 32)
def eccS (v : Ecc) : Nat := eccSyn (v.toNat % 2 ^ 32) 32 ^^^ (v.toNat / 2 ^ 32 % 64)
def eccP (v : Ecc) : Bool := parity 39 v.toNat

/-- What the decoder makes of a stored word (R312). -/
inductive EccOut where
  | clean
  | fixed (w : Word)
  | bad
  | poison
  deriving DecidableEq, Repr

/-- The decoder (R312): a single wrong bit is corrected. -/
def eccDecode (v : Ecc) : EccOut :=
  let s := eccS v
  if eccP v then
    if s = 0 then .fixed (eccData v)
    else if s ≤ 38 then
      match (List.range 32).find? fun i => eccPos i = s with
      | some i => .fixed (eccData v ^^^ w32 (2 ^ i))
      | none => .fixed (eccData v)
    else .bad
  else if s = 0 then .clean
  else if s = 3 then .poison
  else .bad

/-- Address ranges of the two arrays. -/
def inSram (a : Nat) : Bool := decide (0x20000000 ≤ a ∧ a < 0x20400000)
def inLem (a : Nat) : Bool := decide (0x30000000 ≤ a ∧ a < 0x30004000)

/-- Bank and line index of an SRAM address (R310). -/
def sramBank (a : Nat) : Fin 8 := Fin.ofNat 8 (a / 64)
def sramLine (a : Nat) : Nat := a / 512 % 2 ^ 13

/-- The cell of an SRAM word: its line, or the spare line that a valid remap entry puts in its place (R319). -/
def sramCell (d : Dev) (a : Nat) : Nat :=
  let b := sramBank a
  match (fins 16).find? fun e => d.b (.sys (.remap b e)) REMAP.V && d.f (.sys (.remap b e)) REMAP.LINE == sramLine a with
  | some e => 2 ^ 20 + (b.val * 16 + e.val) * 16 + a / 4 % 16
  | none => a / 4 % 2 ^ 20

/-- What an unlisted word holds: data 0 and check bits 0, as the scrub writes it (R317, R348).
DEDUCED (log entry 48): the scrub writes 0 over R153's reset values of the output limits too, which lemReset holds until then. -/
def lemDflt (_ : Nat) : Ecc := 0
def sramDflt (_ : Nat) : Ecc := 0

/-- The stored word at an address of either array. -/
def memGet (d : Dev) (a : Nat) : Ecc :=
  if inLem a then Store.get lemDflt (a / 4 % 4096) d.mem.lem else Store.get sramDflt (sramCell d a) d.mem.sram

/-- Store a word with its check bits at an address of either array. -/
def memPut (a : Nat) (v : Ecc) (d : Dev) : Dev :=
  if inLem a then { d with mem := { d.mem with lem := Store.set id lemDflt (a / 4 % 4096) v d.mem.lem } }
  else { d with mem := { d.mem with sram := Store.set id sramDflt (sramCell d a) v d.mem.sram } }

/-- The canonical form of both arrays. -/
def MemSt.wf (m : MemSt) : Bool := Store.wf id sramDflt m.sram && Store.wf id lemDflt m.lem

/-- An access to a line under copy, or before the scrub has ended, waits (R317, R320). -/
def memWaits (d : Dev) (a : Nat) : Bool :=
  (inSram a || inLem a) && (!(d.b (.sys (.ready 0)) READY0.SRAM) ||
    (inSram a && d.mem.copies.any fun c => c.1 == sramBank a && c.2.2 == sramLine a))

/-- Who reads (the SRC and REQ codes of MEMUEINFO), with the line an uncorrectable error asserts and the flag it sets
(R315). -/
structure MemReq where
  src  : Nat
  req  : Nat
  line : Option Nat
  flag : Option Fld
  deriving DecidableEq, Repr

def reqFetch (c : Fin 5) : MemReq := ⟨0, c, some 433, some MEMSTAT.UE⟩
def reqLoad (c : Fin 5) : MemReq := ⟨1, c, some 433, some MEMSTAT.UE⟩
def reqPart (r : Nat) : MemReq := ⟨2, r, none, none⟩
def reqXchg (c : Fin 5) : MemReq := ⟨3, c, some 433, some MEMSTAT.UE⟩
def reqWalk (c : Fin 5) : MemReq := ⟨4, c, some 440, some MEMSTAT.UE⟩
def reqDma : MemReq := ⟨5, 6, some 434, some MEMSTAT.UE⟩
def reqHost : MemReq := ⟨6, 5, some 434, some MEMSTAT.UE⟩
def reqPatrol : MemReq := ⟨7, 7, some 435, some MEMSTAT.PATROLUE⟩
def reqSample : MemReq := ⟨8, 7, some 438, some MEMSTAT.LEMUE⟩
def reqCopy : MemReq := ⟨9, 7, some 435, some MEMSTAT.PATROLUE⟩

/-- An information word of the error log (R316). -/
def memInfo (q : MemReq) (cause : Nat) (p : Bool) (s : Nat) : Word :=
  (0 : Word) |> MEMUEINFO.V.put 1 |> MEMUEINFO.SRC.put q.src |> MEMUEINFO.REQ.put q.req |> MEMUEINFO.CAUSE.put cause |>
    MEMUEINFO.SYN.put (64 * b2n p + s)

/-- An uncorrectable error is counted, logged, flagged and its line asserted (R315, R316). -/
def memUe (q : MemReq) (a cause : Nat) (p : Bool) (s : Nat) (d : Dev) : Dev :=
  let d1 := d.bump (.sys .memcnt) MEMCNT.UE_CNT
  let d2 := if d.b (.sys .memueinfo) MEMUEINFO.V then d1
    else (d1.put (.sys .memueaddr) (w32 (a / 4 * 4))).put (.sys .memueinfo) (memInfo q cause p s)
  let d3 := match q.flag with
    | some f => d2.flag (.sys .memstat) f
    | none => d2
  match q.line with
  | some l => d3.pulse l
  | none => d3

/-- A correctable error is counted, logged and its line asserted (R315, R316). -/
def memCe (q : MemReq) (a : Nat) (p : Bool) (s : Nat) (d : Dev) : Dev :=
  let d1 := (d.bump (.sys .memcnt) MEMCNT.CE_CNT).flag (.sys .memstat) MEMSTAT.CE
  ((d1.put (.sys .memceaddr) (w32 (a / 4 * 4))).put (.sys .memceinfo) (memInfo q 0 p s)).pulse (if inLem a then 437 else 432)

/-- What a read of a word gives: its data, and the cause code of an uncorrectable error. -/
structure MemRd where
  data : Word
  bad  : Option Nat
  deriving DecidableEq, Repr

/-- Read the word at an address of SRAM or loop engine memory (R312-R316): a correctable word is corrected and written back. -/
def memRead (q : MemReq) (a : Nat) (d : Dev) : MemRd × Dev :=
  let v := memGet d a
  match eccDecode v with
  | .clean => (⟨eccData v, none⟩, d)
  | .fixed w => (⟨w, none⟩, memPut a (eccEnc w) (memCe q a (eccP v) (eccS v) d))
  | .bad =>
    let c := if inLem a then 0x23 else 0x20
    (⟨eccData v, some c⟩, memUe q a c (eccP v) (eccS v) d)
  | .poison => (⟨eccData v, some 0x24⟩, memUe q a 0x24 (eccP v) (eccS v) d)

/-- A full 32-bit write. -/
def memWrite (a : Nat) (w : Word) (d : Dev) : Dev := memPut a (eccEnc w) d

/-- A write of some bytes of a word (R314): merged with what the word holds, poisoned where that cannot be read. -/
def memMerge (req a : Nat) (mask w : Word) (d : Dev) : Dev :=
  let (r, d1) := memRead (reqPart req) a d
  let m := (r.data &&& ~~~ mask) ||| (w &&& mask)
  match r.bad with
  | none => memPut a (eccEnc m) d1
  | some _ =>
    ((memPut a (eccPoison m) d1).flag (.sys .memstat) MEMSTAT.POISON).bump (.sys .memcnt) MEMCNT.POISON_CNT |>.pulse 436

/-- A write of a word of loop engine memory that is not whole (R314): what the word holds after it is undefined, with the poison
encoding where the word could not be read. -/
def memMergeOpen (req a : Nat) (d : Dev) : Dev :=
  let (r, d1) := memRead (reqPart req) a d
  let v := Config.freeValue d1.free
  let d2 := d1.bumpFree
  match r.bad with
  | none => memPut a (eccEnc v) d2
  | some _ =>
    ((memPut a (eccPoison v) d2).flag (.sys .memstat) MEMSTAT.POISON).bump (.sys .memcnt) MEMCNT.POISON_CNT |>.pulse 436

/-- Address of word k of the patrol's line n (R318). -/
def patrolAddr (n k : Nat) : Nat := if n < 65536 then 0x20000000 + 64 * n + 4 * k else 0x30000000 + 64 * (n - 65536) + 4 * k

/-- The patrol reads its next line (R318), once no copy of that line runs (R320). -/
def memPatrol (d : Dev) : Dev :=
  if d.b (.sys .memctl) MEMCTL.PATEN && !memWaits d (patrolAddr (d.f (.sys .mempatrol) MEMPATROL.LINE) 0) then
    let n := d.f (.sys .mempatrol) MEMPATROL.LINE
    let t := d.mem.patAt + max 1 (d.f (.sys .memctl) MEMCTL.INTERVAL) * 100 * tuNs
    let d0 := d.at t
    let d1 := { d0 with mem := { d0.mem with patAt := d0.now } }
    let d2 := d1.each (List.range 16) fun k d => (memRead reqPatrol (patrolAddr n k) d).2
    if n + 1 < 65792 then d2.setF (.sys .mempatrol) MEMPATROL.LINE (n + 1)
    else (d2.setF (.sys .mempatrol) MEMPATROL.LINE 0).setF (.sys .mempatrol) MEMPATROL.PASS (d.f (.sys .mempatrol) MEMPATROL.PASS + 1)
  else d

/-- Write of REMAPb_e (R320): a refused one sets REMAPREJ, an accepted one starts the copy. -/
def memRemap (b : Fin 8) (e : Fin 16) (v : Word) (d : Dev) : Dev :=
  let line := REMAP.LINE.get v
  let taken := (fins 16).any fun x => x != e && d.b (.sys (.remap b x)) REMAP.V && d.f (.sys (.remap b x)) REMAP.LINE == line
  if d.b (.sys (.remap b e)) REMAP.V || !REMAP.V.bit v || taken || d.mem.copies.any (fun c => c.1 == b && c.2.1 == e) then
    d.flag (.sys .memstat) MEMSTAT.REMAPREJ
  else { d with mem := { d.mem with copies := d.mem.copies ++ [(b, e, line)] } }

/-- The copy of a line to its spare ends (R320): words corrected, uncorrectable ones poisoned.  Its reads wait for the scrub (R317). -/
def memCopyDone (d : Dev) : Dev :=
  if !d.b (.sys (.ready 0)) READY0.SRAM then d
  else match d.mem.copies with
  | [] => d
  | (b, e, line) :: rest =>
    let a (k : Nat) : Nat := 0x20000000 + 512 * line + 64 * b.val + 4 * k
    let step (k : Nat) (acc : List Ecc × Dev) : List Ecc × Dev :=
      let (r, d) := memRead reqCopy (a k) acc.2
      (acc.1 ++ [if r.bad.isSome then eccPoison r.data else eccEnc r.data], d)
    let (ws, d1) := (List.range 16).foldl (fun acc k => step k acc) ([], d)
    let d2 := { d1 with mem := { d1.mem with copies := rest } }
    let d3 := d2.put (.sys (.remap b e)) ((0 : Word) |> REMAP.V.put 1 |> REMAP.LINE.put line)
    (d3.each (ws.zip (List.range 16)) fun p d => memPut (a p.2) p.1 d).flag (.sys .memstat) MEMSTAT.REMAPDONE

/-- A raw access (R321). -/
def memRaw (o : RawOp) (d : Dev) : Dev :=
  match o.val with
  | some v => memPut o.addr v d
  | none =>
    let v := memGet d o.addr
    (d.put (.sys .memtdata) (eccData v)).put (.sys .memtchk)
      ((0 : Word) |> MEMTCHK.CHK.put (v.toNat / 2 ^ 32) |> MEMTCHK.SYN.put (64 * b2n (eccP v) + eccS v))

/-- A raw access is requested (R321): a write from S or the host only; it waits as every access does (R317, R320). -/
def memRawAsk (o : RawOp) (d : Dev) : Dev :=
  if !(inSram o.addr || inLem o.addr) || (o.val.isSome && !(o.by_ == .host || o.by_ == .core 4)) then d.flag (.sys .memstat) MEMSTAT.TREJ
  else if memWaits d o.addr then { d with mem := { d.mem with rawQ := d.mem.rawQ ++ [o] } }
  else memRaw o d

/-- A write of MEMTCMD (R321). -/
def memTcmd (by_ : Requester) (v : Word) (d : Dev) : Dev :=
  let o : RawOp := { by_ := by_, addr := (d.get (.sys .memtaddr)).toNat, val := none }
  match MEMTCMD.CMD.get v with
  | 1 => memRawAsk o d
  | 2 => memRawAsk { o with val := some (BitVec.ofNat 39 ((d.get (.sys .memtdata)).toNat + 2 ^ 32 * d.f (.sys .memtchk) MEMTCHK.CHK)) } d
  | _ => d

/-- The raw accesses that waited and need wait no longer are made. -/
def memRawServe (d : Dev) : Dev :=
  let (stay, go) := d.mem.rawQ.partition fun o => memWaits d o.addr
  ({ d with mem := { d.mem with rawQ := stay } } : Dev).each go memRaw

/-- The scrub writes every word (R317); the SRAM readiness bit sets. -/
def memScrub (d : Dev) : Dev :=
  ({ d with mem := { d.mem with sram := [], lem := [] } } : Dev).flag (.sys (.ready 0)) READY0.SRAM

/-- Word 0 and word 2 of an entry of the boot ROM's descriptor table (R356); every present entry has limit 0xFFFF. -/
def romDesc (i : Nat) : Nat × Nat :=
  match i with
  | 1 => (0x00000000, 0x9F08000A)
  | 2 => (0x20000000, 0x9F080006)
  | 3 => (0x203F0000, 0x90080006)
  | 4 => (0x40000000, 0x9F080006)
  | 5 => (0x40800000, 0x90080006)
  | 6 => (0x40500000, 0x9F080006)
  | 7 => (0x00E00000, 0x9F080002)
  | 8 => (0x00100000, 0x9F08000A)
  | 9 => (0x00700000, 0x9F08000A)
  | 10 => (0x40700000, 0x9F080006)
  | 11 => (0x40060000, 0x9F080006)
  | 12 => (0x40010000, 0x9F080006)
  | _ => (0, 0)

/-- A word of the boot ROM: entries 1-15 of the table at 0xE000 as R356 gives them, other bytes open. -/
def romWord (a : Nat) : Word :=
  let i := (a - 0xE000) / 16
  if 0xE010 ≤ a ∧ a < 0xE100 then
    match a / 4 % 4 with
    | 0 => w32 (romDesc i).1
    | 1 => if i ≤ 12 then 0xFFFF else 0
    | 2 => w32 (romDesc i).2
    | _ => 0
  else
    let b (k : Nat) : Nat := (Config.romByte (a / 4 * 4 + k)).toNat
    w32 (b 0 + 2 ^ 8 * b 1 + 2 ^ 16 * b 2 + 2 ^ 24 * b 3)

/-- Read a word of the boot ROM: a parity error is uncorrectable (R313). -/
def romRead (q : MemReq) (a : Nat) (d : Dev) : MemRd × Dev :=
  if d.mem.romBad.contains (a / 4) then (⟨romWord a, some 0x21⟩, memUe q a 0x21 false 0 d) else (⟨romWord a, none⟩, d)

end Sys2Proof.Machine
end

