-- ==== Sys2Proof/Machine/Leg.lean ====
section
/-!
DEFINITION. Power legs and the shroud on their path (R53-R55, R66-R94, R234-R236): edge placement, switch command, dead-time,
interlock, on-time bounds, commits, staging, forcing and adaptive dead-time.
-/
namespace Sys2Proof.Machine
open Sys2Proof

/-- Value of a register in the COARSE:FINE layout, in fine units (R53). -/
def fineVal (w : Word) : Nat := 24 * LEG_CMPA.COARSE.get w + LEG_CMPA.FINE.get w

/-- The fine part of the timebase offset in R54: OFFSET.FINE, or in chain mode the discipline correction of the period. -/
def tbVoff (d : Dev) (b : Fin 32) (corr : Int) : Int :=
  if d.f (.tb b .ctl) TB_CTL.SYNCSRC = 2 then corr else (d.f (.tb b .offset) TB_OFFSET.FINE : Int)

/-- Effective positions of edges A and B in a period of `p` ticks, and full on-time (R54, R94). -/
def legPlace (d : Dev) (n : Fin 96) (p : Nat) (corr : Int) : Nat × Nat × Bool :=
  let m := 24 * p
  if d.b (.leg n .ctl) LEG_CTL.PROF then
    let on := min (d.f (.leg n .cmpb) LEG_CMPB.COARSE) p
    let a := 24 * ((p - on) / 2 + d.f (.leg n .phase) LEG_PHASE.COARSE)
    (a % m, (a + 24 * on) % m, decide (on = p))
  else
    let off : Int := fineVal (d.get (.leg n .phase)) + tbVoff d (d.legTb n) corr
    let e (r : LegReg) : Nat := (((fineVal (d.get (.leg n r)) : Int) + off) % (m : Int)).toNat
    (e .cmpa, e .cmpb, false)

/-- The state of R83 from its causes. -/
def legState (d : Dev) (n : Fin 96) : Nat :=
  let g := d.leg[n]
  if d.b (.shl n .hold) SHL_HOLD.HELD then 6
  else if d.b (.leg n .stat) LEG_STAT.FOFF then 5
  else if g.force != 0 then g.force + 1
  else if g.run && d.tbRun (d.legTb n) then 1
  else 0

/-- The state the register shows. -/
def legShown (d : Dev) (n : Fin 96) : Nat := d.f (.leg n .stat) LEG_STAT.STATE

/-- The leg is reefed (R227, R236). -/
def legReefed (d : Dev) (n : Fin 96) : Bool := d.b (.shl n .hold) SHL_HOLD.REEFED

/-- A switch of a leg, and its replacement. -/
def LegSt.sw (g : LegSt) : Sw → SwSt
  | .h => g.hi
  | .l => g.lo
def LegSt.setSw (g : LegSt) (w : Sw) (x : SwSt) : LegSt :=
  match w with
  | .h => { g with hi := x }
  | .l => { g with lo := x }

/-- The other switch. -/
def Sw.other : Sw → Sw
  | .h => .l
  | .l => .h

/-- Dead-time before a switch's turn-on, in fine units, before and after the shroud's clamp (R67, R69, R94, R234). -/
def legDt (d : Dev) (n : Fin 96) (w : Sw) : Nat × Nat :=
  let a := d.get (.leg n .dtact)
  let t := if d.b (.leg n .ctl) LEG_CTL.PROF then LEG_DTACT.DTH.get a else
    match w with
    | .h => LEG_DTACT.DTH.get a
    | .l => LEG_DTACT.DTL.get a
  (t, clampN (d.f (.shl n .dt) SHL_DT.DTMIN) (d.f (.shl n .dt) SHL_DT.DTMAX) t)

/-- On-time limit of a switch, in ticks, and whether the reef limit is the one in force (R236). -/
def legLimit (d : Dev) (n : Fin 96) (w : Sw) : Nat × Bool :=
  let ton := match w with
    | .h => d.f (.shl n .tonh) SHL_TONH.ON
    | .l => d.f (.shl n .tonl) SHL_TONL.ON
  let reef := d.f (.shl n .reef) SHL_REEF.ON
  if legReefed d n then (min ton reef, decide (reef ≤ ton)) else (ton, false)

/-- The transition measured from a switch's turn-off: LnL off is the one DTH follows, LnH off the one DTL follows (R88). -/
def LegSt.tr (g : LegSt) : Sw → AdtTr
  | .l => g.trH
  | .h => g.trL
def LegSt.setTr (g : LegSt) (w : Sw) (x : AdtTr) : LegSt :=
  match w with
  | .l => { g with trH := x }
  | .h => { g with trL := x }

/-- The output stage of the shroud follows a switch exactly 8 ticks later (R71, R82). -/
def tuStage : Nat := 8 * tuTick

/-- A switch takes a level at instant `t`; changes that have reached the output stage are forgotten. -/
def SwSt.turn (s : SwSt) (b : Bool) (t : Nat) : SwSt :=
  { s with on := b, way := (t, b) :: s.way.filter fun p => t < p.1 + tuStage }

/-- The level at the output stage at an instant: that of the latest change that has reached it, else what stood before all of
them. -/
def SwSt.stage (s : SwSt) (now : Nat) : Bool :=
  match s.way.find? fun p => p.1 + tuStage ≤ now with
  | some p => p.2
  | none =>
    match s.way.getLast? with
    | some p => !p.2
    | none => s.on

/-- A switch turns off at instant `t`; with adaptation on, the measurement of the transition opens (R88).  What a crossing has measured
in this period stands (R89). -/
def legOff (n : Fin 96) (w : Sw) (t : Nat) (d : Dev) : Dev :=
  let g := d.leg[n]
  if (g.sw w).on then
    let s := g.sw w
    let g1 := g.setSw w { s.turn false t with offAt := some t }
    let tr := g1.tr w
    let g2 := if legAdapts d n then
        g1.setTr w { tr with win := some { off := t, offTs := d.stamp t }, missed := tr.missed || tr.win.isSome }
      else g1
    cmpLegEdge n w false t (d.legU n fun _ => g2)
  else d

/-- The dead-time of a switch has ended at instant `t`, or would have: crossings from then on no longer count for the transition before
its turn-on (R88). -/
def adtShut (n : Fin 96) (w : Sw) (t : Nat) (d : Dev) : Dev :=
  d.legU n fun g =>
    let tr := g.tr w.other
    g.setTr w.other { tr with win := tr.win.map fun x => { x with till := some (x.till.getD t) } }

/-- Instant at which the pending dead-time ends (R68): not before the latest change of the dead-time in use. -/
def legDue (d : Dev) (n : Fin 96) : Option Nat :=
  match d.leg[n].pend with
  | some (w, base) => some (max d.leg[n].pendFrom (base + (legDt d n w).2 * tuFine))
  | none => none

/-- No dead-time is counted any more; one that was being counted would have ended when it was due. -/
def legUnpend (n : Fin 96) (d : Dev) : Dev :=
  match d.leg[n].pend, legDue d n with
  | some (w, _), some t => adtShut n w t (d.legU n fun g => { g with pend := none })
  | _, _ => d

/-- Both switches turn off at once, without dead-time, and with them the output stage (R58, R84). -/
def legDark (n : Fin 96) (t : Nat) (d : Dev) : Dev :=
  (legOff n .l t (legOff n .h t (legUnpend n d))).legU n fun g => { g with hi := { g.hi with way := [] }, lo := { g.lo with way := [] } }

/-- Both switches turn off and no turn-on is to follow: the other switch would have turned on a dead-time later (R88). -/
def legBothOff (n : Fin 96) (t : Nat) (d : Dev) : Dev :=
  let d1 := legDark n t d
  let shut (w : Sw) (d : Dev) : Dev := adtShut n w (t + (legDt d1 n w).2 * tuFine) d
  shut .l (shut .h d1)

/-- The leg's hold register: HELD and the class bit (R224, R235, R237). -/
def legHoldBit (n : Fin 96) (cls : Nat) (d : Dev) : Dev :=
  (d.setF (.shl n .hold) SHL_HOLD.HMASK (d.f (.shl n .hold) SHL_HOLD.HMASK ||| 2 ^ cls)).flag (.shl n .hold) SHL_HOLD.HELD

/-- Count a cut (R236). -/
def legCutCount (n : Fin 96) (w : Sw) (d : Dev) : Dev :=
  let d1 := if (legLimit d n w).2 then d.flag (.shl n .stat) SHL_STAT.REEFCUT else d.flag (.shl n .stat) SHL_STAT.TONCUT
  (d1.bump (.shl n .cnt) SHL_CNT.CUT_CNT).legU n fun g => g.setSw w { g.sw w with cut := true }

/-- A turn-on requested at the output stage at instant `t`: the interlock, then the on-time limit of 0, then the switch is on
(R235, R236). -/
def legOn (n : Fin 96) (w : Sw) (t : Nat) (d : Dev) : Dev :=
  let g := d.leg[n]
  let o := g.sw w.other
  let gap := match o.offAt with
    | some x => decide (x + d.f (.shl n .dt) SHL_DT.DTMIN * tuFine ≤ t)
    | none => true
  if o.on || !gap then
    -- violation: nothing passes, both outputs stay off, the leg is held by class LEG
    let d2 := (legHoldBit n 0 (legBothOff n t d)).flag (.shl n .stat) SHL_STAT.ILOCK
    (d2.setF (.leg n .stat) LEG_STAT.STATE 6).pulse n.val
  else if (g.sw w).on then d
  else if (legLimit d n w).1 = 0 then legCutCount n w d
  else cmpLegEdge n w true t (d.legU n fun g => g.setSw w { (g.sw w).turn true t with onAt := t, cut := false })

/-- The dead-time in use changes at instant `t`: a dead-time that is being counted does not end before it (log entry 151). -/
def legDtFrom (n : Fin 96) (t : Nat) (d : Dev) : Dev :=
  d.legU n fun g => if g.pend.isSome then { g with pendFrom := max g.pendFrom t } else g

/-- The pending dead-time has elapsed: the clamp is noted and the switch turns on (R67, R69). -/
def legFire (n : Fin 96) (d : Dev) : Dev :=
  match d.leg[n].pend with
  | none => d
  | some (w, base) =>
    let (raw, dt) := legDt d n w
    let d1 := (legUnpend n d).setB (.leg n .stat) LEG_STAT.DTCLAMP (raw != dt)
    if d.tbRun (d.legTb n) then legOn n w (max d.leg[n].pendFrom (base + dt * tuFine)) d1 else d1

/-- A switch's on-time limit is reached at the instant it gives, or now where it lies further back (R236). -/
def legCut (n : Fin 96) (w : Sw) (d : Dev) : Dev :=
  let s := d.leg[n].sw w
  if s.on then
    let t := s.onAt + (legLimit d n w).1 * tuTick
    let d1 := d.at t
    legCutCount n w (legOff n w d1.now d1)
  else d

/-- What the leg's own clockwork has done by instant `t`: a due dead-time, then a due on-time limit of either switch. DESIGN CHOICE (log
entry 152): a dead-time that ends at `t` itself has ended before what happens at `t`. -/
def legCatch (n : Fin 96) (t : Nat) (d : Dev) : Dev :=
  let d1 := match legDue d n with
    | some x => if x ≤ t then legFire n d else d
    | none => d
  let cut (w : Sw) (d : Dev) : Dev :=
    let s := d.leg[n].sw w
    if s.on && decide (s.onAt + (legLimit d n w).1 * tuTick ≤ t) then
      legCutCount n w (legOff n w (s.onAt + (legLimit d n w).1 * tuTick) d)
    else d
  cut .l (cut .h d1)

/-- Start the dead-time of a switch from `base`, in place of one that is being counted. -/
def legPend (n : Fin 96) (w : Sw) (base : Nat) (d : Dev) : Dev :=
  let d1 := if (d.leg[n].pend.map Prod.fst) = some w then d else legUnpend n d
  d1.legU n fun g => { g.setSw w { g.sw w with cut := false } with pend := some (w, base), pendFrom := base }

/-- The switch of a command level. -/
def swOf (v : Bool) : Sw := if v then .h else .l

/-- The switch command takes a level at instant `t` (R66, R67): the other switch turns off, and the dead-time of the level's
switch starts.  A command that keeps its level does nothing unless the leg waits for its first edge (R86); neither does one of a
leg that has meanwhile become HELD. -/
def legCmd (n : Fin 96) (v : Bool) (t : Nat) (d : Dev) : Dev :=
  let d0 := legCatch n t d
  let g := d0.leg[n]
  if legShown d0 n = 6 || (g.cmd = v && !g.wait) then d0
  else
    let d1 := legOff n (swOf v).other t (d0.legU n fun g => { g with cmd := v, wait := false })
    legPend n (swOf v) t d1

/-- Edge `e` is emitted at instant `t` (R66): with both edges at one instant the command ends low, except at full on-time. -/
def legEmit (n : Fin 96) (e : Edge) (t : Nat) (d : Dev) : Dev :=
  let g := d.leg[n]
  match e with
  | .a =>
    let d1 := d.legU n fun g => { g with spentA := true }
    legCmd n (g.full || decide (g.curA ≠ g.curB)) t d1
  | .b =>
    let d1 := d.legU n fun g => { g with spentB := true }
    legCmd n g.full t d1

/-- The command level at a period start that begins a run (R66). -/
def legLevel (g : LegSt) : Bool := g.full || decide (g.curB < g.curA)

/-- Bring the outputs and STATE to the state that R83 gives, at instant `t` (R84, R86).  `first`: the instant is a period
start.  A dead-time that is already being counted for a switch which a force turns on goes on; one that begins is counted from
the later of the force and the other switch's turn-off (log entry 153). -/
def legSettle (n : Fin 96) (t : Nat) (first : Bool) (d0 : Dev) : Dev :=
  let d := legCatch n t d0
  let old := legShown d n
  let s := legState d n
  let d1 := d.setF (.leg n .stat) LEG_STAT.STATE s
  let forced (w : Sw) : Dev :=
    let x := legOff n w.other t d1
    if (x.leg[n].sw w).on || !(x.tbRun (x.legTb n)) then legUnpend n x
    else if (x.leg[n].pend.map Prod.fst) = some w then x
    else
      let base := match (x.leg[n].sw w.other).offAt with
        | some o => max t o
        | none => t
      legPend n w base x
  if s = old then d1
  else if s = 3 then forced .h
  else if s = 4 then forced .l
  else if s = 1 then
    let x := legDark n t d1
    if first then
      let v := legLevel x.leg[n]
      legPend n (swOf v) t (x.legU n fun g => { g with cmd := v, wait := false })
    else
      -- inside a period: the edges already past are spent, the first turn-on waits for an edge or the period start
      x.legU n fun g => { g with wait := true, spentA := g.spentA || decide (g.curA < t), spentB := g.spentB || decide (g.curB < t) }
  else legBothOff n t d1

/-- The leg follows a change of its causes at the present instant. -/
def legRefresh (n : Fin 96) (d : Dev) : Dev := legSettle n d.now false d

/-- DTACT takes the programmed dead-times (R91); with PROF = 1, DTL takes the value of DTH (R94). -/
def legDtLoad (n : Fin 96) (d : Dev) : Dev :=
  let w := d.get (.leg n .dt)
  let l := if d.b (.leg n .ctl) LEG_CTL.PROF then LEG_DT.DTH.get w else LEG_DT.DTL.get w
  (((d.setF (.leg n .dtact) LEG_DTACT.DTH (LEG_DT.DTH.get w)).setF (.leg n .dtact) LEG_DTACT.DTL l)).legU n
    fun g => { g with dtWr := false }

/-- The dead-time that an open measurement waits for ended at or before an instant. -/
def adtPast (tr : AdtTr) (now : Nat) : Bool := (tr.win.bind (·.till)).any (decide <| · ≤ now)

/-- One dead-time of R89 and R90: the adapted value, whether the transition was missed, and whether it was measured.  DESIGN CHOICE (log
entry 154): a crossing whose change of F is not ready at the period start counts as none seen. -/
def adtNext (adt lim : Word) (dt : Nat) (tr : AdtTr) (now : Nat) : Nat × Bool × Bool :=
  let lo := LEG_ADTLIM.DTMIN.get lim
  let hi := LEG_ADTLIM.DTMAX.get lim
  let step := LEG_ADT.STEP.get adt
  match tr.meas with
  | some t =>
    let diff : Int := (t : Int) + LEG_ADT.TGT.get adt - dt
    ((clampI lo hi ((dt : Int) + clampI (-(step : Int)) step diff)).toNat, false, true)
  | none => if tr.missed || adtPast tr now then (clampN lo hi (dt + step), true, false) else (clampN lo hi dt, false, false)

/-- The measurement of a transition across a period start: an open window whose deadline lies ahead stays open. -/
def adtCarry (tr : AdtTr) (now : Nat) : AdtTr := if adtPast tr now then {} else { win := tr.win }

/-- The measurements of the period are undefined: the comparator is on another timebase or off, or CMPSEL or CPOL changed. -/
def adtOpen (d : Dev) (n : Fin 96) : Bool :=
  let m : Fin 64 := Fin.ofNat 64 (d.f (.leg n .adt) LEG_ADT.CMPSEL)
  d.leg[n].adtUn || cmpTb d m != d.legTb n || !(d.b (.cmp m .ctl) CMP_CTL.EN)

/-- Adaptive dead-time at a period start (R89-R91).  DESIGN CHOICE (log entry 194): while the leg does not adapt, ADTMEAS keeps its bits. -/
def legAdapt (n : Fin 96) (t : Nat) (d : Dev) : Dev :=
  let g := d.leg[n]
  -- a LEGn_DT write replaces both dead-times, whatever was measured (R91)
  let replace (lo hi : Nat) (d : Dev) : Dev :=
    let c (f : Fld) (d : Dev) : Dev := d.setF (.leg n .dtact) f (clampN lo hi (d.f (.leg n .dtact) f))
    if g.dtWr then c LEG_DTACT.DTL (c LEG_DTACT.DTH (legDtLoad n d)) else d
  if !(legAdapts d n) then (if g.dtWr then legDtLoad n d else d)
  else
    let adt := d.get (.leg n .adt)
    let lim := d.get (.leg n .adtlim)
    let lo := LEG_ADTLIM.DTMIN.get lim
    let hi := LEG_ADTLIM.DTMAX.get lim
    let clear (d : Dev) : Dev := d.legU n fun g =>
      { g with trH := adtCarry g.trH t, trL := adtCarry g.trL t, adtUn := false }
    if adtOpen d n then
      let v := (Config.freeValue d.free).toNat
      let w := Config.freeValue (d.free + 1)
      let d1 := (d.setF (.leg n .dtact) LEG_DTACT.DTH (clampN lo hi (v % 4096))).setF (.leg n .dtact) LEG_DTACT.DTL (clampN lo hi (v / 4096 % 4096))
      let d2 := d1.put (.leg n .adtmeas) (w &&& (LEG_ADTMEAS.VL.mask ||| LEG_ADTMEAS.TL.mask ||| LEG_ADTMEAS.VH.mask ||| LEG_ADTMEAS.TH.mask))
      let miss := Config.freeBool d.free
      let d3 := if miss then (d2.flag (.leg n .stat) LEG_STAT.ADT_MISS).bump (.leg n .cnt) LEG_CNT.ADTMISS_CNT else d2
      replace lo hi (clear { d3 with free := d3.free + 2 })
    else
      let a := adtNext adt lim (d.f (.leg n .dtact) LEG_DTACT.DTH) g.trH t
      let b := adtNext adt lim (d.f (.leg n .dtact) LEG_DTACT.DTL) g.trL t
      let d1 := (d.setF (.leg n .dtact) LEG_DTACT.DTH a.1).setF (.leg n .dtact) LEG_DTACT.DTL b.1
      let miss (x : Bool) (d : Dev) : Dev :=
        if x then (d.flag (.leg n .stat) LEG_STAT.ADT_MISS).bump (.leg n .cnt) LEG_CNT.ADTMISS_CNT else d
      let d2 := miss b.2.1 (miss a.2.1 d1)
      replace lo hi (clear ((d2.setB (.leg n .adtmeas) LEG_ADTMEAS.VH a.2.2).setB (.leg n .adtmeas) LEG_ADTMEAS.VL b.2.2))

/-- Reefs that were waiting for this period start end (R227). -/
def legReefEnd (n : Fin 96) (d : Dev) : Dev :=
  let g := d.leg[n]
  let r := g.reef &&& (g.reef ^^^ (g.reef &&& g.reefX))
  (d.legU n fun g => { g with reef := r, reefX := 0 }).setB (.shl n .hold) SHL_HOLD.REEFED (r != 0)

/-- New values of a leg's registers, in order. -/
abbrev LegVals := List (LegReg × Word)
def legPut (n : Fin 96) (vals : LegVals) (d : Dev) : Dev := vals.foldl (fun d p => d.wr (.leg n p.1) p.2) d

/-- A commit of values is captured at tick `tc` (R72-R75, R80, R94, R469). -/
def legCommitAt (n : Fin 96) (vals : LegVals) (tc : Nat) (d0 : Dev) : Dev :=
  let b := d0.legTb n
  let run := d0.tbRun b
  let d := if run then legCatch n tc d0 else d0
  let d1 := legPut n vals d
  let g := d.leg[n]
  let tb := d.tb[b]
  let p := d.f (.tb b .pact) TB_PACT.P
  -- next period (after the load point): the nxt rule of R72
  let fixNext (d : Dev) : Dev :=
    if tb.loaded && g.lp && !(d.b (.leg n .ctl) LEG_CTL.PROF) then
      let (ea, eb, _) := legPlace d n tb.nxtP tb.corrN
      let s := tb.start + tb.len * tuTick
      let keep (e old : Nat) : Nat := if tc + 58 * tuFine ≤ s + e * tuFine then s + e * tuFine else old
      d.legU n fun g => { g with nxtA := keep ea g.nxtA, nxtB := keep eb g.nxtB }
    else d
  if !run then d1
  else if legShown d n ≠ 1 then fixNext d1
  else
    let upd := d.f (.leg n .stat) LEG_STAT.UPDN + 1
    let d2 := d1.setF (.leg n .stat) LEG_STAT.UPDN (min 15 upd)
    if d.b (.leg n .ctl) LEG_CTL.PROF then d2
    else if 4 < upd then
      (d2.flag (.leg n .stat) LEG_STAT.UPD_OVER).bump (.leg n .cnt) LEG_CNT.OVER_CNT
    else
      let (ea, eb, _) := legPlace d2 n p tb.corr
      let new (e : Nat) : Nat := tb.start + e * tuFine
      -- an edge whose match instant lies before the capture is being emitted
      let hit (spent : Bool) (t old : Nat) : Bool := !spent && !decide (old < tc) && t != old
      let ok (t : Nat) : Bool := decide (tc + 58 * tuFine ≤ t)
      let late := (hit g.spentA (new ea) g.curA && !ok (new ea)) || (hit g.spentB (new eb) g.curB && !ok (new eb))
      let d3 := d2.legU n fun g =>
        { g with curA := if hit g.spentA (new ea) g.curA && ok (new ea) then new ea else g.curA,
                 curB := if hit g.spentB (new eb) g.curB && ok (new eb) then new eb else g.curB }
      let d4 := if late then (d3.flag (.leg n .stat) LEG_STAT.LATE).bump (.leg n .cnt) LEG_CNT.LATE_CNT else d3
      fixNext d4

/-- A commit of values reaches the leg: it is captured on the next tick of the leg's timebase.  One whose tick is that of the next
period start belongs to the new period (R75) and waits for it. -/
def legCommit (n : Fin 96) (vals : LegVals) (d : Dev) : Dev :=
  let b := d.legTb n
  let tc := tickUp (tbB d b) d.now
  if d.tbRun b && decide (d.tb[b].start + d.tb[b].len * tuTick ≤ tc) then d.legU n fun g => { g with defer := g.defer ++ [vals] }
  else legCommitAt n vals tc d

/-- The commits that waited for the period start at instant `t` are captured. -/
def legDeferred (n : Fin 96) (t : Nat) (d : Dev) : Dev :=
  let l := d.leg[n].defer
  (d.legU n fun g => { g with defer := [] }).each l fun v => legCommitAt n v t

/-- The load point of the leg's period (R72, R78): the next period's edges and RUN are fixed. -/
def legLoad (n : Fin 96) (b : Fin 32) (d : Dev) : Dev :=
  let tb := d.tb[b]
  let (ea, eb, full) := legPlace d n tb.nxtP tb.corrN
  let s := tb.start + tb.len * tuTick
  let run := d.b (.leg n .ctl) LEG_CTL.RUN
  d.legU n fun g => { g with nxtA := s + ea * tuFine, nxtB := s + eb * tuFine, fullN := full, lp := true, runN := run }

/-- Edges not yet emitted when a period starts early are emitted at its start (R63). -/
def legLeftOver (n : Fin 96) (t : Nat) (d : Dev) : Dev :=
  if legShown d n ≠ 1 then d
  else
    let g := d.leg[n]
    let one (e : Edge) (d : Dev) : Dev :=
      let (sp, c) := match e with
        | .a => (d.leg[n].spentA, d.leg[n].curA)
        | .b => (d.leg[n].spentB, d.leg[n].curB)
      if sp then d else legEmit n e (min c t) d
    if g.curA ≤ g.curB then one .b (one .a d) else one .a (one .b d)

/-- A period starts at instant `t` for a leg of timebase b (R72, R78, R84-R86, R89-R91, R227); `first`: the timebase has just
started. -/
def legPeriod (n : Fin 96) (b : Fin 32) (t : Nat) (first : Bool) (d0 : Dev) : Dev :=
  let d := legDtFrom n t (if first then d0 else legCatch n t (legLeftOver n t d0))
  let old := legShown d n
  let wasFull := d.leg[n].full
  let waited := d.leg[n].wait
  let d1 :=
    if first || !d.leg[n].lp then
      let (ea, eb, full) := legPlace d n (d.f (.tb b .pact) TB_PACT.P) d.tb[b].corr
      d.legU n fun g => { g with curA := t + ea * tuFine, curB := t + eb * tuFine, full := full,
                                 run := if first then d.b (.leg n .ctl) LEG_CTL.RUN else g.run }
    else d.legU n fun g => { g with curA := g.nxtA, curB := g.nxtB, full := g.fullN, run := g.runN }
  let rel := d1.leg[n].relReq
  let d2 := d1.legU n fun g =>
    { g with spentA := false, spentB := false, lp := false, relReq := false, forceP := false,
             force := if g.forceP then d1.f (.leg n .ctl) LEG_CTL.FORCE else g.force }
  let d3 := (if rel then d2.setB (.leg n .stat) LEG_STAT.FOFF false else d2).setF (.leg n .stat) LEG_STAT.UPDN 0
  let d4 := legReefEnd n (legAdapt n t d3)
  -- a forced on-state turns its switch on a dead-time after the first tick (R81)
  let d5 := if first then d4.setF (.leg n .stat) LEG_STAT.STATE 0 else d4
  let d6 := legSettle n t true d5
  let d7 :=
    if first || old ≠ 1 || legShown d6 n ≠ 1 then d6
    else
      let v := legLevel d6.leg[n]
      if waited then legPend n (swOf v) t (legDark n t (d6.legU n fun g => { g with cmd := v, wait := false }))
      -- a full on-time begins, or has lasted for its whole period and ends with it (R94, log entry 155)
      else if d6.leg[n].full || wasFull then legCmd n v t d6
      else d6
  legDeferred n t d7

/-- The leg's timebase stops at instant `t` (R58, R81): both outputs off, waiting changes take effect.  At a loss of the PLL too a leg
in HELD, EVENT_OFF or a forced state keeps it (DEDUCED, log entry 156). -/
def legTbStop (n : Fin 96) (t : Nat) (d0 : Dev) : Dev :=
  let l := d0.leg[n].defer
  let d := (legBothOff n t (legCatch n t d0)).each l (legPut n)
  let d := d.legU n fun g => { g with defer := [] }
  let rel := d.leg[n].relReq
  let d1 := d.legU n fun g =>
    { g with run := d.b (.leg n .ctl) LEG_CTL.RUN, relReq := false, forceP := false, wait := false, lp := false,
             force := if g.forceP then d.f (.leg n .ctl) LEG_CTL.FORCE else g.force, trH := {}, trL := {} }
  let d2 := if rel then d1.setB (.leg n .stat) LEG_STAT.FOFF false else d1
  let d3 := legReefEnd n (if d2.leg[n].dtWr then legDtLoad n d2 else d2)
  d3.setF (.leg n .stat) LEG_STAT.STATE (legState d3 n)

/-- A leg is reefed by class c (R224). -/
def legReef (n : Fin 96) (c : Nat) (d : Dev) : Dev :=
  (d.legU n fun g => { g with reef := g.reef ||| 2 ^ c, reefX := g.reefX &&& (g.reefX ^^^ 2 ^ c) }).flag (.shl n .hold) SHL_HOLD.REEFED

/-- The reef of class c ends at the leg's next period start, or at once while its timebase is stopped (R227). -/
def legUnreef (n : Fin 96) (c : Nat) (d : Dev) : Dev :=
  let d1 := d.legU n fun g => { g with reefX := g.reefX ||| (g.reef &&& 2 ^ c) }
  if d.tbRun (d.legTb n) then d1 else legReefEnd n d1

/-- A leg enters HELD with hold bit c (R224, R237). -/
def legHold (n : Fin 96) (c : Nat) (d : Dev) : Dev := legRefresh n (legHoldBit n c d)

/-- A task forces the leg off (R85). -/
def legForceOff (n : Fin 96) (d : Dev) : Dev :=
  legRefresh n ((d.flag (.leg n .stat) LEG_STAT.FOFF).legU n fun g => { g with relReq := false })

/-- A write of 1 to FOFF (R85, R81). -/
def legRelease (n : Fin 96) (d : Dev) : Dev :=
  if d.b (.leg n .stat) LEG_STAT.FOFF then
    if d.tbRun (d.legTb n) then d.legU n fun g => { g with relReq := true }
    else legRefresh n ((d.setB (.leg n .stat) LEG_STAT.FOFF false).legU n fun g => { g with relReq := false })
  else d

/-- A change of RUN takes effect: at the next period start (R78), at once while the timebase is stopped (R81). -/
def legRunSet (n : Fin 96) (v : Bool) (d : Dev) : Dev :=
  let d1 := d.setB (.leg n .ctl) LEG_CTL.RUN v
  if d.tbRun (d.legTb n) then d1 else legRefresh n (d1.legU n fun g => { g with run := v })

/-- The three compares a commit may set. -/
def legCmpReg : LegCmp → LegReg
  | .cmpa => .cmpa
  | .cmpb => .cmpb
  | .phase => .phase

/-- A loop engine owns the register (R76). -/
def legOwned (d : Dev) (n : Fin 96) (c : LegCmp) : Bool :=
  let o := d.f (.leg n .stat) LEG_STAT.LEOWN
  match c with
  | .cmpa => bitN o 0
  | .cmpb => bitN o 1
  | .phase => bitN o 2

/-- A register-path write of CMPA, CMPB or PHASE (R77, R79). -/
def legWriteCmp (n : Fin 96) (c : LegCmp) (v : Word) (d : Dev) : Dev :=
  if legOwned d n c then d.flag (.leg n .stat) LEG_STAT.OWNED_WR
  else if d.b (.leg n .ctl) LEG_CTL.STAGE then
    match c with
    | .cmpa => d.legU n fun g => { g with stA := some v }
    | .cmpb => d.legU n fun g => { g with stB := some v }
    | .phase => d.legU n fun g => { g with stPh := some v }
  else legCommit n [(legCmpReg c, v)] d

/-- A staged value, if there is one. -/
def legStaged (r : LegReg) (v : Option Word) : LegVals := (v.map fun v => (r, v)).toList

/-- LEGCOMMIT for one leg (R77, R79): staged values are committed together; with nothing staged it does nothing. -/
def legCommitStaged (n : Fin 96) (d : Dev) : Dev :=
  let g := d.leg[n]
  if g.stA.isNone && g.stB.isNone && g.stPh.isNone && g.stRun.isNone then d
  else
    let d0 := d.legU n fun g => { g with stA := none, stB := none, stPh := none, stRun := none }
    let d1 := legCommit n (legStaged .cmpa g.stA ++ legStaged .cmpb g.stB ++ legStaged .phase g.stPh) d0
    match g.stRun with
    | some v => legRunSet n v d1
    | none => d1

/-- Write of LEGn_CTL (R70, R77, R78, R84).  Clearing STAGE over staged values leaves open what becomes of them. -/
def legWriteCtl (n : Fin 96) (v : Word) (d : Dev) : Dev :=
  let old := d.get (.leg n .ctl)
  let off := decide (legShown d n = 0)
  let keep (f : Fld) (w : Word) : Word := f.put (f.get old) w
  let differs (f : Fld) : Bool := f.get v != f.get old
  let guard := !off && (differs LEG_CTL.TB || differs LEG_CTL.POLH || differs LEG_CTL.POLL || differs LEG_CTL.PROF)
  let v1 := if off then v else keep LEG_CTL.TB (keep LEG_CTL.POLH (keep LEG_CTL.POLL (keep LEG_CTL.PROF v)))
  let stage := LEG_CTL.STAGE.bit v1
  let runNew := LEG_CTL.RUN.bit v1
  let runOld := LEG_CTL.RUN.bit old
  let d1 := (d.wr (.leg n .ctl) (keep LEG_CTL.RUN v1)).flagIf guard (.leg n .stat) LEG_STAT.CFG_REJ
  -- a leg moved to another timebase has no edge fixed there; it enters RUN there at a period start (R469, R86), and what
  -- waited for a period start takes effect at once when the new timebase is stopped (R81)
  let on := d1.tbRun (d1.legTb n)
  let d1 := if LEG_CTL.TB.get v1 != LEG_CTL.TB.get old then
      d1.legU n fun g => { g with lp := false, run := !on && runOld, forceP := on && g.forceP,
                                  force := if !on && g.forceP then LEG_CTL.FORCE.get old else g.force }
    else d1
  -- a change of PROF brings the programmed dead-times into use (R91, R94)
  let d1 := if LEG_CTL.PROF.bit v1 == LEG_CTL.PROF.bit old then d1
    else if on then d1.legU n fun g => { g with dtWr := true } else legDtLoad n d1
  -- a waiting write of LEGn_DT takes effect on a stopped timebase (R81)
  let d1 := if !on && d1.leg[n].dtWr then legDtLoad n d1 else d1
  -- clearing STAGE over staged values: committed, discarded or kept (undefined)
  let g := d.leg[n]
  let held := g.stA.isSome || g.stB.isSome || g.stPh.isSome || g.stRun.isSome
  let d2 := if LEG_CTL.STAGE.bit old && !stage && held then
      let c := (Config.freeValue d1.free).toNat % 3
      let x := d1.bumpFree
      if c = 0 then legCommitStaged n x
      else if c = 1 then x.legU n fun g => { g with stA := none, stB := none, stPh := none, stRun := none }
      else x
    else d1
  let d3 := if stage then (if runNew != runOld then d2.legU n fun g => { g with stRun := some runNew } else d2)
    else if runNew != runOld then legRunSet n runNew d2 else d2
  if LEG_CTL.FORCE.get v1 != LEG_CTL.FORCE.get old then
    if LEG_CTL.FSYNC.bit v1 && d3.tbRun (d3.legTb n) then d3.legU n fun g => { g with forceP := true }
    else legRefresh n (d3.legU n fun g => { g with force := LEG_CTL.FORCE.get v1, forceP := false })
  else legRefresh n d3

/-- Write of LEGn_DT (R78, R81, R91). -/
def legWriteDt (n : Fin 96) (v : Word) (d : Dev) : Dev :=
  let d1 := d.wr (.leg n .dt) v
  if d.tbRun (d.legTb n) then d1.legU n fun g => { g with dtWr := true } else legDtLoad n d1

/-- Write of LEGn_ADT (R91).  DESIGN CHOICE (log entry 157): where EN is cleared while the timebase runs, DTACT takes the programmed
dead-times at the next period start. -/
def legWriteAdt (n : Fin 96) (v : Word) (d : Dev) : Dev :=
  let old := d.get (.leg n .adt)
  let d1 := d.wr (.leg n .adt) v
  let was := LEG_ADT.EN.bit old
  let on := LEG_ADT.EN.bit v
  let moved := was && on && (LEG_ADT.CMPSEL.get old != LEG_ADT.CMPSEL.get v || LEG_ADT.CPOL.bit old != LEG_ADT.CPOL.bit v)
  let d2 := d1.legU n fun g => { g with adtOn := on, adtUn := g.adtUn || moved, trH := if was then g.trH else {}, trL := if was then g.trL else {} }
  if was && !on then (if d.tbRun (d.legTb n) then d2.legU n fun g => { g with dtWr := true } else legDtLoad n d2) else d2

/-- Write of LEGn_STAT: flags clear; a 1 to FOFF requests release instead of clearing it (R85). -/
def legWriteStat (n : Fin 96) (v : Word) (d : Dev) : Dev :=
  let d1 := d.wr (.leg n .stat) (LEG_STAT.FOFF.put 0 v)
  if LEG_STAT.FOFF.bit v then legRelease n d1 else d1

/-- Write of a leg register. -/
def legWrite (n : Fin 96) (r : LegReg) (v : Word) (d : Dev) : Dev :=
  match r with
  | .ctl => legWriteCtl n v d
  | .cmpa => legWriteCmp n .cmpa v d
  | .cmpb => legWriteCmp n .cmpb v d
  | .phase => legWriteCmp n .phase v d
  | .dt => legWriteDt n v d
  | .adt => legWriteAdt n v d
  | .stat => legWriteStat n v d
  | r => d.wr (.leg n r) v

end Sys2Proof.Machine
end

