-- ==== Sys2Proof/Machine/Timebase.lean ====
section
/-!
DEFINITION. Timebases (R52-R65, R92): start and stop, period starts and load points, followers, chain discipline and event
compares.
-/
namespace Sys2Proof.Machine
open Sys2Proof

def tbMode (d : Dev) (b : Fin 32) : Nat := d.f (.tb b .ctl) TB_CTL.SYNCSRC
def tbLeader (d : Dev) (b : Fin 32) : Fin 32 := Fin.ofNat 32 (d.f (.tb b .ctl) TB_CTL.LEADER)

/-- LEADER names the timebase itself or another follower: the alignment is undefined. -/
def tbLeadOdd (d : Dev) (b : Fin 32) : Bool := decide (tbLeader d b = b) || tbMode d (tbLeader d b) == 1

/-- The PLL of a timebase is locked. -/
def tbPll (d : Dev) (b : Fin 32) : Bool := if tbB d b then d.sys.pllB else d.sys.pllA

/-- The period of TBn_PERIOD, clamped (R52). -/
def tbClamp (d : Dev) (b : Fin 32) : Nat := clampN 320 160000 (d.f (.tb b .period) TB_PERIOD.PERIOD)

/-- First aligned instant of a follower strictly after `t` (R61), with the leader's period it belongs to, in ticks. -/
def tbAligned (d : Dev) (b : Fin 32) (t : Nat) : Nat × Nat :=
  let l := tbLeader d b
  let s := d.tb[l]
  let off := d.f (.tb b .offset) TB_OFFSET.COARSE
  let p := d.f (.tb l .pact) TB_PACT.P
  let a0 := tickUp (tbB d b) (s.start + off % max 1 p * tuTick)
  if t < a0 then (a0, p)
  else
    let p1 := if s.loaded then s.nxtP else p
    (tickUp (tbB d b) (s.start + s.len * tuTick + off % max 1 p1 * tuTick), p1)

/-- Instant of the next period start. -/
def tbDue (d : Dev) (b : Fin 32) : Nat :=
  if tbMode d b = 1 && !tbLeadOdd d b then (tbAligned d b d.tb[b].start).1
  else d.tb[b].start + d.tb[b].len * tuTick

/-- The error line of class CLOCK (R64). -/
def tbLine (b : Fin 32) (d : Dev) : Dev :=
  d.line (96 + b.val) (d.tbRun b && tbMode d b == 2 && !(d.b (.tb b .stat) TB_STAT.LOCKED) && d.tb[b].locked1)

/-- The load point (R56, R72): the next period, and the edges and RUN of its legs, are fixed. -/
def tbLoad (b : Fin 32) (d : Dev) : Dev :=
  let s := d.tb[b]
  if !d.tbRun b || s.loaded then d
  else if tbMode d b = 1 then
    if tbLeadOdd d b then
      let p := clampN 320 160000 (Config.freeValue d.free).toNat
      (d.bumpFree.tbU b fun s => { s with nxtP := p, loaded := true }).each (d.legsOn b) (fun n => legLoad n b)
    else
      let (t, p) := tbAligned d b s.start
      (d.tbU b fun s => { s with nxtP := p, len := (t - s.start) / tuTick, loaded := true }).each (d.legsOn b) (fun n => legLoad n b)
  else
    let p := tbClamp d b
    let d1 := d.flagIf (p != d.f (.tb b .period) TB_PERIOD.PERIOD) (.tb b .stat) TB_STAT.PCLAMP
    (d1.tbU b fun s => { s with nxtP := p, loaded := true }).each (d.legsOn b) (fun n => legLoad n b)

/-- Phase discipline of a chain-mode timebase at a period start on tick `t` (R63-R65): PHERR, the next correction, the whole
tick it may carry into this period, and the lock. -/
def tbDiscipline (b : Fin 32) (t : Nat) (d : Dev) : Dev :=
  if tbMode d b ≠ 2 then d
  else if !d.ctv then d.flag (.tb b .stat) TB_STAT.HOLDOVER
  else
    let p := d.f (.tb b .pact) TB_PACT.P
    let m : Int := ((24 * p : Nat) : Int)
    let s := d.tb[b]
    let e := (d.devTime t + s.corr - fineVal (d.get (.tb b .offset))) % m
    let err : Int := if m < 2 * e then e - m else e
    let slew : Int := (d.f (.tb b .sync) TB_SYNC.SLEW : Int)
    let step := clampI (-slew) slew (-err)
    let c := s.corr + step
    let (c', len) : Int × Nat := if 24 < c then (c - 24, p + 1) else if c < -24 then (c + 24, p - 1) else (c, p)
    let within := decide (absI err ≤ (d.f (.tb b .sync) TB_SYNC.LOCKWIN : Int))
    let locked := d.b (.tb b .stat) TB_STAT.LOCKED
    let good := if within then min 16 (s.good + 1) else 0
    let lockNow := if locked then within else decide (16 ≤ good)
    let d1 := (d.setB (.tb b .stat) TB_STAT.HOLDOVER false).setF (.tb b .pherr) TB_PHERR.ERR
      ((clampI (-32767) 32767 err % 65536).toNat)
    let d2 := (d1.flagIf (step != -err) (.tb b .stat) TB_STAT.SLEWSAT).flagIf (locked && !within) (.tb b .stat) TB_STAT.UNLOCK
    tbLine b ((d2.setB (.tb b .stat) TB_STAT.LOCKED lockNow).tbU b fun s =>
      { s with corrN := c', len := len, good := good, locked1 := s.locked1 || lockNow })

/-- The events of a period start: PSTART and producer n (R92, R185). -/
def tbStartEvent (b : Fin 32) (d : Dev) : Dev := (d.flag (.tb b .stat) TB_STAT.PSTART).raise b.val

/-- The counter starts at 0 on tick `t` with a period of `p` ticks (R57, R61, R62, R81). -/
def tbGo (b : Fin 32) (t p : Nat) (d : Dev) : Dev :=
  let d0 := d.at t
  let d1 := ((d0.flag (.tb b .stat) TB_STAT.RUNNING).setB (.tb b .stat) TB_STAT.WAIT_SYNC false).setF (.tb b .pact) TB_PACT.P p
  let d2 := d1.tbU b fun _ => { start := t, prev := t, startTs := d0.stamp t, prevTs := d0.stamp t, len := p, nxtP := p, period := 1 }
  let d3 := tbDiscipline b t (tbStartEvent b d2)
  let d4 := d3.each (d3.legsOn b) (fun n => legPeriod n b t true)
  posPathAll b (cmpPathAll b d4)

/-- The start takes effect (R57, R61, R62): a local timebase runs from the capturing tick, the others wait for their
reference, and every one waits for the lock of its PLL (R350). -/
def tbArm (b : Fin 32) (d : Dev) : Dev :=
  if !tbPll d b then d.tbU b fun s => { s with arm := .pll }
  else match tbMode d b with
  | 1 =>
    let d1 := d.tbU b fun s => { s with arm := .sync d.now }
    d1.setB (.tb b .stat) TB_STAT.WAIT_SYNC (!(d.tbRun (tbLeader d b)))
  | 2 => (d.tbU b fun s => { s with arm := .sync d.now }).setB (.tb b .stat) TB_STAT.WAIT_SYNC (!d.ctv)
  | _ =>
    let p := tbClamp d b
    tbGo b (tickUp (tbB d b) d.now) p (d.flagIf (p != d.f (.tb b .period) TB_PERIOD.PERIOD) (.tb b .stat) TB_STAT.PCLAMP)

/-- EN has been written from 0 to 1 (R57, R58): a waiting stop is cancelled, a start channel is awaited, or the start takes
effect. -/
def tbStart (b : Fin 32) (d : Dev) : Dev :=
  if d.tbRun b then d.tbU b fun s => { s with stopRq := false }
  else if d.b (.tb b .ctl) TB_CTL.STEN then d.tbU b fun s => { s with arm := .task }
  else tbArm b d

/-- The counter stops on tick `t` (R58, R64). -/
def tbHalt (b : Fin 32) (t : Nat) (d : Dev) : Dev :=
  if !d.tbRun b then d
  else
    let s := d.tb[b]
    let d1 := d.each (d.legsOn b) (fun n => legTbStop n t)
    let d2 := ((d1.setB (.tb b .stat) TB_STAT.RUNNING false).setB (.tb b .stat) TB_STAT.LOCKED false).setB (.tb b .stat) TB_STAT.HOLDOVER false
    let d3 := d2.setF (.tb b .count) TB_COUNT.COUNT (min ((t - s.start) / tuTick) (s.len - 1))
    let d4 := (d3.tbU b fun s => { start := s.start, prev := s.prev, startTs := s.startTs, prevTs := s.prevTs, len := s.len, nxtP := s.nxtP }).each (d3.legsOn b)
      (fun n d => d.setF (.leg n .stat) LEG_STAT.STATE (legState d n))
    tbLine b (posPathAll b (cmpPathAll b (adcTbStopAll b d4)))

/-- Followers that run on a leader's periods. -/
def tbFollowers (d : Dev) (l : Fin 32) : List (Fin 32) :=
  (fins 32).filter fun b => b ≠ l ∧ tbMode d b = 1 ∧ tbLeader d b = l ∧ d.tbRun b = true

/-- A follower, or a chain-mode timebase, that has been started and waits for its alignment. -/
def tbSyncing (a : TbArm) : Bool :=
  match a with
  | .sync _ => true
  | _ => false

/-- A timebase stops, and its running followers with it: they keep EN and wait again (R58, R61). -/
def tbStopAt (b : Fin 32) (t : Nat) (d : Dev) : Dev :=
  let fs := tbFollowers d b
  let x := (tbHalt b t d).each fs fun f d =>
    ((tbHalt f t d).tbU f fun s => { s with arm := if d.b (.tb f .ctl) TB_CTL.EN then .sync t else .no }).setB
      (.tb f .stat) TB_STAT.WAIT_SYNC (d.b (.tb f .ctl) TB_CTL.EN)
  -- a follower that had not reached its first period waits for the leader's next start
  x.each ((fins 32).filter fun f => f ≠ b ∧ tbMode d f = 1 ∧ tbLeader d f = b ∧ tbSyncing d.tb[f].arm = true)
    fun f d => d.flag (.tb f .stat) TB_STAT.WAIT_SYNC

/-- EN has been written to 0, or the timebase's bit in TBGSTOP (R58). -/
def tbStop (b : Fin 32) (d : Dev) : Dev :=
  if d.tbRun b then
    if d.b (.tb b .ctl) TB_CTL.STOPMODE then
      let t := tickUp (tbB d b) d.now
      tbStopAt b t (d.at t)
    else d.tbU b fun s => { s with stopRq := true }
  else (d.tbU b fun s => { s with arm := .no }).setB (.tb b .stat) TB_STAT.WAIT_SYNC false

/-- A period starts (R52, R58, R61, R63, R72).  DESIGN CHOICE (log entry 158): in holdover the length that is kept is P ticks, without the
whole tick that a carry of the correction gave the period before (R65). -/
def tbPeriod (b : Fin 32) (d : Dev) : Dev :=
  if !d.tbRun b then d
  else
    let d0 := tbLoad b d
    let s := d0.tb[b]
    let t := tbDue d0 b
    let d1 := d0.at t
    if s.stopRq then tbStopAt b t d1
    else
      let free := Config.freeValue d1.free
      let p := if s.undef then clampN 320 160000 free.toNat else s.nxtP
      let c : Int := if s.undef then (free.toNat % 49 : Nat) - 24 else s.corrN
      let d2 := (if s.undef then d1.bumpFree else d1).setF (.tb b .pact) TB_PACT.P p
      let d3 := d2.tbU b fun s =>
        { s with prev := s.start, start := t, prevTs := s.startTs, startTs := d1.stamp t, len := p, period := s.period + 1, loaded := false, corr := c, corrN := c,
                 evDone := Vector.replicate 4 false }
      let d4 := tbDiscipline b t (tbStartEvent b d3)
      d4.each (d4.legsOn b) (fun n => legPeriod n b t false)

/-- A follower waiting for its leader starts at the aligned instant of the leader's period (R61). -/
def tbFollow (b : Fin 32) (d : Dev) : Dev :=
  match d.tb[b].arm with
  | .sync since =>
    if tbMode d b = 1 && !d.tbRun b && d.b (.tb b .ctl) TB_CTL.EN then
      if tbLeadOdd d b then
        let f := (Config.freeValue d.free).toNat
        let p := clampN 320 160000 (f / 2 ^ 16)
        tbGo b (tickUp (tbB d b) (d.now + f % 2 ^ 16 * tuTick)) p d.bumpFree
      else if d.tbRun (tbLeader d b) then
        let (t, p) := tbAligned d b (since - 1)
        tbGo b t p d
      else d
    else d
  | _ => d

/-- The smallest of the n = 0 to 2^k - 1, counted on from `lo`, at which chain time, n ticks after `t`, has reached `goal`. -/
def tbReach (d : Dev) (t : Nat) (goal : Int) (lo : Nat) : Nat → Nat
  | 0 => lo
  | k + 1 =>
    if goal ≤ d.devTime (t + (lo + 2 ^ k - 1) * tuTick) then tbReach d t goal lo k else tbReach d t goal (lo + 2 ^ k) k

/-- First tick of a chain-mode timebase at or after the first required period start that follows an instant (R62), on the time line in
force with its rate and phase corrections (R384). -/
def tbRequired (d : Dev) (b : Fin 32) (t : Nat) : Nat :=
  let m : Int := ((24 * tbClamp d b : Nat) : Int)
  let now := d.devTime t
  let goal := now + (fineVal (d.get (.tb b .offset)) - now) % m
  let t0 := tickUp (tbB d b) t
  t0 + tbReach d t0 goal 0 18 * tuTick

/-- A chain-mode timebase waiting for chain time starts (R62). -/
def tbChainStart (b : Fin 32) (d : Dev) : Dev :=
  match d.tb[b].arm with
  | .sync _ =>
    if tbMode d b = 2 && !d.tbRun b && d.ctv && d.b (.tb b .ctl) TB_CTL.EN then
      let p := tbClamp d b
      tbGo b (tbRequired d b d.now) p (d.flagIf (p != d.f (.tb b .period) TB_PERIOD.PERIOD) (.tb b .stat) TB_STAT.PCLAMP)
    else d
  | _ => d

/-- A task of a channel starts the timebases that wait for it (R57). -/
def tbTask (ch : Nat) (d : Dev) : Dev :=
  d.each ((fins 32).filter fun b => d.tb[b].arm = .task ∧ d.b (.tb b .ctl) TB_CTL.STEN = true ∧
      d.f (.tb b .ctl) TB_CTL.STCH = ch)
    fun b x => (x.tbU b fun s => { s with arm := .no }).asOf d.now (tbArm b)

/-- Tick of the match of an event compare in the current period (R92). -/
def tbEvTick (d : Dev) (b : Fin 32) (k : Fin 4) : Nat :=
  let s := d.tb[b]
  let m : Int := ((24 * d.f (.tb b .pact) TB_PACT.P : Nat) : Int)
  let e := ((fineVal (d.get (.tb b (.evcmp k))) : Int) + tbVoff d b s.corr) % (max 1 m)
  s.start + e.toNat / 24 * tuTick

/-- An event compare matches: its event, EVF and the direct triggers (R92, R105, R172). -/
def tbEvcmp (b : Fin 32) (k : Fin 4) (d : Dev) : Dev :=
  if d.tbRun b && TB_EVCMP.EN.bit (d.get (.tb b (.evcmp k))) && !d.tb[b].evDone[k] then
    let t := tbEvTick d b k
    let d0 := (d.at t).tbU b fun s => { s with evDone := s.evDone.set k true, evAt := s.evAt.set k (some t) }
    -- a compare that has matched on this tick has made the trigger of a consumer that selects both
    let new (mask : Nat) : Bool := bitN mask k.val && (fins 4).all fun j => j == k || !bitN mask j.val || d.tb[b].evAt[j] != some t
    let d1 := (d0.setF (.tb b .stat) TB_STAT.EVF (d0.f (.tb b .stat) TB_STAT.EVF ||| 2 ^ k.val)).raise (32 + 32 * k.val + b.val)
    let d2 := d1.each ((fins 32).filter fun n => d.b (.adc n .trig) ADC_TRIG.TSRC && adcTb d n == b &&
        new (d.f (.adc n .trig) ADC_TRIG.EVMASK)) (fun n => adcTrigger n t)
    d2.each ((fins 8).filter fun n => d.b (.pos n .trig) POS_TRIG.TSRC && posTb d n == b &&
        new (d.f (.pos n .trig) POS_TRIG.EVMASK)) (fun n => posTrigger n t)
  else d

/-- Write of TBn_EVCMPk (R92): a match before the capturing tick is lost for the current period.  DEDUCED (log entry 159): once a write
has lost it, no later write of that period brings it back. -/
def tbWriteEvcmp (b : Fin 32) (k : Fin 4) (v : Word) (d : Dev) : Dev :=
  let tc := tickUp (tbB d b) d.now
  let was := TB_EVCMP.EN.bit (d.get (.tb b (.evcmp k))) && decide (tbEvTick d b k = tc) && !d.tb[b].evDone[k]
  let d1 := d.wr (.tb b (.evcmp k)) v
  if !d.tbRun b then d1
  else if was then
    -- a write in the tick of the match: the event comes at the old instant, the new one or not at all (undefined)
    let c := (Config.freeValue d.free).toNat % 3
    if c = 0 then (tbEvcmp b k d.bumpFree).wr (.tb b (.evcmp k)) v
    else if c = 1 then d1.bumpFree
    else d1.bumpFree.tbU b fun s => { s with evDone := s.evDone.set k true }
  else if tbEvTick d1 b k < tc then d1.tbU b fun s => { s with evDone := s.evDone.set k true }
  else d1

/-- Write of TBn_CTL (R57, R58, R60). -/
def tbWriteCtl (b : Fin 32) (v : Word) (d : Dev) : Dev :=
  let old := d.get (.tb b .ctl)
  let en := TB_CTL.EN.bit old
  let keep (f : Fld) (w : Word) : Word := f.put (f.get old) w
  let differs (f : Fld) : Bool := f.get v != f.get old
  let guard := en && (differs TB_CTL.PLLSEL || differs TB_CTL.SYNCSRC || differs TB_CTL.LEADER)
  let v1 := if en then keep TB_CTL.PLLSEL (keep TB_CTL.SYNCSRC (keep TB_CTL.LEADER v)) else v
  let v2 := if TB_CTL.SYNCSRC.get v1 = 3 then keep TB_CTL.SYNCSRC v1 else v1
  let d1 := (d.wr (.tb b .ctl) v2).flagIf guard (.tb b .stat) TB_STAT.CFG_REJ
  if TB_CTL.EN.bit v2 && !en then tbStart b d1
  -- EN = 0 written again while a stop waits for the period start: STOPMODE may make it stop at once (R58)
  else if (en || d.tbRun b) && !TB_CTL.EN.bit v2 then tbStop b d1 else d1

/-- A value for TBn_PERIOD is captured (R56): on a timebase that runs in chain mode its period and phase become undefined. -/
def tbPeriodSet (b : Fin 32) (v : Word) (d : Dev) : Dev :=
  let d1 := d.wr (.tb b .period) v
  if d.tbRun b && tbMode d b == 2 then d1.tbU b fun s => { s with undef := true } else d1

/-- Write of TBn_PERIOD (R76). -/
def tbWritePeriod (b : Fin 32) (v : Word) (d : Dev) : Dev :=
  if d.b (.tb b .stat) TB_STAT.LEOWN then d.flag (.tb b .stat) TB_STAT.CFG_REJ else tbPeriodSet b v d

/-- Write of a timebase register. -/
def tbWrite (b : Fin 32) (r : TbReg) (v : Word) (d : Dev) : Dev :=
  match r with
  | .ctl => tbWriteCtl b v d
  | .period => tbWritePeriod b v d
  | .evcmp k => tbWriteEvcmp b k v d
  | r => d.wr (.tb b r) v

/-- Bits of TBGSTART and TBGSTOP (R57, R58). -/
def tbGstart (mask : Nat) (d : Dev) : Dev :=
  d.each (finsIn 32 mask) fun b x =>
    if x.b (.tb b .ctl) TB_CTL.EN then x else (x.setB (.tb b .ctl) TB_CTL.EN true).asOf d.now (tbStart b)
def tbGstop (mask : Nat) (d : Dev) : Dev :=
  d.each (finsIn 32 mask) fun b x =>
    if x.b (.tb b .ctl) TB_CTL.EN || x.tbRun b then (x.setB (.tb b .ctl) TB_CTL.EN false).asOf d.now (tbStop b) else x

/-- Write of a shared register of the block (R57, R58, R77). -/
def tbgWrite (r : TbgReg) (v : Word) (d : Dev) : Dev :=
  match r with
  | .tbgstart => tbGstart v.toNat d
  | .tbgstop => tbGstop v.toNat d
  | .tbrun => d
  | .legcommit k => d.each ((fins 96).filter fun n => n.val / 32 = k.val ∧ v.getLsbD (n.val % 32) = true) legCommitStaged

/-- A PLL loses lock: its running timebases stop with their legs off at once (R59, R61).  The leaders go first, so that a follower
whose leader stops with it waits for the leader's next start. -/
def tbPllLoss (pllB : Bool) (d : Dev) : Dev :=
  let l := (fins 32).filter fun b => tbB d b = pllB ∧ d.tbRun b = true
  let one (b : Fin 32) (d : Dev) : Dev :=
    let d1 := (d.flag (.tb b .stat) TB_STAT.PLL_LOSS).pulse (96 + b.val)
    tbStopAt b d1.now d1
  (d.each (l.filter fun b => tbMode d b != 1) one).each (l.filter fun b => tbMode d b == 1) one

/-- A PLL has locked: the timebases that waited for it start (R350). -/
def tbPllLock (pllB : Bool) (d : Dev) : Dev :=
  d.each ((fins 32).filter fun b => tbB d b = pllB ∧ d.tb[b].arm = .pll)
    fun b d => tbArm b (d.tbU b fun s => { s with arm := .no })

end Sys2Proof.Machine
end

