-- ==== Sys2Proof/Machine/LoopEngine.lean ====
section
/-!
DEFINITION. Loop engines (R124-R154): strobes and samples, the compensator, banks, destinations and commits, enabling, and
rotating-frame pairs.  Q2.30 values are integers in units of 2^-30.
-/
namespace Sys2Proof.Machine
open Sys2Proof

/-- Saturation to Q2.30, and whether it changed the value. -/
def qSat (x : Int) : Int × Bool :=
  let y := clampI (-(2 ^ 31)) (2 ^ 31 - 1) x
  (y, y != x)

/-- sat(rnd(gain × x + ofs)) of Q2.30 values (R125). -/
def qScale (gain x ofs : Int) : Int × Bool := qSat (rndAway (gain * x + ofs * 2 ^ 30) (2 ^ 30))

/-- Address of word k of engine n in loop engine memory (R153). -/
def leAddr (n : Fin 64) (off : Nat) : Nat := 0x30000000 + 0x100 * n.val + off

/-- The engine whose memory an address lies in, and its word there. -/
def lemEngine (a : Nat) : Fin 64 := Fin.ofNat 64 ((a - 0x30000000) / 256)
def lemOff (a : Nat) : Fin 64 := Fin.ofNat 64 (a % 256 / 4)

/-- An operand's raw value (R124): the register type reads its register, the others keep the latest strobed value.
DESIGN CHOICE (log entry 161): before its source's first strobe, and after its source register is changed, an operand keeps the value
of the latest strobe it took (0 at reset). -/
def leX (d : Dev) (n : Fin 64) (src reg : LeReg) (x : Word) : Word :=
  let w := d.get (.le n src)
  match LE_MSRC.TYPE.get w with
  | 0 => 0
  | 5 => d.get (.le n reg)
  | 6 => 0
  | 7 => 0
  | 3 => if d.le[n].openPos then Config.freeValue d.free else x
  | _ => x

/-- The other engine of a pair, the pair, and whether the pair runs (R143). -/
def leMate (n : Fin 64) : Fin 64 := Fin.ofNat 64 (if n.val % 2 = 0 then n.val + 1 else n.val - 1)
def lePair (n : Fin 64) : Fin 32 := Fin.ofNat 32 (n.val / 2)
def leActive (d : Dev) (n : Fin 64) : Bool := d.b (.le n .stat) LE_STAT.ACTIVE
def lePaired (d : Dev) (n : Fin 64) : Bool := d.b (.lepr (lePair n) .ctl) LEPR_CTL.EN

/-- The slots of an engine: kind, leg, sign, offset. -/
structure LeSlot where
  kind : Nat
  leg  : Nat
  neg  : Bool
  ofs  : Int
  deriving DecidableEq, Repr

def leSlot (d : Dev) (n : Fin 64) (k : Fin 4) : LeSlot :=
  let w := d.get (.le n (.dst k))
  { kind := LE_DST.KIND.get w, leg := LE_DST.LEG.get w, neg := LE_DST.NEG.bit w, ofs := (d.get (.le n (.dofs k))).toInt }

def leSlots (d : Dev) (n : Fin 64) : List LeSlot := (fins 4).map (leSlot d n)

/-- Fields a slot names (R140). -/
def leSlotFields (d : Dev) (s : LeSlot) : List LeField :=
  if h : s.leg < 96 then
    let l : Fin 96 := ⟨s.leg, h⟩
    match s.kind with
    | 1 => [.cmpa l]
    | 2 => [.cmpb l]
    | 3 => [.phase l]
    | 4 => [.cmpa l, .cmpb l]
    | 5 => [.period (d.legTb l)]
    | _ => []
  else []

/-- The legs a slot drives: its leg, or none. -/
def leSlotLeg (s : LeSlot) : List (Fin 96) :=
  if h : s.leg < 96 then (if 1 ≤ s.kind ∧ s.kind ≤ 5 then [⟨s.leg, h⟩] else []) else []

/-- A field is owned by an enabled engine (R76). -/
def leFieldOwned (d : Dev) (f : LeField) : Bool :=
  match f with
  | .cmpa l => legOwned d l .cmpa
  | .cmpb l => legOwned d l .cmpb
  | .phase l => legOwned d l .phase
  | .period b => d.b (.tb b .stat) TB_STAT.LEOWN

/-- Take or release ownership of a field; a staged value of a register taken is discarded (R76, R79). -/
def leFieldSet (on : Bool) (f : LeField) (d : Dev) : Dev :=
  let leg (l : Fin 96) (i : Nat) (g : LegSt → LegSt) : Dev :=
    let o := d.f (.leg l .stat) LEG_STAT.LEOWN
    let o' := if on then o ||| 2 ^ i else o &&& (o ^^^ 2 ^ i)
    let d1 := d.setF (.leg l .stat) LEG_STAT.LEOWN o'
    if on then d1.legU l g else d1
  match f with
  | .cmpa l => leg l 0 fun g => { g with stA := none }
  | .cmpb l => leg l 1 fun g => { g with stB := none }
  | .phase l => leg l 2 fun g => { g with stPh := none }
  | .period b => d.setB (.tb b .stat) TB_STAT.LEOWN on

/-- No element occurs twice. -/
def noDup {α : Type} [DecidableEq α] : List α → Bool
  | [] => true
  | x :: t => !(t.contains x) && noDup t

/-- The even and the odd engine of a pair. -/
def leEven (n : Fin 64) : Fin 64 := Fin.ofNat 64 (n.val / 2 * 2)
def leOdd (n : Fin 64) : Fin 64 := Fin.ofNat 64 (n.val / 2 * 2 + 1)

/-- What a pair asks of both its engines' slots (R146). -/
def lePairOk (d : Dev) (n : Fin 64) : Bool :=
  (leSlots d (leOdd n)).all (fun s => s.kind == 0) && (leSlot d (leEven n) 3).kind == 0 &&
    (leSlots d (leEven n)).all (fun s => s.kind != 5)

/-- The checks of an enable (R140, R146). -/
def leEnableOk (d : Dev) (n : Fin 64) : Bool :=
  let ss := leSlots d n
  let fs := (ss.map (leSlotFields d)).flatten
  ss.all (fun s => decide (s.kind ≤ 5) && (s.kind == 0 || decide (s.leg ≤ 95))) && noDup fs && fs.all (fun f => !leFieldOwned d f) &&
    (!lePaired d n || lePairOk d n)

/-- LEn_CTL.EN goes from 0 to 1 (R140). -/
def leEnable (n : Fin 64) (d : Dev) : Dev :=
  if leEnableOk d n then
    let fs := ((leSlots d n).map (leSlotFields d)).flatten
    let d1 := (d.each fs (leFieldSet true)).flag (.le n .stat) LE_STAT.ACTIVE
    d1.leU n fun e => { e with inbound := [], count := 0, held := none, first := true, stall := none, satPrev := false, satRun := 0,
                               pairU := none, openPos := false, owns := fs, commits := [] }
  else (d.setB (.le n .ctl) LE_CTL.EN false).flag (.le n .stat) LE_STAT.ENREJ

/-- Banks are exchanged (R136). -/
def leExchange (n : Fin 64) (d : Dev) : Dev :=
  let d1 := d.setB (.le n .stat) LE_STAT.BANK (!(d.b (.le n .stat) LE_STAT.BANK))
  let d2 := ((d1.setB (.le n .stat) LE_STAT.SWPEND false).flag (.le n .stat) LE_STAT.SWDONE).bump (.le n .cnt) LE_CNT.SWAP_CNT
  d2.raiseIf (d.f (.le n .ctl) LE_CTL.EVSEL == 3) (288 + n.val)

/-- A swap request (R136, R137).  DEDUCED (log entry 199): the frame that R137 names is aborted also where the engine is disabled. -/
def leSwap (n : Fin 64) (d : Dev) : Dev :=
  let abort (d : Dev) : Dev := d.each ((fins 8).filter fun c => leUsesPos d n c.val) posAbort
  if d.b (.le n .ctl) LE_CTL.EN then
    if d.b (.le n .stat) LE_STAT.SWPEND then d.flag (.le n .stat) LE_STAT.SWDUP
    else abort (d.flag (.le n .stat) LE_STAT.SWPEND)
  else leExchange n (abort d)

/-- A task requests swaps (R136). -/
def leSwapTask (ch : Nat) (d : Dev) : Dev :=
  d.each ((fins 64).filter fun n => d.b (.le n .ctl) LE_CTL.SWEN && d.f (.le n .ctl) LE_CTL.SWCH == ch) leSwap

/-- A strobe arrives at engine n (R126, R127, R143): decimated, held, or replacing a held one. -/
def leArrive (n : Fin 64) (d : Dev) : Dev :=
  match d.le[n].inbound with
  | [] => d
  | x :: rest =>
    let d0 := d.leU n fun e => { e with inbound := rest }
    if !leActive d n || (lePaired d n && !leActive d (leMate n)) then d0
    else
      let e := d.le[n]
      let sel := e.count % (d.f (.le n .ctl) LE_CTL.DECIM + 1) == 0
      let d1 := d0.leU n fun e => { e with count := e.count + 1 }
      if !sel then d1
      else
        let d2 := if e.held.isSome then (d1.flag (.le n .stat) LE_STAT.MISS).bump (.le n .cnt) LE_CNT.MISS_CNT else d1
        d2.leU n fun e => { e with held := some x }

/-- Words of a bank, in order B0-B3, A1-A3, FFG, UMIN, UMAX. -/
def leBankOffs (bank : Bool) : List Nat := (List.range 10).map fun k => (if bank then 0x40 else 0) + 4 * k

/-- Offsets of E1-E3, Y1-Y3, REFF, SCNT. -/
def leStateOffs : List Nat := [0x80, 0x84, 0x88, 0x8C, 0x90, 0x94, 0x98, 0xA4]

/-- Read words of the engine's memory as a sample; whether any was uncorrectable (R315). -/
def leReadWords (n : Fin 64) : List Nat → Dev → List Int × Bool × Dev
  | [], d => ([], false, d)
  | o :: t, d =>
    let (r, d1) := memRead reqSample (leAddr n o) d
    let (l, b, d2) := leReadWords n t d1
    (r.data.toInt :: l, r.bad.isSome || b, d2)

/-- The output of a sample, clamped, with the raw sum's saturation (R129, R130). -/
structure LeCalc where
  u    : Int
  e    : Int
  reff : Int
  rt   : Int
  f    : Int
  /-- e1 e2 e3 y1 y2 y3 after the sample. -/
  hist : List Int
  satIn : Bool
  satAcc : Bool
  satOut : Bool
  deriving DecidableEq, Repr

def nthI (l : List Int) (k : Nat) : Int := l.getD k 0

/-- The compensator (R129-R133).  `b`: the bank; `h`: e1-e3, y1-y3, r_eff. -/
def leCompute (b h : List Int) (m rx fx rgain rofs ssrate manout : Int) (three ssen eneg auto first frozen : Bool) : LeCalc :=
  let (rt, s1) := qScale rgain rx rofs
  let (f, s2) := qScale (nthI b 7) fx 0
  let r0 := nthI h 6
  let reff := if auto && first then (if ssen then m else rt)
    else if ssen then r0 + clampI (-ssrate) ssrate (rt - r0) else rt
  let (e, s3) := qSat (if eneg then m - reff else reff - m)
  let umin := nthI b 8
  let umax := nthI b 9
  if !auto || first then
    let u := clampI umin umax manout
    let y := (qSat (u - f)).1
    { u := u, e := e, reff := reff, rt := rt, f := f, hist := [e, e, e, y, y, y], satIn := s1 || s2 || s3, satAcc := false,
      satOut := u != manout }
  else
    let b3 := if three then nthI b 3 else 0
    let a3 := if three then nthI b 6 else 0
    let sum := nthI b 0 * e + nthI b 1 * nthI h 0 + nthI b 2 * nthI h 1 + b3 * nthI h 2 + nthI b 4 * nthI h 3 +
      nthI b 5 * nthI h 4 + a3 * nthI h 5
    let (v, s4) := qSat (rndAway sum (2 ^ 30))
    let (w, s5) := qSat (v + f)
    let u := clampI umin umax w
    let y := (qSat (u - f)).1
    { u := u, e := e, reff := reff, rt := rt, f := f,
      hist := if frozen then h.take 6 else [e, nthI h 0, nthI h 1, y, nthI h 3, nthI h 4],
      satIn := s1 || s2 || s3, satAcc := s4 || s5, satOut := u != w }

/-- Fine units of a mapped output, and whether OMIN or OMAX changed it (R138).  `num / den` is the output. -/
def leMap (d : Dev) (n : Fin 64) (num : Int) (den : Nat) : Int × Bool :=
  let x := (d.get (.le n .obase)).toInt + rndAway (num * (d.get (.le n .ospan)).toInt) den
  let y := clampI (d.f (.le n .omin) LE_OMIN.VALUE) (d.f (.le n .omax) LE_OMAX.VALUE) x
  (y, y != x)

/-- A compare register holding v fine units (R138). -/
def fineWord (v : Nat) : Nat := v / 24 * 32 + v % 24

/-- The values a slot writes for d fine units (R138).  DESIGN CHOICE (log entry 200): P is the period in effect when the values are formed. -/
def leSlotValues (d : Dev) (n : Fin 64) (s : LeSlot) (x : Int) : List (LeField × Nat) :=
  if h : s.leg < 96 then
    let l : Fin 96 := ⟨s.leg, h⟩
    let m : Int := max 1 ((24 * d.f (.tb (d.legTb l) .pact) TB_PACT.P : Nat) : Int)
    let ds := x + s.ofs
    let v := (ds % m).toNat
    match s.kind with
    | 1 => [(.cmpa l, fineWord v)]
    | 2 => [(.cmpb l, fineWord v)]
    | 3 => [(.phase l, fineWord v)]
    | 4 =>
      let w := clampI 0 (m - 1) ds
      let a := ((d.f (.le n .centre) LE_CENTRE.VALUE : Int) - w / 2) % m
      [(.cmpa l, fineWord a.toNat), (.cmpb l, fineWord (((a + w) % m).toNat))]
    | 5 => [(.period (d.legTb l), (max 0 (rndAway ds 24)).toNat)]
    | _ => []
  else []

/-- A commit of engine n is formed; it is presented once no earlier one waits for its capture (R39, R139, R147 step 7). -/
def lePresent (n : Fin 64) (c : LeCommit) (d : Dev) : Dev :=
  (d.leU n fun e => { e with commits := e.commits ++ [c] }).raiseIf (c.ev && d.le[n].commits.isEmpty) (288 + n.val)

/-- The legs of some slots, in rising order without repeats: one commit for each (R139). -/
def leRising (ss : List LeSlot) : List (Fin 96) := (fins 96).filter fun l => ss.any fun s => (leSlotLeg s).contains l

/-- Values of a single engine's slots for output u (R138). -/
def leCommitSingle (n : Fin 64) (u : Int) (scnt : Word) (tags : Nat) (d : Dev) : Dev :=
  let one (s : LeSlot) : List (LeField × Nat) × Bool :=
    if s.kind = 0 then ([], false)
    else
      let (x, c) := leMap d n (if s.neg then -u else u) (2 ^ 30)
      (leSlotValues d n s x, c)
  let l := (leSlots d n).map one
  lePresent n { vals := (l.map (·.1)).flatten, legs := leRising (leSlots d n), u := wInt u, scnt := scnt,
                ev := d.f (.le n .ctl) LE_CTL.EVSEL == 0, tags := tags, tagsO := 0 }
    (d.flagIf (l.any (·.2)) (.le n .stat) LE_STAT.SAT_MAP)

/-- Sine of k/65,536 of a turn for a first-quadrant angle, in units of 2^-30: the series of x in units of 2^-40. -/
def sinQuad (k : Nat) : Int :=
  -- pi / 32768 = 105414357.85 units of 2^-40
  let x : Int := ((k * 10541435785 : Nat) : Int) / 100
  let x2 := x * x / 2 ^ 40
  let t (c : Int) (y : Int) : Int := 2 ^ 40 - x2 * y / 2 ^ 40 / c
  let s := t 6 (t 20 (t 42 (t 72 (t 110 (t 156 (2 ^ 40))))))
  x * s / 2 ^ 50

/-- Sine of an electrical angle (R144), within 2^-22: the computed value with a free deviation. -/
def sinQ (k : Nat) : Int :=
  let j := k % 65536
  let q := j % 16384
  match j / 16384 with
  | 0 => sinQuad q
  | 1 => sinQuad (16384 - q)
  | 2 => - sinQuad q
  | _ => - sinQuad (16384 - q)
def leSin (k : Nat) : Int := sinQ k + clampI (-240) 240 (Config.sinErr (k % 65536))
def leCos (k : Nat) : Int := sinQ (k + 16384) + clampI (-240) 240 (Config.cosErr (k % 65536))

/-- rnd(a / sqrt 3) (R144). -/
def divSqrt3 (a : Int) : Int :=
  let r : Int := (((isqrt (4 * a.natAbs * a.natAbs / 3) + 1) / 2 : Nat) : Int)
  if a < 0 then -r else r

/-- Square root of 3 in units of 2^-40. -/
def sqrt3Q40 : Int := 1904410002821

/-- The back end of a pair (R145): three phase values for slots 0-2 of the even engine.  DESIGN CHOICE (log entry
195): a clamp of one by OMIN or OMAX sets SAT_MOD (R131) and not SAT_MAP too. -/
def leModulate (p : Fin 32) (vd vq : Int) (scnt : Word) (tags tagsO : Nat) (d : Dev) : Dev :=
  let n : Fin 64 := Fin.ofNat 64 (2 * p.val)
  let th := d.f (.lepr p .theta) LEPR_THETA.ANGLE
  let c := leCos th
  let s := leSin th
  -- units of 2^-60, then 2^-101
  let al := (vd * c - vq * s) * 2 ^ 40
  let be := (vd * s + vq * c) * sqrt3Q40
  let pa := 2 * al
  let pb := be - al
  let pc := - be - al
  let vo := - (max pa (max pb pc) + min pa (min pb pc))
  let px (x : Int) : Int := 2 * x + vo
  let one (k : Fin 4) (x : Int) : List (LeField × Nat) × Bool :=
    let (y, b) := leMap d n (px x) (2 ^ 102)
    (leSlotValues d n (leSlot d n k) y, b)
  let l := [one 0 pa, one 1 pb, one 2 pc]
  lePresent n { vals := (l.map (·.1)).flatten, legs := leRising [leSlot d n 0, leSlot d n 1, leSlot d n 2], u := wInt vd, scnt := scnt,
                ev := d.f (.le n .ctl) LE_CTL.EVSEL == 0, tags := tags, tagsO := tagsO }
    (d.flagIf (l.any (·.2)) (.le n .stat) LE_STAT.SAT_MOD)

/-- Write the words of a list to consecutive offsets of the engine's memory. -/
def leWriteWords (n : Fin 64) : List (Nat × Int) → Dev → Dev
  | [], d => d
  | (o, v) :: t, d => leWriteWords n t (memWrite (leAddr n o) (wInt v) d)

/-- The holder number of an engine (R43). -/
def leHolder (n : Fin 64) : Fin 70 := Fin.ofNat 70 (5 + n.val)

/-- Tags an engine may still take: at most 16 at once, and no more than its budget (R46, R47, R468). -/
def leTagRoom (d : Dev) (n : Fin 64) : Nat :=
  min 16 (d.f (.sys (.tagbud (leHolder n))) TAGBUD.BUDGET) - d.sys.tags[leHolder n]

/-- Tags a sample holds from its boundary to the capture of its commit: some number of those it may take, which the spec leaves
open (log entry 162). -/
def leTagCount (d : Dev) (n : Fin 64) : Nat := min (1 + (Config.freeValue d.free).toNat % 16) (leTagRoom d n)

/-- Put a list of register values. -/
def lePutRegs (n : Fin 64) (l : List (LeReg × Word)) (d : Dev) : Dev := d.each l fun p d => d.put (.le n p.1) p.2

/-- Do something under the registers of a sample's boundary: a later write governs the next sample (R142).  `own` names the register
that the sample itself writes. -/
def leUnder (n : Fin 64) (snap : List (LeReg × Word)) (own : LeReg → Bool) (g : Dev → Dev) (d : Dev) : Dev :=
  lePutRegs n ((snap.map fun p => (p.1, d.get (.le n p.1))).filter fun p => !own p.1) (g (lePutRegs n snap d))

/-- A half of a pair sample is done, or has failed (R143, R145, R315): kept until the other half is done, then both make one commit;
where either has failed there is none, and the tags return. -/
def leHalfDone (n : Fin 64) (tags : Nat) (mine : Option LeHalf) (d : Dev) : Dev :=
  let o := leMate n
  match d.le[o].pairU, mine with
  | none, some h => d.leU n fun e => { e with pairU := some (some h) }
  | none, none => (d.tagBack (leHolder n) tags).leU n fun e => { e with pairU := some none }
  | some none, _ => (d.tagBack (leHolder n) tags).leU o fun e => { e with pairU := none }
  | some (some w), none =>
    ((d.tagBack (leHolder n) tags).tagBack (leHolder o) w.tags).leU o fun e => { e with pairU := none }
  | some (some w), some h =>
    let d1 := d.leU o fun e => { e with pairU := none }
    if n.val % 2 = 0 then leModulate (lePair n) h.u.toInt w.u.toInt h.scnt h.tags w.tags d1
    else leUnder o w.snap (fun _ => false) (leModulate (lePair n) w.u.toInt h.u.toInt w.scnt w.tags h.tags) d1

/-- The rest of a sample once its operands are there (R129): `m` as formed at the boundary, the operands' raw values rx and fx.
DEDUCED (log entry 196): SSDONE sets where r_eff comes to r_t by a slew; where m already equals r_t in the first automatic sample, none
ends and it does not set (R133). -/
def leFinish (n : Fin 64) (s : LeStall) (rx fx : Word) (d0 : Dev) : Dev :=
  let (bank, bad1, d1) := leReadWords n (leBankOffs (d0.b (.le n .stat) LE_STAT.BANK)) d0
  let (h, bad2, d2) := leReadWords n leStateOffs d1
  let d3 := (d2.leU n fun e => { e with stall := none }).setB (.le n .stat) LE_STAT.STALLED false
  if bad1 || bad2 then
    if lePaired d3 n then leHalfDone n s.tags none d3 else d3.tagBack (leHolder n) s.tags
  else
    let ctl := d3.get (.le n .ctl)
    let reg (r : LeReg) : Int := (d3.get (.le n r)).toInt
    let e := d3.le[n]
    let first := e.first
    let ssen := LE_CTL.SSEN.bit ctl
    let c0 := leCompute bank h s.m.toInt rx.toInt fx.toInt (reg .rgain) (reg .rofs)
      (d3.f (.le n .ssrate) LE_SSRATE.RATE) (reg .manout) (LE_CTL.STRUCT.bit ctl) ssen (LE_CTL.ENEG.bit ctl) s.auto
      first s.frozen
    -- UMIN above UMAX: u and the history are undefined
    let openU := decide (nthI bank 9 < nthI bank 8)
    let fr (k : Nat) : Int := (Config.freeValue (d3.free + k)).toInt
    let c := if openU then { c0 with u := fr 0, hist := [fr 1, fr 2, fr 3, fr 4, fr 5, fr 6] } else c0
    let d4 := { d3 with free := d3.free + 8 }
    let was := d4.b (.le n .stat) LE_STAT.SSACT
    let act := ssen && c.reff != c.rt
    let done := ssen && c.reff == c.rt && (was || (!(s.auto && first) && nthI h 6 != c.rt))
    let satIn := s.sat || c.satIn
    let d5 := (((d4.flagIf satIn (.le n .stat) LE_STAT.SAT_IN).flagIf c.satAcc (.le n .stat) LE_STAT.SAT_ACC).flagIf c.satOut
      (.le n .stat) LE_STAT.SAT_OUT).flagIf done (.le n .stat) LE_STAT.SSDONE
    let d6 := d5.setB (.le n .stat) LE_STAT.SSACT act
    let scnt := wInt (nthI h 7 + 1)
    let ws : List (Nat × Int) :=
      [(0x80, nthI c.hist 0), (0x84, nthI c.hist 1), (0x88, nthI c.hist 2), (0x8C, nthI c.hist 3), (0x90, nthI c.hist 4),
       (0x94, nthI c.hist 5), (0x98, c.reff), (0x9C, s.m.toInt), (0xA0, c.f), (0xA4, scnt.toInt)]
    let d7 := leWriteWords n ws d6
    let run := if c.satOut then e.satRun + 1 else 0
    let satn := d7.f (.le n .wait) LE_WAIT.SATN
    let d8 := d7.leU n fun e =>
      { e with first := if s.auto then false else e.first, satPrev := c.satOut, satRun := run }
    let d9 := if c.satOut && satn != 0 && run % satn == 0 then d8.pulse (256 + n.val) else d8
    let evsel := d9.f (.le n .ctl) LE_CTL.EVSEL
    let d10 := (d9.raiseIf (evsel == 1 && c.satOut && !e.satPrev) (288 + n.val)).raiseIf (evsel == 2 && done) (288 + n.val)
    let u := wInt c.u
    let d11 := if s.auto && LE_CTL.MTRACK.bit ctl then d10.put (.le n .manout) u else d10
    let d12 := leFromLe n u (d11.put (.le n .out) u)
    if lePaired d12 n then leHalfDone n s.tags (some { u := u, scnt := scnt, tags := s.tags, snap := s.snap }) d12
    else leCommitSingle n c.u scnt s.tags d12

/-- The operands awaited by a stalled sample are fresh (R128). -/
def leFresh (d : Dev) (n : Fin 64) (s : LeStall) : Bool :=
  (!(LE_RSRC.WAIT.bit (d.get (.le n .rsrc))) || s.frR || d.le[n].frR) &&
    (!(LE_FSRC.WAIT.bit (d.get (.le n .fsrc))) || s.frF || d.le[n].frF)

/-- Registers whose value at the boundary governs a sample (R142). -/
def leGoverning : List LeReg :=
  [.ctl, .mgain, .mofs, .rgain, .rofs, .manout, .ssrate, .obase, .ospan, .omin, .omax, .centre, .dofs 0, .dofs 1, .dofs 2, .dofs 3,
   .wait]

/-- A register as it was at a sample's boundary. -/
def leSnap (s : LeStall) (r : LeReg) : Word :=
  match s.snap.find? fun p => p.1 == r with
  | some p => p.2
  | none => 0

/-- An operand of a sample that has stalled (R128, R142): its latest value; a register it did not wait for is read as at the
boundary. -/
def leLate (d : Dev) (n : Fin 64) (src reg : LeReg) (awaited : Bool) (x at_ : Word) : Word :=
  if LE_MSRC.TYPE.get (d.get (.le n src)) = 5 ∧ awaited = false then at_ else leX d n src reg x

/-- Finish a stalled sample under the registers of its boundary. -/
def leFinishStalled (n : Fin 64) (s : LeStall) (d : Dev) : Dev :=
  let rx := leLate d n .rsrc .ref (LE_RSRC.WAIT.bit (d.get (.le n .rsrc)) && !s.frR) d.le[n].xr s.rx
  let fx := leLate d.bumpFree n .fsrc .freg (LE_FSRC.WAIT.bit (d.get (.le n .fsrc)) && !s.frF) d.le[n].xf s.fx
  let tracked := s.auto && LE_CTL.MTRACK.bit (leSnap s .ctl)
  leUnder n s.snap (fun r => tracked && r == .manout) (leFinish n s rx fx) { d with free := d.free + 2 }

/-- The legs an engine drives. -/
def leLegs (d : Dev) (n : Fin 64) : List (Fin 96) := ((leSlots d n).map leSlotLeg).flatten

/-- The boundary of one engine's sample with measurement m (R129, R132, R134, R136): bank swap, mode, operands, tags.
DEDUCED (log entry 197): the odd engine of a pair, which has no slots of its own, freezes by the legs of the even one. -/
def leBound (n : Fin 64) (m : Int) (sat : Bool) (d : Dev) : LeStall × Dev :=
  let d1 := if d.b (.le n .stat) LE_STAT.SWPEND then leExchange n d else d
  let auto := d1.b (.le n .ctl) LE_CTL.MODE
  let wasAuto := d1.b (.le n .stat) LE_STAT.AUTO
  let owner := if lePaired d1 n then leEven n else n
  let frozen := d1.b (.le n .ctl) LE_CTL.FREEZE && (leLegs d1 owner).any fun l => legShown d1 l != 1 || legReefed d1 l
  let e := d1.le[n]
  let s : LeStall := { m := wInt m, sat := sat, at_ := d1.now, frR := e.frR, frF := e.frF,
                       rx := leX d1.bumpFree n .rsrc .ref e.xr, fx := leX d1.bumpFree.bumpFree n .fsrc .freg e.xf,
                       frozen := frozen, auto := auto, snap := leGoverning.map (fun r => (r, d1.get (.le n r))),
                       tags := leTagCount d1 n }
  let d2 := ({ d1 with free := d1.free + 3 }.setB (.le n .stat) LE_STAT.AUTO auto).tagTake (leHolder n) s.tags
  (s, d2.leU n fun e =>
    { e with first := e.first || (auto && !wasAuto), frR := false, frF := false, bound := d1.now, held := none })

/-- A sample whose operands are not there stalls (R128). -/
def leStallIf (n : Fin 64) (s : LeStall) (go : Bool) (d : Dev) : Dev :=
  if go then d else (d.leU n fun e => { e with stall := some s }).flag (.le n .stat) LE_STAT.STALLED

/-- A sample whose operands are there goes on with them. -/
def leGoOn (n : Fin 64) (s : LeStall) (go : Bool) (d : Dev) : Dev := if go then leFinish n s s.rx s.fx d else d

/-- The boundary of one engine's sample, then on or into a stall. -/
def leBoundary (n : Fin 64) (m : Int) (sat : Bool) (d : Dev) : Dev :=
  let (s, d1) := leBound n m sat d
  let go := leFresh d1 n s
  leGoOn n s go (leStallIf n s go d1)

/-- The engine may issue: a tag is left under its budget (R46-R48). -/
def leMayIssue (d : Dev) (n : Fin 64) : Bool := decide (0 < leTagRoom d n)

/-- The measurement of an engine from a raw value (R125). -/
def leMeasure (d : Dev) (n : Fin 64) (x : Word) : Int × Bool :=
  let w := if d.le[n].openPos && LE_MSRC.TYPE.get (d.get (.le n .msrc)) == 3 then Config.freeValue d.free else x
  qScale (d.get (.le n .mgain)).toInt w.toInt (d.get (.le n .mofs)).toInt

/-- An engine can start a sample: enabled, not stalled, its previous pair output used, a strobe held, memory and budget there. -/
def leReadyFor (d : Dev) (n : Fin 64) : Bool :=
  leActive d n && d.le[n].stall.isNone && d.le[n].pairU.isNone && d.le[n].held.isSome && leMayIssue d n &&
    d.b (.sys (.ready 0)) READY0.SRAM

/-- A pair sample (R143, R144). -/
def lePairSample (p : Fin 32) (d : Dev) : Dev :=
  let n : Fin 64 := Fin.ofNat 64 (2 * p.val)
  let o : Fin 64 := leMate n
  let (ia, sa) := leMeasure d n (d.le[n].held.getD 0)
  let (ib, sb) := leMeasure d o (d.le[o].held.getD 0)
  let ch : Fin 8 := Fin.ofNat 8 (d.f (.lepr p .ctl) LEPR_CTL.PCH)
  let cpr := posCpr d ch
  let poles := max 1 (d.f (.lepr p .ctl) LEPR_CTL.POLES)
  let th0 := ((d.get (.pos ch .pos)).toNat * poles * 65536 / cpr + d.f (.lepr p .aofs) LEPR_AOFS.ANGLE) % 65536
  let th := if d.le[n].openPos then (Config.freeValue d.free).toNat % 65536 else th0
  let (be, s1) := qSat (divSqrt3 (ia + 2 * ib))
  let c := leCos th
  let s := leSin th
  let (id_, s2) := qSat (rndAway (ia * c + be * s) (2 ^ 30))
  let (iq, s3) := qSat (rndAway (be * c - ia * s) (2 ^ 30))
  let d1 := (d.setF (.lepr p .theta) LEPR_THETA.ANGLE th).bumpFree
  -- the later strobe is the boundary of both samples
  let (sn, d2) := leBound n id_ (sa || sb || s1 || s2) d1
  let (so, d3) := leBound o iq (sa || sb || s1 || s3) d2
  let gn := leFresh d3 n sn
  let go := leFresh d3 o so
  leGoOn o so go (leGoOn n sn gn (leStallIf o so go (leStallIf n sn gn d3)))

/-- An accepted strobe starts a sample (R126, R129, R143). -/
def leSample (n : Fin 64) (d : Dev) : Dev :=
  if lePaired d n then
    if leReadyFor d n && leReadyFor d (leMate n) then lePairSample (lePair n) d else d
  else if leReadyFor d n then
    let (m, sat) := leMeasure d n (d.le[n].held.getD 0)
    leBoundary n m sat d.bumpFree
  else d

/-- A stalled sample goes on once its operands are fresh (R128). -/
def leResume (n : Fin 64) (d : Dev) : Dev :=
  match d.le[n].stall with
  | some s => if leFresh d n s then leFinishStalled n s d else d
  | none => d

/-- WAITTO expires (R128, R151); a sample whose operands are there goes on. -/
def leTimeout (n : Fin 64) (d : Dev) : Dev :=
  match d.le[n].stall with
  | some s =>
    if leFresh d n s then leFinishStalled n s d
    else
    let d1 := d.at (s.at_ + max 1 (LE_WAIT.WAITTO.get (leSnap s .wait)) * 50 * tuNs)
    let d2 := ((d1.flag (.le n .stat) LE_STAT.STALE).bump (.le n .cnt) LE_CNT.STALE_CNT).pulse (256 + n.val)
    leFinishStalled n s d2
  | none => d

/-- One leg's values of a commit. -/
def leLegVals (l : Fin 96) (vals : List (LeField × Nat)) : LegVals :=
  vals.filterMap fun p => match p.1 with
    | .cmpa x => if x = l then some (.cmpa, w32 p.2) else none
    | .cmpb x => if x = l then some (.cmpb, w32 p.2) else none
    | .phase x => if x = l then some (.phase, w32 p.2) else none
    | .period _ => none

/-- Commit a period (R138, R52, R56). -/
def lePutPeriod : List (LeField × Nat) → Dev → Dev
  | [], d => d
  | (f, v) :: t, d =>
    let d1 := match f with
      | .period b =>
        let c := clampN 320 160000 v
        tbPeriodSet b (w32 c) (d.flagIf (c != v) (.tb b .stat) TB_STAT.PCLAMP)
      | _ => d
    lePutPeriod t d1

/-- The timebase of the engine's lowest-numbered slot of a kind other than none. -/
def leStampTb (d : Dev) (n : Fin 64) : Option (Fin 32) :=
  match ((leSlots d n).map leSlotLeg).flatten with
  | [] => none
  | l :: _ => some (d.legTb l)

/-- The engine's oldest presented commit is captured in its timebases (R72, R139, R412). -/
def leCapture (n : Fin 64) (d : Dev) : Dev :=
  match d.le[n].commits with
  | [] => d
  | c :: rest =>
    let d0 := d.leU n fun e => { e with commits := rest }
    let d1 := d0.each c.legs fun l d => legCommit l (leLegVals l c.vals) d
    let d2 := ((lePutPeriod c.vals d1).tagBack (leHolder n) c.tags).tagBack (leHolder (leMate n)) c.tagsO
    let ts := match leStampTb d n with
      | some b => d.stamp (tickUp (tbB d b) d.now)
      | none => (Config.freeValue d.free).toNat
    (capLe n d2.ctv c.scnt c.u ts d2).raiseIf ((rest.head?.map fun x => x.ev).getD false) (288 + n.val)

/-- Capture every presented commit of an engine. -/
def leCaptureAll (n : Fin 64) : Nat → Dev → Dev
  | 0, d => d
  | k + 1, d => if d.le[n].commits.isEmpty then d else leCaptureAll n k (leCapture n d)

/-- The tags of a stalled sample, and of a half of a pair sample. -/
def leOpenTags (e : LeSt) : Nat :=
  (match e.stall with
    | some s => s.tags
    | none => 0) +
  (match e.pairU with
    | some (some h) => h.tags
    | _ => 0)

/-- An engine's sample in progress is abandoned, its tags return (R141). -/
def leAbandon (n : Fin 64) (d : Dev) : Dev :=
  ((d.tagBack (leHolder n) (leOpenTags d.le[n])).setB (.le n .stat) LE_STAT.STALLED false).leU n fun e =>
    { e with stall := none, pairU := none }

/-- LEn_CTL.EN goes from 1 to 0 (R141): the commit in progress completes, a stalled sample is abandoned, fields are released.
DESIGN CHOICE (log entry 198): a swap that is pending stays so, for the first boundary after the next enable (R136).
DEDUCED (log entry 163): a pair sample of which one half is stalled is one stalled sample, abandoned in both engines. -/
def leDisable (n : Fin 64) (d0 : Dev) : Dev :=
  let d := leAbandon n (if lePaired d0 n then leAbandon (leMate n) d0 else d0)
  let d1 := leCaptureAll n d.le[n].commits.length d
  let d2 := d1.each d1.le[n].owns (leFieldSet false)
  let d3 := d2.setB (.le n .stat) LE_STAT.ACTIVE false
  d3.leU n fun e => { e with inbound := [], held := none, owns := [], openPos := false }

/-- Write of LEn_CTL (R140-R142). -/
def leWriteCtl (n : Fin 64) (v : Word) (d : Dev) : Dev :=
  let old := d.get (.le n .ctl)
  let en := LE_CTL.EN.bit old
  let keep (f : Fld) (w : Word) : Word := f.put (f.get old) w
  let differs (f : Fld) : Bool := f.get v != f.get old
  let guard := en && (differs LE_CTL.STRUCT || differs LE_CTL.DECIM || differs LE_CTL.SWCH || differs LE_CTL.SWEN)
  let v1 := if en then keep LE_CTL.STRUCT (keep LE_CTL.DECIM (keep LE_CTL.SWCH (keep LE_CTL.SWEN v))) else v
  let d1 := (d.wr (.le n .ctl) v1).flagIf guard (.le n .stat) LE_STAT.CFG_REJ
  if LE_CTL.EN.bit v1 && !en then leEnable n d1
  else if en && !LE_CTL.EN.bit v1 then leDisable n d1 else d1

/-- A write that strobes its operand when the source is the register type (R124). -/
def leWriteOperand (n : Fin 64) (r src : LeReg) (v : Word) (d : Dev) : Dev :=
  let d1 := d.wr (.le n r) v
  if LE_MSRC.TYPE.get (d.get (.le n src)) = 5 then
    match src with
    | .msrc => if leActive d n then d1.leU n fun e => { e with inbound := e.inbound ++ [v] } else d1
    | .rsrc => d1.leU n fun e => { e with xr := v, frR := true }
    | _ => d1.leU n fun e => { e with xf := v, frF := true }
  else d1

/-- A new source of the reference or the feed-forward has not strobed yet: what the former one gave is no fresh operand (R128). -/
def leNewSource (n : Fin 64) (r : LeReg) (d : Dev) : Dev :=
  match r with
  | .rsrc => d.leU n fun e => { e with frR := false }
  | .fsrc => d.leU n fun e => { e with frF := false }
  | _ => d

/-- A register that keeps its value while EN = 1 (R142). -/
def leGuarded (n : Fin 64) (r : LeReg) (v : Word) (d : Dev) : Dev :=
  if d.b (.le n .ctl) LE_CTL.EN then
    d.flagIf (plainWrite r.access (d.get (.le n r)) v != d.get (.le n r)) (.le n .stat) LE_STAT.CFG_REJ
  else
    let d1 := d.wr (.le n r) v
    if d1.get (.le n r) = d.get (.le n r) then d1 else leNewSource n r d1

/-- Write of an engine register. -/
def leWrite (n : Fin 64) (r : LeReg) (v : Word) (d : Dev) : Dev :=
  match r with
  | .ctl => leWriteCtl n v d
  | .msrc => leGuarded n .msrc v d
  | .rsrc => leGuarded n .rsrc v d
  | .fsrc => leGuarded n .fsrc v d
  | .dst k => leGuarded n (.dst k) v d
  | .mreg => leWriteOperand n .mreg .msrc v d
  | .ref => leWriteOperand n .ref .rsrc v d
  | .freg => leWriteOperand n .freg .fsrc v d
  | .cmd => if LE_CMD.SWAP.bit v then leSwap n d else d
  | r => d.wr (.le n r) v

/-- Write of a pair register (R143). -/
def leprWrite (p : Fin 32) (r : LeprReg) (v : Word) (d : Dev) : Dev :=
  let n : Fin 64 := Fin.ofNat 64 (2 * p.val)
  match r with
  | .ctl =>
    if d.b (.le n .ctl) LE_CTL.EN || d.b (.le (leMate n) .ctl) LE_CTL.EN then d.flag (.le n .stat) LE_STAT.CFG_REJ
    else d.wr (.lepr p .ctl) v
  | r => d.wr (.lepr p r) v

/-- Write of a shared register (R136). -/
def leshWrite (r : LeshReg) (v : Word) (d : Dev) : Dev :=
  match r with
  | .leswap k => d.each ((fins 64).filter fun n => n.val / 32 = k.val ∧ v.getLsbD (n.val % 32) = true) leSwap
  | .leen _ => d

/-- A write to word k of engine n's memory (R135, R153): the active bank and the state words are guarded while EN = 1. -/
def leMemGuard (n : Fin 64) (k : Fin 64) (g : Dev → Dev) (d : Dev) : Dev :=
  let o := 4 * k.val
  let en := d.b (.le n .ctl) LE_CTL.EN
  let active : Nat := if d.b (.le n .stat) LE_STAT.BANK then 0x40 else 0
  if o < 0x28 ∨ (0x40 ≤ o ∧ o < 0x68) then
    if en && decide (active ≤ o ∧ o < active + 0x28) then d.flag (.le n .stat) LE_STAT.ACTWR else g d
  else if 0x80 ≤ o ∧ o < 0x9C then
    if en then d.flag (.le n .stat) LE_STAT.CFG_REJ else g d
  else d

/-- A full write. -/
def leMemWrite (n : Fin 64) (k : Fin 64) (v : Word) (d : Dev) : Dev := leMemGuard n k (memWrite (leAddr n (4 * k.val)) v) d

/-- A write of some bytes, by a requester number (R314). -/
def leMemPart (req : Nat) (n : Fin 64) (k : Fin 64) (d : Dev) : Dev := leMemGuard n k (memMergeOpen req (leAddr n (4 * k.val))) d

end Sys2Proof.Machine
end

