-- ==== Sys2Proof/Machine/Fabric.lean ====
section
/-!
DEFINITION. The event fabric (R185-R197): sampling, holdoff, activation, the tasks of an activation, and ownership.
-/
namespace Sys2Proof.Machine
open Sys2Proof

/-- Period of the sample strobe (R189, R191). -/
def fabStrobe (d : Dev) : Nat := if d.sys.pllA then tuTick else tuRef

/-- The sample edge of an event presented at `t`: the first strictly after it (R189). -/
def fabEdge (d : Dev) (t : Nat) : Nat := (t / fabStrobe d + 1) * fabStrobe d

/-- Length of a channel's holdoff (R190, R191). -/
def fabHold (d : Dev) (c : Fin 256) : Nat := (if d.b (.ch c .ctl) CH_CTL.HOLD then 12 else 3) * fabStrobe d

/-- Replace channel c's state. -/
def Dev.chanU (d : Dev) (c : Fin 256) (g : ChanSt → ChanSt) : Dev :=
  { d with fab := { d.fab with chan := d.fab.chan.set c (g d.fab.chan[c]) } }

/-- Some consumer of a kind names channel c with its enable set (R193). -/
def fabNamed (d : Dev) (k : TaskKind) (c : Fin 256) : Bool :=
  match k with
  | .forceOff => (fins 96).any fun n => d.b (.leg n .ctl) LEG_CTL.FOEN && d.f (.leg n .ctl) LEG_CTL.FOCH == c.val
  | .tbStart => (fins 32).any fun n => d.b (.tb n .ctl) TB_CTL.STEN && d.f (.tb n .ctl) TB_CTL.STCH == c.val
  | .adcStart => (fins 32).any fun n => d.b (.adc n .ctl) ADC_CTL.STEN && d.f (.adc n .ctl) ADC_CTL.STCH == c.val
  | .adcTrig => (fins 32).any fun n => !(d.b (.adc n .trig) ADC_TRIG.TSRC) && d.f (.adc n .trig) ADC_TRIG.TCH == c.val
  | .posTrig => (fins 8).any fun n => !(d.b (.pos n .trig) POS_TRIG.TSRC) && d.f (.pos n .trig) POS_TRIG.TCH == c.val
  | .leSwap => (fins 64).any fun n => d.b (.le n .ctl) LE_CTL.SWEN && d.f (.le n .ctl) LE_CTL.SWCH == c.val
  | .capStart => (fins 16).any fun r => d.b (.capr r .ctl) CAPR_CTL.STEN && d.f (.capr r .ctl) CAPR_CTL.STCH == c.val
  | .capStop => (fins 16).any fun r => d.b (.capr r .ctl) CAPR_CTL.SPEN && d.f (.capr r .ctl) CAPR_CTL.SPCH == c.val
  | .capSnap => (fins 16).any fun r => d.b (.capr r .ctl) CAPR_CTL.SNEN && d.f (.capr r .ctl) CAPR_CTL.SNCH == c.val

def taskKinds : List TaskKind :=
  [.forceOff, .tbStart, .adcStart, .adcTrig, .posTrig, .leSwap, .capStart, .capStop, .capSnap]

/-- Channel c activates on sample edge e (R189, R192, R197). -/
def fabActivate (c : Fin 256) (e : Nat) (d : Dev) : Dev :=
  let d1 := (d.chanU c fun _ => { act := some e, pend := false }).bump (.ch c .cnt) CH_CNT.ACT_CNT
  let w : Fin 8 := Fin.ofNat 8 (c.val / 32)
  let d2 := if d1.b (.ch c .ctl) CH_CTL.IFLAG then d1.setBit (.ev (.chflag w)) (c.val % 32) true else d1
  let ts := (taskKinds.filter fun k => fabNamed d2 k c).map fun k => (k, c, e)
  { d2 with fab := { d2.fab with tasks := d2.fab.tasks ++ ts } }

/-- A pending activation whose holdoff has ended by edge `e` issues on the edge that ends it (R190). -/
def fabIssue (c : Fin 256) (e : Nat) (d : Dev) : Dev :=
  match d.fab.chan[c].act with
  | some a => if d.fab.chan[c].pend && decide (a + fabHold d c ≤ e) then fabActivate c (a + fabHold d c) d else d
  | none => d

/-- An event is sampled on edge e in a channel that enables its producer (R189, R190). -/
def fabSample (e : Nat) (c : Fin 256) (d0 : Dev) : Dev :=
  let d := fabIssue c e d0
  match d.fab.chan[c].act with
  | some a =>
    if e = a then d.bump (.ch c .cnt) CH_CNT.MERGE
    else if e < a + fabHold d c then
      if d.fab.chan[c].pend then d.bump (.ch c .cnt) CH_CNT.MERGE else d.chanU c fun x => { x with pend := true }
    else fabActivate c e d
  | none => fabActivate c e d

/-- Channel c's row enables producer p; in a secure channel the open software producers have no effect (R196). -/
def fabEnabled (d : Dev) (c : Fin 256) (p : Fin 512) : Bool :=
  (d.get (.ch c (.en (Fin.ofNat 16 (p.val / 32))))).getLsbD (p.val % 32) &&
    !(d.b (.ch c .own) CH_OWN.SEC && decide (480 ≤ p.val ∧ p.val ≤ 487))

/-- Producer p presents an event at the present instant. -/
def fabPresent (p : Fin 512) (d : Dev) : Dev :=
  let e := fabEdge d d.now
  let d1 := { d with fab := { d.fab with last := (p, d.now) :: d.fab.last.filter (fun x => x.1 ≠ p) } }
  d1.each ((fins 256).filter fun c => fabEnabled d1 c p) (fabSample e)

/-- Instant of a producer's previous event. -/
def fabLast (d : Dev) (p : Fin 512) : Option Nat := (d.fab.last.find? fun x => x.1 = p).map (·.2)

/-- A producer's event reaches the fabric (R188): presented, held if it comes within 3 strobe periods of the previous one, or
merged into the one held. -/
def fabEvent (p : Fin 512) (d : Dev) : Dev :=
  if d.fab.raised.contains p then
    let d0 := { d with fab := { d.fab with raised := d.fab.raised.erase p } }
    let soon := match fabLast d p with
      | some t => decide (d.now < t + 3 * fabStrobe d)
      | none => false
    if d.fab.held.contains p then d0.bump (.ev .evcnt) EVCNT.PMERGE
    else if soon then { d0 with fab := { d0.fab with held := d0.fab.held ++ [p] } }
    else fabPresent p d0
  else d

/-- A held event is presented 3 strobe periods after the previous one (R188). -/
def fabHoldEnd (p : Fin 512) (d : Dev) : Dev :=
  if d.fab.held.contains p then
    let t := match fabLast d p with
      | some t => t + 3 * fabStrobe d
      | none => d.now
    let d1 := d.at t
    fabPresent p { d1 with fab := { d1.fab with held := d1.fab.held.erase p } }
  else d

/-- A channel's holdoff ends and its pending activation issues (R190). -/
def fabHoldoffEnd (c : Fin 256) (d : Dev) : Dev :=
  match d.fab.chan[c].act with
  | some a =>
    let e := a + fabHold d c
    if d.fab.chan[c].pend then fabActivate c e (d.at e) else d.at e
  | none => d

/-- The oldest task of channel c on its way to consumers of kind k: the instant of its activation's sample edge. -/
def fabTaskAt (d : Dev) (k : TaskKind) (c : Fin 256) : Option Nat :=
  (d.fab.tasks.find? fun x => x.1 == k && x.2.1 == c).map (·.2.2)

/-- Consumers of kind k lie in timebase or AC domains (R193). -/
def TaskKind.clocked : TaskKind → Bool
  | .forceOff | .tbStart | .adcStart | .adcTrig | .posTrig => true
  | .leSwap | .capStart | .capStop | .capSnap => false

/-- Instant at which the clocked consumers of an activation receive it: the first of them has fixed it for all (R192). -/
def fabGot (d : Dev) (c : Fin 256) (e : Nat) : Option Nat := (d.fab.got.find? fun x => x.1 == c && x.2.1 == e).map (·.2.2)

/-- A clocked consumer receives the activation of channel c on edge e: the others of that activation receive it at the same instant,
each on the tick or cycle of its own clock that follows (R192). -/
def fabTogether (c : Fin 256) (e : Nat) (act : Dev → Dev) (d : Dev) : Dev :=
  let r := (fabGot d c e).getD d.now
  let others := d.fab.got.filter fun x => !(x.1 == c && x.2.1 == e)
  let more := d.fab.tasks.any fun x => x.1.clocked && x.2.1 == c && x.2.2 == e
  { d with fab := { d.fab with got := if more then (c, e, r) :: others else others } }.asOf r act

/-- A task of channel c reaches its consumers of kind k, not before its activation: each activation is received once (R192). -/
def fabTask (k : TaskKind) (c : Fin 256) (act : Dev → Dev) (d : Dev) : Dev :=
  match fabTaskAt d k c with
  | some e =>
    let d1 := { d with fab := { d.fab with tasks := d.fab.tasks.erase (k, c, e) } }.at e
    if k.clocked then fabTogether c e act d1 else act d1
  | none => d

/-- Requester code: 0-3 H0-H3, 4 S, 5 host. -/
def reqCode : Requester → Nat
  | .core c => c.val
  | .host => 5

/-- The owner admits a requester (R196). -/
def fabMayWrite (d : Dev) (by_ : Requester) (c : Fin 256) : Bool :=
  if d.b (.ch c .own) CH_OWN.SEC then by_ == .core 4
  else
    match d.f (.ch c .own) CH_OWN.OWNER with
    | 0 => true
    | 7 => false
    | o => o == reqCode by_ + 1

/-- Write of a channel register (R196). -/
def chWrite (by_ : Requester) (c : Fin 256) (r : ChReg) (v : Word) (d : Dev) : Dev :=
  match r with
  | .own => d
  | .cnt => d
  | r =>
    if fabMayWrite d by_ c then d.wr (.ch c r) v
    else
      let sec := d.b (.ch c .own) CH_OWN.SEC
      let d1 := d.flag (.ev .evstat) (if sec then EVSTAT.SECREJ else EVSTAT.OWNREJ)
      let d2 := (d1.setF (.ev .evstat) EVSTAT.REJCH c.val).setF (.ev .evstat) EVSTAT.REJREQ (reqCode by_)
      if sec then d2.pulse 408 else d2

/-- A write of SWTRIG (R187). -/
def fabSwtrig (by_ : Requester) (v : Word) (d : Dev) : Dev :=
  let s := by_ == .core 4
  let d1 := d.each ((List.range 16).filter fun b => v.getLsbD b && (decide (b < 8) || s)) fun b d => d.raise (480 + b)
  d1.flagIf (!s && bitsN v.toNat 15 8 != 0) (.ev .evstat) EVSTAT.SWREJ

/-- Write of a shared fabric register. -/
def evWrite (by_ : Requester) (r : EvReg) (v : Word) (d : Dev) : Dev :=
  match r with
  | .swtrig => fabSwtrig by_ v d
  | .evcnt => d
  | r => d.wr (.ev r) v

end Sys2Proof.Machine
end

