-- ==== Sys2Proof/Machine/Crc.lean ====
section
/-!
DEFINITION. The checksums of the spec: CRC-16 and CRC-32C with the parameters of R392.
-/
namespace Sys2Proof.Machine
open Sys2Proof

/-- Eight steps of a CRC that shifts left (CRC-16, polynomial 0x1021). -/
def crc16Bits (c : Nat) : Nat → Nat
  | 0 => c
  | k + 1 => crc16Bits (if 32768 ≤ c then (2 * c % 65536) ^^^ 0x1021 else 2 * c) k

/-- CRC-16 of bytes: initial value 0xFFFF, no reflection, no final exclusive-or (R392). -/
def crc16 (l : List Byte) : Nat := l.foldl (fun c b => crc16Bits (c ^^^ (b.toNat * 256)) 8) 0xFFFF

/-- Eight steps of a reflected CRC (CRC-32C). -/
def crc32Bits (c : Nat) : Nat → Nat
  | 0 => c
  | k + 1 => crc32Bits (if c % 2 = 1 then (c / 2) ^^^ 0x82F63B78 else c / 2) k

/-- CRC-32C of bytes (R392). -/
def crc32c (l : List Byte) : Nat := (l.foldl (fun c b => crc32Bits (c ^^^ b.toNat) 8) 0xFFFFFFFF) ^^^ 0xFFFFFFFF

/-- Bytes of a word, little-endian, and the number that little-endian bytes make. -/
def bytesLE (n v : Nat) : List Byte := (List.range n).map fun k => BitVec.ofNat 8 (v / 2 ^ (8 * k))
def ofLE : List Byte → Nat
  | [] => 0
  | b :: t => b.toNat + 256 * ofLE t

/-- Word k of little-endian bytes. -/
def wordAt (l : List Byte) (o : Nat) : Word := w32 (ofLE ((l.drop o).take 4))

end Sys2Proof.Machine
end

