-- ==== Sys2Proof/Machine/Link.lean ====
section
/-!
DEFINITION. The Nueryen link (R363-R390): ports and their transmit queues, enumeration, routing, breaks, the lockdown notice,
device and chain time, delay measurement and time transfer.
-/
namespace Sys2Proof.Machine
open Sys2Proof

/-- Replace the link's or a port's state. -/
def Dev.lnkU (d : Dev) (g : LnkSt → LnkSt) : Dev := { d with lnk := g d.lnk }
def Dev.portU (d : Dev) (p : Fin 2) (g : PortSt → PortSt) : Dev :=
  d.lnkU fun l => { l with port := l.port.set p (g l.port[p]) }

/-- The UP and DOWN ports. -/
abbrev pUp : Fin 2 := 0
abbrev pDown : Fin 2 := 1
/-- The opposite port. -/
def portOpp (p : Fin 2) : Fin 2 := if p = 0 then 1 else 0

def lnkTrained (d : Dev) (p : Fin 2) : Bool := d.b (.lnkp p .stat) LNKP_STAT.TRAINED
def lnkHead (d : Dev) : Bool := d.b (.lnk .lnkstat) LNKSTAT.HEAD
def lnkAddr (d : Dev) : Nat := d.f (.lnk .lnkaddr) LNKADDR.ADDR
def lnkCount (d : Dev) : Nat := d.f (.lnk .lnkaddr) LNKADDR.COUNT
def lnkV (d : Dev) : Bool := d.b (.lnk .lnkaddr) LNKADDR.V
def lnkBusy (d : Dev) : Bool := d.b (.lnk .lnkstat) LNKSTAT.ENUMBUSY
def lnkRing (d : Dev) : Bool := d.b (.lnk .lnkstat) LNKSTAT.RING
/-- In a ring with no break recorded. -/
def lnkWhole (d : Dev) : Bool := lnkRing d && !d.b (.lnk .lnkaddr) LNKADDR.BRK

/-- Count a frame without a route (R374, R375, R377). -/
def lnkNoRoute (d : Dev) : Dev := d.bump (.lnk .lnkcnt) LNKCNT.NOROUTE

/-- Order of choice at a frame boundary (R369). -/
def TxFrame.rank (x : TxFrame) : Nat :=
  match x.frame with
  | .lockdown .. => 1
  | .lstat .. => 2
  | .time .. => 3
  | .dreq => 4
  | .drsp .. => 4
  | .enum .. => 5
  | .enumDone .. => 5
  | .packet .. => if x.fwd then 6 else 7

/-- Symbols of a frame, from its K28.5 on (R366). -/
def Frame.symbols : Frame → Nat
  | .time .. => 18
  | .packet _ _ _ bytes _ => bytes.length + 7
  | _ => 21

/-- Time a frame and the idle set after it take, 2 ns a symbol; both begin on lane 0, so with an even symbol (R363, R365, R366). -/
def Frame.dur (f : Frame) : Nat := (2 * ((f.symbols + 1) / 2) + 2) * 2 * tuNs

/-- The D symbols of a time or control frame before its CRC: 14 of a time frame, TYPE and 16 of payload of a control frame, the
unused ones 0 (R366, R367); none of a packet frame, whose checks are its own. -/
def Frame.syms : Frame → List Byte
  | .time tx v back hops seq =>
    bytesLE 8 tx ++ [BitVec.ofNat 8 (128 * v.toNat + 64 * back.toNat + hops % 64), BitVec.ofNat 8 seq] ++ bytesLE 4 0
  | .dreq => 0x01 :: bytesLE 16 0
  | .drsp t2 t3 => 0x02 :: (bytesLE 8 t2 ++ bytesLE 8 t3)
  | .enum next flags => 0x03 :: BitVec.ofNat 8 next :: BitVec.ofNat 8 flags :: bytesLE 14 0
  | .enumDone count ring ovr => 0x04 :: BitVec.ofNat 8 count :: BitVec.ofNat 8 (2 * ring.toNat + ovr.toNat) :: bytesLE 14 0
  | .lstat addr port state => 0x05 :: BitVec.ofNat 8 addr :: BitVec.ofNat 8 port :: BitVec.ofNat 8 state :: bytesLE 13 0
  | .lockdown addr cls tm => 0x06 :: BitVec.ofNat 8 addr :: BitVec.ofNat 8 cls :: (bytesLE 8 tm ++ bytesLE 6 0)
  | .packet .. => []

/-- The CRC-16 of a frame received is the one of its symbols (R366).  DEDUCED (log entry 170): with the parameters of R392. -/
def Frame.sumOk (f : Frame) (sum : BitVec 16) : Bool := crc16 f.syms == sum.toNat

/-- The frame chosen at a boundary at instant t among those queued by then: the lowest rank, the earliest among equals. -/
def txPick (t : Nat) : List TxFrame → Option TxFrame
  | [] => none
  | x :: l =>
    match txPick t l with
    | none => if x.at_ ≤ t then some x else none
    | some y => if x.at_ ≤ t ∧ x.rank ≤ y.rank then some x else some y

/-- Earliest instant at which a queue has a frame. -/
def txFirst : List TxFrame → Option Nat
  | [] => none
  | x :: l => match txFirst l with
    | none => some x.at_
    | some t => some (min x.at_ t)

/-- A frame as it leaves at instant t: time, DREQ and DRSP carry the stamp of that instant (R369). -/
def txStamp (d : Dev) (t : Nat) : Frame → Frame
  | .time _ v back hops seq => .time (d.stamp t) v back hops seq
  | .drsp t2 _ => .drsp t2 (d.stamp t)
  | f => f

/-- The oldest exchange whose DREQ has not left notes that it leaves at instant t, at device time ts (R382). -/
def exLeave (t ts : Nat) : List (Nat × Option Nat) → List (Nat × Option Nat)
  | [] => []
  | (_, none) :: l => (t, some ts) :: l
  | e :: l => e :: exLeave t ts l

/-- Frames whose boundary has come leave port p. -/
def lnkPumpN (p : Fin 2) : Nat → Dev → Dev
  | 0, d => d
  | k + 1, d =>
    let q := d.lnk.port[p]
    match txFirst q.txq with
    | none => d
    | some t0 =>
      let t := max q.busy t0
      if t ≤ d.now then
        match txPick t q.txq with
        | none => d
        | some x =>
          let d1 := d.portU p fun q => { q with txq := q.txq.erase x, busy := t + x.frame.dur }
          let d2 := if x.frame = .dreq then d1.portU p fun q => { q with exch := exLeave t (d.stamp t) q.exch } else d1
          let d3 := { d2 with hst := { d2.hst with out := d2.hst.out ++ [.frame p (txStamp d t x.frame)] } }
          lnkPumpN p k (match x.frame with
            | .packet _ _ _ b _ => d3.replyLeft .link b (t + (x.frame.symbols - 1) * 2 * tuNs)
            | _ => d3)
      else d

/-- Both ports send what is due. -/
def lnkPump (d : Dev) : Dev :=
  lnkPumpN 1 (d.lnk.port[(1 : Fin 2)].txq.length) (lnkPumpN 0 (d.lnk.port[(0 : Fin 2)].txq.length) d)

/-- Queue a control or time frame on a port, if it is trained. -/
def lnkSend (p : Fin 2) (f : Frame) (fwd : Bool) (d : Dev) : Dev :=
  if lnkTrained d p then d.portU p fun q => { q with txq := q.txq ++ [{ frame := f, at_ := d.now, fwd := fwd }] } else d

/-- Packet frames waiting at a port. -/
def txPackets (q : PortSt) : Nat := (q.txq.filter fun x => decide (6 ≤ x.rank)).length

/-- Queue a packet frame on a port: it is dropped where four wait already (R371), and has no route where the port is down. -/
def lnkSendPacket (p : Fin 2) (f : Frame) (fwd : Bool) (d0 : Dev) : Dev :=
  let d := lnkPump d0
  if !lnkTrained d p then lnkNoRoute d
  else if 4 ≤ txPackets d.lnk.port[p] then
    ((d.flag (.lnk .lnkstat) LNKSTAT.DROP).bump (.lnk .lnkcnt) LNKCNT.DROP_CNT).pulse 462
  else lnkSend p f fwd d

/-- Send a broadcast of this unit's own (R376). -/
def lnkBroadcast (send : Fin 2 → Dev → Dev) (d : Dev) : Dev :=
  if lnkWhole d then send pDown d else send pDown (send pUp d)

/-- The port a unicast frame leaves on, if its DST addresses a unit (R375). -/
def lnkRoute (d : Dev) (dst : Nat) : Option (Fin 2) :=
  let k := lnkAddr d
  let a := d.f (.lnk .lnkaddr) LNKADDR.BRKA
  let brk := lnkRing d && d.b (.lnk .lnkaddr) LNKADDR.BRK
  if lnkCount d ≤ dst ∨ 0x40 ≤ dst then none
  else if k < dst then some (if brk && decide (k ≤ a ∧ a < dst) then pUp else pDown)
  else if dst < k then some (if brk && decide (dst ≤ a ∧ a < k) then pDown else pUp)
  else none

/-- A DST is a broadcast (R375). -/
def isBroadcast (dst : Nat) : Bool := dst == 0x7F || decide (0x80 ≤ dst)

/-- Send a packet frame of this unit's own. -/
def lnkOwnPacket (dst kind : Nat) (bytes : List Byte) (d : Dev) : Dev :=
  let f : Frame := .packet dst (lnkAddr d) kind bytes false
  if isBroadcast dst then lnkBroadcast (fun p d => if lnkTrained d p then lnkSendPacket p f false d else d) d
  else if lnkBusy d || !lnkV d then lnkNoRoute d
  else match lnkRoute d dst with
    | some p => lnkSendPacket p f false d
    | none => lnkNoRoute d

/-! ### Device and chain time -/

/-- Fix the device time at the present instant, so that the rate or the phase may change from here. -/
def lnkRebase (d : Dev) : Dev :=
  d.lnkU fun l => { l with base := d.timeQ d.now, baseAt := d.now, pend := if l.runs then l.pend - d.phaseBy d.now else l.pend }

/-- Chain time becomes valid or invalid (R381). -/
def lnkValid (v : Bool) (d : Dev) : Dev :=
  if v = d.ctv then d
  else
    let d0 := (d.setB (.lnk .lnkstat) LNKSTAT.CTV v).setB (.sys (.ready 2)) READY2.CTIME v
    -- a running chain-mode timebase shows HOLDOVER while chain time is not valid (R65)
    let d1 := d0.each ((fins 32).filter fun b => d0.tbRun b = true ∧ d0.f (.tb b .ctl) TB_CTL.SYNCSRC = 2)
      fun b d => d.setB (.tb b .stat) TB_STAT.HOLDOVER (!v)
    -- one that has been started waits for chain time until it is valid (R62)
    let waits (b : Fin 32) : Bool := match d0.tb[b].arm with
      | .sync _ => !d0.tbRun b && d0.f (.tb b .ctl) TB_CTL.SYNCSRC == 2
      | _ => false
    let d1 := d1.each ((fins 32).filter waits) fun b d => d.setB (.tb b .stat) TB_STAT.WAIT_SYNC (!v)
    if v then (d1.flag (.lnk .lnkstat) LNKSTAT.CTGAIN).raise 501
    else ((d1.flag (.lnk .lnkstat) LNKSTAT.CTLOST).raise 502).pulse 459

/-- The time service follows TEN, the strap and PLL A (R381). -/
def lnkService (d : Dev) : Dev :=
  let on := d.b (.lnk .lnkctl) LNKCTL.TEN && d.sys.pllA
  let st := d.f (.lnk .lnktstat) LNKTSTAT.STATE
  if lnkHead d then
    let d1 := if on && st != 3 then d.lnkU fun l => { l with sentAt := d.now } else d
    lnkValid on ((d1.setF (.lnk .lnktstat) LNKTSTAT.STATE (if on then 3 else 0)).setF (.lnk .lnktstat) LNKTSTAT.HOPS 0)
  else if !d.b (.lnk .lnkctl) LNKCTL.TEN then lnkValid false (d.setF (.lnk .lnktstat) LNKTSTAT.STATE 0)
  else if on && st == 0 then d.setF (.lnk .lnktstat) LNKTSTAT.STATE 1
  else d

/-- PLL A locks: device time starts, or goes on (R380); where it runs already, it goes on as it does. -/
def lnkPllLock (d : Dev) : Dev :=
  if d.lnk.runs then d else lnkService (d.lnkU fun l => { l with baseAt := d.now, runs := true })

/-- PLL A is lost: device time stands; chain time is not valid on the head (R380, R381). -/
def lnkPllLoss (d : Dev) : Dev := lnkService ((lnkRebase d).lnkU fun l => { l with runs := false })

/-- SYNCINT and HOLDTO x SYNCINT as times, STEPTHR in ticks. -/
def lnkSync (d : Dev) : Nat := max 1 (d.f (.lnk .lnktcfg) LNKTCFG.SYNCINT)
def lnkHold (d : Dev) : Nat := max 1 (d.f (.lnk .lnktcfg) LNKTCFG.HOLDTO) * lnkSync d * tuUs

/-- A 32-bit signed value saturating at plus or minus 2^31 - 1. -/
def sat31 (e : Int) : Word := wInt (clampI (-2147483647) 2147483647 e)

/-- Division rounding toward zero. -/
def truncDiv (a : Int) (b : Nat) : Int := if a < 0 then -((a.natAbs / b : Nat) : Int) else ((a.natAbs / b : Nat) : Int)

/-- A time frame goes out on each trained port (R383). -/
def lnkTimeSend (d0 : Dev) : Dev :=
  let d := lnkPump d0
  let st := d.f (.lnk .lnktstat) LNKTSTAT.STATE
  if st < 2 then d
  else
    let src := Fin.ofNat 2 (d.f (.lnk .lnktstat) LNKTSTAT.SRCP)
    let f (p : Fin 2) : Frame := .time 0 d.ctv (decide (st = 2) && p == src) (d.f (.lnk .lnktstat) LNKTSTAT.HOPS) d.lnk.seq
    let d1 := lnkSend pDown (f pDown) false (lnkSend pUp (f pUp) false d)
    lnkPump (d1.lnkU fun l => { l with seq := (l.seq + 1) % 256, sentAt := d.now })

/-- The next time frames, SYNCINT µs after the last (R383).  DEDUCED (log entry 171): a frame sent on an update starts the interval
again, so no two are more than SYNCINT µs apart. -/
def lnkTimeNext (d : Dev) : Dev :=
  if d.f (.lnk .lnktstat) LNKTSTAT.STATE < 2 then lnkTimeSend d else lnkTimeSend (d.at (d.lnk.sentAt + lnkSync d * tuUs))

/-- The source port among the usable frames received lately (R384). -/
def lnkSource (d : Dev) : Option (Fin 2 × Nat) :=
  let ok (p : Fin 2) : Option Nat := match d.lnk.port[p].rx with
    | some r => if d.now ≤ r.at_ + lnkHold d then some r.hops else none
    | none => none
  match ok pUp, ok pDown with
  | some a, some b => if b < a then some (pDown, b) else some (pUp, a)
  | some a, none => some (pUp, a)
  | none, some b => some (pDown, b)
  | none, none => none

/-- The correction of R384 from a usable frame of the source port. -/
def lnkCorrect (p : Fin 2) (e : Int) (d0 : Dev) : Dev :=
  let d := (d0.put (.lnk .lnkterr) (sat31 e)).lnkU fun l => { l with latched := false }
  let st := d.f (.lnk .lnktstat) LNKTSTAT.STATE
  if st = 1 then
    if d.b (.lnkp p .stat) LNKP_STAT.DVALID then
      let d1 := (lnkRebase d).lnkU fun l => { l with base := l.base + e * 2 ^ 32 }
      lnkTimeSend ((d1.setF (.lnk .lnktstat) LNKTSTAT.GOOD 0).setF (.lnk .lnktstat) LNKTSTAT.STATE 2)
    else d
  else if st = 2 then
    if 24 * max 1 (d.f (.lnk .lnktcfg) LNKTCFG.STEPTHR) < e.natAbs then
      lnkValid false (d.setF (.lnk .lnktstat) LNKTSTAT.STATE 1)
    else
      let r := clampI (-1073742) 1073742 (d.lnk.rate + truncDiv (e * 2 ^ 32) (16 * lnkSync d * 38400))
      let d1 := (lnkRebase d).lnkU fun l => { l with rate := r, pend := l.pend + 8 * truncDiv e 2 }
      let good := if e.natAbs ≤ d.f (.lnk .lnktcfg) LNKTCFG.LOCKWIN then min 255 (d.f (.lnk .lnktstat) LNKTSTAT.GOOD + 1) else 0
      let d2 := (d1.setF (.lnk .lnktstat) LNKTSTAT.GOOD good).put (.lnk .lnkrate) (wInt r)
      lnkTimeSend (if !d.ctv && decide (16 ≤ good) then lnkValid true d2 else d2)
  else d

/-- A control or time frame that is to be consumed: the port is trained and its CRC is good (R364, R366). -/
def lnkTake (p : Fin 2) (ok : Bool) (t : Nat) (act : Dev → Dev) (d0 : Dev) : Dev :=
  let d := lnkPump (d0.at t)
  if !lnkTrained d p then d
  else if !ok then d.bump (.lnkp p .cnt) LNKP_CNT.TCRC
  else lnkPump (act d)

/-- A time frame is received (R383, R384, R387). -/
def lnkTimeFrame (p : Fin 2) (t tx : Nat) (v back : Bool) (hops : Nat) (d0 : Dev) : Dev :=
  let ta := d0.devTime t
  let open_ := d0.lnk.openE
  let e0 : Int := (tx : Int) + d0.f (.lnkp p .dly) LNKP_DLY.IN - ta
  let e : Int := if open_ then (Config.freeValue d0.free).toInt else e0
  let d1 := if open_ then (d0.lnkU fun l => { l with openE := false }).bumpFree else d0
  let d := d1.at t
  if lnkHead d then
    if lnkWhole d && p == pUp then d.put (.lnk .lnkringerr) (sat31 e) else d
  else if v && !back && decide (hops ≤ 62) then
    let d2 := d.portU p fun q => { q with rx := some { at_ := d.now, hops := hops } }
    match lnkSource d2 with
    | some (s, h) =>
      let d3 := (d2.setF (.lnk .lnktstat) LNKTSTAT.SRCP s.val).setF (.lnk .lnktstat) LNKTSTAT.HOPS (h + 1)
      if s = p ∧ d3.b (.lnk .lnkctl) LNKCTL.TEN then lnkCorrect p e d3 else d3
    | none => d2
  else d

/-- No usable frame for the hold time: chain time is lost (R385). -/
def lnkTimeout (d : Dev) : Dev :=
  if !lnkHead d && d.f (.lnk .lnktstat) LNKTSTAT.STATE == 2 then
    let last := max (d.lnk.port[pUp].rx.elim 0 (·.at_)) (d.lnk.port[pDown].rx.elim 0 (·.at_))
    let d1 := d.at (last + lnkHold d)
    lnkValid false (d1.setF (.lnk .lnktstat) LNKTSTAT.STATE 1)
  else d

/-! ### Delay measurement (R382) -/

/-- Time to the next exchange: 2 µs while more of the 16 are to be made, then DMINT ms (R382, R390). -/
def lnkExGap (d : Dev) (p : Fin 2) : Nat :=
  if 1 < d.lnk.port[p].left then 2 * tuUs else max 1 (d.f (.lnkp p .ctl) LNKP_CTL.DMINT) * 1000 * tuUs

/-- A port begins an exchange, on its schedule. -/
def lnkExchange (p : Fin 2) (d0 : Dev) : Dev :=
  if lnkTrained d0 p then
    let d := lnkPump (d0.at d0.lnk.port[p].nextEx)
    lnkPump (lnkSend p .dreq false (d.portU p fun q =>
      { q with exch := q.exch ++ [(d.now, none)], left := q.left - 1, nextEx := d.now + lnkExGap d p }))
  else d0

/-- A DREQ received is answered on the same link. -/
def lnkDreq (p : Fin 2) (t : Nat) (d : Dev) : Dev := lnkSend p (.drsp (d.stamp t) 0) false d

/-- Write OUT and IN once 16 exchanges have been made. -/
def lnkDelays (p : Fin 2) (d : Dev) : Dev :=
  let q := d.lnk.port[p]
  if q.dels.length < 16 then d
  else
    let asym := sextN 16 (d.f (.lnkp p .asym) LNKP_ASYM.ASYM)
    let sum := q.dels.foldl (· + ·) 0
    -- sum is 256 times the mean, in fine units; asym / 2 is 128 of them
    let out := rndAway (sum + 128 * asym) 256
    let inw := rndAway (sum - 128 * asym) 256
    let d1 := d.put (.lnkp p .dly) ((0 : Word) |> LNKP_DLY.OUT.put (out % 65536).toNat |> LNKP_DLY.IN.put (inw % 65536).toNat)
    d1.flagIf (decide (16 ≤ q.done_)) (.lnkp p .stat) LNKP_STAT.DVALID

/-- Exchanges whose DRSP may still come at instant t: the oldest whose DREQ left more than 20 µs before are unused. -/
def exLive (t : Nat) : List (Nat × Option Nat) → List (Nat × Option Nat)
  | [] => []
  | e :: l => if e.2.isSome && decide (e.1 + 20 * tuUs < t) then exLive t l else e :: l

/-- A DRSP completes the oldest exchange of its port that waits for one: a link answers in order. -/
def lnkDrsp (p : Fin 2) (t t2 t3 : Nat) (d : Dev) : Dev :=
  match exLive t d.lnk.port[p].exch with
  | (_, some t1) :: rest =>
    -- d in 1/16 fine unit: half of ((t4 - t1) - (t3 - t2)), taken 16 times
    let x : Int := (d.devTime t - t1 - ((t3 : Int) - t2)) * 8
    lnkDelays p (d.portU p fun q => { q with exch := rest, dels := (x :: q.dels).take 16, done_ := min 16 (q.done_ + 1) })
  | _ => d

/-- A DRSP did not come within 20 µs of its DREQ: the exchange is unused.  An exchange whose DREQ waits to leave goes on. -/
def lnkExchTimeout (p : Fin 2) (d : Dev) : Dev :=
  match d.lnk.port[p].exch with
  | (t, some _) :: rest => (d.at (t + 20 * tuUs)).portU p fun q => { q with exch := rest }
  | _ => d

/-- A port starts its 16 initial exchanges. -/
def lnkMeasure (p : Fin 2) (d : Dev) : Dev :=
  if lnkTrained d p then d.portU p fun q => { q with left := 16, nextEx := d.now } else d

/-! ### Enumeration (R372, R373) -/

/-- An enumeration is under way at this unit: ENUMBUSY sets, and READY2.ENUM clears until it completes (R349, R373). -/
def lnkEnumBegin (d : Dev) : Dev := (d.flag (.lnk .lnkstat) LNKSTAT.ENUMBUSY).setB (.sys (.ready 2)) READY2.ENUM false

/-- The head starts an enumeration, unless one is in progress; its flags byte is 0 (log entry 172). -/
def lnkEnumStart (d : Dev) : Dev :=
  if lnkHead d && !lnkBusy d then lnkSend pDown (.enum 1 0) false (lnkEnumBegin d) else d

/-- An enumeration completes at this unit. -/
def lnkEnumEnd (count : Nat) (ring ovr : Bool) (d : Dev) : Dev :=
  let d1 := ((d.setF (.lnk .lnkaddr) LNKADDR.COUNT count).setB (.lnk .lnkstat) LNKSTAT.RING ring).setB (.lnk .lnkstat) LNKSTAT.ENUMBUSY false
  let d2 := (d1.flag (.sys (.ready 2)) READY2.ENUM).flagIf d.lnk.moved (.lnk .lnkstat) LNKSTAT.ADDRCHG
  d2.lnkU fun l => { l with moved := false, ovr := ovr }

/-- ENUMERR and line 461. -/
def lnkEnumErr (d : Dev) : Dev := (d.flag (.lnk .lnkstat) LNKSTAT.ENUMERR).pulse 461

/-- An ENUM is received on port p, with the head's flags, which are passed on hop by hop (R367).  DEDUCED (log entry 120): a head
closes a ring with the next address of an enumeration it has in progress, which a ring of 1 to 64 units makes 1 to 64. -/
def lnkEnum (p : Fin 2) (n : Nat) (flags : Byte) (d : Dev) : Dev :=
  if p = pDown then d
  else if lnkHead d then
    if lnkBusy d && decide (1 ≤ n ∧ n ≤ 64) then lnkSend pUp (.enumDone n true false) false ((d.flag (.lnk .lnkstat) LNKSTAT.RING).setF (.lnk .lnkaddr) LNKADDR.COUNT n)
    else lnkEnumErr (d.flag (.lnk .lnkstat) LNKSTAT.DUPHEAD)
  else if 63 < n then lnkSend pUp (.enumDone 64 false true) false 
    (lnkEnumErr ((d.setB (.lnk .lnkaddr) LNKADDR.V false).setB (.sys (.ready 2)) READY2.ENUM false))
  else
    let moved := d.lnk.moved || lnkAddr d != n
    let d1 := lnkEnumBegin ((d.setF (.lnk .lnkaddr) LNKADDR.ADDR n).flag (.lnk .lnkaddr) LNKADDR.V)
    let d2 := d1.lnkU fun l => { l with moved := moved }
    if lnkTrained d2 pDown then lnkSend pDown (.enum (n + 1) flags.toNat) true d2
    else lnkSend pUp (.enumDone (n + 1) false false) false (lnkEnumEnd (n + 1) false false d2)

/-- An ENUM_DONE is received. -/
def lnkEnumDone (count : Nat) (ring ovr : Bool) (d : Dev) : Dev :=
  let d1 := lnkEnumEnd count ring ovr d
  if lnkHead d1 then d1 else lnkSend pUp (.enumDone count ring ovr) true d1

/-! ### Breaks, lockdown notices and ports (R364, R376-R379) -/

/-- Address on the head side of the link at port `port` of unit `a` (R377). -/
def lnkLinkOf (d : Dev) (a port : Nat) : Nat := if port = 1 then a else if a = 0 then lnkCount d - 1 else a - 1

/-- A unit consumes an LSTAT (R377, R378, R373). -/
def lnkLstat (a port state : Nat) (d : Dev) : Dev :=
  let l := lnkLinkOf d a port
  if state = 0 then
    ((d.flag (.lnk .lnkstat) LNKSTAT.BREAKF).flag (.lnk .lnkaddr) LNKADDR.BRK).setF (.lnk .lnkaddr) LNKADDR.BRKA l
  else
    let d1 := if d.f (.lnk .lnkaddr) LNKADDR.BRKA = l then d.setB (.lnk .lnkaddr) LNKADDR.BRK false else d
    if d1.b (.lnk .lnkctl) LNKCTL.AUTOENUM then lnkEnumStart d1 else d1

/-- This unit reports its own port, and consumes the report.  The break of a port that fell is recorded before its report goes
out, so that in a ring the report leaves on both ports (R376, R377). -/
def lnkReport (p : Fin 2) (state : Nat) (d : Dev) : Dev :=
  let a := lnkAddr d
  let send := lnkBroadcast fun q d => lnkSend q (.lstat a p.val state) false d
  if state = 0 then send (lnkLstat a p.val 0 d) else lnkLstat a p.val state (send d)

/-- A broadcast control frame received on port p from address src: consumed and passed on, unless it is this unit's own. -/
def lnkRelay (p : Fin 2) (src : Nat) (f : Frame) (act : Dev → Dev) (d : Dev) : Dev :=
  if src = lnkAddr d ∧ lnkV d then d else act (lnkSend (portOpp p) f true d)

/-- The lockdown notice of this unit (R379, R233). -/
def lnkNotice (cls : Nat) (d : Dev) : Dev :=
  let f : Frame := .lockdown (lnkAddr d) cls (d.stamp d.now)
  lnkSend pDown f false (lnkSend pUp f false d)

/-- A LOCKDOWN frame is consumed (R379). -/
def lnkLockdown (src cls : Nat) (d : Dev) : Dev :=
  ((d.flag (.lnk .lnkstat) LNKSTAT.LDNRX).put (.lnk .lnkldn)
    ((0 : Word) |> LNKLDN.V.put 1 |> LNKLDN.CLASS.put cls |> LNKLDN.SRC.put src)).pulse 460

/-- READY2 bit of a port. -/
def lnkReady (p : Fin 2) : Fld := if p = 0 then READY2.UP else READY2.DOWN

/-- Port p goes down (R364, R377): a port that was not trained only starts again. -/
def lnkPortDown (p : Fin 2) (d0 : Dev) : Dev :=
  let d := lnkPump d0
  if lnkTrained d p then
    let held := d.lnk.port[p].txq.length
    let d1 := d.portU p fun q => { q with txq := [], exch := [], left := 0, dels := [], done_ := 0, idleR := false }
    let d2 := d1.bumpBy (.lnk .lnkcnt) LNKCNT.NOROUTE held
    let d3 := (d2.setB (.lnkp p .stat) LNKP_STAT.TRAINED false).setB (.lnkp p .stat) LNKP_STAT.DVALID false
    let d4 := ((d3.flag (.lnkp p .stat) LNKP_STAT.DOWNF).flag (.lnk .lnkstat) LNKSTAT.DOWNF).bump (.lnkp p .cnt) LNKP_CNT.RETRAIN
    lnkReport p 0 ((d4.setB (.sys (.ready 2)) (lnkReady p) false).lineOn (456 + p.val))
  else d

/-- The port and the link are on. -/
def lnkOn (d : Dev) (p : Fin 2) : Bool := d.b (.lnk .lnkctl) LNKCTL.EN && d.b (.lnkp p .ctl) LNKP_CTL.EN

/-- Port p trains (R364, R378, R373). -/
def lnkPortUp (p : Fin 2) (d0 : Dev) : Dev :=
  let d := lnkPump d0
  if !lnkOn d p || lnkTrained d p then d
  else
    let again := d.lnk.port[p].once
    let d1 := (d.flag (.lnkp p .stat) LNKP_STAT.TRAINED).flag (.lnkp p .stat) LNKP_STAT.PARTRDY
    let d2 := (d1.setF (.lnkp p .stat) LNKP_STAT.ALIGN 3).portU p fun q =>
      { q with once := true, idleR := true, left := 16, dels := [], done_ := 0, exch := [], nextEx := d.now }
    let d3 := ((d2.flag (.sys (.ready 2)) (lnkReady p)).flag (.lnk .lnkstat) LNKSTAT.UPF).lineOff (456 + p.val)
    let d4 := lnkReport p 1 d3
    if p = pDown ∨ (again ∧ d4.b (.lnk .lnkctl) LNKCTL.AUTOENUM) then lnkPump (lnkEnumStart d4) else lnkPump d4

/-- The lanes of port p gain or lose alignment (R364); a trained port that loses it goes down. -/
def lnkAlign (p : Fin 2) (align inv skew : Nat) (partner : Bool) (d : Dev) : Dev :=
  if !lnkOn d p then d
  else
    let d1 := ((d.setF (.lnkp p .stat) LNKP_STAT.ALIGN align).setF (.lnkp p .stat) LNKP_STAT.INV inv).setF (.lnkp p .stat) LNKP_STAT.SKEW (min 8 skew)
    let d2 := (d1.setB (.lnkp p .stat) LNKP_STAT.PARTRDY partner).portU p fun q => { q with idleR := decide (align % 4 = 3) }
    if align % 4 = 3 then d2 else lnkPortDown p d2

/-- A 1 ms window of port p ends with `errs` code and disparity errors (R364, R388). -/
def lnkErrWindow (p : Fin 2) (errs : Nat) (d : Dev) : Dev :=
  let d1 := d.bumpBy (.lnkp p .cnt) LNKP_CNT.SYMERR errs
  if lnkTrained d1 p && decide (d1.f (.lnkp p .ctl) LNKP_CTL.ERRTH < errs) then
    lnkPortDown p ((d1.flag (.lnkp p .stat) LNKP_STAT.ERRTHF).pulse 458)
  else d1

/-! ### Packet frames (R368, R370, R374-R376) -/

/-- CRC-8 of a list of bytes: polynomial x^8 + x^2 + x + 1, initial value 0 (R368). -/
def crc8Byte (c : Nat) : Nat → Nat
  | 0 => c
  | k + 1 => crc8Byte (if 128 ≤ c then (2 * c) % 256 ^^^ 7 else 2 * c) k
def crc8 (l : List Byte) : Nat := l.foldl (fun c b => crc8Byte (c ^^^ b.toNat) 8) 0

/-- A packet frame with a good envelope: passed on where it must be.  The result says whether this unit consumes it. -/
def lnkPacketGo (p : Fin 2) (dst src kind : Nat) (bytes : List Byte) (aborted : Bool) (d : Dev) : Bool × Dev :=
  let f : Frame := .packet dst src kind bytes aborted
  if isBroadcast dst then
    if src = lnkAddr d ∧ lnkV d then (false, d)
    else (true, if lnkTrained d (portOpp p) then lnkSendPacket (portOpp p) f true d else d)
  else if lnkBusy d || !lnkV d then (false, lnkNoRoute d)
  else if dst = lnkAddr d then (true, d)
  else match lnkRoute d dst with
    | some q => (false, lnkSendPacket q f true d)
    | none => (false, lnkNoRoute d)

/-- A packet frame received on port p, up to its end (R368, R370); an envelope cut short lacks its last symbols.  An abort is
counted wherever in the frame it comes; a frame aborted inside its envelope leaves nothing more, and one that ends so without ABORT has no good envelope.  The
result is what this unit consumes: SRC, KIND and the packet's bytes. -/
def lnkPacket (p : Fin 2) (dst src kind crc : Option Byte) (bytes : List Byte) (aborted : Bool) (d0 : Dev) :
    Option (Nat × Nat × List Byte) × Dev :=
  let d := lnkPump d0
  if !lnkTrained d p then (none, d)
  else
    let d1 := if aborted then d.bump (.lnk .lnkcnt) LNKCNT.ABORT_CNT else d
    let bad := d1.bump (.lnk .lnkcnt) LNKCNT.FMTERR
    match dst, src, kind, crc with
    | some dst, some src, some kind, some crc =>
      if crc8 [dst, src, kind] ≠ crc.toNat then (none, bad)
      else
        let r := lnkPacketGo p dst.toNat src.toNat kind.toNat bytes aborted d1
        (if r.1 then some (src.toNat, kind.toNat, bytes) else none, r.2)
    | _, _, _, _ => (none, if aborted then d1 else bad)

/-! ### Registers (R390) -/

/-- Write of a link register. -/
def lnkWrite (r : LnkReg) (v : Word) (d : Dev) : Dev :=
  match r with
  | .lnkctl =>
    let d1 := lnkService (d.wr (.lnk .lnkctl) v)
    if LNKCTL.EN.bit v then d1 else lnkPortDown pDown (lnkPortDown pUp d1)
  | .lnktcfg =>
    let d1 := d.wr (.lnk .lnktcfg) v
    if d.f (.lnk .lnktstat) LNKTSTAT.STATE = 2 then d1.lnkU fun l => { l with openE := true } else d1
  | .lnktcmd =>
    let d1 := if LNKTCMD.ENUM.bit v then lnkPump (lnkEnumStart (lnkPump d)) else d
    if LNKTCMD.DMEAS.bit v then lnkMeasure pDown (lnkMeasure pUp d1) else d1
  | .lnkcnt => d
  | r => d.wr (.lnk r) v

/-- Write of a port register. -/
def lnkpWrite (p : Fin 2) (r : LnkpReg) (v : Word) (d : Dev) : Dev :=
  match r with
  | .ctl =>
    let d1 := d.wr (.lnkp p .ctl) v
    if LNKP_CTL.EN.bit v then d1 else lnkPortDown p d1
  | .asym =>
    let d1 := d.wr (.lnkp p .asym) v
    if d.f (.lnk .lnktstat) LNKTSTAT.STATE = 2 then d1.lnkU fun l => { l with openE := true } else d1
  | .cnt => d
  | r => d.wr (.lnkp p r) v

/-- Read of a link register: the value, and what the read does. -/
def lnkRead (r : LnkReg) (d : Dev) : Word × Dev :=
  match r with
  | .lnktimel =>
    let t := d.stamp d.now
    (lo32 t, (d.put (.lnk .lnktimeh) (hi32 t)).lnkU fun l => { l with latched := true })
  | .lnktimeh => if d.lnk.latched then (d.get (.lnk .lnktimeh), d) else (Config.freeValue d.free, d.bumpFree)
  | r => (d.get (.lnk r), d.clearRC (.lnk r))

end Sys2Proof.Machine
end

