-- ==== Sys2Proof/Machine/HostReply.lean ====
section
/-!
DEFINITION. Flags of the host interface, reply packets and their queues, and the checks a command packet meets when it arrives
(R391-R398, R405, R409-R411).
-/
namespace Sys2Proof.Machine
open Sys2Proof

/-- Replace the host interface's hidden state. -/
def Dev.hstU (d : Dev) (g : HstSt → HstSt) : Dev := { d with hst := g d.hst }

/-- A flag of HSTAT sets; MSI-X vector 1 is sent when a bit of HSTAT & HIEN sets (R409). -/
def hstFlag (f : Fld) (d : Dev) : Dev :=
  let d1 := d.flag (.hif .hstat) f
  if f.bit (d.get (.hif .hien)) && !f.bit (d.get (.hif .hstat)) then d1.msix 1 else d1

/-- Status codes (R405). -/
def stOk : Nat := 0
def stCalPartial : Nat := 0x1
def stBadCrc : Nat := 0x10
def stTruncated : Nat := 0x11
def stLength : Nat := 0x12
def stBadOpcode : Nat := 0x13
def stBadParam : Nat := 0x14
def stBadAddr : Nat := 0x15
def stPoisoned : Nat := 0x16
def stBusy : Nat := 0x17
def stNoRoute : Nat := 0x18
def stTimeout : Nat := 0x19
def stNoFirmware : Nat := 0x1A
def stFwTimeout : Nat := 0x1B
def stBadDesc : Nat := 0x20
def stNotReady : Nat := 0x21
def stImgActive : Nat := 0x36
def stTkPending : Nat := 0x50
def stTkRefused : Nat := 0x51

/-- A packet: header with its CRC-16, body, CRC-32C (R391-R393). -/
def packet (op tag dst flags : Nat) (body : List Byte) : List Byte :=
  let h := [op, tag, dst, flags].map (BitVec.ofNat 8) ++ bytesLE 2 body.length
  h ++ bytesLE 2 (crc16 h) ++ body ++ bytesLE 4 (crc32c body)

/-- The bytes of a reply (R393). -/
def replyBytes (d : Dev) (h : CmdHdr) (status : Nat) (data : List Byte) : List Byte :=
  packet h.op h.tag (if lnkV d then lnkAddr d else 0xFF) 0x80 (bytesLE 2 status ++ data)

/-- The head of the mailbox's reply queue is placed in HMBRPL and vector 0 is sent (R409). -/
def hmbLoad (d : Dev) : Dev :=
  match d.hst.pcie with
  | [] => d
  | b :: _ =>
    (d.each (fins 512) fun k d =>
      if 4 * k.val < b.length then d.put (.hif (.hmbrpl k)) (wordAt b (4 * k.val)) else d).msix 0

/-- A reply is queued on an interface. -/
def hstQueue (i : Iface) (dst : Nat) (b : List Byte) (d : Dev) : Dev :=
  match i with
  | .link => lnkOwnPacket dst 1 b d
  | .pcie =>
    let d1 := d.hstU fun x => { x with pcie := x.pcie ++ [b] }
    if d.hst.pcie.isEmpty then hmbLoad d1 else d1
  | .spi => d.hstU fun x => { x with spiQ := x.spiQ ++ [b] }

/-- Replies of this unit that wait in the link's queues. -/
def lnkReplies (d : Dev) : Nat :=
  ((fins 2).map fun p => (d.lnk.port[p].txq.filter fun x =>
    !x.fwd && (match x.frame with
      | .packet _ _ k _ _ => k == 1
      | _ => false)).length).sum

/-- An interface's queue takes one more reply: it holds at most 4 (R398), and that of a PCIe endpoint in reset is full to its
writer (R41). -/
def hstSpace (d : Dev) (i : Iface) : Bool :=
  match i with
  | .link => decide (lnkReplies d < 4)
  | .pcie => !d.hst.perst && decide (d.hst.pcie.length < 4)
  | .spi => decide (d.hst.spiQ.length < 4)

/-- An interface has room for one more reply, and none that was made before waits for it. -/
def hstRoom (d : Dev) (i : Iface) : Bool := hstSpace d i && d.hst.late.all fun x => x.1 != i

/-- A reply goes to its interface's queue, or waits for room in it.  DESIGN CHOICE (log entry 174): the reply of a command that
completes while 4 replies are queued waits for the queue. -/
def hstPut (i : Iface) (dst : Nat) (b : List Byte) (d : Dev) : Dev :=
  if hstRoom d i then hstQueue i dst b d else d.hstU fun x => { x with late := x.late ++ [(i, dst, b)] }

/-- Reply to a command, unless the reply is suppressed (R396). -/
def hstReply (h : CmdHdr) (status : Nat) (data : List Byte) (d : Dev) : Dev :=
  if (h.bcast && !bitN h.flags 1) || (status == 0 && bitN h.flags 0) then d
  else hstPut h.iface h.src (replyBytes d h status data) d

/-- Replies that waited for room are queued, the oldest of an interface first. -/
def hstLateN : Nat → Dev → Dev
  | 0, d => d
  | n + 1, d =>
    match d.hst.late.find? fun x => hstSpace d x.1 with
    | none => d
    | some x => hstLateN n (hstQueue x.1 x.2.1 x.2.2 (d.hstU fun h => { h with late := h.late.erase x }))

/-- The commands the interpreter sees: while the PCIe endpoint is in reset, the FIFO from it reads as empty (R41). -/
def hstSeen (d : Dev) : List Cmd := if d.hst.perst then d.hst.cmds.filter fun c => c.hdr.iface != .pcie else d.hst.cmds

/-- A command leaves the interpreter's queue. -/
def hstPop (c : Cmd) (d : Dev) : Dev := d.hstU fun x => { x with cmds := x.cmds.erase c }

/-- Packets at the front of the interpreter's queue that failed a check are answered (R394). -/
def hstFlushN : Nat → Dev → Dev
  | 0, d => d
  | n + 1, d =>
    match hstSeen d with
    | [] => d
    | c :: _ =>
      match c.err with
      | none => d
      | some st => if hstRoom d c.hdr.iface then hstFlushN n (hstReply c.hdr st [] (hstPop c d)) else d
def hstFlush (d0 : Dev) : Dev :=
  let d := hstLateN d0.hst.late.length d0
  hstFlushN d.hst.cmds.length d

/-- The interface that reaches the chain (R396). -/
def hstChainIf (d : Dev) : Iface := if d.b (.hif .hifcfg) HIFCFG.CHAINIF then .spi else .pcie

/-- A DST addresses no unit (R397). -/
def dstNone (d : Dev) (dst : Nat) : Bool :=
  decide (0x40 ≤ dst ∧ dst ≤ 0x7E) || (lnkV d && decide (dst < 0x40 ∧ lnkCount d ≤ dst))

/-- The checks of R394 on a whole packet, up to the route: the status of the first that fails. -/
def packetErr (b : List Byte) (len : Nat) : Option Nat :=
  let flags := (b.getD 3 0).toNat
  let body := (b.drop 8).take len
  if crc32c body ≠ ofLE ((b.drop (8 + len)).take 4) then some stBadCrc
  else if bitsN flags 7 3 ≠ 0 then some stBadParam
  else none

/-- Where a packet goes (R394, R396, R397). -/
inductive PktRoute where
  | here
  | noRoute
  | forward
  | both
  deriving DecidableEq, Repr
def pktRoute (d : Dev) (i : Iface) (dst flags : Nat) : PktRoute :=
  if bitN flags 2 || i == .link then .here
  else if isBroadcast dst then (if lnkV d then .both else .here)
  else if dstNone d dst then .noRoute
  else if !lnkV d || dst == lnkAddr d then .here
  else if i == hstChainIf d then .forward
  else .noRoute

/-- SPI packets that await their start (R411): the interpreter has started the packet at the head of its queue, unless 4 replies of its
interface are queued (R398). -/
def hstSpiHeld (d : Dev) : Nat :=
  let waiting := match hstSeen d with
    | c :: t => if hstRoom d c.hdr.iface then t else c :: t
    | [] => []
  (waiting.filter fun x => x.hdr.iface == .spi).length

/-- Put a packet into the interpreter's queue (R398). -/
def hstEnqueue (c : Cmd) (d : Dev) : Dev := hstFlush (d.hstU fun x => { x with cmds := x.cmds ++ [c] })

/-- The header of a packet as its reply needs it. -/
def hstHdr (i : Iface) (src : Nat) (b : List Byte) : CmdHdr :=
  let n (o : Nat) : Nat := (b.getD o 0).toNat
  { iface := i, op := n 0, tag := n 1, flags := n 3, bcast := !bitN (n 3) 2 && isBroadcast (n 2), src := src }

/-- A whole packet has arrived on an interface with a good header (R394, R396); one that completes on SPI while two await their start is
discarded (R411). -/
def hstPacket (i : Iface) (src : Nat) (b : List Byte) (d : Dev) : Dev :=
  if i == .spi && decide (2 ≤ hstSpiHeld d) then hstFlag HSTAT.SPIOVF d else
  let len := ofLE ((b.drop 4).take 2)
  let dst := (b.getD 2 0).toNat
  let h := hstHdr i src b
  let c (e : Option Nat) : Cmd :=
    { hdr := h, payload := (b.drop 8).take len, raw := b.take (12 + len), at_ := d.now, err := e, stamp := d.stamp d.now, tv := d.ctv }
  match packetErr b len with
  | some st =>
    let d1 := if st = stBadCrc then ((hstFlag HSTAT.PCRC d).bump (.hif .hcnt) HCNT.PCRC_CNT).pulse 465 else d
    hstEnqueue (c (some st)) d1
  | none =>
    match pktRoute d i dst h.flags with
    | .here => hstEnqueue (c none) d
    | .noRoute => hstEnqueue (c (some stNoRoute)) d
    | .forward => lnkOwnPacket dst 0 (b.take (12 + len)) d
    | .both => lnkOwnPacket dst 0 (b.take (12 + len)) (hstEnqueue (c none) d)

/-- A bad header CRC (R394). -/
def hstBadHeader (d : Dev) : Dev := ((hstFlag HSTAT.HCRC d).bump (.hif .hcnt) HCNT.HCRC_CNT).pulse 464

/-- A truncation (R395, R423): TRUNC, its count and line 466. -/
def hstTruncFlags (d : Dev) : Dev := ((hstFlag HSTAT.TRUNC d).bump (.hif .hcnt) HCNT.TRUNC_CNT).pulse 466

/-- Input ended inside a packet (R395, R370): the interface returns TRUNCATED where the header was complete and good. -/
def hstTruncated (i : Iface) (src : Nat) (b : List Byte) (d : Dev) : Dev :=
  let d2 := hstTruncFlags d
  if 8 ≤ b.length ∧ crc16 (b.take 6) = ofLE ((b.drop 6).take 2) then hstReply (hstHdr i src b) stTruncated [] d2 else d2

/-- An over-long packet is answered when its header is checked (R394): it does not pass through the interpreter's queue. -/
def hstTooLong (i : Iface) (src : Nat) (b : List Byte) (d : Dev) : Dev := hstReply (hstHdr i src b) stLength [] d

/-- What the first eight bytes say. -/
inductive HdrCheck where
  | short
  | bad
  | long (len : Nat)
  | good (len : Nat)
  deriving DecidableEq, Repr
def hdrCheck (b : List Byte) : HdrCheck :=
  if b.length < 8 then .short
  else if crc16 (b.take 6) ≠ ofLE ((b.drop 6).take 2) then .bad
  else
    let len := ofLE ((b.drop 4).take 2)
    if 1024 < len then .long len else .good len

/-- Parse what the SPI target holds into packets (R394, R395, R410); `fuel` bounds the number of packets. -/
def spiParse : Nat → Dev → Dev
  | 0, d => d
  | n + 1, d =>
    let s := d.hst.spi
    let set (g : SpiSt → SpiSt) (d : Dev) : Dev := d.hstU fun x => { x with spi := g x.spi }
    if s.drop then set (fun y => { y with buf := [] }) d
    else if 0 < s.skip then
      let k := min s.skip s.buf.length
      let d1 := set (fun y => { y with buf := y.buf.drop k, skip := y.skip - k }) d
      if k = 0 then d1 else spiParse n d1
    else
      match hdrCheck s.buf with
      | .short => d
      | .bad => set (fun y => { y with buf := [], drop := true }) (hstBadHeader d)
      | .long len =>
        spiParse n (set (fun y => { y with buf := y.buf.drop 8, skip := len + 4 }) (hstTooLong .spi 0 s.buf d))
      | .good len =>
        if s.buf.length < 12 + len then d
        else spiParse n (set (fun y => { y with buf := y.buf.drop (12 + len) }) (hstPacket .spi 0 (s.buf.take (12 + len)) d))

/-- SBYTE (R425). -/
def spiSbyte (d : Dev) : Nat :=
  8 * b2n (d.b (.sys (.ready 0)) READY0.BOOT) + 4 * b2n (bitsN (d.get (.hif .hstat)).toNat 4 0 != 0) +
    2 * b2n (decide (2 ≤ hstSpiHeld d)) + b2n (!d.hst.spiQ.isEmpty)

/-- SPISTAT: CS is the present level of CS_N. -/
def spiStat (d : Dev) : Word :=
  (0 : Word) |> SPISTAT.CS.put (b2n (!d.hst.spi.low)) |> SPISTAT.RQN.put d.hst.spiQ.length |> SPISTAT.SBYTE.put (spiSbyte d)

/-- The target shifts out its status byte and then `b`. -/
def spiOut (b : List Byte) (d : Dev) : Dev := d.send (.spi (BitVec.ofNat 8 (spiSbyte d) :: b))

/-- The SPI target is on. -/
def spiOn (d : Dev) : Bool := d.b (.hif .hifcfg) HIFCFG.SPIEN

/-- Bytes of a CMD frame (R410): the fall of CS_N begins it. -/
def spiCmd (b : List Byte) (d : Dev) : Dev :=
  if !spiOn d then d
  else
    let d1 := if d.hst.spi.low then d else spiOut [] (d.hstU fun x => { x with spi := { low := true, at_ := d.now } })
    let d2 := d1.hstU fun x => { x with spi := { x.spi with buf := x.spi.buf ++ b, at_ := if b.isEmpty then x.spi.at_ else d.now } }
    spiParse (2 * d2.hst.spi.buf.length + 2) d2

/-- The reply at the head of the SPI queue is shifted out (R410); it is removed if the frame took it whole. -/
def spiRpl (whole : Bool) (d : Dev) : Dev :=
  if !spiOn d || d.hst.spi.low then d
  else
    match d.hst.spiQ with
    | [] => spiOut [0, 0] d
    | b :: t =>
      let d1 := spiOut (bytesLE 2 b.length ++ b) d
      if whole then hstFlush ((d1.hstU fun x => { x with spiQ := t }).replyLeft .spi b d1.now) else d1

/-- SPISTAT is shifted out (R410): CS_N is low meanwhile. -/
def spiStatFrame (d : Dev) : Dev :=
  if !spiOn d || d.hst.spi.low then d else spiOut (bytesLE 4 (SPISTAT.CS.put 0 (spiStat d)).toNat) d

/-- A frame with another code is ignored (R410). -/
def spiIgnored (d : Dev) : Dev :=
  if !spiOn d || d.hst.spi.low then d else spiOut [] (d.bump (.hif .hcnt) HCNT.DROP_CNT)

/-- Partial input ends (R395): by a gap inside a packet, or by the rise of CS_N. -/
def spiPartial (d : Dev) : Dev :=
  let s := d.hst.spi
  let d1 := d.hstU fun x => { x with spi := { x.spi with buf := [], skip := 0 } }
  if s.buf.isEmpty then d1 else hstTruncated .spi 0 s.buf d1

/-- SPI_GAP_TIMEOUT: no byte for 20 µs after the latest (R395, R424). -/
def spiGap (d : Dev) : Dev := if d.hst.spi.low && !d.hst.spi.drop then spiPartial (d.at (d.hst.spi.at_ + 20 * tuUs)) else d
def spiRise (d : Dev) : Dev :=
  if d.hst.spi.low then (spiPartial d).hstU fun x => { x with spi := {} } else d

/-- The bytes in the command mailbox. -/
def hmbBytes (d : Dev) (n : Nat) : List Byte :=
  (List.range n).map fun k => BitVec.ofNat 8 ((d.get (.hif (.hmbcmd (Fin.ofNat 512 (k / 4))))).toNat / 2 ^ (8 * (k % 4)))

/-- The mailbox holds a command (R409): it is held until the interpreter copies the packet out. -/
def hmbBusy (d : Dev) : Bool := d.hst.cmds.any fun c => c.hdr.iface == .pcie

/-- HDBELL is written (R395, R409). -/
def hstDoorbell (count : Nat) (d : Dev) : Dev :=
  if !d.b (.hif .hifcfg) HIFCFG.PCIEEN then d
  else if hmbBusy d then hstFlag HSTAT.DBREJ d
  else
    let b := hmbBytes d count
    match hdrCheck b with
    | .short => hstTruncFlags d
    | .bad => hstBadHeader d
    | .long _ => hstTooLong .pcie 0 b d
    | .good len =>
      if count < 12 + len then hstTruncated .pcie 0 b d
      else hstPacket .pcie 0 (b.take (12 + len)) d

/-- HRACK is written (R409). -/
def hstAck (d : Dev) : Dev :=
  match d.hst.pcie with
  | [] => d
  | b :: t => hstFlush (hmbLoad ((d.hstU fun x => { x with pcie := t }).replyLeft .pcie b d.now))

/-- A write of HMBCMD while the mailbox is held leaves the command being copied open: its packet may be the old bytes or the new.
DESIGN CHOICE (log entry 128). -/
def hmbWrite (k : Fin 512) (v : Word) (d : Dev) : Dev :=
  let d1 := d.put (.hif (.hmbcmd k)) v
  if !hmbBusy d then d1
  else
    let d2 := d1.bumpFree
    if Config.freeBool d.free then d2
    else d2.hstU fun x => { x with cmds := x.cmds.map fun c =>
      if c.hdr.iface == .pcie then
        let raw := hmbBytes d2 c.raw.length
        { c with raw := raw, payload := (raw.drop 8).take c.payload.length }
      else c }

/-- What a read of HMBSTAT gives. -/
def hmbStat (d : Dev) : Word :=
  (0 : Word) |> HMBSTAT.CBUSY.put (b2n (hmbBusy d)) |> HMBSTAT.RRDY.put (b2n (!d.hst.pcie.isEmpty)) |> HMBSTAT.RQN.put d.hst.pcie.length |>
    HMBSTAT.RLEN.put ((d.hst.pcie.head?.map List.length).getD 0)

/-- A packet frame that this unit consumes from the link (R370, R396): a command for the interpreter, or a reply for the interface
that reaches the chain. -/
def hstFromLink (src kind : Nat) (b : List Byte) (aborted : Bool) (d : Dev) : Dev :=
  if kind = 1 then
    if aborted then d
    else hstPut (hstChainIf d) 0 b d
  else
    match hdrCheck b with
    | .short => hstTruncated .link src b d
    | .bad => hstBadHeader d
    | .long _ => hstTooLong .link src b d
    | .good len => if aborted || decide (b.length < 12 + len) then hstTruncated .link src b d else hstPacket .link src b d

/-- The core reset of S ends an IMAGE_COMMIT in progress with NOT_READY (R403). -/
def hstCommitAbort (d : Dev) : Dev :=
  match d.hst.commit with
  | none => d
  | some h => hstReply h stNotReady [] (d.hstU fun x => { x with commit := none })

end Sys2Proof.Machine
end

