-- ==== Sys2Proof/Machine/HostRegs.lean ====
section
/-!
DEFINITION. The registers of the host interface and of the capture engine: firmware replies (R404), the endpoint (R406), the
mailbox (R409), and the enable and the guards of a ring set (R416-R422).
-/
namespace Sys2Proof.Machine
open Sys2Proof

/-- Firmware's time to answer (R404, R425): FWTMO ms, 0 acting as 1. -/
def fwTime (d : Dev) : Nat := max 1 (d.f (.hif .hifcfg) HIFCFG.FWTMO) * 1000 * tuUs

/-- A firmware command in FWCMDBUF has gone unanswered for its time (R404). -/
def fwExpired (d : Dev) : Bool :=
  match d.hst.fw with
  | some (_, t) => decide (t + fwTime d ≤ d.now)
  | none => false

/-- FIRMWARE_TIMEOUT (R404): the reply is FW_TIMEOUT and PEND clears. -/
def fwTimeout (d : Dev) : Dev :=
  match d.hst.fw with
  | none => d
  | some (h, t) =>
    let d1 := (d.at (t + fwTime d)).hstU fun x => { x with fw := none, fwLate := true }
    let d2 := ((d1.setB (.hif .fwstat) FWSTAT.PEND false).flag (.hif .fwstat) FWSTAT.TMOF).pulse 471
    hstReply h stFwTimeout [] d2

/-- Bytes of FWRPLBUF. -/
def fwBytes (d : Dev) (n : Nat) : List Byte := (((fins 512).take ((n + 3) / 4)).flatMap fun k => bytesLE 4 (d.get (.hif (.fwrplbuf k))).toNat).take n

/-- FWRPL is written (R404): the reply is built, or the write is refused, and counts as late too once the command has timed out. -/
def fwReply (v : Word) (d0 : Dev) : Dev :=
  let d := if fwExpired d0 then fwTimeout d0 else d0
  let n := FWRPL.DLEN.get v
  let rej := d.flag (.hif .fwstat) FWSTAT.RPLREJ
  match d.hst.fw with
  | some (h, _) =>
    if 1024 < n then rej
    else hstReply h (FWRPL.STATUS.get v) (fwBytes d n) ((d.setB (.hif .fwstat) FWSTAT.PEND false).hstU fun x => { x with fw := none })
  | none => if d.hst.fwLate then rej.flag (.hif .fwstat) FWSTAT.LATE else rej

/-- The PCIe link leaves L0 (R349, R408, R423). -/
def pcieDown (d : Dev) : Dev :=
  if d.l0 then
    let d1 := (d.setB (.hif .pciestat) PCIESTAT.L0 false).setB (.sys (.ready 0)) READY0.PCIE false
    let d2 := hstFlag HSTAT.L0LOST (d1.lineOn 467)
    -- whether the lines on their way are lost with the link is open (log entry 186)
    if d2.cap.any fun c => !c.sent.isEmpty then
      (if Config.freeBool d2.free then d2.bumpFree.each (fins 16) capLinkLost else d2.bumpFree)
    else d2
  else d

/-- The PCIe link enters L0 at a speed and a width (R406). -/
def pcieUp (speed width : Nat) (d : Dev) : Dev :=
  if d.hst.perst || !d.b (.hif .hifcfg) HIFCFG.PCIEEN then d
  else
    let s := (0 : Word) |> PCIESTAT.L0.put 1 |> PCIESTAT.SEEN.put 1 |> PCIESTAT.SPEED.put speed |> PCIESTAT.WIDTH.put width
    ((d.put (.hif .pciestat) s).flag (.sys (.ready 0)) READY0.PCIE).lineOff 467

/-- HIEN is written: vector 1 is sent when a bit of HSTAT and HIEN newly meets (R409). -/
def hienWrite (v : Word) (d : Dev) : Dev :=
  let was := d.get (.hif .hstat) &&& d.get (.hif .hien)
  let d1 := d.wr (.hif .hien) v
  if d1.get (.hif .hstat) &&& d1.get (.hif .hien) &&& ~~~was = 0 then d1 else d1.msix 1

/-- A word of the MSI-X table is written; unmasking a vector whose pending bit is set sends it. -/
def msixWrite (k : Fin 32) (v : Word) (d : Dev) : Dev :=
  let d1 := d.wr (.hif (.msixtab k)) v
  let e := k.val / 4
  if k.val % 4 == 3 && !v.getLsbD 0 && (d1.get (.hif .msixpba)).getLsbD e then (d1.setBit (.hif .msixpba) e false).msix e else d1

/-- Write of a host interface register (R425). -/
def hifWrite (r : HifReg) (v : Word) (d : Dev) : Dev :=
  match r with
  | .hifcfg =>
    let d1 := d.wr (.hif .hifcfg) v
    if HIFCFG.PCIEEN.bit v then d1 else pcieDown d1
  | .hien => hienWrite v d
  | .hdbell => hstDoorbell (HDBELL.COUNT.get v) d
  | .hrack => hstAck d
  | .fwrpl => fwReply v d
  | .hmbcmd k => hmbWrite k v d
  | .msixtab k => msixWrite k v d
  | r => d.wr (.hif r) v

/-- Read of a host interface register. -/
def hifRead (d : Dev) (r : HifReg) : Word :=
  match r with
  | .hmbstat => hmbStat d
  | .spistat => spiStat d
  | r => d.get (.hif r) &&& ~~~r.access.wo

/-- A descriptor at an address, from its four words, if it meets R416. -/
def capDescOf (a : Nat) (l : List Word) : Option CapDesc :=
  let w (k : Nat) : Nat := (l.getD k 0).toNat
  let addr := w 0 + w 1 * 2 ^ 32
  if inSram a && inSram (a + 15) && w 0 % 64 == 0 && decide (w 1 < 2 ^ 16) && w 2 % 64 == 0 && decide (64 ≤ w 2 ∧ w 2 ≤ 2 ^ 30) &&
      decide (w 3 < 2) && decide (addr + w 2 ≤ 2 ^ 48) then
    some { addr := addr, len := w 2, irq := w 3 == 1 }
  else none

/-- Read words as the capture engine, the lowest address first (R313, R315): they are delivered as stored where uncorrectable. -/
def capReadWords : List Nat → Dev → List Word × Dev
  | [], d => ([], d)
  | a :: t, d =>
    let (r, d1) := memRead reqDma a d
    let (l, d2) := capReadWords t d1
    (r.data :: l, d2)

/-- Descriptor e of a ring set, as the capture engine reads it. -/
def capDescAt (base e : Nat) (d : Dev) : Option CapDesc × Dev :=
  let a := base + 16 * e
  if inSram a && inSram (a + 15) then
    let (l, d1) := capReadWords [a, a + 4, a + 8, a + 12] d
    (capDescOf a l, d1)
  else (none, d)

/-- The descriptors of a ring set in order; none from the first that breaks R416. -/
def capDescs (base : Nat) : Nat → Dev → Option (List CapDesc) × Dev
  | 0, d => (some [], d)
  | n + 1, d =>
    match capDescs base n d with
    | (none, d1) => (none, d1)
    | (some l, d1) =>
      match capDescAt base n d1 with
      | (some x, d2) => (some (l ++ [x]), d2)
      | (none, d2) => (none, d2)

/-- The read of a ring set's descriptors must wait (R317, R320). -/
def capDescsWait (d : Dev) (base n : Nat) : Bool := (List.range n).any fun e => memWaits d (base + 16 * e)

/-- A word address may be read by the capture engine: in a region R300 allows to load. -/
def capReadable (a : Nat) : Option Nat :=
  if a < 0x10000 then some 0
  else if 0x100000 ≤ a ∧ a < 0x700000 then some 1
  else if 0x700000 ≤ a ∧ a < 0xD00000 then some 2
  else if 0xE00000 ≤ a ∧ a < 0xE10000 then some 3
  else if inSram a then some 4
  else if inLem a then some 5
  else if 0x40000000 ≤ a ∧ a < 0x50000000 then some 6
  else if 0x80000000 ≤ a ∧ a < 2 ^ 32 then some 7
  else none

/-- The snapshot source of a ring set is in order (R417). -/
def capSnapOk (d : Dev) (r : Fin 16) : Bool :=
  let n := d.f (.capr r .snlen) CAPR_SNLEN.N
  let a := 4 * d.f (.capr r .snap) CAPR_SNAP.ADDR
  decide (1 ≤ n ∧ n ≤ 256) && (capReadable a).isSome && capReadable a == capReadable (a + 4 * (n - 1))

/-- CAPRr_CTL.EN goes from 0 to 1 with the other fields as written (R417, R421), once the descriptors can be read. -/
def capEnable (r : Fin 16) (d0 : Dev) : Dev :=
  let n := d0.f (.capr r .ndesc) CAPR_NDESC.N
  let base := 16 * d0.f (.capr r .dbase) CAPR_DBASE.ADDR
  let snap := !d0.b (.capr r .ctl) CAPR_CTL.SNEN || capSnapOk d0 r
  let fits : Bool := decide (1 ≤ n ∧ n ≤ 64) && snap
  if fits && capDescsWait d0 base n then d0.capU r fun c => { c with enW := true }
  else
  match (if fits then capDescs base n d0 else (none, d0)) with
  | (none, d) => (d.flag (.capr r .stat) CAPR_STAT.BADDESC).pulse 470
  | (some l, d) =>
    let d1 := ((d.flag (.capr r .ctl) CAPR_CTL.EN).put (.capr r .wline) 0).put (.capr r .rline) 0
    let d2 := d1.capU r fun c => { descs := l, sent := c.sent, snaps := c.snaps }
    let d3 := capWm r (d2.flag (.capr r .stat) CAPR_STAT.ARMED)
    if d3.b (.capr r .ctl) CAPR_CTL.STEN then d3 else capStart r d3

/-- CAPRr_CTL.EN goes to 0 (R421). -/
def capDisable (r : Fin 16) (d : Dev) : Dev := capWm r ((capStop r d).setB (.capr r .stat) CAPR_STAT.ARMED false)

/-- Write of CAPRr_CTL. -/
def capWriteCtl (r : Fin 16) (v : Word) (d : Dev) : Dev :=
  let was := d.b (.capr r .ctl) CAPR_CTL.EN
  if CAPR_CTL.EN.bit v then
    if was then d.wr (.capr r .ctl) v else capEnable r (d.wr (.capr r .ctl) (CAPR_CTL.EN.put 0 v))
  else if was then capDisable r (d.wr (.capr r .ctl) v)
  else (d.wr (.capr r .ctl) v).capU r fun c => { c with enW := false }

/-- Enables that waited are made, once their descriptors can be read. -/
def capEnableServe (d : Dev) : Dev :=
  d.each ((fins 16).filter fun r => d.cap[r].enW) fun r d => capEnable r (d.capU r fun c => { c with enW := false })

/-- A register a running ring set keeps (R418). -/
def capGuard (r : Fin 16) (x : CaprReg) (v : Word) (d : Dev) : Dev :=
  if d.b (.capr r .ctl) CAPR_CTL.EN then d.flag (.capr r .stat) CAPR_STAT.CFG_REJ else d.wr (.capr r x) v

/-- A write of CAPRr_RLINE (R419): one that raises the number of lines not consumed leaves the ring's lines open. -/
def capWriteRline (r : Fin 16) (v : Word) (d : Dev) : Dev :=
  let d1 := d.wr (.capr r .rline) v
  let d2 := if capOcc d r < capOcc d1 r then d1.capU r fun c => { c with ringOpen := true } else d1
  capPump r (capWm r d2)

/-- Write of a capture register (R418, R419, R422, R426). -/
def capWrite (r : Fin 16) (x : CaprReg) (v : Word) (d : Dev) : Dev :=
  match x with
  | .ctl => capWriteCtl r v d
  | .dbase => capGuard r .dbase v d
  | .ndesc => capGuard r .ndesc v d
  | .snap => capGuard r .snap v d
  | .snlen => capGuard r .snlen v d
  | .wbl => capGuard r .wbl v d
  | .wbh => capGuard r .wbh v d
  | .cfg => capWm r (d.wr (.capr r .cfg) v)
  | .rline => capWriteRline r v d
  | .qta => capPump r (d.wr (.capr r .qta) v)
  | x => d.wr (.capr r x) v

/-- CAPTURE_FLUSH (R413): FLUSHUS µs after its first record a partial line is padded and written. -/
def capFlush (r : Fin 16) (d : Dev) : Dev :=
  if d.cap[r].line.words.isEmpty then d
  else capPump r <| capClose r (d.at (d.cap[r].since + max 1 (d.f (.capr r .cfg) CAPR_CFG.FLUSHUS) * tuUs))

/-- A task starts the armed ring sets that name its channel (R421). -/
def capTaskStart (ch : Nat) (d : Dev) : Dev :=
  d.each ((fins 16).filter fun r => d.b (.capr r .ctl) CAPR_CTL.EN && d.b (.capr r .ctl) CAPR_CTL.STEN &&
    d.b (.capr r .stat) CAPR_STAT.ARMED && d.f (.capr r .ctl) CAPR_CTL.STCH == ch) capStart

/-- A task stops the ring sets that name its channel (R421). -/
def capTaskStop (ch : Nat) (d : Dev) : Dev :=
  d.each ((fins 16).filter fun r => d.b (.capr r .ctl) CAPR_CTL.SPEN && d.f (.capr r .ctl) CAPR_CTL.SPCH == ch) capStop

end Sys2Proof.Machine
end

