-- ==== Sys2Proof/Machine/Flash.lean ====
section
/-!
DEFINITION. Flash (R325-R341): arrays, sectors and their code, reads, the engine's claim, commands and operations, and the
evaluation of the user calibration slots.
-/
namespace Sys2Proof.Machine
open Sys2Proof

/-- A stored flash word: data, then check bits C0-C8. -/
abbrev FlWord := BitVec 137

/-- Replace the flash state. -/
def Dev.flU (d : Dev) (g : FlashSt → FlashSt) : Dev := { d with fl := g d.fl }

/-- Array of an address: 0 bank A, 1 bank B, 2 information area (R325). -/
def flArray (a : Nat) : Option Nat :=
  if 0x00100000 ≤ a ∧ a < 0x00700000 then some 0
  else if 0x00700000 ≤ a ∧ a < 0x00D00000 then some 1
  else if 0x00E00000 ≤ a ∧ a < 0x00E10000 then some 2
  else none

/-- Sector number of a flash address (R325). -/
def flSector (a : Nat) : Nat :=
  if a < 0x00700000 then (a - 0x00100000) / 0x8000
  else if a < 0x00E00000 then 192 + (a - 0x00700000) / 0x8000
  else 384 + (a - 0x00E00000) / 0x1000

/-- Base and size of a sector. -/
def flBase (s : Nat) : Nat :=
  if s < 192 then 0x00100000 + 0x8000 * s else if s < 384 then 0x00700000 + 0x8000 * (s - 192) else 0x00E00000 + 0x1000 * (s - 384)
def flSize (s : Nat) : Nat := if s < 384 then 0x8000 else 0x1000

/-- Position of data bit i in the flash code: the (i + 1)-th integer from 3 that is no power of two (R326). -/
def flPos (i : Nat) : Nat :=
  if i < 1 then 3 else if i < 4 then i + 4 else if i < 11 then i + 5 else if i < 26 then i + 6
  else if i < 57 then i + 7 else if i < 120 then i + 8 else i + 9

/-- Exclusive-or of the positions of the 1 bits among the low `n` data bits. -/
def flSyn (w : Nat) : Nat → Nat
  | 0 => 0
  | k + 1 => (if bitN w k then flPos k else 0) ^^^ flSyn w k

/-- A word with its check bits. -/
def flEnc (w : BitVec 128) : FlWord :=
  let c := flSyn w.toNat 128
  BitVec.ofNat 137 (w.toNat + 2 ^ 128 * (c + 256 * b2n (parity 128 w.toNat != parity 8 c)))

/-- What reading a stored flash word gives (R326). -/
inductive FlOut where
  | clean (w : BitVec 128)
  | fixed (w : BitVec 128)
  | bad
  deriving DecidableEq, Repr

/-- The decoder of R326. -/
def flDecode (v : FlWord) : FlOut :=
  let w : BitVec 128 := BitVec.ofNat 128 v.toNat
  let s := flSyn w.toNat 128 ^^^ (v.toNat / 2 ^ 128 % 256)
  let p := parity 137 v.toNat
  if v = BitVec.allOnes 137 then .clean w
  else if !p && s == 0 then .clean w
  else if p && s == 0 then .fixed w
  else if p && decide (s ≤ 136) then
    match (List.range 128).find? fun i => flPos i = s with
    | some i => .fixed (w ^^^ BitVec.ofNat 128 (2 ^ i))
    | none => .fixed w
  else .bad

/-- Byte of the factory-calibration row (R336): unlisted bytes read 0xFF. -/
def facByte (o : Nat) : Byte :=
  if o < 4 then (if o = 0 then 1 else 0)
  else if (0x10 ≤ o ∧ o < 0x20) ∨ (0x40 ≤ o ∧ o < 0x70) ∨ (0x80 ≤ o ∧ o < 0x90) ∨ (0xA0 ≤ o ∧ o < 0xA8) ∨
      (0xC0 ≤ o ∧ o < 0xC8) ∨ (0x100 ≤ o ∧ o < 0x380) ∨ (0xFFC ≤ o ∧ o < 0x1000) then Config.facByte o
  else 0xFF

/-- A word of the factory row. -/
def facWord (o : Nat) : Word := w32 (ofLE ((List.range 4).map fun k => facByte (o + k)))

/-- What an unlisted word holds: the factory row in its sector, otherwise erased. -/
def flDflt (i : Nat) : FlWord :=
  if i / 256 = 0xE00 then flEnc (BitVec.ofNat 128 (ofLE ((List.range 16).map fun k => facByte (16 * (i % 256) + k))))
  else BitVec.allOnes 137

/-- The stored word that holds an address. -/
def flGet (d : Dev) (a : Nat) : FlWord := Store.get flDflt (a / 16) d.fl.words

/-- Store a word. -/
def flPut (a : Nat) (v : FlWord) (d : Dev) : Dev := d.flU fun f => { f with words := Store.set id flDflt (a / 16) v f.words }

/-- The array of an address is busy (R329). -/
def flBusyAt (d : Dev) (a : Nat) : Bool :=
  d.b (.fl .flstat) FLSTAT.BUSY && (flArray a == some (d.f (.fl .flopstat) FLOPSTAT.ARRAY))

/-- What a word reads as is not defined: its sector's erase is incomplete, or its program was interrupted. -/
def flOpen (d : Dev) (a : Nat) : Bool := d.fl.eic.contains (flSector a) || d.fl.undet.contains (a / 16)

/-- Sectors 3-14 of the information area read 0 (R325). -/
def flHidden (a : Nat) : Bool := decide (0x00E03000 ≤ a ∧ a < 0x00E0F000)

/-- A correctable flash word (R327). -/
def flCe (a : Nat) (d : Dev) : Dev :=
  (((d.flag (.fl .flstat) FLSTAT.CE).bump (.fl .flcnt) FLCNT.CE_CNT).put (.fl .flceaddr) (w32 (a / 16 * 16))).pulse 448

/-- Read the 32-bit word at a flash address (R326-R329). -/
def flRead (q : MemReq) (a : Nat) (d : Dev) : MemRd × Dev :=
  let part (w : BitVec 128) : Word := w32 (w.toNat / 2 ^ (32 * (a / 4 % 4)))
  if flBusyAt d a then (⟨d.get (.fl .flopstat), none⟩, d)
  else if flHidden a then (⟨0, none⟩, d)
  else if flOpen d a then
    let x := Config.freeValue d.free
    let d1 := d.bumpFree
    match (Config.freeValue (d.free + 1)).toNat % 4 with
    | 0 => (⟨x, none⟩, d1.bumpFree)
    | 1 => (⟨x, none⟩, flCe a d1.bumpFree)
    | 2 => (⟨x, some 0x22⟩, memUe q a 0x22 false 0 d1.bumpFree)
    | _ => (⟨0xFFFFFFFF, none⟩, d1.bumpFree)
  else
    match flDecode (flGet d a) with
    | .clean w => (⟨part w, none⟩, d)
    | .fixed w => (⟨part w, none⟩, flCe a d)
    -- delivered as stored (R315)
    | .bad => (⟨part (BitVec.ofNat 128 (flGet d a).toNat), some 0x22⟩, memUe q a 0x22 false 0 d)

/-- The 128 bits of a word as a verifier or an evaluation reads them: none where uncorrectable or undefined. -/
def flData (d : Dev) (a : Nat) : Option (BitVec 128) :=
  if flOpen d a then none
  else match flDecode (flGet d a) with
    | .clean w => some w
    | .fixed w => some w
    | .bad => none

/-- `n` words from an address, as bytes; none where one cannot be read. -/
def flBytes (d : Dev) (a : Nat) : Nat → Option (List Byte)
  | 0 => some []
  | k + 1 =>
    match flData d a, flBytes d (a + 16) k with
    | some w, some t => some (bytesLE 16 w.toNat ++ t)
    | _, _ => none

/-- SEQ of a user calibration slot, if the slot is valid (R337). -/
def flSlot (d : Dev) (base : Nat) : Option Nat :=
  match flBytes d base 256 with
  | none => none
  | some l =>
    let q := (wordAt l 4).toNat
    if crc32c (l.take 0xFFC) = (wordAt l 0xFFC).toNat ∧ wordAt l 0 = 0x43414C31 ∧ q ≠ 0xFFFFFFFF then some q else none

/-- The slots are evaluated (R337, R338). -/
def flEvaluate (d : Dev) : Dev :=
  let a := flSlot d 0x00E01000
  let b := flSlot d 0x00E02000
  let sel := match a, b with
    | some x, some y => decide (x < y)
    | none, some _ => true
    | _, none => false
  let none_ := a.isNone && b.isNone
  let seq := if sel then b.getD 0 else a.getD 0
  let d1 := d.put (.fl .flcal) ((0 : Word) |> FLCAL.NONE.put (b2n none_) |> FLCAL.SEL.put (b2n sel) |>
    FLCAL.VALID.put (b2n a.isSome + 2 * b2n b.isSome))
  let d2 := d1.put (.fl .flcalseq) (w32 seq)
  if none_ then d2.pulse 453 else d2

/-- The owner field, and whether a requester may write the engine's registers (R330). -/
def flOwner (d : Dev) : Nat := d.f (.fl .flclaim) FLCLAIM.OWNER
def flMay (d : Dev) (by_ : Nat) : Bool := flOwner d == 7 || flOwner d == by_

/-- A claim (R330). -/
def flClaim (by_ : Nat) (d : Dev) : Dev :=
  if flOwner d = 7 then d.setF (.fl .flclaim) FLCLAIM.OWNER by_ else d.flag (.fl .flstat) FLSTAT.CLAIMREJ

/-- A release by the owner (R330). -/
def flRelease (by_ : Nat) (d : Dev) : Dev := if flOwner d = by_ then d.setF (.fl .flclaim) FLCLAIM.OWNER 7 else d

/-- FLWP protects a sector (R334). -/
def flProtected (d : Dev) (s : Nat) : Bool :=
  if s < 192 then bitN (d.f (.fl .flwp) FLWP.BANKA) (s / 16)
  else if s < 384 then bitN (d.f (.fl .flwp) FLWP.BANKB) ((s - 192) / 16)
  else if s = 385 then d.b (.fl .flwp) FLWP.SLOTA
  else if s = 386 then d.b (.fl .flwp) FLWP.SLOTB
  else false

/-- A word reads as erased: open where what it reads as is not defined (R332, R333, R335). -/
def flReadsErased (d : Dev) (a : Nat) : Bool :=
  if flOpen d a then Config.freeBool d.free else flGet d a == BitVec.allOnes 137

/-- RESULT with which a program or an erase is refused (R325, R331): 3 RANGE, 6 DENIED, 1 WP, 2 NOT_ERASED. -/
def flRefuse (d : Dev) (k : FlKind) (by_ a : Nat) : Option Nat :=
  if flArray a = none then some 3
  else
    let s := flSector a
    if 387 ≤ s ∧ s ≤ 398 then some 3
    else if s = 384 then some 6
    else if s = 399 ∧ (k = .erase ∨ by_ ≠ 4) then some 6
    else if flProtected d s then some 1
    else if k = .program ∧ flReadsErased d a = false then some 2
    else none

/-- RESULT with which a VERIFY is refused. -/
def flRefuseVerify (a count margin : Nat) : Option Nat :=
  if count = 0 ∨ margin = 3 ∨ flArray a = none ∨ flArray a ≠ flArray (a + 16 * (count - 1)) then some 3 else none

/-- The code of an operation. -/
def FlKind.code : FlKind → Nat
  | .program => 1
  | .erase => 2
  | .verify => 3
  | .evalcal => 4

/-- A refused operation (R331). -/
def flRefused (r : Nat) (d : Dev) : Dev :=
  let d1 := (d.flag (.fl .flstat) FLSTAT.DONE).setF (.fl .flstat) FLSTAT.RESULT r
  if r = 1 then (d1.flag (.fl .flstat) FLSTAT.WPREJ).pulse 451 else d1

/-- Insert a number into a rising list. -/
def insNat (n : Nat) (l : List Nat) : List Nat := insLine n l

/-- A program or an erase of the bank or of the OTP sector that the verifier is reading leaves its result open. -/
def verTouch (o : FlOp) (d : Dev) : Dev :=
  match d.sec.ver with
  | none => d
  | some v =>
    if (o.kind = .program ∨ o.kind = .erase) ∧ (flArray o.addr = some (b2n v.bank) ∨ flSector o.addr = 399) then
      { d with sec := { d.sec with ver := some { v with open_ := true } } }
    else d

/-- An operation starts (R332, R333). -/
def flStart (o : FlOp) (d0 : Dev) : Dev :=
  let d := verTouch o d0
  let d1 := (d.flag (.fl .flstat) FLSTAT.BUSY).setF (.fl .flstat) FLSTAT.OP o.kind.code
  let arr := if o.kind = .evalcal then 2 else (flArray o.addr).getD 0
  let s := if o.kind = .evalcal then 385 else flSector o.addr
  let d2 := d1.put (.fl .flopstat) ((0 : Word) |> FLOPSTAT.BUSY.put 1 |> FLOPSTAT.OP.put o.kind.code |>
    FLOPSTAT.ARRAY.put arr |> FLOPSTAT.SECTOR.put s)
  d2.flU fun f => { f with op := some o, eic := if o.kind = .erase then insNat s f.eic else f.eic }

/-- Start or refuse an operation for a requester (R331, R350). -/
def flTry (k : FlKind) (by_ a : Nat) (data : BitVec 128) (margin count : Nat) (d : Dev) : Dev :=
  if d.b (.fl .flstat) FLSTAT.BUSY || d.b (.fl .flstat) FLSTAT.NOCMD then d.flag (.fl .flstat) FLSTAT.CMDREJ
  else if !d.b (.sys (.ready 0)) READY0.FLASH then flRefused 3 d
  else
    let r := match k with
      | .verify => flRefuseVerify a count margin
      | .evalcal => none
      | k => flRefuse d k by_ a
    -- the test of a word that has no defined contents takes a free value
    let d1 := if k = .program ∧ flOpen d a then d.bumpFree else d
    match r with
    | some x => flRefused x d1
    | none => flStart { kind := k, addr := a / 16 * 16, data := data, margin := margin, count := count, by_ := by_ } d1

/-- The word in FLDATA0-FLDATA3. -/
def flDataReg (d : Dev) : BitVec 128 :=
  let w (j : Fin 4) : Nat := (d.get (.fl (.fldata j))).toNat
  BitVec.ofNat 128 (w 0 + 2 ^ 32 * w 1 + 2 ^ 64 * w 2 + 2 ^ 96 * w 3)

/-- A write of FLCMD (R330, R331). -/
def flCommand (by_ : Nat) (v : Word) (d : Dev) : Dev :=
  if !flMay d by_ then d.flag (.fl .flstat) FLSTAT.CLAIMREJ
  else
    let a := (d.get (.fl .fladdr)).toNat
    let go (k : FlKind) : Dev := flTry k by_ a (flDataReg d) (FLCMD.MARGIN.get v) (FLCMD.COUNT.get v) d
    match FLCMD.OP.get v with
    | 1 => go .program
    | 2 => go .erase
    | 3 => go .verify
    | 4 => go .evalcal
    | _ => if d.b (.fl .flstat) FLSTAT.BUSY then d.flag (.fl .flstat) FLSTAT.CMDREJ else flRefused 3 d

/-- The words of a VERIFY that fail (R331): those that are uncorrectable, or that `weak` names at the margin. -/
def flFails (d : Dev) (o : FlOp) (weak : List Nat) : List Nat :=
  ((List.range o.count).map fun k => o.addr + 16 * k).filter fun a =>
    match o.margin with
    | 0 => flDecode (flGet d a) == .bad
    | 1 => weak.contains (a / 16)
    | _ => weak.contains (a / 16) || flGet d a != BitVec.allOnes 137

/-- The effect of an operation that ends with a verdict: RESULT and the array. -/
def flFinish (o : FlOp) (ok : Bool) (weak : List Nat) (d : Dev) : Nat × Dev :=
  let s := flSector o.addr
  let fail (d : Dev) : Nat × Dev := (4, (d.flag (.fl .flstat) FLSTAT.FAIL).pulse 449)
  match o.kind with
  | .program =>
    -- an undetermined word stays so until its sector is erased (R332, R335)
    if ok then (0, if d.fl.undet.contains (o.addr / 16) then d else flPut o.addr (flEnc o.data) d)
    else fail (d.flU fun f => { f with undet := insNat (o.addr / 16) f.undet })
  | .erase =>
    if ok then
      let keep (i : Nat) : Bool := !(decide (flBase s ≤ 16 * i ∧ 16 * i < flBase s + flSize s))
      (0, d.flU fun f => { f with words := f.words.filter (fun p => keep p.1), undet := f.undet.filter keep,
                                  eic := f.eic.filter (· ≠ s) })
    else fail d
  | .verify =>
    if ((List.range o.count).any fun k => flOpen d (o.addr + 16 * k)) then
      (0, ((d.setF (.fl .flvfail) FLVFAIL.COUNT (Config.freeValue d.free).toNat).put (.fl .flvaddr)
        (Config.freeValue (d.free + 1) &&& 0xFFFFFFF0)).bumpFree.bumpFree)
    else
      let l := flFails d o weak
      let d1 := d.setF (.fl .flvfail) FLVFAIL.COUNT (min 0xFFFF l.length)
      (0, match l with
        | [] => d1
        | a :: _ => d1.put (.fl .flvaddr) (w32 a))
  | .evalcal => (0, flEvaluate d)

/-- The operation in progress ends (R332, R335, R338).  `ok`: the array verified after at most four pulses. -/
def flEnd (ok : Bool) (weak : List Nat) (d : Dev) : Dev :=
  match d.fl.op with
  | none => d
  | some o =>
    let s := flSector o.addr
    let idle (r : Nat) (d : Dev) : Dev :=
      let d1 := ((d.setB (.fl .flstat) FLSTAT.BUSY false).flag (.fl .flstat) FLSTAT.DONE).setF (.fl .flstat) FLSTAT.RESULT r
      let d2 := (d1.put (.fl .flopstat) 0).flU fun f => { f with op := none }
      d2.flagIf d.fl.stop (.fl .flstat) FLSTAT.NOCMD
    if d.fl.stop && o.kind != .program then
      let d1 := d.flag (.fl .flstat) FLSTAT.FAIL
      if o.kind = .erase then
        let d2 := idle 5 ((d1.flag (.fl .flstat) FLSTAT.ABORT).pulse 450)
        if s = 385 ∨ s = 386 then flEvaluate d2 else d2
      else idle 5 d1
    else
      let (r, d1) := flFinish o ok weak d
      let d2 := idle r d1
      if (o.kind = .program ∨ o.kind = .erase) ∧ (s = 385 ∨ s = 386) then flEvaluate d2 else d2

/-- Thermal shutdown or lockdown reaches the engine (R335). -/
def flShutdown (d : Dev) : Dev :=
  let d1 := d.flU fun f => { f with stop := true }
  if d.fl.op.isNone then d1.flag (.fl .flstat) FLSTAT.NOCMD else d1

/-- A reset of the flash controller: the operation in progress stops at once (R335). -/
def flReset (d : Dev) : Dev :=
  d.flU fun f =>
    { f with op := none, stop := false,
             undet := match f.op with
               | some o => if o.kind = .program then insNat (o.addr / 16) f.undet else f.undet
               | none => f.undet }

/-- FLEICk (R333). -/
def flEic (d : Dev) (k : Fin 13) : Word := w32 (packBits ((List.range 32).map fun b => d.fl.eic.contains (32 * k.val + b)))

/-- The factory row's checksum matches (R336). -/
def facOk : Bool := crc32c ((List.range 0xFFC).map facByte) == (facWord 0xFFC).toNat

/-- The engine's work after a reset (R319, R333, R336, R338); `por`: the reset was a power-on reset. -/
def flInit (por : Bool) (d : Dev) : Dev :=
  let d1 := if facOk then d else (d.flag (.fl .flstat) FLSTAT.FACBAD).pulse 452
  let map (d : Dev) : Dev := d.each (fins 8) fun b d => d.each (fins 16) fun e d =>
    let w := facWord (0x100 + 0x40 * b.val + 4 * e.val)
    if REMAP.V.bit w then d.put (.sys (.remap b e)) ((0 : Word) |> REMAP.V.put 1 |> REMAP.FAC.put 1 |> REMAP.LINE.put (REMAP.LINE.get w))
    else d
  let d2 := if por && facOk then map d1 else d1
  let d3 := if por && !d2.fl.eic.isEmpty then (d2.flag (.fl .flstat) FLSTAT.EIFOUND).pulse 454 else d2
  -- the monitors are trimmed only where the factory trims load (R336, R349)
  flEvaluate ((d3.flag (.sys (.ready 0)) READY0.FLASH).flagIf facOk (.sys (.ready 0)) READY0.THERM)

/-- Write of a flash engine register (R330, R331). -/
def flWrite (by_ : Nat) (r : FlReg) (v : Word) (d : Dev) : Dev :=
  let owned (d1 : Dev) : Dev := if flMay d by_ then d1 else d.flag (.fl .flstat) FLSTAT.CLAIMREJ
  match r with
  | .flclaim =>
    let d1 := if FLCLAIM.REL.bit v then flRelease by_ d else d
    if FLCLAIM.CLAIM.bit v then flClaim by_ d1 else d1
  | .fladdr => owned (d.wr (.fl .fladdr) v)
  | .fldata j => owned (d.wr (.fl (.fldata j)) v)
  | .flcmd => flCommand by_ v d
  | .flcnt => d
  | .fleic _ => d
  | r => d.wr (.fl r) v

end Sys2Proof.Machine
end

