-- ==== Sys2Proof/Machine/Fault.lean ====
section
/-!
DEFINITION. The fault collector, lockdown, the shroud's trip map and releases, TOLL, the supply and thermal monitors and the
reference monitor (R220-R243).
-/
namespace Sys2Proof.Machine
open Sys2Proof

/-- Replace the collector's state. -/
def Dev.fcU (d : Dev) (g : FcSt → FcSt) : Dev := { d with fc := g d.fc }

/-- Class of an error line (R220). -/
def lineClass (l : Nat) : Fin 16 :=
  if l < 96 then 0 else if l < 128 then 13 else if l < 256 then 2 else if l < 320 then 3 else if l < 328 then 4
  else if l < 392 then 1 else if l < 397 then 8 else if l < 406 then 13 else if l < 416 then 14 else if l < 421 then 7
  else if l < 429 then 15 else if l < 448 then 5 else if l < 456 then 6 else if l < 464 then 9 else if l < 472 then 10
  else if l < 474 then 11 else 12

/-- A set of legs as a number: bit n for leg n. -/
def legSet (l : List (Fin 96)) : Nat := l.foldl (fun a n => a ||| 2 ^ n.val) 0

/-- The set a row of three words names. -/
def legRow (d : Dev) (r : Fin 3 → Reg) : Nat :=
  (d.get (r 0)).toNat + 2 ^ 32 * (d.get (r 1)).toNat + 2 ^ 64 * (d.get (r 2)).toNat

/-- All 96 legs. -/
def allLegs : Nat := 2 ^ 96 - 1

/-- The legs an error line affects (R220). -/
def lineLegs (d : Dev) (l : Nat) : Nat :=
  if l < 96 then legSet (d.legsOn (d.legTb (Fin.ofNat 96 l)))
  else if l < 128 then legSet (d.legsOn (Fin.ofNat 32 (l - 96)))
  else if 256 ≤ l ∧ l < 320 then
    legSet (((leLegs d (Fin.ofNat 64 (l - 256))).map fun n => d.legsOn (d.legTb n)).flatten)
  else if 328 ≤ l ∧ l < 392 then legRow d fun k => .shtm (Fin.ofNat 64 (l - 328)) (.leg k)
  else if l = 403 ∨ l = 404 then legSet ((fins 96).filter fun n => tbB d (d.legTb n) == decide (l = 404))
  else if l = 473 then allLegs
  else 0

/-- Lines that cannot be masked (R221). -/
def lineFixed (l : Nat) : Bool := decide (l < 96 ∨ (328 ≤ l ∧ l < 392) ∨ l = 473)

/-- A line is masked. -/
def lineMasked (d : Dev) (l : Nat) : Bool :=
  !lineFixed l && (d.get (.fc (.fmask (Fin.ofNat 16 (l / 32))))).getLsbD (l % 32)

/-- Period of the collector's clock (R222), in time units: PLL A's 400 MHz, the reference, or the AON oscillator (32,768 Hz). -/
def tuAon : Nat := 5859375
def fcPeriod (d : Dev) : Nat := if d.sys.pllA then tuAc else if d.sys.refOk then tuRef else tuAon

/-- Class c is open; its effective, committed and highest level (R223-R225): 6 and 7 act as 5, a ceiling below the level as
the level. -/
def clsOpen (d : Dev) (c : Fin 16) : Bool := d.b (.fc (.fclstat c)) FCLSTAT.OPEN
def clsEl (d : Dev) (c : Fin 16) : Nat := d.f (.fc (.fclstat c)) FCLSTAT.ELEVEL
def clsLevel (d : Dev) (c : Fin 16) : Nat := min 5 (d.f (.fc (.flevel c)) FLEVEL.LEVEL)
def clsCeil (d : Dev) (c : Fin 16) : Nat := max (min 5 (d.f (.fc (.flevel c)) FLEVEL.CEIL)) (clsLevel d c)
def clsMap (d : Dev) (c : Fin 16) : Nat := legRow d fun k => .fc (.fgmap c k)

/-- An open class has ELEVEL 4 or 5. -/
def fcHigh (d : Dev) : Bool := (fins 16).any fun c => clsOpen d c && decide (4 ≤ clsEl d c)

/-- A switch on longer than its limit in force at instant `t` is turned off at once (R236). -/
def legOverCut (n : Fin 96) (t : Nat) (d : Dev) : Dev :=
  let cut (w : Sw) (d : Dev) : Dev :=
    let s := d.leg[n].sw w
    if s.on && decide (s.onAt + (legLimit d n w).1 * tuTick ≤ t) then legCutCount n w (legOff n w t d) else d
  cut .l (cut .h d)

/-- A leg is reefed by class c at the present instant. -/
def legReefNow (n : Fin 96) (c : Nat) (d : Dev) : Dev := legOverCut n d.now (legReef n c (legCatch n d.now d))

/-- The rest of lockdown (R233): cores halted at their next boundaries, the notice sent, watchdogs frozen. -/
def fcLockdown (cls : Nat) (d : Dev) : Dev :=
  if d.fc.locked then d
  else
    let d1 := d.each (fins 5) fun c d => { d with core := d.core.set c { d.core[c] with haltRq := true } }
    let d2 := lnkNotice cls ((d1.flag (.fc .fsum) FSUM.LOCKDOWN).fcU fun f => { f with locked := true, rest := false })
    -- the watchdogs hold their counts
    d2.fcU fun f => { f with wd := f.wd.map fun w =>
      match w.from_ with
      | some t => { w with from_ := none, held := (d.now - t) / tuAon }
      | none => w }

/-- The actions of a class at its level on its leg set (R224). -/
def fcAct (c : Fin 16) (el : Nat) (legs : Nat) (d : Dev) : Dev :=
  let ls := finsIn 96 legs
  let d1 := if 2 ≤ el then d.each ls (fun n => legReefNow n c.val) else d
  let d2 := if 3 ≤ el then d1.each ls (fun n => legHold n c.val) else d1
  if 4 ≤ el then (d2.each (fins 96) (fun n => legHold n c.val)).setF (.shg .shgate) SHGATE.EN 0 else d2

/-- Class c is at level `el` where it was at `old` (0 while it was closed): producers fire for each level newly in force, the
actions follow (R224), and lockdown at level 5 (R233). -/
def fcRaise (c : Fin 16) (old el : Nat) (wait : Bool) (d : Dev) : Dev :=
  let d1 := d.each ((List.range 6).filter fun l => decide (old < l ∧ l ≤ el)) fun l d => d.raise (495 + l)
  let d2 := fcAct c el d1.fc.legs[c] d1
  if el = 5 ∧ old < 5 then
    if wait then (flShutdown d2).fcU fun f => { f with rest := true } else fcLockdown c.val (flShutdown d2)
  else d2

/-- Append a record (R231, R232). -/
def fcRecord (l : Nat) (esc : Bool) (lvl occ : Nat) (d : Dev) : Dev :=
  let c := lineClass l
  let ts := d.stamp d.now
  let w0 := w32 (2 ^ 31 + 2 ^ 30 * b2n d.ctv + 2 ^ 29 * b2n esc + 2 ^ 28 * b2n (lineFixed l) + 2 ^ 20 * c.val + 2 ^ 16 * lvl + l)
  let r : FRec := { w0 := w0, w1 := w32 (2 ^ 16 * occ + d.fc.seq), w2 := lo32 ts, w3 := hi32 ts }
  let d1 := d.fcU fun f => { f with seq := (f.seq + 1) % 65536 }
  if d.fc.recs.length < 32 then d1.fcU fun f => { f with recs := f.recs ++ [r] }
  else (d1.bump (.fc .freccnt) FRECCNT.LOST).flag (.fc .fcstat) FCSTAT.OVF

/-- The occurrences of class c in one collector cycle (R224, R225): its new state and actions; the records follow. -/
def fcOccur (c : Fin 16) (ls : List Nat) (d : Dev) : Dev :=
  let hot := ls.contains 473
  let wasOpen := clsOpen d c
  let el0 := clsEl d c
  let opens := wasOpen || decide (1 ≤ clsLevel d c) || hot || decide (c = 0 ∨ c = 1)
  let el := if hot then 5
    else if wasOpen then max el0 (min (clsCeil d c) (el0 + 1))
    else clsLevel d c
  let legs := ls.foldl (fun a l => a ||| lineLegs d l) (if wasOpen then d.fc.legs[c] else clsMap d c)
  let occ := if wasOpen then min 255 (d.f (.fc (.fclstat c)) FCLSTAT.OCC + 1) else 1
  if opens then
    let d1 := (d.put (.fc (.fclstat c)) ((0 : Word) |> FCLSTAT.OPEN.put 1 |> FCLSTAT.ELEVEL.put el |> FCLSTAT.OCC.put occ)).fcU
      fun f => { f with legs := f.legs.set c legs }
    let busy := d.b (.fl .flstat) FLSTAT.BUSY
    fcRaise c el0 el (hot && busy) d1
  else d

/-- The fields of a class that its records of one cycle carry: ESC, LEVEL and OCC, before and after the cycle. -/
def fcRecords (d0 : Dev) (ls : List Nat) (d : Dev) : Dev :=
  d.each ls fun l d =>
    let c := lineClass l
    let o := clsOpen d c
    fcRecord l (clsOpen d0 c) (if o then clsEl d c else clsLevel d c) (if o then d.f (.fc (.fclstat c)) FCLSTAT.OCC else 0) d

/-- Instant at which line l was last known asserted. -/
def fcLast (d : Dev) (l : Nat) : Option Nat := (d.fc.last.find? fun p => p.1 = l).map (·.2)

/-- The collector's next cycle captures every assertion that waits (R221, R224, R225, R231). -/
def fcCapture (d0 : Dev) : Dev :=
  let ls := d0.fc.fresh
  let p := fcPeriod d0
  let up := gridUp p 0 d0.now
  let t := if up ≤ d0.fc.cycle then d0.fc.cycle + p else up
  let d := d0.at t
  let occ := ls.filter fun l =>
    !lineMasked d l && (match fcLast d l with
      | some x => decide (x / p * p + 3 * p ≤ t)
      | none => true)
  let d1 := d.each ls fun l d => d.setBit (.fc (.fstat (Fin.ofNat 16 (l / 32)))) (l % 32) true
  let d2 := d1.fcU fun f =>
    { f with cycle := t, live := ls.foldl (fun a l => insLine l a) f.level, fresh := [],
             last := ls.map (fun l => (l, t)) ++ f.last.filter fun x => !ls.contains x.1 && decide (t < x.2 + 3 * p) }
  let d3 := d2.each (fins 16) fun c d =>
    let mine := occ.filter fun l => lineClass l == c
    if mine.isEmpty then d else fcOccur c mine d
  fcRecords d2 occ d3

/-- FAULT_OCCURRENCE. -/
def fcCycle (d : Dev) : Dev := if d.fc.fresh.isEmpty then d else fcCapture d

/-- Two instants lie in one collector cycle. -/
def fcSame (d : Dev) (a b : Nat) : Bool := a / fcPeriod d == b / fcPeriod d

/-- Lines captured asserted in the collector's latest cycle, which FLIVE shows (R221): of those held, the ones that no longer wait. -/
def fcNow (d : Dev) : List Nat :=
  if fcSame d d.now d.fc.cycle then d.fc.live else d.fc.level.filter fun l => !d.fc.fresh.contains l

/-- Line l is captured asserted, and no mask keeps it from an acknowledgement, both in the collector's next cycle and in its latest one
(R226); a line masked in the cycle that also captures the acknowledgement blocks it still (R228). -/
def fcBlocks (d : Dev) (l : Nat) : Bool :=
  (fcNow d).contains l && (d.fc.level.contains l || d.fc.fresh.contains l) &&
    (!lineMasked d l || d.fc.masked.any fun x => x.1 == l && fcSame d x.2 d.now)

/-- TOLL starts anew once every condition holds again (R239). -/
def tollOk (d : Dev) : Bool :=
  !fcHigh d && !d.b (.fc .fsum) FSUM.LOCKDOWN && d.sys.refOk && (!d.b (.fc .tollctl) TOLLCTL.FEEDEN || d.fc.fed)
def tollResume (d : Dev) : Dev :=
  if d.b (.sys (.ready 0)) READY0.SHROUD && d.fc.tollAt.isNone && tollOk d then
    d.fcU fun f => { f with tollAt := some (d.now + 50 * tuUs) }
  else d

/-- A toggle of TOLL is due (R239). -/
def tollToggle (d0 : Dev) : Dev :=
  match d0.fc.tollAt with
  | none => d0
  | some t =>
    let d := d0.at t
    if tollOk d then
      (d.setB (.fc .tollstat) TOLLSTAT.PIN (!d.b (.fc .tollstat) TOLLSTAT.PIN)).fcU
        fun f => { f with tollAt := some (d.now + 50 * tuUs), fed := false }
    else
      let starved := d.b (.fc .tollctl) TOLLCTL.FEEDEN && !d.fc.fed
      (d.flagIf starved (.fc .tollstat) TOLLSTAT.MISSF).fcU fun f => { f with tollAt := none }

/-- TOLLFEED is written. -/
def tollFeed (d : Dev) : Dev := tollResume (d.fcU fun f => { f with fed := true })

/-- One class is acknowledged, or the acknowledgement is refused (R226, R227).  DESIGN CHOICE (log entry 192): the collector captures the
write in its next cycle, and with it the assertions that still wait; they count after the acknowledgement. -/
def fcAckOne (c : Fin 16) (d : Dev) : Dev :=
  if !clsOpen d c then d
  else if (fcNow d).any (fun l => lineClass l == c && fcBlocks d l) || clsEl d c == 5 then d.flag (.fc .fcstat) FCSTAT.ACKREJ
  else
    let ls := finsIn 96 d.fc.legs[c]
    ((d.put (.fc (.fclstat c)) 0).fcU fun f => { f with legs := f.legs.set c 0 }).each ls fun n => legUnreef n c.val

/-- A write of FACK. -/
def fcAck (v : Word) (d : Dev) : Dev := tollResume (d.each (finsIn 16 (FACK.CLASS.get v)) fcAckOne)

/-- A write of SHRELk (R229). -/
def shRelease (k : Fin 3) (v : Word) (d : Dev) : Dev :=
  d.each (onesBelow 32 v.toNat) fun b d =>
    let n := Fin.ofNat 96 (32 * k.val + b)
    let hm := d.f (.shl n .hold) SHL_HOLD.HMASK
    if (finsIn 16 hm).all fun c => !clsOpen d c then
      legRefresh n ((d.setF (.shl n .hold) SHL_HOLD.HMASK 0).setB (.shl n .hold) SHL_HOLD.HELD false)
    else d.flag (.shg .shstat) SHSTAT.RELREJ

/-- A write of SHGATE (R230): zeros take effect at once, ones only while no plant trip or lockdown is in force. -/
def shGate (v : Word) (d : Dev) : Dev :=
  let en := SHGATE.EN.get v
  let ok := !fcHigh d && !d.b (.fc .fsum) FSUM.LOCKDOWN && d.b (.sys (.ready 0)) READY0.SHROUD
  if ok then d.setF (.shg .shgate) SHGATE.EN en
  else (d.setF (.shg .shgate) SHGATE.EN 0).flagIf (en != 0) (.shg .shstat) SHSTAT.GATEREJ

/-- Level of GATE_ENk (R230). -/
def gatePin (d : Dev) (k : Nat) : Bool :=
  bitN (d.f (.shg .shgate) SHGATE.EN) k && !fcHigh d && !d.b (.fc .fsum) FSUM.LOCKDOWN && d.b (.sys (.ready 0)) READY0.SHROUD

/-- A write of FRECPOP (R231). -/
def fcPop (d : Dev) : Dev :=
  match d.fc.recs with
  | [] => d.flag (.fc .fcstat) FCSTAT.POPEMPTY
  | _ :: t => d.fcU fun f => { f with recs := t }

/-- Qualification time of comparator m (R237). -/
def tripQual (d : Dev) (m : Fin 64) : Nat :=
  match d.f (.shtm m .cfg) SHTM_CFG.QUAL with
  | 0 => 0
  | 1 => 4 * tuNs
  | 2 => 8 * tuNs
  | _ => 16 * tuNs

/-- Instant at which the tripping condition of comparator m will have held for its qualification time. -/
def tripDue (d : Dev) (m : Fin 64) : Option Nat :=
  match d.cmp[m].cond with
  | some t0 => if tripCond d m && !d.cmp[m].tripped then some (t0 + tripQual d m) else none
  | none => none

/-- Comparator m trips (R237): every leg in its row is off and held.  DESIGN CHOICE (log entry 201): exactly its qualification
time after its condition began. -/
def cmpTrip (m : Fin 64) (d : Dev) : Dev :=
  match tripDue d m with
  | none => d
  | some t =>
    let d1 := (d.at t).cmpU m fun c => { c with tripped := true }
    let row := legRow d1 fun k => .shtm m (.leg k)
    (d1.each (finsIn 96 row) fun n => legHold n 1).lineOn (328 + m.val)

/-! ### What the shroud has done before the present instant (R19, R236-R238) -/

/-- An earlier instant ended a dead-time of leg n, or reached the on-time limit of one of its switches. -/
def legLate (d : Dev) (n : Fin 96) : Bool :=
  let long (w : Sw) : Bool :=
    (d.leg[n].sw w).on && decide ((d.leg[n].sw w).onAt + (legLimit d n w).1 * tuTick < d.now)
  (match legDue d n with
    | some t => decide (t < d.now)
    | none => false) || long .h || long .l

/-- An earlier instant ended the window that keeps comparator m's tripping condition as it is known. -/
def tripStale (d : Dev) (m : Fin 64) : Bool := tripCond d m != d.cmp[m].cond.isSome

/-- An earlier instant tripped comparator m. -/
def tripLate (d : Dev) (m : Fin 64) : Bool :=
  match tripDue d m with
  | some t => decide (t < d.now)
  | none => false

/-- The shroud has something to do at an instant that is past. -/
def overdue (d : Dev) : Bool := (fins 96).any (legLate d) || (fins 64).any fun m => tripStale d m || tripLate d m

/-- The condition of comparator m as its window's end leaves it. -/
def tripCatch (m : Fin 64) (d : Dev) : Dev :=
  if tripStale d m then
    d.asOf (match d.cmp[m].twin with
      | some w => min d.now (tripEnd d w)
      | none => d.now) (tripTrack m)
  else d

/-- Comparators in the order of their trips. -/
def tripInsert (d : Dev) (m : Fin 64) : List (Fin 64) → List (Fin 64)
  | [] => [m]
  | k :: l => if (tripDue d m).getD 0 < (tripDue d k).getD 0 then m :: k :: l else k :: tripInsert d m l

/-- The shroud's cuts, dead-times and trips of past instants, each as of its own (R19, R236-R238): nothing acts on a device that has let one
of them pass. -/
def catchUp (d : Dev) : Dev :=
  if overdue d then
    let d1 := d.each (fins 64) tripCatch
    let late := ((fins 64).filter (tripLate d1)).foldl (fun l m => tripInsert d1 m l) []
    let d2 := d1.each late fun m x => x.asOf ((tripDue x m).getD x.now) (cmpTrip m)
    d2.each ((fins 96).filter (legLate d2)) fun n x => legCatch n (x.now - 1) x
  else d

/-! ### Commits of TK fields (R228, R234, R237, R238) -/

/-- A commit of FLEVELc. -/
def fcSetLevel (c : Fin 16) (v : Word) (d : Dev) : Dev :=
  let d1 := d.put (.fc (.flevel c)) v
  let new := clsLevel d1 c
  let old := clsEl d1 c
  if clsOpen d1 c && decide (old < new) then fcRaise c old new false (d1.setF (.fc (.fclstat c)) FCLSTAT.ELEVEL new) else d1

/-- A commit of FGMAPc_k: added legs join an open class's set. -/
def fcSetMap (c : Fin 16) (k : Fin 3) (v : Word) (d : Dev) : Dev :=
  let d1 := d.put (.fc (.fgmap c k)) v
  if clsOpen d1 c then
    let new := clsMap d1 c ||| d1.fc.legs[c]
    fcAct c (clsEl d1 c) (new ^^^ d1.fc.legs[c]) (d1.fcU fun f => { f with legs := f.legs.set c new })
  else d1

/-- A commit of FMASKk (R228): a line of an open class newly unmasked while asserted makes an occurrence. -/
def fcSetMask (k : Fin 16) (v : Word) (d : Dev) : Dev :=
  let keep := (List.range 32).foldl (fun a b => if lineFixed (32 * k.val + b) then a else a + 2 ^ b) 0
  let old := d.get (.fc (.fmask k))
  let new := v &&& w32 keep
  let shut := (onesBelow 32 (new &&& ~~~ old).toNat).map fun b => (32 * k.val + b, d.now)
  let d1 := (d.put (.fc (.fmask k)) new).fcU fun f => { f with masked := shut ++ f.masked.filter fun x => fcSame d x.2 d.now }
  d1.each ((List.range 32).filter fun b => old.getLsbD b && !new.getLsbD b && d.fc.level.contains (32 * k.val + b) &&
      clsOpen d (lineClass (32 * k.val + b))) fun b d =>
    d.fcU fun f => { f with fresh := insLine (32 * k.val + b) f.fresh, last := f.last.filter fun x => x.1 ≠ 32 * k.val + b }

/-- A commit of a leg's shroud bounds (R234): on a tick of its timebase, or at once while that is stopped.  What was due before goes by
the old bounds. -/
def shlSet (n : Fin 96) (r : ShlReg) (v : Word) (d : Dev) : Dev :=
  let b := d.legTb n
  let t := if d.tbRun b then tickUp (tbB d b) d.now else d.now
  legOverCut n t (legDtFrom n t ((legCatch n t d).put (.shl n r) v))

/-- A commit of SHBLANKMAX (R238): the windows that are open are cut anew. -/
def shBlankMax (v : Word) (d : Dev) : Dev := (d.put (.shg .shblankmax) v).each (fins 64) tripTrack

/-- A commit of a trip-map register (R237). -/
def shtmSet (m : Fin 64) (r : ShtmReg) (v : Word) (d : Dev) : Dev :=
  let old := legRow d fun k => .shtm m (.leg k)
  let d1 := tripTrack m (d.put (.shtm m r) v)
  let added := (legRow d1 fun k => .shtm m (.leg k)) &&& ((legRow d1 fun k => .shtm m (.leg k)) ^^^ old)
  if d1.cmp[m].tripped && tripCond d1 m then
    let d2 := d1.each (finsIn 96 added) fun n => legHold n 1
    if clsOpen d2 1 then fcAct 1 (clsEl d2 1) added (d2.fcU fun f => { f with legs := f.legs.set 1 (f.legs[(1 : Fin 16)] ||| added) }) else d2
  else d1

/-! ### Monitors (R220-R222, R241, R242) -/

/-- A bank of balls has latched its class (R450). -/
def bankOn (d : Dev) (k : Nat) : Bool := bitN (d.f (.sys .iostat) IOSTAT.PRESENT) k

/-- A supply rail crosses its monitor threshold: line 480 + i follows it, that of a VIO bank once the bank has latched its class (R450). -/
def supplyCross (i : Fin 8) (x : Rail) (d : Dev) : Dev :=
  if i.val < 4 then d.line (480 + i.val) (x != .good)
  else
    let k := Fin.ofNat 4 i.val
    let d1 := { d with sys := { d.sys with vio := d.sys.vio.set k x } }
    if bankOn d k.val then d1.line (480 + i.val) (x != .good) else d1

/-- The 25 MHz reference is lost, or returns (R222, R239). -/
def refLost (d : Dev) : Dev := { d with sys := { d.sys with refOk := false } }.lineOn 405
def refBack (d : Dev) : Dev := tollResume ({ d with sys := { d.sys with refOk := true } }.lineOff 405)

/-- The thermal warning (R241): `hot` names the sensors at or above 135 °C; while the warning stays asserted it may come to name none. -/
def thWarn (hot : Nat) (d : Dev) : Dev :=
  let was := d.b (.th .thstat) THSTAT.WARN
  if hot % 256 = 0 then (if was then d.setF (.th .thstat) THSTAT.HOT 0 else d)
  else
    let d1 := (d.flag (.th .thstat) THSTAT.WARN).setF (.th .thstat) THSTAT.HOT hot
    if was then d1 else ((d1.flag (.th .thstat) THSTAT.WARNF).raise 503).lineOn 472

/-- Every sensor is below 130 °C (R241). -/
def thClear (d : Dev) : Dev := ((d.setB (.th .thstat) THSTAT.WARN false).setF (.th .thstat) THSTAT.HOT 0).lineOff 472

/-- A sensor reaches 150 °C (R242): class THERM goes to level 5 and the plant trip acts at once. -/
def thShutdown (d : Dev) : Dev :=
  let d1 := (d.flag (.th .thstat) THSTAT.SHUT).lineOn 473
  if d1.fc.fresh.contains 473 then fcCapture d1 else d1

/-- The flash engine has stopped: the rest of lockdown follows (R242). -/
def fcLockRest (d : Dev) : Dev :=
  if d.fc.rest && !d.b (.fl .flstat) FLSTAT.BUSY then fcLockdown 11 d else d

/-! ### Registers (R245-R247) -/

/-- FSUM (R245). -/
def fcSum (d : Dev) : Word :=
  let op := (fins 16).filter fun c => clsOpen d c
  (0 : Word) |> FSUM.LOCKDOWN.put (b2n (d.b (.fc .fsum) FSUM.LOCKDOWN)) |> FSUM.ANY.put (b2n (!op.isEmpty)) |>
    FSUM.TOP.put (op.foldl (fun a c => max a (clsEl d c)) 0) |> FSUM.OPEN.put (op.foldl (fun a c => a + 2 ^ c.val) 0)

/-- What a read of a collector register gives. -/
def fcRead (d : Dev) (r : FcReg) : Word :=
  match r with
  | .flive k => w32 (packBits ((List.range 32).map fun b => (fcNow d).contains (32 * k.val + b)))
  | .fsum => fcSum d
  | .frec j =>
    match d.fc.recs with
    | [] => 0
    | x :: _ => match j with
      | 0 => x.w0
      | 1 => x.w1
      | 2 => x.w2
      | 3 => x.w3
  | .freccnt => FRECCNT.COUNT.put d.fc.recs.length (d.get (.fc .freccnt))
  | .tollstat =>
    d.get (.fc .tollstat) |> TOLLSTAT.LEVEL4.put (b2n (fcHigh d)) |> TOLLSTAT.LOCK.put (b2n (d.b (.fc .fsum) FSUM.LOCKDOWN)) |>
      TOLLSTAT.NOREF.put (b2n (!d.sys.refOk)) |> TOLLSTAT.NOFEED.put (b2n (d.b (.fc .tollctl) TOLLCTL.FEEDEN && !d.fc.fed))
  | r => d.get (.fc r)

/-- Write of a collector register. -/
def fcWrite (r : FcReg) (v : Word) (d : Dev) : Dev :=
  match r with
  | .fack => fcAck v d
  | .frecpop => fcPop d
  | .tollfeed => tollFeed d
  | .freccnt => d
  | r => d.wr (.fc r) v

/-- SHHELDk and SHREEFk. -/
def shBits (d : Dev) (k : Fin 3) (f : Fld) : Word :=
  w32 (packBits ((List.range 32).map fun b => d.b (.shl (Fin.ofNat 96 (32 * k.val + b)) .hold) f))

/-- What a read of a shared shroud register gives. -/
def shgRead (d : Dev) (r : ShgReg) : Word :=
  match r with
  | .shheld k => shBits d k SHL_HOLD.HELD
  | .shreef k => shBits d k SHL_HOLD.REEFED
  | .shrel _ => 0
  | r => d.get (.shg r)

/-- Write of a shared shroud register. -/
def shgWrite (r : ShgReg) (v : Word) (d : Dev) : Dev :=
  match r with
  | .shrel k => shRelease k v d
  | .shgate => shGate v d
  | .shheld _ => d
  | .shreef _ => d
  | r => d.wr (.shg r) v

end Sys2Proof.Machine
end

