-- ==== Sys2Proof/Machine/Crypto.lean ====
section
/-!
DEFINITION. The verifier's functions (R435-R437): SHA-256 and ECDSA over P-256, which the spec names by the standards that
define them.  PRESUMED (log entry 142): their constants are those of FIPS 180-4 and FIPS 186-5.
-/
namespace Sys2Proof.Machine
open Sys2Proof

/-- The largest number of at most `k` bits, added to `r`, whose power `e` does not pass `n`. -/
def rootFrom (e n r : Nat) : Nat → Nat
  | 0 => r
  | k + 1 => rootFrom e n (if (r + 2 ^ k) ^ e ≤ n then r + 2 ^ k else r) k

/-- First 32 bits of the fractional part of the root of order `e` of p, as the standard forms its constants. -/
def rootFrac (e p : Nat) : Word := w32 (rootFrom e (p * 2 ^ (32 * e)) 0 40 % 2 ^ 32)

/-- The primes below 312: the first 64. -/
def shaPrimes : List Nat := (List.range 312).filter fun p => 2 ≤ p && (List.range 18).all fun q => q < 2 || p ≤ q || p % q != 0

/-- The 64 round constants of SHA-256, from the cube roots of the primes. -/
def shaK : List Word := shaPrimes.map (rootFrac 3)

/-- The eight starting words, from the square roots of the first eight. -/
def shaStart : List Word := (shaPrimes.take 8).map (rootFrac 2)

/-- The eight working words. -/
structure ShaSt where
  a : Word
  b : Word
  c : Word
  d : Word
  e : Word
  f : Word
  g : Word
  h : Word
  deriving DecidableEq, Repr

/-- One round with its constant and schedule word. -/
def shaRound (s : ShaSt) (k w : Word) : ShaSt :=
  let s1 := s.e.rotateRight 6 ^^^ s.e.rotateRight 11 ^^^ s.e.rotateRight 25
  let ch := (s.e &&& s.f) ^^^ (~~~s.e &&& s.g)
  let t1 := s.h + s1 + ch + k + w
  let s0 := s.a.rotateRight 2 ^^^ s.a.rotateRight 13 ^^^ s.a.rotateRight 22
  let mj := (s.a &&& s.b) ^^^ (s.a &&& s.c) ^^^ (s.b &&& s.c)
  { a := t1 + (s0 + mj), b := s.a, c := s.b, d := s.c, e := s.d + t1, f := s.e, g := s.f, h := s.g }

/-- Run the rounds: the window holds the next 16 schedule words. -/
def shaRounds : List Word → List Word → ShaSt → ShaSt
  | [], _, s => s
  | _, [], s => s
  | k :: ks, w :: ws, s =>
    let w1 := ws.getD 0 0
    let w14 := ws.getD 13 0
    let x := (w14.rotateRight 17 ^^^ w14.rotateRight 19 ^^^ w14 >>> 10) + ws.getD 8 0 +
      (w1.rotateRight 7 ^^^ w1.rotateRight 18 ^^^ w1 >>> 3) + w
    shaRounds ks (ws ++ [x]) (shaRound s k w)

/-- A 64-byte block as 16 big-endian words. -/
def shaWords (l : List Byte) : List Word :=
  (List.range 16).map fun k => w32 (((l.drop (4 * k)).take 4).foldl (fun a b => 256 * a + b.toNat) 0)

/-- Compress one block. -/
def shaBlock (s : ShaSt) (l : List Byte) : ShaSt :=
  let t := shaRounds shaK (shaWords l) s
  { a := s.a + t.a, b := s.b + t.b, c := s.c + t.c, d := s.d + t.d, e := s.e + t.e, f := s.f + t.f, g := s.g + t.g, h := s.h + t.h }

/-- Compress `n` blocks. -/
def shaBlocks : Nat → List Byte → ShaSt → ShaSt
  | 0, _, s => s
  | n + 1, l, s => shaBlocks n (l.drop 64) (shaBlock s (l.take 64))

/-- SHA-256 of bytes, as a 256-bit number. -/
def sha256 (l : List Byte) : Nat :=
  let n := l.length
  let p := l ++ [0x80] ++ List.replicate ((119 - n % 64) % 64) 0 ++ (bytesLE 8 (8 * n)).reverse
  let k (j : Nat) : Word := shaStart.getD j 0
  let i : ShaSt := { a := k 0, b := k 1, c := k 2, d := k 3, e := k 4, f := k 5, g := k 6, h := k 7 }
  let s := shaBlocks (p.length / 64) p i
  [s.a, s.b, s.c, s.d, s.e, s.f, s.g, s.h].foldl (fun a w => 2 ^ 32 * a + w.toNat) 0

/-- P-256: field prime, group order, coefficient b, base point. -/
def pP : Nat := 0xffffffff00000001000000000000000000000000ffffffffffffffffffffffff
def pN : Nat := 0xffffffff00000000ffffffffffffffffbce6faada7179e84f3b9cac2fc632551
def pB : Nat := 0x5ac635d8aa3a93e7b3ebbd55769886bc651d06b0cc53b0f63bce3c3e27d2604b
def pG : Nat × Nat :=
  (0x6b17d1f2e12c4247f8bce6e563a440f277037d812deb33a0f4a13945d898c296,
   0x4fe342e2fe1a7f9b8ee7eb4a7c0f9e162bce33576b315ececbb6406837bf51f5)

/-- x^e mod m over the low `k` bits of e. -/
def powMod (m x e : Nat) : Nat → Nat
  | 0 => 1 % m
  | k + 1 =>
    let r := powMod m (x * x % m) (e / 2) k
    if e % 2 = 1 then r * x % m else r

/-- Inverse modulo a 256-bit prime. -/
def invMod (m x : Nat) : Nat := powMod m (x % m) (m - 2) 256

/-- A point: none is the point at infinity. -/
abbrev EcPt := Option (Nat × Nat)

/-- Sum of two points of the curve. -/
def ecAdd : EcPt → EcPt → EcPt
  | none, q => q
  | p, none => p
  | some (x1, y1), some (x2, y2) =>
    if x1 = x2 ∧ (y1 + y2) % pP = 0 then none
    else
      let l := if x1 = x2 then (3 * x1 * x1 + pP - 3) * invMod pP (2 * y1) % pP
        else (y2 + pP - y1) * invMod pP (x2 + pP - x1) % pP
      let x3 := (l * l + 2 * pP - x1 - x2) % pP
      some (x3, (l * (x1 + pP - x3) + pP - y1) % pP)

/-- k times a point, over the low `n` bits of k. -/
def ecMul (q : EcPt) (k : Nat) : Nat → EcPt
  | 0 => none
  | n + 1 => let r := ecMul (ecAdd q q) (k / 2) n; if k % 2 = 1 then ecAdd r q else r

/-- ECDSA verification with P-256: key, hash, signature; the range of r and s and the key's place on the curve are checked. -/
def ecdsaVerify (qx qy e r s : Nat) : Bool :=
  if r = 0 ∨ pN ≤ r ∨ s = 0 ∨ pN ≤ s ∨ pP ≤ qx ∨ pP ≤ qy then false
  else if qy * qy % pP ≠ (qx * qx * qx + (pP - 3) * qx + pB) % pP then false
  else
    let w := invMod pN s
    match ecAdd (ecMul (some pG) (e * w % pN) 256) (ecMul (some (qx, qy)) (r * w % pN) 256) with
    | none => false
    | some (x, _) => x % pN == r

end Sys2Proof.Machine
end

