-- ==== Sys2Proof/Machine/Flags.lean ====
section
/-!
DEFINITION. Results and flags of the integer instructions (R253, R263-R268, R279): what each operation computes at the operand
width, and the flags it sets.
-/
namespace Sys2Proof

/-- Bits and bytes of an operand width. -/
def Width.bits : Width → Nat
  | .b8 => 8
  | .b16 => 16
  | .b32 => 32
def Width.bytes : Width → Nat
  | .b8 => 1
  | .b16 => 2
  | .b32 => 4

end Sys2Proof

namespace Sys2Proof.Machine
open Sys2Proof

/-- Fields of PSW (R250). -/
def PSW.DZ : Fld := ⟨11, 11⟩
def PSW.OVS : Fld := ⟨10, 10⟩
def PSW.DZE : Fld := ⟨9, 9⟩
def PSW.OVE : Fld := ⟨8, 8⟩
def PSW.N : Fld := ⟨7, 7⟩
def PSW.Z : Fld := ⟨6, 6⟩
def PSW.C : Fld := ⟨5, 5⟩
def PSW.V : Fld := ⟨4, 4⟩
def PSW.LEVEL : Fld := ⟨3, 0⟩

/-- What an operation leaves: its result, zero-extended, and the flags it sets; none for a flag it leaves alone (R264). -/
structure AluOut where
  res : Word
  n   : Option Bool := none
  z   : Option Bool := none
  c   : Option Bool := none
  v   : Option Bool := none
  deriving DecidableEq, Repr

/-- Write the flags an operation sets. -/
def setFlag (f : Fld) : Option Bool → Word → Word
  | none, p => p
  | some b, p => f.put (b2n b) p
def AluOut.psw (o : AluOut) (p : Word) : Word :=
  p |> setFlag PSW.N o.n |> setFlag PSW.Z o.z |> setFlag PSW.C o.c |> setFlag PSW.V o.v

/-- The low bits of a register operand at a width (R253). -/
def narrow (w : Width) (x : Word) : Nat := x.toNat % 2 ^ w.bits

/-- A narrow value as a signed number. -/
def signedAt (w : Width) (x : Nat) : Int := sextN w.bits x

/-- Top bit of a result at a width (R264). -/
def topBit (w : Width) (r : Nat) : Bool := bitN r (w.bits - 1)

/-- A result with N and Z from it (R264). -/
def nzOut (w : Width) (r : Nat) : AluOut :=
  let m := r % 2 ^ w.bits
  { res := w32 m, n := some (topBit w m), z := some (m == 0) }

/-- Addition with a carry in: C the carry out, V a signed overflow (R264). -/
def addOut (w : Width) (x y : Word) (cin : Bool) : AluOut :=
  let a := narrow w x
  let b := narrow w y
  let s := a + b + b2n cin
  let o := nzOut w s
  { o with c := some (decide (2 ^ w.bits ≤ s)),
           v := some (signedAt w (s % 2 ^ w.bits) != signedAt w a + signedAt w b + (b2n cin : Int)) }

/-- Subtraction with a borrow in: C the borrow out, V a signed overflow (R264). -/
def subOut (w : Width) (x y : Word) (bin : Bool) : AluOut :=
  let a := narrow w x
  let b := narrow w y
  let r := (a + 2 ^ w.bits + 2 ^ w.bits - b - b2n bin) % 2 ^ w.bits
  let o := nzOut w r
  { o with c := some (decide (a < b + b2n bin)),
           v := some (signedAt w r != signedAt w a - signedAt w b - (b2n bin : Int)) }

/-- A logical result: N and Z, V cleared (R263). -/
def logicOut (w : Width) (r : Nat) : AluOut := { nzOut w r with v := some false }
def andOut (w : Width) (x y : Word) : AluOut := logicOut w (narrow w x &&& narrow w y)
def orOut (w : Width) (x y : Word) : AluOut := logicOut w (narrow w x ||| narrow w y)
def xorOut (w : Width) (x y : Word) : AluOut := logicOut w (narrow w x ^^^ narrow w y)

/-- A move sets no flag. -/
def movOut (w : Width) (y : Word) : AluOut := { res := w32 (narrow w y) }

/-- A sum or difference saturated to 32-bit signed (R263). -/
def satOut (i : Int) : AluOut :=
  let r := clampI (-(2 ^ 31 : Nat)) ((2 ^ 31 : Nat) - 1) i
  { nzOut .b32 (wInt r).toNat with v := some (r != i) }
def addSatOut (x y : Word) : AluOut := satOut (x.toInt + y.toInt)
def subSatOut (x y : Word) : AluOut := satOut (x.toInt - y.toInt)

/-- The shifts (R266). -/
inductive ShiftOp where
  | shl
  | shr
  | sar
  | ror
  deriving DecidableEq, Repr

/-- Bit i of an operand as a right shift sees it: the sign bit (SAR) or 0 beyond the width. -/
def bitOrSign (w : Width) (a i : Nat) (sign : Bool) : Bool :=
  if i < w.bits then bitN a i else sign && topBit w a

/-- A shift by k > 0 at a width: result and the last bit shifted out (R267). -/
def shiftBy (op : ShiftOp) (w : Width) (a k : Nat) : Nat × Bool :=
  match op with
  | .shl => (a * 2 ^ k % 2 ^ w.bits, decide (k ≤ w.bits) && bitN a (w.bits - k))
  | .shr => (a / 2 ^ k, bitOrSign w a (k - 1) false)
  | .sar => (((signedAt w a / (2 ^ k : Nat)) % (2 ^ w.bits : Nat)).toNat, bitOrSign w a (k - 1) true)
  | .ror =>
    let j := k % w.bits
    (a / 2 ^ j + a % 2 ^ j * 2 ^ (w.bits - j) % 2 ^ w.bits, bitN a ((k - 1) % w.bits))

/-- A shift of A (R267): a count of 0 leaves A and C unchanged and sets N and Z from A at the width.
DEDUCED (log entry 82): A is left unchanged whole, at a narrow width too. -/
def shiftOut (op : ShiftOp) (w : Width) (x : Word) (k : Nat) : AluOut :=
  let a := narrow w x
  if k = 0 then { nzOut w a with res := x }
  else
    let (r, c) := shiftBy op w a k
    { nzOut w r with c := some c }

/-- Number of leading zero bits among the low n bits. -/
def leadZeros (a : Nat) : Nat → Nat
  | 0 => 0
  | n + 1 => if bitN a n then 0 else leadZeros a n + 1

/-- CLZ sets Z only (R266). -/
def clzOut (y : Word) : AluOut :=
  let k := leadZeros y.toNat 32
  { res := w32 k, z := some (k == 0) }

/-- SXT: the low 8 or 16 bits, sign-extended to 32; N and Z of the result. -/
def sxtOut (w : Width) (y : Word) : AluOut := nzOut .b32 (wInt (signedAt w (narrow w y))).toNat

/-- NOT at a width. -/
def notOut (w : Width) (y : Word) : AluOut := nzOut w (2 ^ w.bits - 1 - narrow w y)

/-- Number of bits of the field POS, LEN - 1 (R267). -/
def bfWidth (pos len1 : Fin 32) : Nat := min 31 (pos.val + len1.val) - pos.val + 1

/-- BFX (R267). -/
def bfxOut (pos len1 : Fin 32) (sx : Bool) (y : Word) : AluOut :=
  let n := bfWidth pos len1
  let v := y.toNat / 2 ^ pos.val % 2 ^ n
  nzOut .b32 (if sx then (wInt (sextN n v)).toNat else v)

/-- BFI (R267). -/
def bfiOut (pos len1 : Fin 32) (x y : Word) : AluOut :=
  { res := (Fld.mk (pos.val + bfWidth pos len1 - 1) pos.val).put y.toNat x }

/-- BPERM (R267). -/
def bpermOut (imm : Byte) (y : Word) : AluOut :=
  let byte (i : Nat) : Nat := y.toNat / 2 ^ (8 * (imm.toNat / 4 ^ i % 4)) % 256
  { res := w32 (byte 0 + 2 ^ 8 * byte 1 + 2 ^ 16 * byte 2 + 2 ^ 24 * byte 3) }

/-- The 64-bit product of a multiplier instruction (R268). -/
def product (signed : Bool) (x y : Word) : BitVec 64 :=
  if signed then BitVec.ofInt 64 (x.toInt * y.toInt) else BitVec.ofNat 64 (x.toNat * y.toNat)

/-- QRD: MH:ML / 2^30, rounded to nearest with halves away from zero, saturated; V only (R268). -/
def qrdOut (m : BitVec 64) : AluOut :=
  let i := rndAway m.toInt (2 ^ 30)
  let r := clampI (-(2 ^ 31 : Nat)) ((2 ^ 31 : Nat) - 1) i
  { res := wInt r, v := some (r != i) }

/-- Quotient truncated toward zero and remainder (R268). -/
def quotRem (signed : Bool) (x y : Word) : Word × Word :=
  if signed then (wInt (x.toInt.tdiv y.toInt), wInt (x.toInt - x.toInt.tdiv y.toInt * y.toInt))
  else (w32 (x.toNat / y.toNat), w32 (x.toNat % y.toNat))

/-- A condition of R272 over PSW. -/
def condHolds (k : Cond) (p : Word) : Bool :=
  let n := PSW.N.bit p
  let z := PSW.Z.bit p
  let c := PSW.C.bit p
  let v := PSW.V.bit p
  match k with
  | .alw => true
  | .eq => z
  | .ne => !z
  | .lt => n != v
  | .ge => n == v
  | .le => z || n != v
  | .gt => !z && n == v
  | .ltu => c
  | .geu => !c
  | .leu => c || z
  | .gtu => !c && !z
  | .neg => n
  | .pos => !n
  | .ov => v
  | .nov => !v

end Sys2Proof.Machine
end

