-- ==== Sys2Proof/Machine/Interrupt.lean ====
section
/-!
DEFINITION. The interrupt controller (R197-R215): source conditions, pending and queued sources, presented requests, priority
stacks, moderation, the storm guard, and writes of its registers.
-/
namespace Sys2Proof.Machine
open Sys2Proof

/-- Any bit `hi` down to `lo` is set both in a status and in an enable register. -/
def anyBoth (d : Dev) (st en : Reg) (hi lo : Nat) : Bool := bitsN ((d.get st) &&& (d.get en)).toNat hi lo != 0

/-- Interrupt source s is asserted (R198 and the rules it names). -/
def icAsserted (d : Dev) (s : Nat) : Bool :=
  if s < 96 then
    let n := Fin.ofNat 96 s
    anyBoth d (.leg n .stat) (.leg n .ien) 12 12 || anyBoth d (.leg n .stat) (.leg n .ien) 7 1
  else if s < 128 then anyBoth d (.tb (Fin.ofNat 32 (s - 96)) .stat) (.tb (Fin.ofNat 32 (s - 96)) .ien) 9 0
  else if s < 160 then anyBoth d (.adc (Fin.ofNat 32 (s - 128)) .stat) (.adc (Fin.ofNat 32 (s - 128)) .ien) 7 0
  else if s < 224 then anyBoth d (.cmp (Fin.ofNat 64 (s - 160)) .stat) (.cmp (Fin.ofNat 64 (s - 160)) .ien) 6 0
  else if s < 232 then anyBoth d (.pos (Fin.ofNat 8 (s - 224)) .stat) (.pos (Fin.ofNat 8 (s - 224)) .ien) 9 0
  else if s < 296 then anyBoth d (.le (Fin.ofNat 64 (s - 232)) .stat) (.le (Fin.ofNat 64 (s - 232)) .ien) 12 0
  else if s < 312 then
    let c := Fin.ofNat 16 (s - 296)
    d.b (.fc (.fclstat c)) FCLSTAT.OPEN && decide (1 ≤ d.f (.fc (.fclstat c)) FCLSTAT.ELEVEL)
  else if s = 312 then anyBoth d (.lnk .lnkstat) (.lnk .lnkien) 9 0
  else if s = 316 then anyBoth d (.hif .hstat) (.hif .hien) 10 0
  else if s = 317 then anyBoth d (.hif .fwstat) (.hif .fwien) 3 0
  else if s < 328 then false
  else if s < 344 then anyBoth d (.capr (Fin.ofNat 16 (s - 328)) .stat) (.capr (Fin.ofNat 16 (s - 328)) .ien) 7 0
  else if s = 344 then anyBoth d (.sys .memstat) (.sys .memien) 7 0
  else if s = 352 then anyBoth d (.fl .flstat) (.fl .flien) 7 1
  else if s < 360 then false
  else if s < 365 then anyBoth d (.wd (Fin.ofNat 5 (s - 360)) .stat) (.wd (Fin.ofNat 5 (s - 360)) .ien) 2 0
  else if s = 365 then anyBoth d (.th .thstat) (.th .thien) 0 0
  else if s < 368 then false
  else if s < 372 then
    let g := 2 * (s - 368)
    d.get (.ev (.chflag (Fin.ofNat 8 g))) != 0 || d.get (.ev (.chflag (Fin.ofNat 8 (g + 1)))) != 0
  else if s = 372 then anyBoth d (.ev .evstat) (.ev .evien) 2 0
  else if 376 ≤ s ∧ s < 384 then (d.get (.ic .iswset)).getLsbD (s - 376)
  else false

/-- Word of the controller that holds source s. -/
def icWord (s : Nat) : Fin 12 := Fin.ofNat 12 (s / 32)

/-- Source s is enabled (R200). -/
def icEnabled (d : Dev) (s : Nat) : Bool := (d.get (.ic (.icen (icWord s)))).getLsbD (s % 32)

/-- A source's state in the controller. -/
def icSrc (d : Dev) (s : Nat) : SrcSt := d.ic.src[Fin.ofNat 384 s]

/-- The target of source s (R199). -/
def icTarget (d : Dev) (s : Nat) : Fin 5 :=
  if (d.get (.ic (.icroutes (icWord s)))).getLsbD (s % 32) then 4
  else Fin.ofNat 5 (d.f (.ic (.icsrc (Fin.ofNat 384 s))) ICSRC.TARGET)

/-- The level of source s. -/
def icLevel (d : Dev) (s : Nat) : Nat := d.f (.ic (.icsrc (Fin.ofNat 384 s))) ICSRC.LEVEL

/-- Source s is pending: asserted and enabled, and neither queued nor active (R201). -/
def icPending (d : Dev) (s : Nat) : Bool := icSrc d s |>.serve |> fun v => v == .free && icEnabled d s && icAsserted d s

/-- Replace a source's or a target's state. -/
def Dev.srcU (d : Dev) (s : Nat) (g : SrcSt → SrcSt) : Dev :=
  { d with ic := { d.ic with src := d.ic.src.set (Fin.ofNat 384 s) (g d.ic.src[Fin.ofNat 384 s]) } }
def Dev.tgtU (d : Dev) (c : Fin 5) (g : TgtSt → TgtSt) : Dev :=
  { d with ic := { d.ic with tgt := d.ic.tgt.set c (g d.ic.tgt[c]) } }

/-- Target c is enabled; it is in queue mode; level p is moderated on it. -/
def icEn (d : Dev) (c : Fin 5) : Bool := d.b (.icc c .iccfg) ICCFG.EN
def icQueue (d : Dev) (c : Fin 5) : Bool := d.b (.icc c .iccfg) ICCFG.MODE
def icModerated (d : Dev) (c : Fin 5) (p : Nat) : Bool := bitN (d.f (.icc c .iccfg) ICCFG.MODLVL) p

/-- Core c is in its wait state, which a presented request ends (R293). -/
def icWaiting (d : Dev) (c : Fin 5) : Bool := d.core[c].run == .waiting && (d.core[c].parked || !d.ic.tgt[c].woke)

/-- COUNT and TIME of target c's moderation: none where the window closes at once (R211). -/
def icModPar (d : Dev) (c : Fin 5) : Option (Nat × Nat) :=
  let m := match d.ic.tgt[c].win with
    | some w => w.mod.getD (d.get (.icc c .icmod))
    | none => d.get (.icc c .icmod)
  if d.f (.sys .sysctl) SYSCTL.PHASE == 1 then
    if icWaiting d c then none
    else some (ICMOD.NCOUNT.get m, ICMOD.NTIME.get m)
  else some (ICMOD.SCOUNT.get m, ICMOD.STIME.get m)

/-- The window of target c closes where its conditions hold; the expiry of TIME is the MODERATION_TIMEOUT row. -/
def icCloseWin (c : Fin 5) (d : Dev) : Dev :=
  match d.ic.tgt[c].win, icModPar d c with
  | none, _ => d
  | some _, none => d.tgtU c fun t => { t with win := none }
  | some w, some (n, us) =>
    if (n = 0 ∧ us = 0) ∨ (n ≠ 0 ∧ n ≤ w.count) then d.tgtU c fun t => { t with win := none } else d

/-- A moderated event on target c: it opens a window or falls into the open one (R211). -/
def icModEvent (c : Fin 5) (d : Dev) : Dev :=
  let d1 := d.tgtU c fun t =>
    match t.win with
    | none => { t with win := some { at_ := d.now, count := 1 }, withheld := satAdd 0xFFFF t.withheld 1 }
    | some w => { t with win := some { w with count := w.count + 1 }, withheld := satAdd 0xFFFF t.withheld 1 }
  match icModPar d c with
  | none => d
  | some (0, 0) => d
  | some _ => icCloseWin c d1

/-- The controller sees source s become pending, on the next edge of the strobe (R209). -/
def icBecome (s : Nat) (resamp : Bool) (d : Dev) : Dev :=
  let c := icTarget d s
  let d1 := d.srcU s fun x =>
    { x with pendAt := some d.now, pendTs := d.stamp (fabEdge d d.now), pendTv := d.ctv, resamp := resamp, heldQ := false }
  if icEn d c && !icQueue d c && icModerated d c (icLevel d s) then icModEvent c d1 else d1

/-- Bring source s in line with its condition: newly pending, or idle again (R201). -/
def icFollow (s : Nat) (d : Dev) : Dev :=
  let x := icSrc d s
  if icPending d s then if x.pendAt.isNone then icBecome s false d else d
  else if x.pendAt.isSome then
    d.srcU s fun x => { x with pendAt := none, resamp := false, heldQ := false, open_ := x.open_ && x.serve != .free }
  else d

/-- Occupancy of target c's ring, its slots and its effective limit (R205, R206). -/
def icOcc (d : Dev) (c : Fin 5) : Nat :=
  (d.f (.icc c .icqwr) ICQWR.INDEX + 65536 - d.f (.icc c .icqrd) ICQRD.INDEX) % 65536
def icSlots (d : Dev) (c : Fin 5) : Nat := 2 ^ d.f (.icc c .icqsize) ICQSIZE.QSZ
def icLimit (d : Dev) (c : Fin 5) : Nat := min (d.f (.icc c .icqsize) ICQSIZE.LIMIT) (icSlots d c)

/-- The better of two requests: the lower level, then the lower source number. -/
def icBest : List (Nat × Nat) → Option (Nat × Nat)
  | [] => none
  | (s, l) :: t =>
    match icBest t with
    | none => some (s, l)
    | some (s', l') => if l' < l then some (s', l') else some (s, l)

/-- Pending sources routed to target c, ascending, with their levels; an open one may or may not be there. -/
def icCand (d : Dev) (c : Fin 5) : List (Nat × Nat) :=
  ((List.range 384).filter fun s =>
    icPending d s && icTarget d s == c && (!(icSrc d s).open_ || Config.freeBool (d.free + s))).map fun s => (s, icLevel d s)

/-- Requests of level p are withheld by target c's open window (R211). -/
def icHeld (d : Dev) (c : Fin 5) (p : Nat) : Bool := d.ic.tgt[c].win.isSome && icModerated d c p

/-- A request of level p may be presented to core c: the level is below PSW.LEVEL, and no window withholds it (R202). -/
def icMay (d : Dev) (c : Fin 5) (p : Nat) : Bool := decide (p < PSW.LEVEL.get d.core[c].psw) && !icHeld d c p

/-- The request presented to core c: its source and level (R202, R210). -/
def icRequest (d : Dev) (c : Fin 5) : Option (Nat × Nat) :=
  let t := d.ic.tgt[c]
  if !icEn d c || t.broken then none
  else if icQueue d c then
    let q := d.f (.icc c .iccfg) ICCFG.QLVL
    if t.ringOpen && !Config.freeBool d.free then none
    else if icOcc d c != 0 && icMay d c q then some (0x1FF, q) else none
  else icBest ((icCand d c).filter fun p => icMay d c p.2)

/-- A presented request ends core c's wait state (R293). -/
def icWake (c : Fin 5) (d : Dev) : Dev :=
  if d.core[c].run == .waiting && !d.core[c].parked && (icRequest d c).isSome then d.tgtU c fun t => { t with woke := true } else d

/-- Some source is enabled, some core waits or some moderation window is open: the controller has something to follow. -/
def icWatch (d : Dev) : Bool :=
  ((fins 12).any fun k => d.get (.ic (.icen k)) != 0) || (fins 5).any fun c => d.core[c].run == .waiting || d.ic.tgt[c].win.isSome

/-- The controller follows every source (R201, R211) and presents its requests (R293). -/
def settle (d : Dev) : Dev :=
  if icWatch d then { d with ic := (((d.each (List.range 384) icFollow).each (fins 5) icCloseWin).each (fins 5) icWake).ic } else d

/-- Parity bit of a stack entry. -/
def icPar (s l : Nat) : Bool := (parity 9 s != parity 3 l) != Config.stackOdd

/-- The top entry of target c fails its parity check (R213). -/
def icParBad (d : Dev) (c : Fin 5) : Bool := d.ic.tgt[c].stack.head?.any fun e => e.par != icPar e.src e.lvl

/-- A stack error on target c (R213, R214). -/
def icBreak (c : Fin 5) (cause : Nat) (d : Dev) : Dev :=
  let d1 := d.tgtU c fun t => { t with broken := true, cause := if t.broken then t.cause else cause }
  { d1 with core := d1.core.set c { d1.core[c] with haltRq := true } } |>.pulse (392 + c.val)

/-- A stack check: its outcome is open where a source's target or level changed while it was in service. -/
def icCheck (c : Fin 5) (bad : Bool) (d : Dev) : Bool × Dev :=
  if d.ic.tgt[c].chkOpen then (Config.freeBool d.free, d.bumpFree) else (bad, d)

/-- Core c accepts the presented request: the source becomes active and its entry is pushed (R202, R213). -/
def icAccept (c : Fin 5) (s l : Nat) (d : Dev) : Dev :=
  let d1 := if s < 384 then d.srcU s fun x => { x with serve := .active, pendAt := none } else d
  let stk := d1.ic.tgt[c].stack
  let bad := decide (8 ≤ stk.length) || (stk.head?.any fun e => decide (e.lvl ≤ l))
  let (b, d2) := icCheck c bad d1
  let d3 := if icParBad d c then icBreak c 5 d2 else if b then icBreak c 4 d2 else d2
  if stk.length < 8 then d3.tgtU c fun t => { t with stack := { src := s, lvl := l, par := icPar s l } :: t.stack } else d3

/-- A source is resampled (R204), under the storm guard (R212). -/
def icResample (s : Nat) (d : Dev) : Dev :=
  let n := d.f (.ic .icgcfg) ICGCFG.STORMN
  let d0 := d.srcU s fun x => { x with serve := .free, pendAt := none, resamp := false, heldQ := false, open_ := false }
  if icPending d0 s then
    if n ≠ 0 ∧ n ≤ (icSrc d s).storm + 1 then
      ((d0.setBit (.ic (.icen (icWord s))) (s % 32) false).setBit (.ic (.icstorm (icWord s))) (s % 32) true).srcU s
        fun x => { x with storm := 0 }
    else icBecome s true (if n = 0 then d0 else d0.srcU s fun x => { x with storm := x.storm + 1 })
  else if icAsserted d0 s then d0
  else d0.srcU s fun x => { x with storm := 0 }

/-- A write of ICEOIc (R203, R210, R213). -/
def icEoi (c : Fin 5) (s : Nat) (d : Dev) : Dev :=
  match d.ic.tgt[c].stack with
  | [] => icBreak c 2 d
  | e :: rest =>
    let (b, d1) := icCheck c (e.src != s) d
    if icParBad d c then icBreak c 5 d1
    else if b then icBreak c 1 d1
    else
      let d2 := d1.tgtU c fun t => { t with stack := rest, chkOpen := t.chkOpen && !rest.isEmpty }
      if s < 384 then icResample s d2 else d2

/-- The core's return from a level is checked against the stack: its PSW.LEVEL is now `now` (R213). -/
def icReturn (c : Fin 5) (now : Nat) (d : Dev) : Dev :=
  let top := match d.ic.tgt[c].stack with
    | [] => 8
    | e :: _ => e.lvl
  let (b, d1) := icCheck c (top != now) d
  if icParBad d c then icBreak c 5 d1 else if b then icBreak c 3 d1 else d1

/-- A write of ICQDONEc (R210). -/
def icDone (c : Fin 5) (s : Nat) (d : Dev) : Dev :=
  if s < 384 ∧ (icSrc d s).serve = .queued ∧ icTarget d s = c then icResample s d else d

/-- One word of a record, open where the ring's indices are (R205). -/
def icWordOf (free : Bool) (k : Nat) (w : Word) (d : Dev) : Word := if free then Config.freeValue (d.free + k) else w

/-- The next pending source of target c is recorded in its ring, or held by the limit (R206-R209). -/
def icRecord (c : Fin 5) (d : Dev) : Dev :=
  let cand := icCand d c
  let wr := d.f (.icc c .icqwr) ICQWR.INDEX
  let a := (d.get (.icc c .icqbase)).toNat + 16 * (wr % icSlots d c)
  if !icEn d c || !icQueue d c || memWaits d a then d
  else if icLimit d c ≤ icOcc d c then
    let new := cand.filter fun p => !(icSrc d p.1).heldQ
    let d1 := if cand.isEmpty then d else d.tgtU c fun t => { t with full := true, fullCnt := satAdd 0xFFFF t.fullCnt new.length }
    d1.each new fun p d => d.srcU p.1 fun x => { x with heldQ := true }
  else
    match icBest cand with
    | none => d
    | some (s, l) =>
      let x := icSrc d s
      let ts := x.pendTs
      let op := d.ic.tgt[c].ringOpen
      let w0 := w32 (2 ^ 31 * (wr / icSlots d c % 2) + 2 ^ 30 * b2n x.pendTv + 2 ^ 29 * b2n x.resamp + 2 ^ 9 * l + s)
      let d1 := memWrite a (icWordOf op 0 w0 d) d
      let d2 := memWrite (a + 4) (icWordOf op 1 0 d) d1
      let d3 := memWrite (a + 8) (icWordOf op 2 (lo32 ts) d) d2
      let d4 := memWrite (a + 12) (icWordOf op 3 (hi32 ts) d) d3
      let d5 := if op then { d4 with free := d4.free + 4 } else d4
      let d6 := d5.setF (.icc c .icqwr) ICQWR.INDEX (wr + 1)
      let d7 := d6.srcU s fun x => { x with serve := .queued, pendAt := none, resamp := false, heldQ := false }
      let q := d.f (.icc c .iccfg) ICCFG.QLVL
      if icModerated d c q then icModEvent c d7 else d7

/-- The time of target c's moderation window expires (R211). -/
def icModTimeout (c : Fin 5) (d : Dev) : Dev :=
  match d.ic.tgt[c].win, icModPar d c with
  | some w, some (_, us) =>
    if us = 0 then d else (d.at (w.at_ + us * tuUs)).tgtU c fun t => { t with win := none }
  | _, _ => d

/-- The ring of target c may be enabled (R205). -/
def icRingOk (d : Dev) (c : Fin 5) : Bool :=
  let b := (d.get (.icc c .icqbase)).toNat
  let q := d.f (.icc c .icqsize) ICQSIZE.QSZ
  b % 16 == 0 && decide (4 ≤ q ∧ q ≤ 12 ∧ 0x20000000 ≤ b ∧ b + 16 * 2 ^ q ≤ 0x20400000)

/-- A write of ICCFGc (R205, R215). -/
def icWriteCfg (c : Fin 5) (v : Word) (d : Dev) : Dev :=
  let was := icEn d c
  let new := plainWrite (IccReg.access .iccfg) (d.get (.icc c .iccfg)) v
  if was then
    let d1 := d.flagIf (ICCFG.MODE.bit new != icQueue d c) (.icc c .icstat) ICSTAT.CFG_REJ
    d1.put (.icc c .iccfg) (ICCFG.MODE.put (b2n (icQueue d c)) new)
  else if ICCFG.EN.bit new then
    if ICCFG.MODE.bit new then
      if icRingOk d c then
        (((d.put (.icc c .iccfg) new).put (.icc c .icqwr) 0).put (.icc c .icqrd) 0).tgtU c fun t => { t with ringOpen := false }
      else d.flag (.icc c .icstat) ICSTAT.ENREJ
    else d.put (.icc c .iccfg) new
  else d.put (.icc c .iccfg) new

/-- A write of ICQRDc (R205, R206): one that leaves the occupancy beyond the slots opens the ring's contents. -/
def icWriteRd (c : Fin 5) (v : Word) (d : Dev) : Dev :=
  let d1 := d.wr (.icc c .icqrd) v
  if icSlots d1 c < icOcc d1 c then d1.tgtU c fun t => { t with ringOpen := true } else d1

/-- A write of ICMODc: an open window keeps the old parameters or takes the new ones. -/
def icWriteMod (c : Fin 5) (v : Word) (d : Dev) : Dev :=
  match d.ic.tgt[c].win with
  | none => d.wr (.icc c .icmod) v
  | some w =>
    let old := w.mod.getD (d.get (.icc c .icmod))
    let keep := Config.freeBool d.free
    let d1 := (d.wr (.icc c .icmod) v).bumpFree
    d1.tgtU c fun t => { t with win := some { w with mod := if keep then some old else none } }

/-- Write of a register of target c (R215). -/
def iccWrite (by_ : Requester) (c : Fin 5) (r : IccReg) (v : Word) (d : Dev) : Dev :=
  if c = 4 ∧ by_ ≠ .core 4 then d.flag (.icc c .icstat) ICSTAT.WREJ
  else
    match r with
    | .iccfg => icWriteCfg c v d
    | .icmod => icWriteMod c v d
    | .iceoi => icEoi c (ICEOI.SRC.get v) d
    | .icqbase =>
      if icEn d c then d.flagIf (plainWrite (IccReg.access .icqbase) (d.get (.icc c .icqbase)) v != d.get (.icc c .icqbase))
        (.icc c .icstat) ICSTAT.CFG_REJ
      else d.wr (.icc c .icqbase) v
    | .icqsize =>
      if icEn d c then
        let q := d.f (.icc c .icqsize) ICQSIZE.QSZ
        (d.wr (.icc c .icqsize) (ICQSIZE.QSZ.put q v)).flagIf (ICQSIZE.QSZ.get v != q) (.icc c .icstat) ICSTAT.CFG_REJ
      else d.wr (.icc c .icqsize) v
    | .icqrd => icWriteRd c v d
    | .icqdone => icDone c (ICQDONE.SRC.get v) d
    | .icstat =>
      (d.wr (.icc c .icstat) v).tgtU c fun t => { t with full := t.full && !ICSTAT.FULL.bit v }
    | .icqwr => d
    | .icact => d
    | .iccnt => d

/-- Source s changes its target, level or route while in service: its presentation and the target's checks are open. -/
def icMoved (s : Nat) (was : Fin 5) (d : Dev) : Dev :=
  if icPending d s || (icSrc d s).serve != .free then
    let d1 := d.srcU s fun x => { x with open_ := true }
    if (icSrc d s).serve != .free then
      (d1.tgtU was fun t => { t with chkOpen := true }).tgtU (icTarget d1 s) fun t => { t with chkOpen := true }
    else d1
  else d

/-- Enable word k takes a value: a source whose enable is cleared is not pending any more (R200, R201). -/
def icEnable (k : Fin 12) (v : Word) (d : Dev) : Dev :=
  (d.put (.ic (.icen k)) v).each (List.range 32) fun b => icFollow (32 * k.val + b)

/-- Write of a controller register (R199, R200, R212). -/
def icWrite (r : IcReg) (v : Word) (d : Dev) : Dev :=
  match r with
  | .icsrc s =>
    let d1 := d.wr (.ic (.icsrc s)) v
    if d1.get (.ic (.icsrc s)) = d.get (.ic (.icsrc s)) then d1 else icMoved s.val (icTarget d s.val) d1
  | .icen k => icEnable k v d
  | .icenset k => icEnable k (d.get (.ic (.icen k)) ||| v) d
  | .icenclr k => icEnable k (d.get (.ic (.icen k)) &&& ~~~ v) d
  | .iswset => d.put (.ic .iswset) (d.get (.ic .iswset) ||| (v &&& 0xFF))
  | .iswclr => d.put (.ic .iswset) (d.get (.ic .iswset) &&& ~~~ v)
  | .icstorm k => d.wr (.ic (.icstorm k)) v
  | .icgcfg => d.wr (.ic .icgcfg) v
  | .icpend _ => d
  | .icroutes _ => d
  | .icstk _ _ => d

/-- A two-party commit of a word of ICROUTES (R199). -/
def icRoute (k : Fin 12) (v : Word) (d : Dev) : Dev :=
  let old := d.get (.ic (.icroutes k))
  let d1 := d.put (.ic (.icroutes k)) v
  d1.each ((List.range 32).filter fun b => old.getLsbD b != v.getLsbD b) fun b e =>
    icMoved (32 * k.val + b) (icTarget d (32 * k.val + b)) e

/-- STATE of a source (R201). -/
def icState (d : Dev) (s : Nat) : Nat :=
  match (icSrc d s).serve with
  | .queued => 2
  | .active => 3
  | .free => b2n (icEnabled d s && icAsserted d s)

/-- What a read of a controller register gives. -/
def icRead (d : Dev) (r : IcReg) : Word :=
  match r with
  | .icsrc s =>
    d.get (.ic (.icsrc s)) |> ICSRC.STATE.put (icState d s.val) |> ICSRC.ASSERTED.put (b2n (icAsserted d s.val))
  | .icen k => d.get (.ic (.icen k))
  | .icenset k => d.get (.ic (.icen k))
  | .icenclr k => d.get (.ic (.icen k))
  | .icpend k => w32 (packBits ((List.range 32).map fun b => icPending d (32 * k.val + b)))
  | .iswset => d.get (.ic .iswset)
  | .iswclr => d.get (.ic .iswset)
  | .icstk c j =>
    match d.ic.tgt[c].stack.reverse[j.val]? with
    | none => 0
    | some e => (0 : Word) |> ICSTK.P.put (b2n e.par) |> ICSTK.LEVEL.put e.lvl |> ICSTK.SRC.put e.src
  | r => d.get (.ic r)

/-- What a read of a target's register gives. -/
def iccRead (d : Dev) (c : Fin 5) (r : IccReg) : Word :=
  let t := d.ic.tgt[c]
  match r with
  | .icact =>
    match t.stack with
    | [] => ICACT.TLEVEL.put 8 0
    | e :: _ => (0 : Word) |> ICACT.DEPTH.put t.stack.length |> ICACT.TLEVEL.put e.lvl |> ICACT.SRC.put e.src
  | .icstat =>
    d.get (.icc c .icstat) |> ICSTAT.CAUSE.put t.cause |> ICSTAT.BROKEN.put (b2n t.broken) |> ICSTAT.FULL.put (b2n t.full)
  | .iccnt => (0 : Word) |> ICCNT.FULL_CNT.put t.fullCnt |> ICCNT.WITHHELD_CNT.put t.withheld
  | .iceoi => 0
  | .icqdone => 0
  | r => d.get (.icc c r)

/-- A read of ICCNTc clears it. -/
def iccReadEff (c : Fin 5) (r : IccReg) (d : Dev) : Dev :=
  match r with
  | .iccnt => d.tgtU c fun t => { t with fullCnt := 0, withheld := 0 }
  | _ => d

/-- Core c is reset: its stack empties and its active sources are resampled (R214). -/
def icCoreReset (c : Fin 5) (d : Dev) : Dev :=
  let act := (List.range 384).filter fun s => (icSrc d s).serve == .active && icTarget d s == c
  let d1 := d.tgtU c fun t => { t with stack := [], broken := false, cause := 0, chkOpen := false }
  d1.each act icResample

end Sys2Proof.Machine
end

