-- ==== Sys2Proof/Machine/Security.lean ====
section
/-!
DEFINITION. The security block (R427-R443): staging, the nonce, the two parties' confirmation, applying a stage, image headers
and the verifier.
-/
namespace Sys2Proof.Machine
open Sys2Proof

/-- Replace the security block's hidden state. -/
def Dev.secU (d : Dev) (g : SecSt → SecSt) : Dev := { d with sec := g d.sec }

/-- Fields of the block. -/
def Dev.tk (d : Dev) (f : Fld) : Nat := d.f (.sec .tk_stat) f
def Dev.tkB (d : Dev) (f : Fld) : Bool := d.b (.sec .tk_stat) f

/-- A stage is open. -/
def tkOpen (d : Dev) : Bool := d.tkB TK_STAT.OPEN

/-- The single-key state (R433). -/
def tkBootKey (d : Dev) : Bool := !d.b (.sys (.ready 0)) READY0.BOOT && !d.b (.sys .bootstat) BOOTSTAT.RECOV

/-- Party B by its requester number (R430). -/
def tkPartyB (d : Dev) : Nat := if d.b (.sys .bootstat) BOOTSTAT.RECOV then 5 else d.f (.sec .tkcfg) TKCFG.PARTYB

/-- Entry j: its address and value. -/
def tkEntry (d : Dev) (j : Fin 8) : Nat × Word :=
  (4 * TK_ENTA.ADDR.get (d.get (.sec (.tk_enta j))), d.get (.sec (.tk_entv j)))

/-- The entries in index order. -/
def tkEntries (d : Dev) : List (Nat × Word) := ((fins 8).filter fun j => j.val < d.tk TK_STAT.COUNT).map (tkEntry d)

/-- The stage closes: its entries, seal and nonce go (R431, R432). -/
def tkClose (result : Nat) (d : Dev) : Dev :=
  let d1 := d.each (fins 8) fun j d => (d.put (.sec (.tk_enta j)) 0).put (.sec (.tk_entv j)) 0
  let s := d1.get (.sec .tk_stat) |> TK_STAT.OPEN.put 0 |> TK_STAT.SEALED.put 0 |> TK_STAT.ADONE.put 0 |> TK_STAT.BDONE.put 0 |>
    TK_STAT.COUNT.put 0 |> TK_STAT.NBUSY.put 0 |> TK_STAT.RESULT.put result
  ((d1.put (.sec .tk_stat) s).setB (.sec .tk_nonce) TK_NONCE.VALID false).secU fun x =>
    { x with firstAt := none, waitA := none, waitB := none }

/-- The line a RESULT pulses (R441). -/
def tkLine : Nat → Option Nat
  | 2 => some 409
  | 3 => some 410
  | 4 => some 412
  | 6 => some 413
  | _ => none

/-- The stage is discarded (R431). -/
def tkDiscard (result : Nat) (d : Dev) : Dev :=
  let d1 := ((tkClose result d).flag (.sec .tk_stat) TK_STAT.FAILF).bump (.sec .tk_cnt) TK_CNT.FAIL_CNT
  match tkLine result with
  | some l => d1.pulse l
  | none => d1

/-- The commit window: 25,000 reference cycles. -/
def tuWindow : Nat := 25000 * tuRef

/-- Instant at which the open stage lapses (R431). -/
def tkDue (d : Dev) : Nat := (d.sec.firstAt.getD d.sec.entryAt) + tuWindow

/-- A stage whose window has lapsed is discarded before anything else reaches the block (R431). -/
def tkCatch (d : Dev) : Dev := if tkOpen d && decide (tkDue d ≤ d.now) then tkDiscard 2 d else d

/-- The window lapses (TK_EXPIRY). -/
def tkExpire (d : Dev) : Dev := if tkOpen d then tkDiscard 2 (d.at (tkDue d)) else d

/-- An entry is refused. -/
def tkReject (f : Fld) (d : Dev) : Dev := (d.flag (.sec .tk_stat) f).bump (.sec .tk_cnt) TK_CNT.REJ_CNT

/-- An entry may be staged (R427, R428): the address is that of a TK register and the value sets no reserved bit. -/
def tkListed (a : Nat) (v : Word) : Bool :=
  if a % 4 != 0 then false
  else
    match Reg.ofAddr a with
    | none => false
    | some r =>
      r.access.tk != 0 && v &&& ~~~r.access.tk == 0 &&
        !(r == .sec .tkcfg && (TKCFG.PARTYB.get v == 4 || decide (6 ≤ TKCFG.PARTYB.get v)))

/-- How an entry ends. -/
inductive TkEntryRes where
  | taken
  | busy
  | refused
  deriving DecidableEq, Repr

/-- An accepted entry at index j: it is written, a random word is drawn and the nonce computation begins (R428, R429). -/
def tkTake (by_ a : Nat) (v : Word) (j : Fin 8) (d : Dev) : Dev :=
  let n := d.tk TK_STAT.COUNT
  let d1 := (d.put (.sec (.tk_enta j)) ((0 : Word) |> TK_ENTA.ADDR.put (a / 4) |> TK_ENTA.V.put 1)).put (.sec (.tk_entv j)) v
  let s := d1.get (.sec .tk_stat) |> TK_STAT.OPEN.put 1 |> TK_STAT.COUNT.put (max n (j.val + 1)) |> TK_STAT.NBUSY.put 1 |>
    TK_STAT.OPENER.put (if tkOpen d then d.tk TK_STAT.OPENER else by_)
  let d2 := (d1.put (.sec .tk_stat) s).setB (.sec .tk_nonce) TK_NONCE.VALID false
  (d2.secU fun x => { x with rnd := Config.freeValue d.free, entryAt := d.now, firstAt := none }).bumpFree

/-- An entry from a requester (R428). -/
def tkStage (by_ a : Nat) (v : Word) (d0 : Dev) : TkEntryRes × Dev :=
  let d := tkCatch d0
  let hit := (fins 8).find? fun j => decide (j.val < d.tk TK_STAT.COUNT) && (tkEntry d j).1 == a
  let n := d.tk TK_STAT.COUNT
  if !tkListed a v then (.refused, tkReject TK_STAT.SREJ d)
  else if tkOpen d && (d.tk TK_STAT.OPENER != by_ || d.tkB TK_STAT.SEALED) then (.busy, tkReject TK_STAT.BUSYREJ d)
  else
    match hit with
    | some j => (.taken, tkTake by_ a v j d)
    | none => if 8 ≤ n then (.busy, tkReject TK_STAT.BUSYREJ d) else (.taken, tkTake by_ a v (Fin.ofNat 8 n) d)

/-- The bytes the nonce covers (R429). -/
def tkNonceBytes (d : Dev) : List Byte :=
  bytesLE 4 d.sec.rnd.toNat ++ ((tkEntries d).map fun e => bytesLE 4 e.1 ++ bytesLE 4 e.2.toNat).flatten

/-- Budget of holder h once every entry is applied. -/
def tkBudget (d : Dev) (es : List (Nat × Word)) (h : Fin 70) : Nat :=
  match es.find? fun e => e.1 = Reg.addr (.sys (.tagbud h)) with
  | some e => TAGBUD.BUDGET.get e.2
  | none => d.f (.sys (.tagbud h)) TAGBUD.BUDGET

/-- Holder whose budget an entry sets. -/
def tkHolder (e : Nat × Word) : Option (Fin 70) :=
  match Reg.ofAddr e.1 with
  | some (.sys (.tagbud h)) => some h
  | _ => none

/-- Index of the first failing entry, if the entries break R45 (R432).
DEDUCED (log entry 143): the first budget entry that raises a budget or sets S's below 16; the first budget entry where none does. -/
def tkFail (d : Dev) : Option Nat :=
  let es := tkEntries d
  let sum := ((fins 70).map (tkBudget d es)).sum
  let low := decide (tkBudget d es 4 < 16)
  let idx := (es.zip (List.range 8)).filter fun p => (tkHolder p.1).isSome
  if idx.isEmpty || !(decide (4096 < sum) || low) then none
  else
    let bad := idx.find? fun p =>
      match tkHolder p.1 with
      | some h => decide (d.f (.sys (.tagbud h)) TAGBUD.BUDGET < TAGBUD.BUDGET.get p.1.2) ||
          (h == 4 && decide (TAGBUD.BUDGET.get p.1.2 < 16))
      | none => false
    some ((bad.or idx.head?).map (·.2)|>.getD 0)

/-- A committed value reaches its register; the target's own rules govern what follows (R432). -/
def tkCommit (r : Reg) (v : Word) (d : Dev) : Dev :=
  match r with
  | .fc (.fmask k) => fcSetMask k v d
  | .fc (.flevel c) => fcSetLevel c v d
  | .fc (.fgmap c k) => fcSetMap c k v d
  | .shl n x => shlSet n x v d
  | .shtm m x => shtmSet m x v d
  | .ic (.icroutes k) => icRoute k v d
  | .shg .shblankmax => shBlankMax v d
  | .sys (.tagbud h) =>
    let d1 := d.put (.sys (.tagbud h)) v
    -- a raised budget takes effect at once (R47): lines that waited for it are written
    if h = 69 then d1.each (fins 16) fun r d => capPump r d else d1
  | r => d.put r v

/-- The stage is applied, or fails its checks (R432). -/
def tkApply (d : Dev) : Dev :=
  match tkFail d with
  | some j => (tkDiscard 4 d).setF (.sec .tk_stat) TK_STAT.FAILJ j
  | none =>
    let d1 := d.each (tkEntries d) fun e d =>
      match Reg.ofAddr e.1 with
      | some r => tkCommit r e.2 d
      | none => d
    ((tkClose 1 d1).flag (.sec .tk_stat) TK_STAT.DONEF).bump (.sec .tk_cnt) TK_CNT.COMMIT_CNT

/-- The value of a commit write is compared with the nonce (R430, R431); the stage completes once each party that must has
confirmed.  ADONE and BDONE mark who has written. -/
def tkJudge (a : Bool) (v : Word) (d : Dev) : Dev :=
  if !tkOpen d then d
  else if v.toNat % 65536 ≠ d.f (.sec .tk_nonce) TK_NONCE.NONCE then tkDiscard 3 d
  else
    let other := if a then d.tkB TK_STAT.BDONE else d.tkB TK_STAT.ADONE
    if (a && tkBootKey d) || other then tkApply d else d

/-- The nonce is ready (R429, R430): it is written, and waiting commit writes are compared. -/
def tkNonceReady (d0 : Dev) : Dev :=
  let d := tkCatch d0
  if !d.tkB TK_STAT.NBUSY then d
  else
    let n := crc16 (tkNonceBytes d)
    let d1 := (d.setB (.sec .tk_stat) TK_STAT.NBUSY false).put (.sec .tk_nonce)
      ((0 : Word) |> TK_NONCE.VALID.put 1 |> TK_NONCE.NONCE.put n)
    let d2 := d1.secU fun x => { x with waitA := none, waitB := none }
    let bad (w : Option Word) : Bool := match w with
      | some v => v.toNat % 65536 != n
      | none => false
    if bad d.sec.waitA || bad d.sec.waitB then tkDiscard 3 d2
    else match d.sec.waitA, d.sec.waitB with
      | some v, _ => tkJudge true v d2
      | none, some v => tkJudge false v d2
      | none, none => d2

/-- A party's commit write (R430, R434). -/
def tkConfirm (a : Bool) (v : Word) (d : Dev) : Dev :=
  let d1 := if d.tkB TK_STAT.SEALED then d
    else (d.flag (.sec .tk_stat) TK_STAT.SEALED).secU fun x => { x with firstAt := some d.now }
  let d2 := d1.flag (.sec .tk_stat) (if a then TK_STAT.ADONE else TK_STAT.BDONE)
  if d2.tkB TK_STAT.NBUSY then
    let clash (w : Option Word) : Bool := match w with
      | some x => x.toNat % 65536 != v.toNat % 65536
      | none => false
    if a then (if clash d2.sec.waitA then tkDiscard 3 d2 else d2.secU fun x => { x with waitA := some v })
    else (if clash d2.sec.waitB then tkDiscard 3 d2 else d2.secU fun x => { x with waitB := some v })
  else tkJudge a v d2

/-- A core that is in reset, halted, locked up or parked cannot confirm, nor can S in lockdown (R434). -/
def tkMute (d : Dev) (by_ : Nat) : Bool :=
  if h : by_ < 5 then
    let x := d.core[by_]
    x.run == .held || x.run == .halted || x.run == .locked || x.parked || (by_ == 4 && d.b (.fc .fsum) FSUM.LOCKDOWN)
  else false

/-- TK_COMMIT_A or TK_COMMIT_B is written (R430, R433, R434). -/
def tkCommitWrite (a : Bool) (by_ : Nat) (v : Word) (d0 : Dev) : Dev :=
  let d := tkCatch d0
  if (!a && tkBootKey d) || tkMute d by_ then d
  else if by_ ≠ (if a then 4 else tkPartyB d) then (tkReject TK_STAT.WRONGPARTY d).pulse 411
  else if !tkOpen d then tkReject TK_STAT.NOSTAGE d
  else tkConfirm a v d

/-- A write or read is refused with WREJ (R440, R441, R443). -/
def secWrej (d : Dev) : Dev := (d.flag (.sec .tk_stat) TK_STAT.WREJ).pulse 415

/-- TK_CLEAR is written (R431). -/
def tkClear (by_ : Nat) (d0 : Dev) : Dev :=
  let d := tkCatch d0
  if by_ = 4 ∨ by_ = tkPartyB d ∨ (tkOpen d ∧ by_ = d.tk TK_STAT.OPENER) then (if tkOpen d then tkDiscard 5 d else d)
  else secWrej d

/-- Core reset of helm core c discards the stage where c is party B (R431). -/
def tkPartyReset (c : Fin 5) (d : Dev) : Dev := if tkOpen d && c != 4 && c.val == tkPartyB d then tkDiscard 6 d else d

/-- Base of a bank, and of the OTP sector. -/
def bankBase (b : Bool) : Nat := if b then 0x00700000 else 0x00100000
def otpBase : Nat := 0x00E0F000

/-- What a header says (R436). -/
structure Header where
  seq     : Nat
  bodyLen : Nat
  slot    : Nat
  cores   : Nat
  partyB  : Nat
  keymask : Nat
  minSeq  : Word
  flwp    : Word
  entryS  : Word
  entryH  : List Word
  dtb     : List Word
  raw     : List Byte
  deriving DecidableEq, Repr

/-- Big-endian number of bytes. -/
def ofBE (l : List Byte) : Nat := l.foldl (fun a b => 256 * a + b.toNat) 0

/-- Read a header's fields. -/
def headerOf (l : List Byte) : Header :=
  let b (o : Nat) : Nat := (l.getD o 0).toNat
  { seq := (wordAt l 8).toNat, bodyLen := (wordAt l 12).toNat, slot := b 16, cores := b 17, partyB := b 18, keymask := b 19,
    minSeq := wordAt l 0x14, flwp := wordAt l 0x18, entryS := wordAt l 0x1C,
    entryH := (List.range 4).map fun k => wordAt l (0x20 + 4 * k), dtb := (List.range 5).map fun k => wordAt l (0x30 + 4 * k),
    raw := l }

/-- What a verification finds when it reads words of flash: their bytes; a word that is uncorrectable; or only words that are defined
and words that are not. -/
inductive FlSeen where
  | ok (l : List Byte)
  | bad
  | undef
  deriving DecidableEq, Repr
def flSee (d : Dev) (a n : Nat) : FlSeen :=
  let ws := (List.range n).map fun k => a + 16 * k
  if ws.any fun x => !flOpen d x && (flData d x).isNone then .bad
  else if ws.any (flOpen d) then .undef
  else match flBytes d a n with
    | some l => .ok l
    | none => .bad

/-- MAGIC and FORMAT of a candidate (R437). -/
def isCandidate (l : List Byte) : Bool := wordAt l 0 == 0x314B4D55 && wordAt l 4 == 1

/-- The header of a bank: none where a word cannot be read; `some none` where it holds no candidate (R437). -/
def bankHeader (d : Dev) (b : Bool) : Option (Option Header) :=
  match flBytes d (bankBase b) 16 with
  | none => none
  | some l => some (if isCandidate l then some (headerOf l) else none)

/-- The header's fields follow R436. -/
def Header.ok (h : Header) : Bool :=
  decide (1 ≤ h.seq ∧ h.seq ≤ 0xFFFFFFFE ∧ h.bodyLen % 16 = 0 ∧ 16 ≤ h.bodyLen ∧ h.bodyLen ≤ 6291200 ∧ h.slot ≤ 3 ∧
    h.cores < 16 ∧ (h.partyB ≤ 3 ∨ h.partyB = 5) ∧ h.keymask < 16) && (((h.raw.drop 0x44).take 28).all (· == 0))

/-- A stored word reads erased. -/
def flErased (d : Dev) (a : Nat) : Bool := flGet d a == BitVec.allOnes 137

/-- Key hash slot i is empty (R435); a word of it is not defined and none is known to be programmed. -/
def slotEmpty (d : Dev) (i : Nat) : Bool := flErased d (otpBase + 0x20 * i) && flErased d (otpBase + 0x20 * i + 16)
def slotOpen (d : Dev) (i : Nat) : Bool :=
  let w (k : Nat) := otpBase + 0x20 * i + 16 * k
  (flOpen d (w 0) || flOpen d (w 1)) && (flOpen d (w 0) || flErased d (w 0)) && (flOpen d (w 1) || flErased d (w 1))

/-- Floor word j (R435). -/
def floorAt (j : Nat) : Nat := otpBase + 0x100 + 0x10 * j

/-- The floor (R435): the highest valid floor word; uncorrectable ones are ignored.  Whether a floor word is not defined. -/
def otpFloor (d : Dev) : Nat :=
  ((List.range 64).map fun j =>
    match flBytes d (floorAt j) 1 with
    | some l => if wordAt l 4 = ~~~wordAt l 0 then (wordAt l 0).toNat else 0
    | none => 0).foldl max 0
def floorOpen (d : Dev) : Bool := (List.range 64).any fun j => flOpen d (floorAt j)

/-- The last checks of R437, of the sequence number and of a commit: the results that may come. -/
def seqCheck (d : Dev) (h : Header) (commit : Bool) : List Nat :=
  if h.seq < otpFloor d || (commit && (!bitN (d.f (.sec .bootpol) BOOTPOL.KEYMASK) h.slot ||
      decide (h.seq ≤ (d.get (.sys .bootseq)).toNat) || decide (h.seq < (d.get (.sec .bootmin)).toNat))) then [4]
  else if floorOpen d then [4, 1] else [1]

/-- The checks of R437 after the key slot. -/
def imageCheck (d : Dev) (b : Bool) (h : Header) (commit : Bool) : List Nat :=
  let n (o : Nat) : Nat := ofBE ((h.raw.drop o).take 32)
  if !ecdsaVerify (n 0x80) (n 0xA0) (sha256 (h.raw.take 0xC0)) (n 0xC0) (n 0xE0) then [2]
  else
    match flSee d (bankBase b + 256) (h.bodyLen / 16) with
    | .bad => [3]
    | .undef => 3 :: 2 :: seqCheck d h commit
    | .ok body => if sha256 body ≠ n 0x60 then [2] else seqCheck d h commit

/-- The checks of R437 of the key slot, and those after it. -/
def slotCheck (d : Dev) (b : Bool) (h : Header) (commit : Bool) : List Nat :=
  match flSee d (otpBase + 0x20 * h.slot) 2, flSee d (otpBase + 0x80 + 0x10 * h.slot) 1 with
  | .ok k, .ok _ =>
    if slotEmpty d h.slot || !flErased d (otpBase + 0x80 + 0x10 * h.slot) then [4]
    else if sha256 ((h.raw.drop 0x80).take 64) ≠ ofBE k then [2]
    else imageCheck d b h commit
  | .bad, _ => [3]
  | _, .bad => [3]
  | _, _ => 4 :: 3 :: 2 :: imageCheck d b h commit

/-- The verifier's result on a bank (R437, R439), by what it reads: one, or those that may come where a word it reads is not defined;
`blank` skips the key-slot checks and asks for slot 0. -/
def verify (d : Dev) (b commit blank : Bool) : List Nat :=
  match flSee d (bankBase b) 16 with
  | .bad => [3]
  | .undef => [0, 1, 2, 3, 4]
  | .ok l =>
    let h := headerOf l
    if !isCandidate l then [0]
    else if !h.ok then [2]
    else if blank then (if h.slot = 0 then imageCheck d b h commit else [4])
    else slotCheck d b h commit

/-- One of the results that may come. -/
def verPick (l : List Nat) (d : Dev) : Nat × Dev :=
  match l with
  | [r] => (r, d)
  | l => (l.getD ((Config.freeValue d.free).toNat % max 1 l.length) 0, d.bumpFree)

/-- The result, open where the image was changed while the verifier ran. -/
def verifyNow (b commit blank open_ : Bool) (d : Dev) : Nat × Dev :=
  verPick (if open_ then [0, 1, 2, 3, 4] else verify d b commit blank) d

/-- VERSTAT and VERSEQ after a verification: SEQ of the header it read, where its word can be read (R443). -/
def verRecord (b : Bool) (res : Nat) (d : Dev) : Dev :=
  let d1 := d.put (.sec .verstat) ((0 : Word) |> VERSTAT.RESULT.put res |> VERSTAT.BANK.put (b2n b))
  match flSee d (bankBase b) 1 with
  | .ok l => d1.put (.sec .verseq) (wordAt l 8)
  | .undef => (d1.put (.sec .verseq) (Config.freeValue d1.free)).bumpFree
  | .bad => d1

/-- A verification starts. -/
def verStart (b : Bool) (who : VerFor) (d : Dev) : Dev :=
  let d1 := (d.flag (.sec .verstat) VERSTAT.BUSY).setB (.sec .verstat) VERSTAT.BANK b
  let busy := match d.fl.op with
    | some o => decide (flArray o.addr = some (b2n b) ∨ flSector o.addr = 399)
    | none => false
  d1.secU fun x => { x with ver := some { bank := b, for_ := who, open_ := busy } }

/-- VERCTL is written (R443): by S only, ignored while the verifier is busy. -/
def verCtl (by_ : Nat) (v : Word) (d : Dev) : Dev :=
  if by_ ≠ 4 then secWrej d
  else if VERCTL.START.bit v && d.sec.ver.isNone then verStart (VERCTL.BANK.bit v) .firmware d
  else d

/-- All four key hash slots are empty in recovery (R439); open where a word of theirs that decides it is not defined. -/
def verBlank (d : Dev) : Bool × Dev :=
  if !d.b (.sys .bootstat) BOOTSTAT.RECOV || !(List.range 4).all fun i => slotEmpty d i || slotOpen d i then (false, d)
  else if (List.range 4).any (slotOpen d) then (Config.freeBool d.free, d.bumpFree)
  else (true, d)

/-- Status of an IMAGE_COMMIT for a verifier result (R437, R438, R405). -/
def verStatus : Nat → Nat
  | 1 => 0
  | 3 => 0x37
  | 4 => 0x41
  | _ => 0x40

/-- SHA-256 of the header's key as the two OTP words that hold it, lowest byte first in each. -/
def keyWords (h : Header) : List (BitVec 128) :=
  let l := (bytesLE 32 (sha256 ((h.raw.drop 0x80).take 64))).reverse
  [BitVec.ofNat 128 (ofLE (l.take 16)), BitVec.ofNat 128 (ofLE (l.drop 16))]

/-- A word of the first key is programmed, as requester 4 (R439, R332); `ok`: the array took it. -/
def programWord (a : Nat) (w : BitVec 128) (ok : Bool) (d : Dev) : Dev :=
  let d1 := ((d.flag (.fl .flstat) FLSTAT.DONE).setF (.fl .flstat) FLSTAT.OP FlKind.program.code).setF (.fl .flstat) FLSTAT.RESULT (if ok then 0 else 4)
  if ok then flPut a (flEnc w) d1
  else ((d1.flag (.fl .flstat) FLSTAT.FAIL).pulse 449).flU fun f => { f with undet := insNat (a / 16) f.undet }

/-- Program the first key into slot 0, its second word once the array took the first (R439): `none` where the engine is held, else whether
the array took both. -/
def programKey (h : Header) (ok : Bool × Bool) (d : Dev) : Option (Bool × Dev) :=
  if !flMay d 4 || d.b (.fl .flstat) FLSTAT.BUSY || d.b (.fl .flstat) FLSTAT.NOCMD then none
  else
    let w (k : Nat) : BitVec 128 := (keyWords h).getD k 0
    let d1 := programWord otpBase (w 0) ok.1 d
    some (ok.1 && ok.2, if ok.1 then programWord (otpBase + 16) (w 1) ok.2 d1 else d1)

/-- The verifier ends an IMAGE_COMMIT (R437-R439): the reply's status. -/
def verCommit (b open_ : Bool) (progOk : Bool × Bool) (d0 : Dev) : Nat × Dev :=
  let (blank, d) := verBlank d0
  let (r, d1) := verifyNow b true blank open_ d
  if !blank || r ≠ 1 then (verStatus r, verRecord b r (if r = 3 ∨ r = 1 then d1 else d1.pulse 414))
  else
    match bankHeader d1 b with
    | some (some h) =>
      match programKey h progOk d1 with
      | none => (0x17, verRecord b r d1)
      | some (false, d2) => (0x33, verRecord b r d2)
      | some (true, d2) =>
        let (r2, d3) := verifyNow b true false open_ d2
        (verStatus r2, verRecord b r2 (if r2 = 3 ∨ r2 = 1 then d3 else d3.pulse 414))
    | _ => (verStatus r, verRecord b r d1)

/-- A read of RNG (R440). -/
def rngRead (by_ : Nat) (d : Dev) : Word × Dev :=
  if by_ = 4 then (Config.freeValue d.free, d.bumpFree) else (0, secWrej d)

/-- Write of a security register (R428-R443). -/
def secWrite (by_ : Nat) (r : SecReg) (v : Word) (d : Dev) : Dev :=
  match r with
  | .tk_saddr => (d.wr (.sec .tk_saddr) v).secU fun x => { x with odd := v.toNat % 4 != 0 }
  | .tk_stage =>
    if d.sec.odd then tkReject TK_STAT.SREJ (tkCatch d)
    else (tkStage by_ (4 * TK_SADDR.ADDR.get (d.get (.sec .tk_saddr))) v d).2
  | .tk_commit_a => tkCommitWrite true by_ v d
  | .tk_commit_b => tkCommitWrite false by_ v d
  | .tk_clear => tkClear by_ d
  | .verctl => verCtl by_ v d
  | .tk_stat => (tkCatch d).wr (.sec .tk_stat) v
  | _ => d

/-- What a read of a security register gives. -/
def secRead (d : Dev) (r : SecReg) : Word :=
  match r with
  | .tk_stat => d.get (.sec .tk_stat) |> TK_STAT.BOOTKEY.put (b2n (tkBootKey d))
  | r => d.get (.sec r)

end Sys2Proof.Machine
end

