-- ==== Sys2Proof/Machine/System.lean ====
section
/-!
DEFINITION. Clocks, tempo and pacing (R24-R36, R49, R349, R350): the system control fields of the architecture chapter.
-/
namespace Sys2Proof.Machine
open Sys2Proof

/-- Write of SYSCTL (R32, R34, R49): a PACE value that differs from the one held starts a change of mode. -/
def sysWriteCtl (v : Word) (d : Dev) : Dev :=
  let old := d.get (.sys .sysctl)
  let v1 := if SYSCTL.PACE_LOCK.bit old then SYSCTL.PACE.put (SYSCTL.PACE.get old) v else v
  let v2 := if 3 < SYSCTL.PHASE.get v1 then SYSCTL.PHASE.put (SYSCTL.PHASE.get old) v1 else v1
  (d.wr (.sys .sysctl) v2).flagIf (SYSCTL.PACE.bit v2 != SYSCTL.PACE.bit old) (.sys .sysstat) SYSSTAT.PACE_BUSY

/-- Every region has changed mode (R32, R35): paced only where PLL A gives the grid. -/
def paceDone (d : Dev) : Dev :=
  if d.b (.sys .sysstat) SYSSTAT.PACE_BUSY then
    (d.setB (.sys .sysstat) SYSSTAT.PACE_BUSY false).setB (.sys .sysstat) SYSSTAT.PACED
      (d.b (.sys .sysctl) SYSCTL.PACE && d.sys.pllA)
  else d

/-- The regions have returned to free mode after a loss of PLL A (R35); where it has locked again they re-enter paced mode.
DESIGN CHOICE (log entry 193): line 401 is pulsed, here and at a slip (R36). -/
def paceLoss (d : Dev) : Dev :=
  if d.sys.lossPend then
    let d1 := (((d.setB (.sys .sysstat) SYSSTAT.PACED false).flag (.sys .sysstat) SYSSTAT.PACE_LOST).pulse 401)
    let d2 := { d1 with sys := { d1.sys with lossPend := false } }
    d2.flagIf (d2.sys.pllA && d2.b (.sys .sysctl) SYSCTL.PACE) (.sys .sysstat) SYSSTAT.PACE_BUSY
  else d

/-- A region missed its grid edge in paced mode (R36); none does while every region's speed index is at least 64. -/
def paceSlip (n : Fin 12) (d : Dev) : Dev :=
  if d.b (.sys .sysstat) SYSSTAT.PACED && (fins 12).any fun m => d.f (.sys (.tempo (Fin.ofNat 16 m.val))) TEMPO.VALUE < 64 then
    ((d.setF (.sys .tmonstat) TMONSTAT.SLIP (d.f (.sys .tmonstat) TMONSTAT.SLIP ||| 2 ^ n.val)).bump
      (.sys .pace_slip) PACE_SLIP.COUNT).pulse 401
  else d

/-- Reference ring count NREF of region n (R24, R336): the factory row's, or all ones where its checksum fails. -/
def tempoRef (d : Dev) (n : Nat) : Nat :=
  if d.b (.fl .flstat) FLSTAT.FACBAD then 0xFFFFFFFF else (facWord (0x40 + 4 * n)).toNat

/-- Speed index of region n for a ring count (R24). -/
def tempoValue (d : Dev) (n : Nat) (count : Nat) : Nat := min 255 (64 * count / max 1 (tempoRef d n))

/-- The lowest value and its region, the lowest region among equals (R25). -/
def tempoLowest : List (Nat × Nat) → Nat × Nat
  | [] => (0, 0)
  | [p] => p
  | p :: t => let q := tempoLowest t; if q.2 < p.2 then q else p

/-- The end of a tempo window of PLL A (R24-R27, R349). -/
def tempoWindow (counts : Vector Nat 12) (d : Dev) : Dev :=
  if !d.sys.pllA then d
  else
    let vals : List (Nat × Nat) := (fins 12).map fun n => (n.val, tempoValue d n.val counts[n])
    let d1 := d.each vals fun p d =>
      d.put (.sys (.tempo (Fin.ofNat 16 p.1))) ((0 : Word) |> TEMPO.VALID.put 1 |> TEMPO.VALUE.put p.2)
    let low := tempoLowest vals
    let d2 := d1.put (.sys .tempomin) ((0 : Word) |> TEMPOMIN.REGION.put low.1 |> TEMPOMIN.VALUE.put low.2)
    let th := d.f (.sys .tmonctl) TMONCTL.THRESH
    let slow := vals.filter fun p => p.2 < th
    let d3 := d2.setF (.sys .tmonstat) TMONSTAT.SLOW (slow.foldl (fun a p => a ||| 2 ^ p.1) (d2.f (.sys .tmonstat) TMONSTAT.SLOW))
    (d3.line 400 (!slow.isEmpty)).flag (.sys (.ready 0)) READY0.TEMPO

/-- PLL A or B locks (R349, R35, R221, R350). -/
def pllLock (pllB : Bool) (d : Dev) : Dev :=
  if pllB then
    let d1 := { d with sys := { d.sys with pllB := true, pllB1 := true } }
    tbPllLock true ((d1.flag (.sys (.ready 0)) READY0.PLLB).lineOff 404)
  else
    let d1 := { d with sys := { d.sys with pllA := true, pllA1 := true } }
    let d2 := (d1.flag (.sys (.ready 0)) READY0.PLLA).lineOff 403
    let again := d2.b (.sys .sysctl) SYSCTL.PACE && !(d2.b (.sys .sysstat) SYSSTAT.PACED) && !d2.sys.lossPend
    tbPllLock false <| adcPllLock (d2.flagIf again (.sys .sysstat) SYSSTAT.PACE_BUSY)

/-- PLL A or B loses lock (R59, R117, R349, R35, R221). -/
def pllLoss (pllB : Bool) (d : Dev) : Dev :=
  if pllB then
    let d1 := tbPllLoss true { d with sys := { d.sys with pllB := false } }
    (d1.setB (.sys (.ready 0)) READY0.PLLB false).line 404 d1.sys.pllB1
  else
    let d1 := tbPllLoss false { d with sys := { d.sys with pllA := false } }
    let d2 := adcPllLoss ((d1.setB (.sys (.ready 0)) READY0.PLLA false).line 403 d1.sys.pllA1)
    { d2 with sys := { d2.sys with lossPend := d2.sys.lossPend || d2.b (.sys .sysctl) SYSCTL.PACE } }

end Sys2Proof.Machine
end

