-- ==== Sys2Proof/Machine/Walk.lean ====
section
/-!
DEFINITION. What the cores share (R281-R309): the physical map, segment registers and the table walk, fetching, the drain, level
entry and its boot ROM handlers, double faults, and the reset of a core's own state.
-/
namespace Sys2Proof.Machine
open Sys2Proof

/-- Replace core c's state. -/
def Dev.coreU (d : Dev) (c : Fin 5) (g : CoreSt → CoreSt) : Dev := { d with core := d.core.set c (g d.core[c]) }

/-- Registers of core c, read and written (R249). -/
def Dev.w (d : Dev) (c : Fin 5) (r : Fin 16) : Word := d.core[c].w[r]
def Dev.setW (d : Dev) (c : Fin 5) (r : Fin 16) (v : Word) : Dev := d.coreU c fun x => { x with w := x.w.set r v }
def Dev.fr (d : Dev) (c : Fin 5) (r : Fin 8) : Word := d.core[c].f[r]
def Dev.setFr (d : Dev) (c : Fin 5) (r : Fin 8) (v : Word) : Dev := d.coreU c fun x => { x with f := x.f.set r v }
def Dev.setPsw (d : Dev) (c : Fin 5) (v : Word) : Dev := d.coreU c fun x => { x with psw := v }

/-- PSW.LEVEL of core c. -/
def Dev.level (d : Dev) (c : Fin 5) : Nat := PSW.LEVEL.get d.core[c].psw

/-- The regions of the physical map (R300). -/
inductive Region where
  | rom
  | flash
  | info
  | sram
  | lem
  | device
  | window
  | unmapped
  deriving DecidableEq, Repr

/-- Region of a physical address (R300). -/
def regionOf (a : Nat) : Region :=
  if a < 0x10000 then .rom
  else if flArray a = some 2 then .info
  else if (flArray a).isSome then .flash
  else if inSram a then .sram
  else if inLem a then .lem
  else if 0x40000000 ≤ a ∧ a < 0x50000000 then .device
  else if 0x80000000 ≤ a then .window
  else .unmapped

/-- Read a word of a region that holds code and descriptors, or of loop engine memory. -/
def arrayRead (q : MemReq) (a : Nat) (d : Dev) : MemRd × Dev :=
  match regionOf a with
  | .rom => romRead q a d
  | .flash => flRead q a d
  | .info => flRead q a d
  | .sram => memRead q a d
  | .lem => memRead q a d
  | .device => (⟨0, none⟩, d)
  | .window => (⟨0, none⟩, d)
  | .unmapped => (⟨0, none⟩, d)

/-- A fetch or a walk waits: the scrub, a line under copy, flash before its readiness, a busy array (R317, R320, R329, R350). -/
def arrayWaits (d : Dev) (a : Nat) : Bool :=
  match regionOf a with
  | .flash => !d.b (.sys (.ready 0)) READY0.FLASH || flBusyAt d a
  | .info => !d.b (.sys (.ready 0)) READY0.FLASH || flBusyAt d a
  | .sram => memWaits d a
  | .lem => memWaits d a
  | .rom => false
  | .device => false
  | .window => false
  | .unmapped => false

/-- Read `n` consecutive words: their data, and the cause of the first that is uncorrectable. -/
def arrayReadN (q : MemReq) (a : Nat) : Nat → Dev → (List Word × Option Nat) × Dev
  | 0, d => (([], none), d)
  | n + 1, d =>
    let (r, d1) := arrayRead q a d
    let (t, d2) := arrayReadN q ((a + 4) % 2 ^ 32) n d1
    ((r.data :: t.1, r.bad.or t.2), d2)

/-- The 16 bytes of a descriptor (R306): in flash they are one stored word, which counts and logs once. -/
def readDesc (q : MemReq) (a : Nat) (d : Dev) : (List Word × Option Nat) × Dev :=
  match regionOf a with
  | .flash | .info =>
    let (r, d1) := flRead q a d
    let part (k : Nat) : Word := (flRead q (a + 4 * k) { d with free := d.free + 2 * k }).1.data
    (([r.data, part 1, part 2, part 3], r.bad), { d1 with free := if d1.free = d.free then d.free else d.free + 8 })
  | _ => arrayReadN q a 4 d

/-- What a walk gives. -/
inductive WalkRes where
  | ok (s : SegSt)
  | fault (cause : Nat)
  | stall
  deriving DecidableEq, Repr

/-- The checks of a descriptor's words, in the order of R305. -/
def descCheck (c : Fin 5) (lv : Nat) (isCs : Bool) (w0 w1 w2 w3 : Nat) : Except Nat Desc :=
  if !bitN w2 31 then .error 0x13
  else if bitsN w1 31 16 ≠ 0 ∨ bitsN w2 30 29 ≠ 0 ∨ bitsN w2 23 20 ≠ 0 ∨ bitsN w2 15 4 ≠ 0 ∨ bitN w2 0 ∨ w3 ≠ 0 then .error 0x14
  else if !bitN w2 (24 + c.val) then .error 0x15
  else if min 8 (bitsN w2 19 16) < lv then .error 0x16
  else if isCs && !bitN w2 3 then .error 0x17
  else .ok { base := w32 w0, limit := w1 % 65536, x := bitN w2 3, w := bitN w2 2, r := bitN w2 1 }

/-- The table walk (R302-R306). -/
def walk (c : Fin 5) (lv : Nat) (isCs : Bool) (sel : BitVec 16) (d : Dev) : WalkRes × Dev :=
  let i := sel.toNat % 2 ^ 13
  if sel.toNat / 2 ^ 13 ≠ 0 then (.fault 0x10, d)
  else if i = 0 then (.ok { sel := 0, desc := if isCs then some bootCs else none }, d)
  else if d.f (.sys (.dtbase c)) DTBASE.LAST < i then (.fault 0x11, d)
  else
    let a := (d.f (.sys (.dtbase c)) DTBASE.BASE * 8192 + 16 * i) % 2 ^ 32
    match regionOf a with
    | .device => (.fault 0x12, d.pulse 440)
    | .window => (.fault 0x12, d.pulse 440)
    | .lem => (.fault 0x11, d)
    | .unmapped => (.fault 0x11, d)
    | _ =>
      if arrayWaits d a then (.stall, d)
      else
        let ((l, bad), d1) := readDesc (reqWalk c) a (d.tagPulse (coreHolder c) 1)
        if bad.isSome then (.fault 0x11, d1)
        else
          let n (k : Nat) : Nat := (l.getD k 0).toNat
          match descCheck c lv isCs (n 0) (n 1) (n 2) (n 3) with
          | .ok s => (.ok { sel := sel, desc := some s }, d1)
          | .error e => (.fault e, d1)

/-- What a fetch finds. -/
inductive FetchRes where
  | ok
  | segf (cause : Nat)
  | merr (cause : Nat)
  | stall
  deriving DecidableEq, Repr

/-- Fetch `len` bytes at an offset through a segment register (R254, R255, R300, R308, R315). -/
def fetch (c : Fin 5) (s : SegSt) (off len : Nat) (d : Dev) : FetchRes × Dev :=
  match s.desc with
  | none => (.segf 0x02, d)
  | some t =>
    if !t.x then (.segf 0x05, d)
    else if t.limit < off + len - 1 ∨ 0xFFFF < off + len - 1 then (.segf 0x01, d)
    else
      let a := (t.base.toNat + off) % 2 ^ 32
      let n := (a % 4 + len + 3) / 4
      let words : List Nat := (List.range n).map fun k => (a / 4 * 4 + 4 * k) % 2 ^ 32
      if words.any (fun x => regionOf x == .unmapped) then (.segf 0x06, d)
      else if words.any (fun x => regionOf x == .info || regionOf x == .lem || regionOf x == .device || regionOf x == .window) then
        (.segf 0x07, d)
      else if words.any (arrayWaits d) then (.stall, d)
      else
        let ((_, bad), d1) := arrayReadN (reqFetch c) (a / 4 * 4) n d
        match bad with
        | none => (.ok, d1)
        | some e => (.merr e, d1)

/-- Every issued operation of core c writes its result (R285). -/
def drainMul (x : CoreSt) : CoreSt :=
  match x.prod with
  | none => x
  | some v => { x with mh := w32 (v.toNat / 2 ^ 32), ml := w32 v.toNat, prod := none }
def drainDiv (x : CoreSt) : CoreSt :=
  match x.divn with
  | none => x
  | some (q, r) => { x with dq := q, dm := r, divn := none }
def drain (x : CoreSt) : CoreSt := { drainDiv (drainMul x) with win := none }

/-- Core c locks up (R297): the entry index, the entry being made, the detail, the level, and the location. -/
def lockup (c : Fin 5) (kind entry detail lv : Nat) (sel : BitVec 16) (pc : Nat) (d : Dev) : Dev :=
  let d1 := d.coreU c fun x => { drain x with run := .locked, haltRq := false }
  let d2 := d1.put (.core c .lockinfo) (w32 (2 ^ 28 * kind + 2 ^ 24 * entry + 2 ^ 16 * detail + lv))
  (d2.put (.core c .lockpc) (w32 (2 ^ 16 * sel.toNat + pc % 65536))).lineOn (416 + c.val)

/-- The registers a level entry saves and changes (R288), after the drain. -/
def enterSave (nl : Nat) (saveseg savepc : Word) (x : CoreSt) : CoreSt :=
  let l := Fin.ofNat 8 nl
  { drain x with savepc := x.savepc.set l savepc, savepsw := x.savepsw.set l x.psw, saveseg := x.saveseg.set l saveseg,
                 psw := x.psw |> PSW.LEVEL.put nl |> PSW.DZE.put 0 |> PSW.OVE.put 0,
                 buf := none, run := .run }

/-- An entry was made (EXCCNTc). -/
def countEntry (c : Fin 5) (k : Nat) (d : Dev) : Dev :=
  if k < 8 then d.bump (.core c .exccnt) EXCCNT.INT_CNT else d.bump (.core c .exccnt) EXCCNT.EXC_CNT

/-- How an entry ends. -/
inductive EntryRes where
  | entered (d : Dev)
  | locked (d : Dev)
  | stall

/-- The vector segment's selector. -/
def vecSel (d : Dev) (c : Fin 5) : BitVec 16 := BitVec.ofNat 16 (d.f (.core c .vecsel) VECSEL.SEL)

/-- Level entry of core c up to its first fetch (R288): entry index k, level nl, return offset, access offset, segment and detail.
A fault of the walk or of the fetch at the entry offset is a double fault (R296). -/
def enterLevel (c : Fin 5) (k nl ret aofs seg detail : Nat) (d : Dev) : EntryRes :=
  let sel := d.core[c].seg[0].sel
  let saveseg := w32 (2 ^ 28 * k + 2 ^ 24 * seg + 2 ^ 16 * detail + sel.toNat)
  let savepc := w32 (2 ^ 16 * aofs + ret % 65536)
  let d1 := d.coreU c (enterSave nl saveseg savepc)
  match walk c nl true (vecSel d c) d1 with
  | (.stall, _) => .stall
  | (.fault e, d2) => .locked (lockup c 0xF k e nl sel ret d2)
  | (.ok s, d2) =>
    let off := 0x200 + 0x10 * k
    match fetch c s off 1 d2 with
    | (.stall, _) => .stall
    | (.segf e, d3) => .locked (lockup c 0xF k e nl sel ret d3)
    | (.merr e, d3) => .locked (lockup c 0xF k e nl sel ret d3)
    | (.ok, d3) => .entered (countEntry c k (d3.coreU c fun x => { x with seg := x.seg.set 0 s, pc := BitVec.ofNat 17 off }))

/-- The boot ROM parks core c (R355). -/
def park (c : Fin 5) (saveseg savepc : Word) (d : Dev) : Dev :=
  let d1 := (d.put (.sys (.bootfseg c)) saveseg).put (.sys (.bootfpc c)) savepc
  (d1.setB (.icc c .iccfg) ICCFG.EN false).coreU c fun x => { x with parked := true, run := .waiting }

/-- The boot ROM's code stands at an offset the spec does not give: a free value. -/
def romOffset (d : Dev) : Nat × Dev := ((Config.freeValue d.free).toNat % 65536, d.bumpFree)

/-- A segment fault in boot ROM code on core c enters its handler, which parks the core; at level 0 it locks the core up. -/
def romFault (c : Fin 5) (cause : Nat) (d : Dev) : Dev :=
  let (pc, d1) := romOffset d
  if d1.level c = 0 then lockup c 9 0 cause 0 d1.core[c].seg[0].sel pc d1
  else
    match enterLevel c 9 0 pc 0 0 cause d1 with
    | .stall => d
    | .locked d2 => d2
    | .entered d2 => park c d2.core[c].saveseg[0] d2.core[c].savepc[0] d2

/-- RETL of core c at level L, if its walk does not fault (R290). -/
def retlWalk (c : Fin 5) (l : Fin 8) (d : Dev) : WalkRes × Dev :=
  let x := d.core[c]
  walk c (PSW.LEVEL.get x.savepsw[l]) true (BitVec.ofNat 16 x.saveseg[l].toNat) d

/-- PSW as RETL loads it: its reserved bits stay 0; a saved LEVEL above 8 leaves an open level. -/
def pswLoad (p : Word) (d : Dev) : Word × Dev :=
  let p1 := p &&& 0xFFF
  if 8 < PSW.LEVEL.get p1 then (PSW.LEVEL.put ((Config.freeValue d.free).toNat % 9) p1, d.bumpFree) else (p1, d)

/-- The rest of RETL (R290): PSW, CS, the return point and the controller's check, open after a LEVEL of 9 to 15. -/
def retlDone (c : Fin 5) (l : Fin 8) (s : SegSt) (d : Dev) : Dev :=
  let x := d.core[c]
  let (p, d1) := pswLoad x.savepsw[l] d
  let d2 := d1.coreU c fun x => { x with psw := p, seg := x.seg.set 0 s, pc := BitVec.ofNat 17 (x.savepc[l].toNat % 65536),
                                         buf := none }
  if 8 < PSW.LEVEL.get x.savepsw[l] then
    if Config.freeBool d2.free then icBreak c 3 d2.bumpFree else d2.bumpFree
  else icReturn c (PSW.LEVEL.get p) d2

/-- The boot ROM's interrupt handler (R355): the source is disabled and completed, or the target switched off, then RETL; none
while the walk of the return waits.  A halt request of a stack error takes effect at the boundary before the next of its steps (R294). -/
def romInterrupt (c : Fin 5) (k : Nat) (d : Dev) : Option Dev :=
  let s := ICACT.SRC.get (iccRead d c .icact)
  let d1 := if s < 384 then icWrite (.icenclr (icWord s)) (w32 (2 ^ (s % 32))) d
    else d.setB (.icc c .iccfg) ICCFG.EN false
  let d2 := icEoi c s d1
  if d.core[c].haltRq then some d
  else if d2.core[c].haltRq then some d2
  else
  match retlWalk c (Fin.ofNat 8 k) d2 with
  | (.stall, _) => none
  | (.fault e, d3) => some (romFault c e d3)
  | (.ok s, d3) => some (retlDone c (Fin.ofNat 8 k) s d3)

/-- Level entry with the boot ROM's handler where VECSELc is 0 (R288, R355); while a walk or the fetch must wait, nothing
happens. -/
def enter (c : Fin 5) (k nl ret aofs seg detail : Nat) (d : Dev) : Dev :=
  match enterLevel c k nl ret aofs seg detail d with
  | .stall => d
  | .locked d1 => d1
  | .entered d1 =>
    if vecSel d c ≠ 0 then d1
    else if k < 8 then (romInterrupt c k d1).getD d
    else park c d1.core[c].saveseg[0] d1.core[c].savepc[0] d1

/-- An exception of core c at the instruction at `pc` (R287, R291, R296): a double fault at level 0. -/
def except (c : Fin 5) (k pc ret aofs seg detail : Nat) (d : Dev) : Dev :=
  if d.level c = 0 then lockup c k 0 detail 0 d.core[c].seg[0].sel pc d else enter c k 0 ret aofs seg detail d

/-- Core c goes into reset (R347, R298): its own registers, its stations, its part of the controller, its flash claim.  A load from
the outbound window that is under way keeps its tag until it completes; nothing waits for it any more. -/
def coreIntoReset (c : Fin 5) (d : Dev) : Dev :=
  let d1 := d.coreU c fun _ => { resetAt := d.now }
  let d2 := ((d1.put (.core c .vecsel) (CoreReg.reset .vecsel)).put (.core c .exccnt) 0).put (.icc c .iccfg) (IccReg.reset .iccfg)
  let d3 := flRelease c.val ((icCoreReset c d2).lineOff (416 + c.val))
  let d4 := { d3 with hst := { d3.hst with reads := d3.hst.reads.map fun (x : OutRead) => { x with dead := x.dead || x.core == c } } }
  let d5 := { d4 with sys := { d4.sys with waits := d4.sys.waits.filter fun (x : WaitAcc) => !(x.by_ == Requester.core c && x.val.isNone) } }
  d5.setBit (.sys (.ready 3)) c.val false

/-- Core c leaves reset: it executes from boot CS offset 0 (R354, R357). -/
def coreLeavesReset (c : Fin 5) (d : Dev) : Dev :=
  (d.coreU c fun x => { x with run := .run }).setBit (.sys (.ready 3)) c.val true

/-- The start of a helm core (R354): it reaches the entry point in BOOTENTc by a far return; before DONE it parks.
DEDUCED (log entry 94): SS is null there, so the two pushed words and W15 end as they began and no memory changes. -/
def helmStart (c : Fin 4) (d : Dev) : Dev :=
  let k : Fin 5 := Fin.ofNat 5 c.val
  let d1 := coreLeavesReset k d
  if !d1.b (.sys .bootstat) BOOTSTAT.DONE then park k 0xF0000000 0 d1
  else
    let sel : BitVec 16 := BitVec.ofNat 16 (d1.f (.sys (.bootent c)) BOOTENT.SEL)
    match walk k 8 true sel d1 with
    | (.stall, _) => d
    | (.fault e, d2) => romFault k e d2
    | (.ok s, d2) =>
      d2.coreU k fun x => { x with seg := x.seg.set 0 s, pc := BitVec.ofNat 17 (d1.f (.sys (.bootent c)) BOOTENT.OFS) }

end Sys2Proof.Machine
end

