-- ==== Sys2Proof/Machine/Reset.lean ====
section
/-!
DEFINITION. The watchdogs (R240), the resets and what each clears (R343-R348), the readiness timeline (R349), the boot ROM's path
(R352-R357).
-/
namespace Sys2Proof.Machine
open Sys2Proof

/-- Replace watchdog n's state. -/
def Dev.wdU (d : Dev) (n : Fin 5) (g : WdSt → WdSt) : Dev := d.fcU fun f => { f with wd := f.wd.set n (g f.wd[n]) }

/-- Count of watchdog n: AON cycles since it started, or the count it holds. -/
def wdCount (d : Dev) (n : Fin 5) : Nat :=
  match d.fc.wd[n].from_ with
  | some t => (d.now - t) / tuAon
  | none => d.fc.wd[n].held

/-- TIMEOUT of watchdog n; 0 acts as 1. -/
def wdTimeout (d : Dev) (n : Fin 5) : Nat := max 1 (d.f (.wd n .tmo) WD_TMO.TIMEOUT)

/-- The count of watchdog n starts at 0. -/
def wdStart (n : Fin 5) (d : Dev) : Dev :=
  d.wdU n fun w => { w with from_ := if d.fc.locked then none else some d.now, held := 0, warned := false }

/-- A write of WDn_CTL: EN sets and starts the watchdog (R240). -/
def wdEnable (n : Fin 5) (v : Word) (d : Dev) : Dev :=
  if WD_CTL.EN.bit v && !d.b (.wd n .ctl) WD_CTL.EN then wdStart n (d.flag (.wd n .ctl) WD_CTL.EN) else d

/-- Core reset of core c is asserted (R347): the stage of a party B (R431), the core's own state, and for S the verification it
runs and an IMAGE_COMMIT in progress (R437, R403). -/
def coreReset (c : Fin 5) (d : Dev) : Dev :=
  let d1 := coreIntoReset c (tkPartyReset c d)
  if c = 4 then hstCommitAbort ((d1.setB (.sec .verstat) VERSTAT.BUSY false).secU fun x => { x with ver := none, entry := none })
  else d1

/-- Watchdog n expires (R240): its core is reset; the count stands until that reset ends. -/
def wdExpire (n : Fin 5) (d : Dev) : Dev :=
  let d1 := (d.wdU n fun w => { w with from_ := none, held := wdCount d n, key := false }).flag (.wd n .stat) WD_STAT.EXP
  coreReset n ((d1.pulse (424 + n.val)).setF (.sys .rstcause) RSTCAUSE.WDRST (d1.f (.sys .rstcause) RSTCAUSE.WDRST ||| 2 ^ n.val))

/-- The count of watchdog n reaches TIMEOUT: the WATCHDOG_EXPIRY row. -/
def wdReach (n : Fin 5) (d : Dev) : Dev :=
  match d.fc.wd[n].from_ with
  | some t => if d.b (.wd n .ctl) WD_CTL.EN then wdExpire n (d.at (t + wdTimeout d n * tuAon)) else d
  | none => d

/-- The count of watchdog n reaches half its timeout: the WATCHDOG_WARN row. -/
def wdWarn (n : Fin 5) (d : Dev) : Dev :=
  match d.fc.wd[n].from_ with
  | some t =>
    if d.b (.wd n .ctl) WD_CTL.EN && !d.fc.wd[n].warned then
      ((d.at (t + d.f (.wd n .tmo) WD_TMO.TIMEOUT / 2 * tuAon)).flag (.wd n .stat) WD_STAT.WARN).wdU n fun w => { w with warned := true }
    else d
  | none => d

/-- A completed feed (R240): too early it expires the watchdog. -/
def wdFed (n : Fin 5) (d : Dev) : Dev :=
  let d1 := d.wdU n fun w => { w with key := false }
  if !d.b (.wd n .ctl) WD_CTL.EN || d.fc.wd[n].from_.isNone then d1
  else if wdCount d n < d.f (.wd n .tmo) WD_TMO.WMIN then wdExpire n d1
  else wdStart n d1

/-- A write of WDn_FEED by a requester (R240). -/
def wdFeed (by_ : Nat) (n : Fin 5) (v : Word) (d : Dev) : Dev :=
  let bad : Dev := d.flag (.wd n .stat) WD_STAT.BADKEY
  if by_ ≠ n.val then bad.wdU n fun w => { w with key := false }
  else if d.fc.wd[n].key then
    if v = 0xA5A5 then wdFed n d else bad.wdU n fun w => { w with key := v == 0x5A5A }
  else if v = 0x5A5A then d.wdU n fun w => { w with key := true }
  else bad

/-- Write of a watchdog register. -/
def wdWrite (by_ : Nat) (n : Fin 5) (r : WdReg) (v : Word) (d : Dev) : Dev :=
  match r with
  | .ctl => wdEnable n v d
  | .tmo => if d.b (.wd n .ctl) WD_CTL.EN then d.flag (.wd n .stat) WD_STAT.CFG_REJ else d.wr (.wd n .tmo) v
  | .feed => wdFeed by_ n v d
  | .count => d
  | .stat => d.wr (.wd n .stat) v
  | .ien => d.wr (.wd n .ien) v

/-- Registers a reset of the device keeps: those of the remap tables and of the bank classes, but for a power-on reset. -/
def resetKeeps (k : RstKind) : Reg → Bool
  | .sys (.remap _ _) => k != .por
  | .sys .iostat => k != .por
  | _ => false

/-- RSTCAUSE after a reset of the device (R348). -/
def resetCause (k : RstKind) (d : Dev) : Word :=
  let old := d.get (.sys .rstcause)
  let old1 := if d.b (.fc .fsum) FSUM.LOCKDOWN then RSTCAUSE.LOCKDN.put 1 old else old
  match k with
  | .por => 1
  | .pin => RSTCAUSE.PIN.put 1 old1
  | .soft => RSTCAUSE.SOFT.put 1 old1

/-- Lines that follow the board rather than the device's own state: the reference and the supplies. -/
def resetLine (l : Nat) : Bool := l == 405 || (decide (480 ≤ l) && decide (l ≤ 487))

/-- A reset of the whole device is asserted (R343, R348): every state to its reset value but what the reset keeps and what comes
from the balls. -/
def resetDev (k : RstKind) (d : Dev) : Dev :=
  -- a power-on reset takes the classes of the banks, and with them the lines of their supplies (R450)
  let lines := d.fc.level.filter fun l => resetLine l && (k != .por || decide (l < 484))
  let d1 : Dev :=
    { now := d.now, free := d.free, regs := d.regs.filter fun p => resetKeeps k p.1
      sys := { refOk := d.sys.refOk, vio := d.sys.vio, rst := some (k, d.now), por := d.sys.por || k == .por }
      cmp := d.cmp.map fun x => { vp := x.vp, vn := x.vn, raw := x.raw }
      pos := d.pos.map fun x => { a := x.a, b := x.b, z := x.z }
      mem := { d.mem with lem := lemReset, copies := [], rawQ := [], patAt := d.now }
      fl := (flReset d).fl
      fc := { level := lines, fresh := lines }
      hst := { out := d.hst.out, perst := d.hst.perst }
      jtag := if k = .por then { trst := d.jtag.trst } else d.jtag }
  d1.put (.sys .rstcause) (resetCause k d)

/-- A reset of the device is requested (R343): one of narrower scope has no effect while power-on reset is in progress. -/
def deviceReset (k : RstKind) (d : Dev) : Dev :=
  match d.sys.rst with
  | some (.por, _) => if k = .por then resetDev .por d else d
  | _ => resetDev k d

/-- How long a reset is held after its cause ends (R343). -/
def resetHold : RstKind → Nat
  | .por => 200 * tuUs
  | .pin => 10 * tuUs
  | .soft => 10 * tuUs

/-- The reset in progress is released: the strap NL_HEAD is sampled and the readiness timeline starts. -/
def resetRelease (head : Bool) (d : Dev) : Dev :=
  match d.sys.rst with
  | none => d
  | some (k, t) =>
    let d1 := { d.at (t + resetHold k) with sys := { d.sys with rst := none } }
    let d2 := d1.setB (.lnk .lnkstat) LNKSTAT.HEAD head
    if head then d2.put (.lnk .lnkaddr) ((0 : Word) |> LNKADDR.V.put 1 |> LNKADDR.COUNT.put 1) else d2

/-- RSTCTL is written (R346): whole or not at all. -/
def rstCtl (by_ : Nat) (v : Word) (d : Dev) : Dev :=
  let own := by_ = 4 ∨ by_ = 5
  let cores := RSTCTL.CORERST.get v
  if RSTCTL.KEY.get v ≠ 0x5A ∨ ((RSTCTL.DEVRST.bit v ∨ cores % 16 ≠ 0) ∧ ¬own) ∨ (bitN cores 4 ∧ by_ ≠ 5) then
    d.flag (.sys .rstcause) RSTCAUSE.RSTREJ
  else if RSTCTL.DEVRST.bit v then deviceReset .soft d
  else
    (d.setF (.sys .rstcause) RSTCAUSE.CRST (d.f (.sys .rstcause) RSTCAUSE.CRST ||| cores)).each (finsIn 5 cores) coreReset

/-- CORERUN is written (R343, R346, R347): a bit written 0 resets its helm core, or extends the reset it is in; one that rises lets it
start. -/
def coreRunWrite (by_ : Nat) (v : Word) (d : Dev) : Dev :=
  if by_ ≠ 4 ∧ by_ ≠ 5 then d.flag (.sys .rstcause) RSTCAUSE.RSTREJ
  else
    let fall := 15 - CORERUN.H.get v
    let d1 := d.setF (.sys .corerun) CORERUN.H (CORERUN.H.get v)
    (d1.setF (.sys .rstcause) RSTCAUSE.CRST (d.f (.sys .rstcause) RSTCAUSE.CRST ||| fall)).each (finsIn 5 fall) coreReset

/-- A register that only S may write (R362). -/
def bootWrite (by_ : Nat) (r : SysReg) (v : Word) (d : Dev) : Dev :=
  if by_ = 4 then d.wr (.sys r) v else d.flag (.sys .rstcause) RSTCAUSE.RSTREJ

/-- BOOTSTAT is written: RECOV clears only by reset (R433). -/
def bootStatWrite (by_ : Nat) (v : Word) (d : Dev) : Dev :=
  bootWrite by_ .bootstat (BOOTSTAT.RECOV.put (max (BOOTSTAT.RECOV.get v) (d.f (.sys .bootstat) BOOTSTAT.RECOV)) v) d

/-- The bank BOOTSTAT.IMG names; none after a failed boot. -/
def bootBank (d : Dev) : Option Bool :=
  match d.f (.sys .bootstat) BOOTSTAT.IMG with
  | 0 => some false
  | 1 => some true
  | _ => none

/-- A core whose watchdog expired counts again once the reset ends (R240). -/
def wdRestart (c : Fin 5) (d : Dev) : Dev :=
  if d.b (.wd c .ctl) WD_CTL.EN && d.fc.wd[c].from_.isNone && !d.fc.locked then wdStart c d else d

/-- S parks with what its handler has saved. -/
def sPark (d : Dev) : Dev := park 4 d.core[4].saveseg[0] d.core[4].savepc[0] d

/-- The restart of S (R357): the boot ROM has the image verified again; where there is none, it fails. -/
def sRestart (d : Dev) : Dev :=
  let d1 := coreLeavesReset 4 d
  match bootBank d1 with
  | some b => verStart b .restart d1
  | none => sPark (d1.bump (.sys .bootstat) BOOTSTAT.SRESTART)

/-- The reset of core c may end: 1 µs has passed and its CORERUN bit is 1. -/
def coreMayStart (d : Dev) (c : Fin 5) : Bool :=
  d.core[c].run == .held && (c == 4 || bitN (d.f (.sys .corerun) CORERUN.H) c.val) && d.b (.sys (.ready 0)) READY0.SHROUD

/-- CORE_RESET_END: core c leaves reset (R347) and starts (R354, R357). -/
def coreResetEnd (c : Fin 5) (d : Dev) : Dev :=
  if !coreMayStart d c then d
  else
    let d1 := wdRestart c (d.at (d.core[c].resetAt + tuUs))
    if h : c.val < 4 then helmStart ⟨c.val, h⟩ d1 else sRestart d1

/-- SHROUD_READY (R349, R352): the shroud, the fabric and the always-on timers are ready; TOLL's first toggle is 50 µs away; S enters
the boot ROM. -/
def shroudReady (d : Dev) : Dev :=
  if d.b (.sys (.ready 0)) READY0.SHROUD then d
  else
    let d1 := ((d.flag (.sys (.ready 0)) READY0.AON).flag (.sys (.ready 0)) READY0.SHROUD).flag (.sys (.ready 0)) READY0.FABRIC
    coreLeavesReset 4 (d1.fcU fun f => { f with tollAt := some (d.now + 50 * tuUs) })

/-- ANALOG_READY (R349): the comparators' trip paths show their inputs. -/
def analogReady (d : Dev) : Dev :=
  if d.b (.sys (.ready 0)) READY0.ANALOG then d
  else (d.flag (.sys (.ready 0)) READY0.ANALOG).each (fins 64) tripTrack

/-- FLASH_INIT_DONE (R336, R349): what a power-on reset asks of the engine is done once (R319). -/
def flashReady (d : Dev) : Dev :=
  if d.b (.sys (.ready 0)) READY0.FLASH then d else flInit d.sys.por { d with sys := { d.sys with por := false } }

/-- SRAM_SCRUB_DONE (R317, R349): after the remap tables have been loaded. -/
def sramReady (d : Dev) : Dev :=
  if d.b (.sys (.ready 0)) READY0.SRAM || !d.b (.sys (.ready 0)) READY0.FLASH then d else memScrub d

/-- SEQ of a bank's candidate. -/
def candSeq (d : Dev) (b : Bool) : Option Nat :=
  match bankHeader d b with
  | some (some h) => some h.seq
  | _ => none

/-- Candidates in the order of R352: the higher sequence number first, bank A among equals. -/
def candOrder (d : Dev) : List Bool :=
  match candSeq d false, candSeq d true with
  | some a, some b => if a < b then [true, false] else [false, true]
  | some _, none => [false]
  | none, some _ => [true]
  | none, none => []

/-- The result field of a bank. -/
def resField (b : Bool) : Fld := if b then BOOTSTAT.RESB else BOOTSTAT.RESA

/-- Verify candidates until one passes (R352). -/
def bootVerify : List Bool → Dev → Option Bool × Dev
  | [], d => (none, d)
  | b :: t, d =>
    let (r, d1) := verifyNow b false false false d
    let d2 := ((verRecord b r d1).setF (.sys .bootstat) (resField b) r).bump (.sys .bootstat) BOOTSTAT.CAND
    if r = 1 then (some b, d2) else bootVerify t d2

/-- A header that cannot be read fails its bank with FLASH (R352); whether one that is not defined can be is open, but it is no candidate. -/
def bootBadHeader (b : Bool) (d : Dev) : Dev :=
  match flSee d (bankBase b) 16 with
  | .ok _ => d
  | .bad => d.setF (.sys .bootstat) (resField b) 3
  | .undef => (d.setF (.sys .bootstat) (resField b) (if Config.freeBool d.free then 3 else 0)).bumpFree

/-- The commits an image's boot policy names (R352, R436). -/
def bootPolicy (h : Header) : List (Reg × Word) :=
  [(.sec .tkcfg, w32 h.partyB), (.sec .bootpol, w32 h.keymask), (.sec .bootmin, h.minSeq), (.fl .flwp, h.flwp)] ++
    ((fins 5).filterMap fun c => let v := h.dtb.getD c.val 0; if v = 0 then none else some (.sys (.dtbase c), v))

/-- The boot ROM makes those commits alone (R433): what it leaves in TK_SADDR, TK_NONCE and the count is open. -/
def bootCommit (h : Header) (d : Dev) : Dev :=
  let d1 := d.each (bootPolicy h) fun p d => if tkListed p.1.addr p.2 then tkCommit p.1 p.2 d else d
  let s := d1.get (.sec .tk_stat) |> TK_STAT.RESULT.put 1 |> TK_STAT.OPENER.put 4 |> TK_STAT.DONEF.put 1
  let d2 := (d1.put (.sec .tk_stat) s).setF (.sec .tk_cnt) TK_CNT.COMMIT_CNT (Config.freeValue d.free).toNat
  let d3 := d2.setF (.sec .tk_nonce) TK_NONCE.NONCE (Config.freeValue (d.free + 1)).toNat
  { (d3.setF (.sec .tk_saddr) TK_SADDR.ADDR (Config.freeValue (d.free + 2)).toNat) with free := d.free + 3 }

/-- S enters its entry point in the image by a far return from the boot ROM (R352, R357); while the walk must wait, it stands before
that return. -/
def sEnter (entry : Word) (d0 : Dev) : Dev :=
  let d := d0.secU fun x => { x with entry := none }
  match walk 4 8 true (BitVec.ofNat 16 (entry.toNat / 65536)) d with
  | (.stall, _) => d0.secU fun x => { x with entry := some entry }
  | (.fault e, d1) => romFault 4 e d1
  | (.ok s, d1) => d1.coreU 4 fun x => { x with seg := x.seg.set 0 s, pc := BitVec.ofNat 17 (entry.toNat % 65536) }

/-- Steps 5 to 8 of R352 for the selected image. -/
def bootStart (b : Bool) (h : Header) (d : Dev) : Dev :=
  let d1 := (bootCommit h d).each (fins 4) fun c d => d.put (.sys (.bootent c)) (h.entryH.getD c.val 0)
  let d2 := ((d1.put (.sys .bootseq) (w32 h.seq)).setF (.sys .bootstat) BOOTSTAT.IMG (b2n b)).flag (.sys .bootstat) BOOTSTAT.DONE
  let d3 := (d2.flag (.sys (.ready 0)) READY0.BOOT).setF (.sys .corerun) CORERUN.H (d2.f (.sys .corerun) CORERUN.H ||| h.cores)
  sEnter h.entryS (d3.each ((fins 4).filter fun c => bitN h.cores c.val) fun c d =>
    if coreMayStart d (Fin.ofNat 5 c.val) then helmStart c (wdRestart (Fin.ofNat 5 c.val) d) else d)

/-- No candidate verifies (R353). -/
def bootRecover (d : Dev) : Dev :=
  ((d.flag (.sys .bootstat) BOOTSTAT.RECOV).setF (.sys .bootstat) BOOTSTAT.IMG 3).setF (.sys .sysctl) SYSCTL.PHASE 3

/-- S is in the boot ROM's path: it runs, has neither booted nor recovered, and has not been restarted. -/
def bootDue (d : Dev) : Bool :=
  d.core[4].run == .run && !d.core[4].parked && d.sec.ver.isNone && !d.b (.sys .bootstat) BOOTSTAT.DONE &&
    !d.b (.sys .bootstat) BOOTSTAT.RECOV && d.f (.sys .bootstat) BOOTSTAT.SRESTART == 0 &&
    d.b (.sys (.ready 0)) READY0.FLASH && d.b (.sys (.ready 0)) READY0.SRAM

/-- BOOT_ROM_RUN (R352, R353): the boot path, or the far return it stands before. -/
def bootRun (d : Dev) : Dev :=
  if !bootDue d then
    match d.sec.entry with
    | some e => sEnter e d
    | none => d
  else
    let d1 := bootBadHeader true (bootBadHeader false d)
    match bootVerify (candOrder d1) d1 with
    | (none, d2) => bootRecover d2
    | (some b, d2) =>
      match bankHeader d2 b with
      | some (some h) => bootStart b h d2
      | _ => bootRecover d2

/-- A verification for the restart of S ends (R357, R437). -/
def sRestartEnd (b open_ : Bool) (d : Dev) : Dev :=
  let (r, d1) := verifyNow b false false open_ d
  let d2 := (verRecord b r (if r = 2 ∨ r = 4 then d1.pulse 414 else d1)).bump (.sys .bootstat) BOOTSTAT.SRESTART
  match bankHeader d2 b with
  | some (some h) => if r = 1 then sEnter h.entryS d2 else sPark d2
  | _ => sPark d2

/-- VERIFICATION_END (R437-R439): the verification in progress ends.  It needs S executing and flash readable. -/
def verEnd (progOk : Bool × Bool) (d : Dev) : Dev :=
  match d.sec.ver with
  | none => d
  | some v =>
    if d.core[4].run == .held || d.core[4].run == .locked || d.core[4].run == .halted || !d.b (.sys (.ready 0)) READY0.FLASH then d
    else
      let d1 := d.secU fun x => { x with ver := none }
      match v.for_ with
      | .restart => sRestartEnd v.bank v.open_ d1
      | .firmware =>
        let (r, d2) := verifyNow v.bank false false v.open_ d1
        verRecord v.bank r d2
      | .command =>
        let (st, d2) := verCommit v.bank v.open_ progOk d1
        match d2.hst.commit with
        | none => d2
        | some h =>
          let d3 := hstReply h st [] (d2.hstU fun x => { x with commit := none })
          if st = stOk && d3.b (.sys .bootstat) BOOTSTAT.RECOV then
            d3.hstU fun x => { x with recAt := some (d3.now + 1000 * tuUs, h.iface, replyBytes d3 h st []) }
          else d3

end Sys2Proof.Machine
end

