-- ==== Sys2Proof/Machine/RegisterPath.lean ====
section
/-!
DEFINITION. The register path: one read and one write for every register of the device (R12-R17), with the effect its block gives
it, and the wait of an access to a clock domain whose PLL is not locked (R38, R42).
-/
namespace Sys2Proof.Machine
open Sys2Proof

/-- Write of a system control register. -/
def sysWrite (by_ : Requester) (r : SysReg) (v : Word) (d : Dev) : Dev :=
  match r with
  | .sysctl => sysWriteCtl v d
  | .memtcmd => memTcmd by_ v d
  | .remap b e => memRemap b e v d
  | .rstctl => rstCtl (reqCode by_) v d
  | .corerun => coreRunWrite (reqCode by_) v d
  | .bootent c => bootWrite (reqCode by_) (.bootent c) v d
  | .bootstat => bootStatWrite (reqCode by_) v d
  | .bootseq => bootWrite (reqCode by_) .bootseq v d
  | .bootfseg c => bootWrite (reqCode by_) (.bootfseg c) v d
  | .bootfpc c => bootWrite (reqCode by_) (.bootfpc c) v d
  | r => d.wr (.sys r) v

/-- Write of a core register: VECSELc from core c, or from S for a helm core (R299). -/
def coreWrite (by_ : Requester) (c : Fin 5) (r : CoreReg) (v : Word) (d : Dev) : Dev :=
  match r with
  | .vecsel =>
    if by_ = .core c ∨ (by_ = .core 4 ∧ c ≠ 4) then d.wr (.core c .vecsel) v else d.flag (.sys .corestat) CORESTAT.VSREJ
  | r => d.wr (.core c r) v

/-- A write of any register, with the effect its block gives it. -/
def writeNow (by_ : Requester) (r : Reg) (v : Word) (d : Dev) : Dev :=
  match r with
  | .sys r => sysWrite by_ r v d
  | .leg n r => legWrite n r v d
  | .tb b r => tbWrite b r v d
  | .tbg r => tbgWrite r v d
  | .adc n r => adcWrite n r v d
  | .adcg r => adcgWrite r v d
  | .le n r => leWrite n r v d
  | .lepr p r => leprWrite p r v d
  | .lesh r => leshWrite r v d
  | .cmp n r => cmpWrite n r v d
  | .cmpg r => d.wr (.cmpg r) v
  | .pos n r => posWrite n r v d
  | .ch c r => chWrite by_ c r v d
  | .ev r => evWrite by_ r v d
  | .ic r => icWrite r v d
  | .icc c r => iccWrite by_ c r v d
  | .fc r => fcWrite r v d
  | .shl n r => d.wr (.shl n r) v
  | .shtm m r => d.wr (.shtm m r) v
  | .shg r => shgWrite r v d
  | .wd n r => wdWrite (reqCode by_) n r v d
  | .th r => d.wr (.th r) v
  | .core c r => coreWrite by_ c r v d
  | .fl r => flWrite (reqCode by_) r v d
  | .lnk r => lnkWrite r v d
  | .lnkp p r => lnkpWrite p r v d
  | .hif r => hifWrite r v d
  | .capr r x => capWrite r x v d
  | .sec r => secWrite (reqCode by_) r v d

/-- A mask of the instances 0 to n - 1 that a test holds of, as a register word of 32 from `32 k` on. -/
def maskOf (n k : Nat) (p : Fin n → Bool) : Word :=
  w32 (packBits ((List.range 32).map fun i => if h : 32 * k + i < n then p ⟨32 * k + i, h⟩ else false))

/-- TBn_COUNT: ticks since the period start. -/
def tbCount (d : Dev) (b : Fin 32) : Word :=
  if d.tbRun b then w32 ((d.now - d.tb[b].start) / tuTick % max 1 d.tb[b].len) else d.get (.tb b .count)

/-- CORESTAT from what each core is doing (R299). -/
def coreStat (d : Dev) : Word :=
  let m (x : CoreRun) : Nat := (maskOf 5 0 fun c => d.core[c].run == x).toNat
  d.get (.sys .corestat) |> CORESTAT.LOCK.put (m .locked) |> CORESTAT.HALTED.put (m .halted) |> CORESTAT.WAITING.put (maskOf 5 0 (icWaiting d)).toNat |>
    CORESTAT.INRESET.put (m .held)

/-- What a read of a system control register gives. -/
def sysRead (d : Dev) (r : SysReg) : Word :=
  match r with
  | .taguse h => (0 : Word) |> TAGUSE.PEAK.put (max (d.f (.sys (.taguse h)) TAGUSE.PEAK) (d.inUse h)) |> TAGUSE.IN_USE.put (d.inUse h)
  | .tagtotal =>
    (0 : Word) |> TAGTOTAL.BUDGET_SUM.put ((fins 70).map fun h => d.f (.sys (.tagbud h)) TAGBUD.BUDGET).sum |>
      TAGTOTAL.USE_SUM.put ((fins 70).map d.inUse).sum
  | .corestat => coreStat d
  | r => d.get (.sys r) &&& ~~~r.access.wo

/-- What a read of a register gives, and what the read does: RC fields clear, WO fields read 0 (R13). -/
def readNow (by_ : Requester) (r : Reg) (d : Dev) : Word × Dev :=
  match r with
  -- PEAK counts from the read on (R468)
  | .sys (.taguse h) => (sysRead d (.taguse h), (d.clearRC r).setF r TAGUSE.PEAK (d.inUse h))
  | .sys x => (sysRead d x, d.clearRC r)
  | .tb b .count => (tbCount d b, d)
  | .tbg .tbrun => (maskOf 32 0 d.tbRun, d)
  | .adc n .last => adcReadLast n d
  | .adc n (.res k) => adcReadRes n k d
  | .adcg .adcrun => (maskOf 32 0 fun n => d.b (.adc n .stat) ADC_STAT.RUNNING, d)
  | .adcg .adccalbusy => (maskOf 32 0 fun n => d.b (.adc n .stat) ADC_STAT.CALBUSY, d)
  | .lesh (.leen k) => (maskOf 64 k.val fun n => d.b (.le n .ctl) LE_CTL.EN, d)
  | .cmp n .cap => cmpReadCap n d
  | .cmpg (.cmpout k) => (maskOf 64 k.val fun n => d.b (.cmp n .stat) CMP_STAT.OUT, d)
  | .cmpg (.cmpqout k) => (maskOf 64 k.val fun n => d.b (.cmp n .stat) CMP_STAT.QOUT, d)
  | .pos n .upos => posReadUpos n d
  | .ic x => (icRead d x, d)
  | .icc c x => (iccRead d c x, iccReadEff c x d)
  | .fc x => (fcRead d x, d.clearRC r)
  | .shg x => (shgRead d x, d)
  | .wd n .count => (w32 (min 65535 (wdCount d n)), d)
  | .fl (.fleic k) => (flEic d k, d)
  | .lnk x => lnkRead x d
  | .hif x => (hifRead d x, d.clearRC r)
  | .sec .rng => rngRead (reqCode by_) d
  | .sec x => (secRead d x &&& ~~~x.access.wo, d.clearRC r)
  | r => (d.get r &&& ~~~r.access.wo, d.clearRC r)

/-- A register lies in a clock domain whose PLL is not locked (R42): a timebase with its legs, or the converters. -/
def regGated (d : Dev) (r : Reg) : Bool :=
  match r with
  | .tb b _ => !tbPll d b
  | .leg n _ => !tbPll d (d.legTb n)
  | .adc _ _ => !d.sys.pllA
  | _ => false

/-- Bits of a write that wait for the clock of their domain (R38, R42): a commit of the staged values of a leg whose timebase's PLL is
not locked (R80), a start or stop of a converter while PLL A is not. -/
def heldMask (d : Dev) (r : Reg) : Word :=
  match r with
  | .tbg (.legcommit k) => maskOf 96 k.val fun n => !tbPll d (d.legTb n)
  | .adcg .adcgstart => if d.sys.pllA then 0 else BitVec.allOnes 32
  | .adcg .adcgstop => if d.sys.pllA then 0 else BitVec.allOnes 32
  | _ => 0

/-- An access to a register waits: for its domain, or behind a write that waits; the registers whose bits wait singly have no order
among their writes. -/
def regWaits (d : Dev) (r : Reg) : Bool :=
  match r with
  | .tbg (.legcommit _) => false
  | .adcg .adcgstart => false
  | .adcg .adcgstop => false
  | r => regGated d r || d.sys.waits.any fun w => w.addr == w32 r.addr && w.val.isSome

/-- Record an access that waits. -/
def regWait (by_ : Requester) (r : Reg) (v : Option Word) (d : Dev) : Dev :=
  { d with sys := { d.sys with waits := d.sys.waits ++ [{ by_ := by_, addr := w32 r.addr, val := v, since := d.now }] } }

/-- The part of a write that waits is recorded, the rest is made. -/
def writePart (by_ : Requester) (r : Reg) (v : Word) (d : Dev) : Dev :=
  let held := v &&& heldMask d r
  if held = 0 then writeNow by_ r v d
  else if v &&& ~~~ held = 0 then regWait by_ r (some held) d
  else writeNow by_ r (v &&& ~~~ held) (regWait by_ r (some held) d)

/-- A write by a requester; while its domain is stopped it waits (R42). -/
def writeReg (by_ : Requester) (r : Reg) (v : Word) (d : Dev) : Dev :=
  if regWaits d r then regWait by_ r (some v) d else writePart by_ r v d

/-- A value that has come back for a requester's read of an address that had to wait. -/
def readBack (by_ : Requester) (a : Nat) (d : Dev) : Option Word :=
  match by_ with
  | .host => (d.hst.back.find? fun p => p.1 == a).map Prod.snd
  | .core c =>
    (d.core[c].ldBack.find? fun p => p.1 == a).map Prod.snd

/-- The value that came back is used. -/
def dropBack (by_ : Requester) (a : Nat) (d : Dev) : Dev :=
  match by_ with
  | .host => d.hstU fun x => { x with back := x.back.eraseP fun p => p.1 == a }
  | .core c => d.coreU c fun x => { x with ldBack := x.ldBack.eraseP fun p => p.1 == a, ldWait := x.ldWait.erase a }

/-- A value comes back for a read that waited. -/
def giveBack (by_ : Requester) (a : Nat) (v : Word) (d : Dev) : Dev :=
  match by_ with
  | .host => d.hstU fun x => { x with back := x.back ++ [(a, v)] }
  | .core c => if d.core[c].ldWait.contains a then d.coreU c fun x => { x with ldBack := x.ldBack ++ [(a, v)] } else d

/-- The waiting read of a requester at an address. -/
def isReadWait (by_ : Requester) (a : Word) (w : WaitAcc) : Bool := w.by_ == by_ && w.addr == a && w.val.isNone

/-- A read by a requester: none while it waits (R42), and then the state in which its wait is recorded. -/
def readReg (by_ : Requester) (r : Reg) (d : Dev) : Option Word × Dev :=
  match readBack by_ r.addr d with
  | some v => (some v, dropBack by_ r.addr d)
  | none =>
    if regWaits d r then
      if d.sys.waits.any (isReadWait by_ (w32 r.addr)) then (none, d)
      else
        let d1 := regWait by_ r none d
        match by_ with
        | .core c => (none, d1.coreU c fun x => { x with ldWait := x.ldWait ++ [r.addr] })
        | .host => (none, d1)
    else
      let d1 := { d with sys := { d.sys with waits := d.sys.waits.filter fun w => !isReadWait by_ (w32 r.addr) w } }
      let (v, d2) := readNow by_ r d1
      (some v, match by_ with
        | .core c => d2.coreU c fun x => { x with ldWait := x.ldWait.erase r.addr }
        | .host => d2)

/-- Make a waiting access whose domain runs, or the part of it that need not wait any more. -/
def wakeServe (w : WaitAcc) (d : Dev) : Dev :=
  match Reg.ofAddr w.addr.toNat with
  | none => d
  | some r =>
    match w.val with
    | some v =>
      let held := v &&& heldMask d r
      if held = 0 then writeNow w.by_ r v d
      else writeNow w.by_ r (v &&& ~~~ held) { d with sys := { d.sys with waits := { w with val := some held } :: d.sys.waits } }
    | none =>
      let (v, d1) := readNow w.by_ r d
      giveBack w.by_ r.addr v d1

/-- The waiting access, or part of it, can be made: its register's domain runs. -/
def wakeReady (d : Dev) (w : WaitAcc) : Bool :=
  match Reg.ofAddr w.addr.toNat with
  | some r => !regGated d r && (match w.val with
    | some v => v &&& ~~~ heldMask d r != 0 || v == 0
    | none => true)
  | none => true

/-- WAKE_GATE_OPEN (R38): the oldest waiting access whose domain runs is made. -/
def wakeOpen (d : Dev) : Dev :=
  match d.sys.waits.find? (wakeReady d) with
  | none => d
  | some w => wakeServe w { d with sys := { d.sys with waits := d.sys.waits.erase w } }

/-- WAKE_TIMEOUT (R42): the oldest access whose domain has stayed stopped for 100 µs is dropped; a read gives 0. -/
def wakeTimeout (d : Dev) : Dev :=
  match d.sys.waits.find? fun w => !wakeReady d w with
  | none => d
  | some w =>
    let d1 := { d.at (w.since + 100 * tuUs) with sys := { d.sys with waits := d.sys.waits.erase w } }
    let d2 := (d1.flag (.sys .sysstat) SYSSTAT.WAKE_TO).pulse 402
    if w.val.isSome then d2 else giveBack w.by_ w.addr.toNat 0 d2

/-- A holder lacks n free tags (R43, R46, R47). -/
def tagsShort (d : Dev) (h : Fin 70) (n : Nat) : Bool := decide (d.f (.sys (.tagbud h)) TAGBUD.BUDGET < d.inUse h + n)

/-- A holder holds its whole budget (R46, R47). -/
def tagsFull (d : Dev) (h : Fin 70) : Bool := tagsShort d h 1

end Sys2Proof.Machine
end

