-- ==== Sys2Proof/Machine/Act.lean ====
section
/-!
DEFINITION. How a command acts on the machine: on the device alone, the queue kept; and the register accesses that commands of their
own make.
-/
namespace Sys2Proof.Machine
open Sys2Proof

/-- The outcome of a command. -/
abbrev Outc := Host.Outcome State Fault Refusal

/-- An effect that falls at a later instant finds what the shroud had to do by then done (R19). -/
def timely (f : Dev → Dev) (d : Dev) : Dev :=
  let d1 := f d
  if d1.now = d.now || !overdue (d.at d1.now) then d1 else f { catchUp (d.at d1.now) with now := d.now }

/-- The device acts: nothing acts while a device reset is held (R343); the interrupt controller follows its sources (R201). -/
def act (f : Dev → Dev) (s : State) : Outc :=
  .next { s with toDev := settle (if s.sys.rst.isSome then s.toDev else timely f (catchUp s.toDev)) }

/-- An event of the board, which a held reset does not stop. -/
def actBoard (f : Dev → Dev) (s : State) : Outc :=
  .next { s with toDev := settle (if s.sys.rst.isSome then f s.toDev else timely f (catchUp s.toDev)) }

/-- The holder whose tags a requester's accesses take (R43, R422). -/
def reqHolder : Requester → Fin 70
  | .core c => coreHolder c
  | .host => 69

/-- A requester makes an access of its own: it holds a tag meanwhile, and makes none while it holds its whole budget (R43, R46). -/
def asks (by_ : Requester) (f : Dev → Dev) (d : Dev) : Dev :=
  if tagsFull d (reqHolder by_) then d else f (d.tagPulse (reqHolder by_) 1)

/-- A requester writes a register. -/
def writeBy (by_ : Requester) (r : Reg) (v : Word) : Dev → Dev := asks by_ (writeReg by_ r v)

/-- A write at a physical address of the device region: an address that no register has ignores it (R13); one that is no multiple
of 4 leaves the register open (R12). -/
def regWriteAt (by_ : Requester) (addr v : Word) : Dev → Dev := asks by_ fun d =>
  match Reg.ofAddr (addr.toNat / 4 * 4) with
  | none => d
  | some r =>
    if addr.toNat % 4 = 0 then writeReg by_ r v d
    else if Config.freeBool d.free then writeReg by_ r (Config.freeValue (d.free + 1)) { d with free := d.free + 2 }
    else d.bumpFree

/-- A read command: what it returns is kept; none while the access waits (R42). -/
def regReadCmd (by_ : Requester) (r : Reg) (d : Dev) : Dev :=
  let (v, d1) := readReg by_ r d
  { d1 with sys := { d1.sys with rdData := v } }

/-- A requester has a read of a register under way: it waits, or its value has come back. -/
def hasAsked (d : Dev) (by_ : Requester) (r : Reg) : Bool :=
  d.sys.waits.any (isReadWait by_ (w32 r.addr)) || (readBack by_ r.addr d).isSome

/-- A requester reads a register: its own tag is among those held while the read is captured (R468); a read under way takes no other,
and one that finds its budget held returns nothing yet (R46). -/
def readBy (by_ : Requester) (r : Reg) (d : Dev) : Dev :=
  let h := reqHolder by_
  if hasAsked d by_ r then regReadCmd by_ r d
  else if tagsFull d h then { d with sys := { d.sys with rdData := none } }
  else (regReadCmd by_ r (d.tagTake h 1)).tagBack h 1

end Sys2Proof.Machine
end

