-- ==== Sys2Proof/Machine/Float.lean ====
section
/-!
DEFINITION. binary32 arithmetic of the cores (R251, R276-R278): rounding, the operations, conversions and comparison, with the
exceptions each raises.
-/
namespace Sys2Proof.Machine
open Sys2Proof

/-- Fields of FPSR (R251). -/
def FPSR.TP : Fld := ⟨31, 31⟩
def FPSR.RM : Fld := ⟨17, 16⟩
def FPSR.TRAPS : Fld := ⟨12, 8⟩
def FPSR.FLAGS : Fld := ⟨4, 0⟩

/-- Sticky flags as the bits of FPSR[4:0]. -/
def fxIV : Nat := 16
def fxDZ : Nat := 8
def fxOF : Nat := 4
def fxUF : Nat := 2
def fxPX : Nat := 1

/-- A result and the exceptions raised with it. -/
structure FpOut where
  bits : Word
  exc  : Nat := 0
  deriving DecidableEq, Repr

/-- A binary32 value: a finite one is ± m × 2^e. -/
inductive FVal where
  | fin (s : Bool) (m : Nat) (e : Int)
  | inf (s : Bool)
  | nan (quiet : Bool)
  deriving DecidableEq, Repr

/-- The value of a word. -/
def fVal (w : Word) : FVal :=
  let s := w.getLsbD 31
  let x := bitsN w.toNat 30 23
  let m := w.toNat % 2 ^ 23
  if x = 255 then (if m = 0 then .inf s else .nan (bitN m 22))
  else if x = 0 then .fin s m (-149)
  else .fin s (2 ^ 23 + m) ((x : Int) - 150)

/-- Words from parts. -/
def fPack (s : Bool) (low : Nat) : Word := w32 (2 ^ 31 * b2n s + low)
def fInf (s : Bool) : Word := fPack s 0x7F800000
def fZero (s : Bool) : Word := fPack s 0
def fDefaultNan : Word := 0x7FC00000

/-- A magnitude is rounded up: rounding mode, sign, whether the kept part is odd, remainder below the kept part in `2^k` units and
whether anything lies below that (R277). -/
def fRoundsUp (rm : Nat) (s odd : Bool) (rem k : Nat) (sticky : Bool) : Bool :=
  let inexact := rem != 0 || sticky
  match rm with
  | 0 => k != 0 && (decide (2 ^ (k - 1) < rem) || (rem == 2 ^ (k - 1) && (sticky || odd)))
  | 1 => false
  | 2 => !s && inexact
  | _ => s && inexact

/-- Round `(m + sticky) × 2^e` to a multiple of `2^q`: the multiple and whether it is inexact. -/
def fRoundAt (rm : Nat) (s : Bool) (m : Nat) (e : Int) (sticky : Bool) (q : Int) : Nat × Bool :=
  if q ≤ e then (m * 2 ^ (e - q).toNat, sticky)
  else
    let k := (q - e).toNat
    let hi := m / 2 ^ k
    let rem := m % 2 ^ k
    (hi + b2n (fRoundsUp rm s (hi % 2 == 1) rem k sticky), rem != 0 || sticky)

/-- The result of an overflow (IEEE 754). -/
def fOverflow (rm : Nat) (s : Bool) : FpOut :=
  let toInf := rm == 0 || (rm == 2 && !s) || (rm == 3 && s)
  { bits := if toInf then fInf s else fPack s 0x7F7FFFFF, exc := fxOF + fxPX }

/-- Round a non-zero magnitude `(m + sticky) × 2^e` to binary32 (R277).  With `sticky`, m has more than 25 bits. -/
def fRound (rm : Nat) (s : Bool) (m : Nat) (e : Int) (sticky : Bool) : FpOut :=
  let top : Int := e + m.log2
  let q : Int := max (top - 23) (-149)
  let (r, inexact) := fRoundAt rm s m e sticky q
  let (r1, q1) := if 2 ^ 24 ≤ r then (r / 2, q + 1) else (r, q)
  let tinyBefore := decide (top < -126)
  let tinyAfter := tinyBefore && !(top == -127 && decide (2 ^ 24 ≤ (fRoundAt rm s m e sticky (top - 23)).1))
  let tiny := if Config.tinyAfter then tinyAfter else tinyBefore
  if 104 < q1 then fOverflow rm s
  else
    let low := if r1 < 2 ^ 23 then r1 else (q1 + 150).toNat * 2 ^ 23 + (r1 - 2 ^ 23)
    { bits := fPack s low, exc := (if inexact then fxPX else 0) + (if inexact && tiny then fxUF else 0) }

/-- The NaN rules of two operands (R277): the first NaN made quiet; invalid if one is signalling. -/
def fQuiet (w : Word) : Word := w ||| 0x00400000
def fIsNan (w : Word) : Bool := match fVal w with | .nan _ => true | _ => false
def fIsSnan (w : Word) : Bool := match fVal w with | .nan q => !q | _ => false
def fNan2 (a b : Word) : Option FpOut :=
  if fIsNan a || fIsNan b then
    some { bits := fQuiet (if fIsNan a then a else b), exc := if fIsSnan a || fIsSnan b then fxIV else 0 }
  else none
def fInvalid : FpOut := { bits := fDefaultNan, exc := fxIV }

/-- Signed magnitude of a finite value in units of 2^e0, where e0 is no larger than its exponent. -/
def fScaled (s : Bool) (m : Nat) (e e0 : Int) : Int :=
  let v : Int := (m * 2 ^ (e - e0).toNat : Nat)
  if s then -v else v

/-- Addition (R277); an exact zero sum of opposite signs is +0, and -0 rounding toward minus infinity. -/
def fAdd (rm : Nat) (a b : Word) : FpOut :=
  match fNan2 a b with
  | some r => r
  | none =>
    match fVal a, fVal b with
    | .inf s, .inf t => if s == t then { bits := a } else fInvalid
    | .inf _, _ => { bits := a }
    | _, .inf _ => { bits := b }
    | .fin s m e, .fin t n f =>
      let e0 := min e f
      let sum := fScaled s m e e0 + fScaled t n f e0
      if sum = 0 then { bits := fZero (if m = 0 ∧ n = 0 ∧ s = t then s else rm == 3) }
      else fRound rm (decide (sum < 0)) sum.natAbs e0 false
    | _, _ => fInvalid

/-- Subtraction: a NaN operand is passed as it is. -/
def fSub (rm : Nat) (a b : Word) : FpOut :=
  match fNan2 a b with
  | some r => r
  | none => fAdd rm a (b ^^^ 0x80000000)

/-- Multiplication (R277). -/
def fMul (rm : Nat) (a b : Word) : FpOut :=
  match fNan2 a b with
  | some r => r
  | none =>
    match fVal a, fVal b with
    | .inf s, .inf t => { bits := fInf (s != t) }
    | .inf s, .fin t n _ => if n = 0 then fInvalid else { bits := fInf (s != t) }
    | .fin s m _, .inf t => if m = 0 then fInvalid else { bits := fInf (s != t) }
    | .fin s m e, .fin t n f =>
      if m = 0 ∨ n = 0 then { bits := fZero (s != t) } else fRound rm (s != t) (m * n) (e + f) false
    | _, _ => fInvalid

/-- Division (R277). -/
def fDiv (rm : Nat) (a b : Word) : FpOut :=
  match fNan2 a b with
  | some r => r
  | none =>
    match fVal a, fVal b with
    | .inf _, .inf _ => fInvalid
    | .inf s, .fin t _ _ => { bits := fInf (s != t) }
    | .fin s _ _, .inf t => { bits := fZero (s != t) }
    | .fin s m e, .fin t n f =>
      if n = 0 then (if m = 0 then fInvalid else { bits := fInf (s != t), exc := fxDZ })
      else if m = 0 then { bits := fZero (s != t) }
      else
        let num := m * 2 ^ 60
        fRound rm (s != t) (num / n) (e - f - 60) (num % n != 0)
    | _, _ => fInvalid

/-- Square root (R277). -/
def fSqrt (rm : Nat) (b : Word) : FpOut :=
  match fNan2 b b with
  | some r => r
  | none =>
    match fVal b with
    | .inf s => if s then fInvalid else { bits := b }
    | .fin s m e =>
      if m = 0 then { bits := b }
      else if s then fInvalid
      else
        let k : Nat := if e % 2 = 0 then 60 else 61
        let x := m * 2 ^ k
        let r := isqrt x
        fRound rm false r ((e - k) / 2) (r * r != x)
    | .nan _ => fInvalid

/-- The relation of two operands as N, Z, C, V (R277). -/
def fCmp (a b : Word) : (Bool × Bool × Bool × Bool) × Nat :=
  match fVal a, fVal b with
  | .nan _, _ => ((false, false, true, true), fxIV)
  | _, .nan _ => ((false, false, true, true), fxIV)
  | x, y =>
    let less := (true, false, true, false)
    let equal := (false, true, false, false)
    let greater := (false, false, false, false)
    match x, y with
    | .inf s, .inf t => (if s == t then equal else if s then less else greater, 0)
    | .inf s, _ => (if s then less else greater, 0)
    | _, .inf t => (if t then greater else less, 0)
    | .fin s m e, .fin t n f =>
      let e0 := min e f
      let u := fScaled s m e e0
      let v := fScaled t n f e0
      (if u < v then less else if u = v then equal else greater, 0)
    | _, _ => (greater, 0)

/-- An integer times 2^e, rounded to binary32 (CVTIF, CVTQF). -/
def fFromInt (rm : Nat) (i e : Int) : FpOut :=
  if i = 0 then { bits := 0 } else fRound rm (decide (i < 0)) i.natAbs e false

/-- A binary32 times 2^k, rounded to a 32-bit signed integer (CVTFI, CVTFQ): out of range gives the nearest representable value and
a NaN gives 0, both invalid. -/
def fToInt (rm : Nat) (k : Int) (b : Word) : FpOut :=
  match fVal b with
  | .nan _ => { bits := 0, exc := fxIV }
  | .inf s => { bits := if s then 0x80000000 else 0x7FFFFFFF, exc := fxIV }
  | .fin s m e =>
    let (r, inexact) := fRoundAt rm s m (e + k) false 0
    if s then
      if 2 ^ 31 < r then { bits := 0x80000000, exc := fxIV }
      else { bits := wInt (-(r : Int)), exc := if inexact then fxPX else 0 }
    else if 2 ^ 31 ≤ r then { bits := 0x7FFFFFFF, exc := fxIV }
    else { bits := w32 r, exc := if inexact then fxPX else 0 }

end Sys2Proof.Machine
end

