-- ==== Sys2Proof/Machine/Operands.lean ====
section
/-!
DEFINITION. How a core runs one instruction (R253-R262, R281-R286): the checks of its form, the fetch, the boundary after it, and its
memory operands in segments, in every region (R254-R257, R300, R308, R408).
-/
namespace Sys2Proof

/-- Bytes of the prefixes. -/
def Pre.len (p : Pre) : Nat :=
  Machine.b2n p.seg.isSome + Machine.b2n (p.width != .b32) + Machine.b2n p.ct

end Sys2Proof

namespace Sys2Proof.Machine
open Sys2Proof

/-- How an instruction's body ends. -/
inductive CoreRes where
  | ok (d : Dev)
  /-- A precise exception: entry index, segment-fault offset, segment, detail. -/
  | exc (k aofs seg detail : Nat) (d : Dev)
  /-- It waits at its boundary. -/
  | stall (d : Dev)

/-- What a memory access gives. -/
inductive Acc (α : Type) where
  | ok (v : α) (d : Dev)
  | exc (k aofs seg detail : Nat) (d : Dev)
  | stall (d : Dev)

/-- Go on with what an access gave. -/
def Acc.then {α : Type} (a : Acc α) (g : α → Dev → CoreRes) : CoreRes :=
  match a with
  | .ok v d => g v d
  | .exc k o s t d => .exc k o s t d
  | .stall d => .stall d

/-- Core c runs instructions: neither held, waiting, halted nor locked, no halt due, and a tag in its budget (R46, R48, R294); or a load
that it has issued still has to return (R285).  Its wait state has ended where a request was presented (R293).  S waits for the entry that
a verified image gives it (R352). -/
def coreRuns (d : Dev) (c : Fin 5) : Bool :=
  (d.core[c].run == .run || (d.core[c].run == .waiting && d.ic.tgt[c].woke && !d.core[c].parked)) &&
    !(c == 4 && d.sec.entry.isSome) && ((!d.core[c].haltRq && !tagsFull d (coreHolder c)) || !d.core[c].ldWait.isEmpty)

/-- The segment of a data access (R255): the override, else SS for a base of W15, else DS. -/
def dataSeg (p : Pre) (b : Fin 16) : Seg := p.seg.getD (if b = 15 then .ss else .ds)

/-- Code of a segment register (R260). -/
def segCode : Seg → Fin 6
  | .cs => 0
  | .ds => 1
  | .ss => 2
  | .es => 3
  | .xs => 4
  | .ys => 5

/-- Whether an instruction takes a width prefix (R259). -/
inductive WidthUse where
  | no
  | yes
  | required
  deriving DecidableEq, Repr

/-- The prefixes are legal (R259, R280) for an instruction on core c: `mem` it has a memory operand that takes an override. -/
def legalPre (c : Fin 5) (p : Pre) (mem : Bool) (u : WidthUse) : Bool :=
  (mem || p.seg.isNone) && (!p.ct || c == 4) &&
    (match u with
      | .no => p.width == .b32
      | .yes => true
      | .required => p.width != .b32)

/-- The bytes of an instruction come from the loop buffer (R283). -/
def inLoopBuf (x : CoreSt) (len : Nat) : Bool :=
  match x.buf with
  | some (lo, hi) => decide (lo ≤ x.pc.toNat ∧ x.pc.toNat + len ≤ hi)
  | none => false

/-- The fetch of an instruction's bytes, from memory or from the loop buffer. -/
def fetchInstr (c : Fin 5) (len : Nat) (d : Dev) : FetchRes × Dev :=
  if inLoopBuf d.core[c] len then (.ok, d) else fetch c d.core[c].seg[0] d.core[c].pc.toNat len d

/-- The core as an instruction's body finds it: the next offset, the product window one on. -/
def coreNext (len : Nat) (x : CoreSt) : CoreSt :=
  { x with run := .run, pc := x.pc + BitVec.ofNat 17 len,
           win := x.win.map fun w => { w with since := w.since + 1 } }

/-- Those of a list that an earlier list lacks, after it. -/
def joinNew {α : Type} [BEq α] (l m : List α) : List α := l ++ m.filter fun a => !l.contains a

/-- The core at its instruction again, with the loads that have been issued; or with none. -/
def CoreSt.keepLoads (x y : CoreSt) : CoreSt :=
  { x with ldWait := joinNew x.ldWait y.ldWait, ldBack := joinNew x.ldBack y.ldBack }
def CoreSt.noLoads (x : CoreSt) : CoreSt := { x with ldWait := [], ldBack := [] }

/-- Core c executes one instruction of `len` bytes (R282, R286, R287): the first exception that applies, or its effect; while a
floating-point exception is due it only takes its own exceptions, unless it is a load issued before.  It takes `tags` tags beside those
of its accesses (R43), once; an instruction that waits keeps what its issued loads have brought. -/
def coreRunTags (tags : Nat) (c : Fin 5) (legal : Bool) (len : Nat) (body : Dev → CoreRes) (d : Dev) : Dev :=
  if !coreRuns d c then d
  else
    let x := d.core[c]
    let pc := x.pc.toNat
    let due := x.fpDue && x.ldWait.isEmpty
    match fetchInstr c len d with
    | (.stall, _) => d
    | (.segf e, d1) => if legal then except c 9 pc pc pc 0 e d1 else except c 8 pc pc 0 0 0 d
    | (.merr e, d1) => if legal then except c 14 pc pc 0 0 e d1 else except c 8 pc pc 0 0 0 d
    | (.ok, d1) =>
      if !legal then except c 8 pc pc 0 0 0 d1
      else
        match body ((d1.coreU c (coreNext len)).tagPulse (coreHolder c) (if x.ldWait.isEmpty then tags else 0)) with
        | .ok d2 => if due then d else d2
        | .exc k aofs seg detail d2 =>
          except c k pc (if k = 13 then pc + len else pc) aofs seg detail
            { d2 with core := d2.core.set c x.noLoads }
        | .stall d2 => if due then d else { d2 with core := d2.core.set c (x.keepLoads d2.core[c]) }

/-- An instruction that has a result, and one that has neither a result nor an access (R43, R262). -/
def coreRun : (c : Fin 5) → (legal : Bool) → (len : Nat) → (body : Dev → CoreRes) → Dev → Dev := coreRunTags 1
def coreRunPlain : (c : Fin 5) → (legal : Bool) → (len : Nat) → (body : Dev → CoreRes) → Dev → Dev := coreRunTags 0

/-! ### Memory operands -/

/-- A part of an access: its offset and its number of bytes. -/
abbrev Piece := Nat × Nat

/-- The parts of an access of `size` bytes at an offset (R256). -/
def pieces (off size : Nat) : List Piece :=
  if off % size = 0 then [(off, size)] else [(off, size - off % size), (off + (size - off % size), off % size)]

/-- Physical address of an offset in a segment. -/
def physOf (s : Desc) (off : Nat) : Nat := (s.base.toNat + off) % 2 ^ 32

/-- The region refuses a store (R300). -/
def regionStore : Region → Option Nat
  | .rom => some 0x08
  | .flash => some 0x08
  | .info => some 0x08
  | .unmapped => some 0x06
  | _ => none

/-- The region refuses a load (R300). -/
def regionLoad : Region → Option Nat
  | .unmapped => some 0x06
  | _ => none

/-- The check of one part (R254, R308): NULL, rights, LIMIT, region. -/
def pieceFault (s : SegSt) (rd wr : Bool) (p : Piece) : Option Nat :=
  match s.desc with
  | none => some 0x02
  | some t =>
    if rd && !t.r then some 0x03
    else if wr && !t.w then some 0x04
    else if t.limit < p.1 + p.2 - 1 ∨ 0xFFFF < p.1 + p.2 - 1 then some 0x01
    else
      let f (a : Nat) : Option Nat := if wr then regionStore (regionOf a) else regionLoad (regionOf a)
      (f (physOf t p.1)).or (f (physOf t (p.1 + p.2 - 1)))

/-- The first part that fails its check: its offset and the cause. -/
def accessFault (s : SegSt) (rd wr : Bool) : List Piece → Option (Nat × Nat)
  | [] => none
  | p :: t =>
    match pieceFault s rd wr p with
    | some e => some (p.1, e)
    | none => accessFault s rd wr t

/-- Addresses of the words that bytes `a` to `a + n - 1` touch. -/
def wordsOf (a n : Nat) : List Nat := (List.range ((a % 4 + n + 3) / 4)).map fun k => (a / 4 * 4 + 4 * k) % 2 ^ 32

/-- A load or store of a word in an array waits (R317, R320, R350): a busy flash array does not make a load wait (R329). -/
def dataWaits (d : Dev) (a : Nat) : Bool :=
  match regionOf a with
  | .flash => !d.b (.sys (.ready 0)) READY0.FLASH
  | .info => !d.b (.sys (.ready 0)) READY0.FLASH
  | .sram => memWaits d a
  | .lem => memWaits d a
  | _ => false

/-- An outbound access fails (R408). -/
def obFail (d : Dev) : Dev := (hstFlag HSTAT.OBERR d).pulse 468

/-- The outbound window of an address: its number and whether it is open. -/
def obWindow (a : Nat) : Fin 4 := Fin.ofNat 4 ((a - 0x80000000) / 2 ^ 29)
def obOpen (d : Dev) (a : Nat) : Bool := d.b (.hif (.hobw (obWindow a))) HOBW.EN && d.l0

/-- Host address of a window address. -/
def obHost (d : Dev) (a : Nat) : Nat := d.f (.hif (.hobw (obWindow a))) HOBW.BASE * 2 ^ 29 + a % 2 ^ 29

/-- The read of one part of a load in the outbound window is issued (R408): it fails at once and gives all ones, or its tag is held
until it completes. -/
def obIssue (c : Fin 5) (a : Nat) (d : Dev) : Dev :=
  if d.core[c].ldWait.contains a then d
  else if !obOpen d a then
    (obFail (d.tagPulse (coreHolder c) 1)).coreU c fun x =>
      { x with ldWait := x.ldWait ++ [a], ldBack := x.ldBack ++ [(a, 0xFFFFFFFF)] }
  else
    let d1 := (d.tagTake (coreHolder c) 1).send (.hostRead (obHost d a))
    let d2 := d1.hstU fun x => { x with reads := x.reads ++ [{ core := c, addr := a, at_ := d.now }] }
    d2.coreU c fun x => { x with ldWait := x.ldWait ++ [a] }

/-- One part of a load in the outbound window: its value where that has come back. -/
def obLoad (c : Fin 5) (a n : Nat) (d : Dev) : Acc Nat :=
  match readBack (.core c) a d with
  | some v => .ok (v.toNat % 2 ^ (8 * n)) (dropBack (.core c) a d)
  | none => .stall d

/-- A free value of n bytes for an access that R12 and R153 leave undefined. -/
def freeLoad (n : Nat) (d : Dev) : Acc Nat := .ok ((Config.freeValue d.free).toNat % 2 ^ (8 * n)) d.bumpFree

/-- Read words one after another; the first uncorrectable one ends the access in MERR (R315). -/
def loadWords (q : MemReq) (seg : Nat) : List Nat → Dev → Acc Nat
  | [], d => .ok 0 d
  | a :: t, d =>
    let (r, d1) := arrayRead q a d
    match r.bad with
    | some e => .exc 14 0 seg e d1
    | none =>
      match loadWords q seg t d1 with
      | .ok v d2 => .ok (r.data.toNat + 2 ^ 32 * v) d2
      | .exc k o s e d2 => .exc k o s e d2
      | .stall d2 => .stall d2

/-- Load the `n` bytes at a physical address that one part names. -/
def loadPiece (c : Fin 5) (q : MemReq) (seg a n : Nat) (d : Dev) : Acc Nat :=
  match regionOf a with
  | .device =>
    if n = 4 ∧ a % 4 = 0 then
      match Reg.ofAddr a with
      | none => .ok 0 d
      | some r =>
        match readReg (.core c) r d with
        | (some v, d1) => .ok v.toNat d1
        | (none, d1) => .stall d1
    else freeLoad n d
  | .lem => if n = 4 ∧ a % 4 = 0 then loadWords q seg [a] d else freeLoad n d
  | .window => obLoad c a n d
  | _ =>
    match loadWords q seg (wordsOf a n) d with
    | .ok v d1 => .ok (v / 2 ^ (8 * (a % 4)) % 2 ^ (8 * n)) d1
    | .exc k o s e d1 => .exc k o s e d1
    | .stall d1 => .stall d1

/-- Load the parts of an access, the lower bytes first. -/
def loadPieces (c : Fin 5) (q : MemReq) (seg : Nat) (t : Desc) : List Piece → Dev → Acc Nat
  | [], d => .ok 0 d
  | p :: l, d =>
    match loadPiece c q seg (physOf t p.1) p.2 d with
    | .ok v d1 =>
      match loadPieces c q seg t l d1 with
      | .ok u d2 => .ok (v + 2 ^ (8 * p.2) * u) d2
      | .exc k o s e d2 => .exc k o s e d2
      | .stall d2 => .stall d2
    | .exc k o s e d1 => .exc k o s e d1
    | .stall d1 => .stall d1

/-- What follows an access, however it ends. -/
def accThen {α : Type} (f : Dev → Dev) : Acc α → Acc α
  | .ok v d => .ok v (f d)
  | .exc k o s e d => .exc k o s e (f d)
  | .stall d => .stall (f d)

/-- Some word of an access must wait for its array. -/
def accessWaits (d : Dev) (t : Desc) (l : List Piece) : Bool :=
  l.any fun p => (wordsOf (physOf t p.1) p.2).any (dataWaits d)

/-- An earlier store of core c is not complete: its destination has not accepted it (R257). -/
def storesWait (d : Dev) (c : Fin 5) : Bool :=
  d.sys.waits.any (fun w => w.by_ == Requester.core c && w.val.isSome) || d.mem.rawQ.any fun o => o.by_ == Requester.core c

/-- An access of core c must wait: for an array, for its tags (R43, R46, R284), or for an earlier store (R257). -/
def accessStalls (d : Dev) (c : Fin 5) (t : Desc) (l : List Piece) : Bool :=
  accessWaits d t l || storesWait d c || tagsShort d (coreHolder c) l.length

/-- The addresses of the parts that lie in the outbound window. -/
def obParts (t : Desc) (l : List Piece) : List Nat := (l.map fun p => physOf t p.1).filter fun a => regionOf a == .window

/-- The parts of a load that take a tag when it is made: those outside the outbound window that have not been issued before. -/
def newParts (x : CoreSt) (t : Desc) (l : List Piece) : Nat :=
  ((l.map fun p => physOf t p.1).filter fun a => regionOf a != .window && !x.ldWait.contains a).length

/-- A load of `size` bytes at an offset of a segment register (R254-R257). -/
def load (c : Fin 5) (sg : Seg) (q : MemReq) (also : Bool) (off size : Nat) (d : Dev) : Acc Nat :=
  let s := d.core[c].seg[segCode sg]
  let l := pieces off size
  match accessFault s true also l with
  | some (o, e) => .exc 9 o (segCode sg).val e d
  | none =>
    match s.desc with
    | none => .exc 9 off (segCode sg).val 0x02 d
    | some t =>
      if d.core[c].ldWait.isEmpty && accessStalls d c t l then .stall d
      else
        let ws := obParts t l
        let d0 := d.each ws (obIssue c)
        if ws.any fun a => (readBack (.core c) a d0).isNone then .stall d0
        else accThen (fun x => x.tagBack (coreHolder c) (newParts d.core[c] t l))
          (loadPieces c q (segCode sg).val t l (d0.tagTake (coreHolder c) (newParts d.core[c] t l)))

/-- Write bytes of the word at `a`, by core number: `v` holds them in their places (R314). -/
def storeWord (c : Fin 5) (a : Nat) (mask v : Word) (d : Dev) : Dev :=
  if mask = 0xFFFFFFFF then memWrite a v d else memMerge c.val a mask v d

/-- Store `n` bytes of `v` at a physical address that one part names. -/
def storePiece (c : Fin 5) (a n v : Nat) (d : Dev) : Dev :=
  match regionOf a with
  | .device =>
    match Reg.ofAddr (a / 4 * 4) with
    | none => d
    | some r =>
      if n = 4 ∧ a % 4 = 0 then writeReg (.core c) r (w32 v) d
      else if Config.freeBool d.free then writeReg (.core c) r (Config.freeValue (d.free + 1)) { d with free := d.free + 2 }
      else d.bumpFree
  | .lem =>
    if n = 4 ∧ a % 4 = 0 then leMemWrite (lemEngine a) (lemOff a) (w32 v) d
    else d.each (wordsOf a n) fun b => leMemPart c.val (lemEngine b) (lemOff b)
  | .window =>
    if obOpen d a then d.send (.hostBytes (obHost d a) (bytesLE n v)) else obFail d
  | _ =>
    let sh := 8 * (a % 4)
    let x := v % 2 ^ (8 * n) * 2 ^ sh
    let m := (2 ^ (8 * n) - 1) * 2 ^ sh
    let d1 := storeWord c (a / 4 * 4) (w32 m) (w32 x) d
    if m < 2 ^ 32 then d1 else storeWord c ((a / 4 * 4 + 4) % 2 ^ 32) (w32 (m / 2 ^ 32)) (w32 (x / 2 ^ 32)) d1

/-- Store the parts of an access in order. -/
def storePieces (c : Fin 5) (t : Desc) : List Piece → Nat → Dev → Dev
  | [], _, d => d
  | p :: l, v, d => storePieces c t l (v / 2 ^ (8 * p.2)) (storePiece c (physOf t p.1) p.2 v d)

/-- The parts of a checked store are performed. -/
def storeParts (c : Fin 5) (sg : Seg) (off size v : Nat) (d : Dev) : Dev :=
  let l := pieces off size
  match d.core[c].seg[segCode sg].desc with
  | none => d
  | some t => storePieces c t l v (d.tagPulse (coreHolder c) l.length)

/-- A store of `size` bytes at an offset of a segment register. -/
def store (c : Fin 5) (sg : Seg) (off size v : Nat) (d : Dev) : Acc Unit :=
  let s := d.core[c].seg[segCode sg]
  let l := pieces off size
  match accessFault s false true l with
  | some (o, e) => .exc 9 o (segCode sg).val e d
  | none =>
    match s.desc with
    | none => .exc 9 off (segCode sg).val 0x02 d
    | some t =>
      if accessStalls d c t l then .stall d else .ok () (storeParts c sg off size v d)

/-- Offset of B plus a displacement (R254). -/
def dispOff (b : Word) (disp : Int) : Nat := (((b.toNat : Int) + disp) % 65536).toNat

end Sys2Proof.Machine
end

