-- ==== Sys2Proof/Machine/Snapshot.lean ====
section
/-!
DEFINITION. Words read by requester 5, the host, and by the capture engine (R400, R407, R421), and snapshots of a ring set (R421).
-/
namespace Sys2Proof.Machine
open Sys2Proof

/-- An access of the host or of the capture engine to a word must wait (R42, R317, R320, R350). -/
def hostWaits (d : Dev) (a : Nat) : Bool :=
  match regionOf a with
  | .device =>
    match Reg.ofAddr a with
    | some r => regWaits d r && (readBack .host a d).isNone
    | none => false
  | _ => dataWaits d a

/-- A word whose register must wait for its domain can be asked for, within the budget (R46); other waits have no request of their own. -/
def hostHasAsk (a : Nat) (d : Dev) : Bool := regionOf a == .device && (Reg.ofAddr a).isSome && !tagsFull d 69

/-- Ask for a word whose register must wait for its domain: a tag is held from then on (R43). -/
def hostAsk (a : Nat) (d : Dev) : Dev :=
  match Reg.ofAddr a with
  | some r => if !hostHasAsk a d || d.sys.waits.any (isReadWait .host (w32 a)) then d else (readReg .host r (d.tagPulse 69 1)).2
  | none => d

/-- A word of the outbound window read by the capture engine (R408): all ones where its window or the link does not allow the
access; else a host read, whose completion is open: what the host holds, poisoned or not, or a failure.  DESIGN CHOICE (log entry
175): the read completes within the step. -/
def hostWindowRead (a : Nat) (d : Dev) : Word × Dev :=
  if !obOpen d a then (0xFFFFFFFF, obFail d)
  else
    let d1 := { (d.send (.hostRead (obHost d a))) with free := d.free + 3 }
    if Config.freeBool d.free then (0xFFFFFFFF, obFail d1)
    else (Config.freeValue (d.free + 1), if Config.freeBool (d.free + 2) then (hstFlag HSTAT.OBPOIS d1).pulse 468 else d1)

/-- Read one word as the host: the data, and whether it is uncorrectable. -/
def hostWord (q : MemReq) (a : Nat) (d : Dev) : (Word × Bool) × Dev :=
  match regionOf a with
  | .device =>
    match Reg.ofAddr a with
    | none => ((0, false), d)
    | some r =>
      let (v, d1) := readReg .host r d
      ((v.getD 0, false), d1)
  | .window =>
    let (v, d1) := hostWindowRead a d
    ((v, false), d1)
  | .unmapped => ((0, false), d)
  | _ =>
    let (r, d1) := arrayRead q a d
    ((r.data, r.bad.isSome), d1)

/-- Read words in ascending order, each as one access. -/
def hostWords (q : MemReq) : List Nat → Dev → (List Word × Bool) × Dev
  | [], d => (([], false), d)
  | a :: t, d =>
    let (x, d1) := hostWord q a d
    let (y, d2) := hostWords q t d1
    ((x.1 :: y.1, x.2 || y.2), d2)

/-- Write one word as the host (R400, R407), with the effect its region gives a full write. -/
def hostWrite (a : Nat) (v : Word) (d : Dev) : Dev :=
  match regionOf a with
  | .device =>
    match Reg.ofAddr a with
    | none => d
    | some r => writeReg .host r v d
  | .lem => leMemWrite (lemEngine a) (lemOff a) v d
  | .sram => memWrite a v d
  | _ => d

/-- A word of the request is a register access (R407). -/
def inReg (a : Nat) : Bool := regionOf a == .device || regionOf a == .lem

/-- One word of an inbound write (R407). -/
def inWriteWord (a : Nat) (be : BitVec 4) (v : Word) (d : Dev) : Dev :=
  if inReg a then (if be = 0xF then hostWrite a v d else hstFlag HSTAT.ALIGN d)
  else
    match regionOf a with
    | .rom | .flash | .info => hstFlag HSTAT.WREJ d
    | .sram =>
      if be = 0xF then memWrite a v d
      else if be = 0 then d
      else memMerge 5 a (w32 ((List.range 4).foldl (fun m k => if be.getLsbD k then m + 0xFF * 2 ^ (8 * k) else m) 0)) v d
    | _ => hstFlag HSTAT.UNMAP d

/-- An array a host write goes to makes it wait; a register's own wait does not hold the command (R42). -/
def hostWriteWaits (d : Dev) (a : Nat) : Bool := regionOf a != .device && dataWaits d a

/-- Words of the host's writes are written in their order while a tag is free for each (R43, R46). -/
def hostIssueN : Nat → Dev → Dev
  | 0, d => d
  | n + 1, d =>
    match d.hst.posted with
    | [] => d
    | p :: t =>
      if tagsFull d 69 || hostWriteWaits d p.1 then d
      else hostIssueN n (inWriteWord p.1 p.2.1 p.2.2 ((d.hstU fun x => { x with posted := t }).tagPulse 69 1))
def hostIssueAll (d : Dev) : Dev := hostIssueN d.hst.posted.length d

/-- Further words are to be written. -/
def hostIssue (l : List (Nat × BitVec 4 × Word)) (d : Dev) : Dev := hostIssueAll (d.hstU fun x => { x with posted := x.posted ++ l })

/-- Holder 69 has no tag for a further access of the host, or words of its writes wait for one (R46). -/
def hostFull (d : Dev) : Bool := tagsFull d 69 || !d.hst.posted.isEmpty

/-- Tags of ring set r in use: n more, or fewer (R422). -/
def capUses (r : Fin 16) (n : Int) (d : Dev) : Dev :=
  d.setF (.capr r .use) CAPR_USE.IN_USE ((d.f (.capr r .use) CAPR_USE.IN_USE : Int) + n).toNat

/-- A snapshot ends unread with its ring set: a read of address a that waits is given up. -/
def capSnapDrop (r : Fin 16) (a : Nat) (s : CapSnap) (d : Dev) : Dev :=
  let d1 := d.capU r fun c => { c with snap := none }
  if s.asked then
    let d2 := dropBack .host a { d1 with sys := { d1.sys with waits := d1.sys.waits.eraseP (isReadWait .host (w32 a)) } }
    capUses r (-1) d2
  else d1

/-- Go on with the snapshot of a ring set (R421): the next words while tags and waits allow, then its record. -/
def capSnapStep (r : Fin 16) : Nat → Dev → Dev
  | 0, d => d
  | k + 1, d =>
    match d.cap[r].snap with
    | none => d
    | some s =>
      let base := 4 * d.f (.capr r .snap) CAPR_SNAP.ADDR
      let n := d.f (.capr r .snlen) CAPR_SNLEN.N
      let a := base + 4 * s.words.length
      if !d.b (.capr r .stat) CAPR_STAT.RUN then capSnapDrop r a s d
      else if n ≤ s.words.length then
        let w0 := capW0 4 s.tv (b2n s.poison * 2 ^ 24 + n)
        capPump r <| capPlaceSnap r s.stamp (w0 :: w32 base :: lo32 s.stamp :: hi32 s.stamp :: s.words) (d.capU r fun c => { c with snap := none })
      else if !s.asked && !capMayIssue d r then d
      else if hostWaits d a then
        if d.sys.waits.any (isReadWait .host (w32 a)) || !hostHasAsk a d then d
        else (capUses r (1 - b2n s.asked) (hostAsk a d)).capU r fun c => { c with snap := some { s with asked := true } }
      else
        let (x, d1) := hostWord reqDma a (if s.asked then d else (capUses r 1 d).tagTake 69 1)
        let d2 := if s.asked then d1 else d1.tagBack 69 1
        capSnapStep r k ((capUses r (-1) d2).capU r fun c =>
          { c with snap := some { s with words := s.words ++ [x.1], poison := s.poison || x.2, asked := false } })
def capSnapGo (r : Fin 16) (d : Dev) : Dev := capSnapStep r 258 d
def capSnapAll (d : Dev) : Dev := d.each (fins 16) capSnapGo

/-- A snapshot of a ring set is requested at the instant of `stamp` (R421). -/
def capSnapStart (r : Fin 16) (stamp : Nat) (tv : Bool) (d : Dev) : Dev :=
  if d.cap[r].snap.isSome then d.flag (.capr r .stat) CAPR_STAT.SNAPDROP
  else capSnapGo r (d.capU r fun c => { c with snap := some { stamp := stamp, tv := tv, words := [], poison := false } })

/-- A task makes a snapshot in the running ring sets that name its channel (R421). -/
def capTaskSnap (ch : Nat) (d : Dev) : Dev :=
  d.each ((fins 16).filter fun r => d.b (.capr r .ctl) CAPR_CTL.SNEN && d.b (.capr r .stat) CAPR_STAT.RUN &&
    d.f (.capr r .ctl) CAPR_CTL.SNCH == ch) fun r d => capSnapStart r (d.stamp d.now) d.ctv d

/-- Tags of a holder that no operation in progress of this model still owns. -/
def tagsLoose (d : Dev) (h : Fin 70) : Nat :=
  let owned :=
    if h.val < 5 then (d.hst.reads.filter fun x => x.core.val == h.val).length
    else if h.val < 69 then d.sys.tags[h]
    else ((fins 16).map fun r => d.cap[r].sent.length).sum
  d.sys.tags[h] - owned

/-- TAG_RETURNED (R43, R46, R422): the destination has accepted a line of a ring set, or a holder's loose tag returns; a capture
write that waited at its budget or quota issues. -/
def tagReturned (h : Fin 70) (ring : Option (Fin 16)) (d : Dev) : Dev :=
  let d1 :=
    match ring with
    | some r =>
      if h = 69 ∧ !d.cap[r].sent.isEmpty then (capUses r (-1) (d.tagBack 69 1)).capU r fun c => { c with sent := c.sent.tail } else d
    | none => if 0 < tagsLoose d h then d.tagBack h 1 else d
  capSnapAll ((hostIssueAll d1).each (fins 16) capPump)

/-- FIFO_RESYNC (R41): entries written and not yet read are discarded and counted by the owning block. -/
def fifoResync (f : Fifo) (d : Dev) : Dev :=
  match f with
  | .pcieCmd =>
    let gone := d.hst.cmds.filter fun x => x.hdr.iface == .pcie
    if d.hst.perst then d
    else (d.hstU fun x => { x with cmds := x.cmds.filter fun y => y.hdr.iface != .pcie }).bumpBy (.hif .hcnt) HCNT.DROP_CNT gone.length
  | .spiCmd =>
    let gone := d.hst.cmds.filter fun x => x.hdr.iface == .spi
    (d.hstU fun x => { x with cmds := x.cmds.filter fun y => y.hdr.iface != .spi }).bumpBy (.hif .hcnt) HCNT.DROP_CNT gone.length
  | .capStage r =>
    if d.hst.perst then d else capRepack r (capDropAll r d.cap[r].staged (d.capU r fun c => { c with staged := [] }))
  | .linkTx p =>
    (d.portU p fun x => { x with txq := [] }).bumpBy (.lnk .lnkcnt) LNKCNT.DROP_CNT d.lnk.port[p].txq.length
  | .linkRx _ => d

end Sys2Proof.Machine
end

