-- ==== Sys2Proof/Machine/Commands.lean ====
section
/-!
DEFINITION. The command interpreter (R394, R398-R405): the command at the front of its queue, its effect and its reply, and the
commands that go on after they start.
-/
namespace Sys2Proof.Machine
open Sys2Proof

/-- The command at the front of the interpreter's queue, if it has passed its checks, has one of the given opcodes, and its interface
has room for its reply (R398). -/
def hstFront (d : Dev) (p : Nat → Bool) : Option Cmd :=
  match hstSeen d with
  | c :: _ => if c.err.isNone && p c.hdr.op && hstRoom d c.hdr.iface then some c else none
  | [] => none

/-- Answer a started command; packets that failed a check and now stand in front are answered after it. -/
def hstDone (c : Cmd) (st : Nat) (data : List Byte) (d : Dev) : Dev := hstFlush (hstReply c.hdr st data d)

/-- Start the front command if it has the opcode. -/
def hstStart (op : Nat) (d : Dev) (f : Cmd → Dev → Dev) : Dev :=
  match hstFront d (· == op) with
  | none => d
  | some c => f c (hstPop c d)

/-- As `hstStart` where the command's accesses may have to wait: then it stays in front, with the wait asked for. -/
def hstStartAt (op : Nat) (d : Dev) (addrs : Cmd → List Nat) (f : Cmd → Dev → Dev) : Dev :=
  match hstFront d (· == op) with
  | none => d
  | some c =>
    match (addrs c).find? (hostWaits d) with
    | some a => hostAsk a d
    | none => if hostFull d then d else f c (hstPop c d)

/-- Bytes of words, little-endian. -/
def wordBytes (l : List Word) : List Byte := l.flatMap fun w => bytesLE 4 w.toNat

/-- What a read of a register by the host would give, with no effect. -/
def regView (d : Dev) (r : Reg) : Word := (readNow .host r d).1

/-- A command reads or writes an address only in a region that is neither unmapped nor the outbound window (R400). -/
def cmdReads (a : Nat) : Bool := decide (a < 2 ^ 32) && regionOf a != .unmapped && regionOf a != .window
def cmdWrites (a : Nat) : Bool := cmdReads a && regionStore (regionOf a) == none

/-- STATUS (R399). -/
def cmdStatus (d : Dev) : Dev :=
  hstStart 0x01 d fun c d =>
    if c.payload.isEmpty then
      hstDone c stOk (wordBytes ([.sys (.ready 0), .sys (.ready 1), .sys (.ready 2), .sys (.ready 3), .sys .ident, .fc .fsum,
        .sys .bootstat, .lnk .lnkaddr].map (regView d))) d
    else hstDone c stBadParam [] d

/-- Addresses of the words a READ or READ_BLOCK accesses, up to the first that is refused. -/
def readAddrs (c : Cmd) : List Nat :=
  let a := (wordAt c.payload 0).toNat
  let n := if c.payload.length = 8 then (wordAt c.payload 4).toNat / 4 else 1
  if n ≤ 256 then ((List.range n).map fun k => a + 4 * k).takeWhile cmdReads else []

/-- The words of a read command and its reply: BAD_ADDR where the list falls short of `n` words.  DESIGN CHOICE (log entry 185): the
accesses of read and write commands are inbound host requests, and take tags of holder 69 (R468, R422). -/
def readReply (c : Cmd) (n : Nat) (d : Dev) : Dev :=
  let l := readAddrs c
  let ((ws, bad), d0) := hostWords reqHost l (d.tagTake 69 1)
  let d1 := d0.tagBack 69 1
  if l.length < n then hstDone c stBadAddr [] d1 else hstDone c (if bad then stPoisoned else stOk) (wordBytes ws) d1

/-- READ (R399, R400). -/
def cmdRead (d : Dev) : Dev :=
  let ok (c : Cmd) : Bool := c.payload.length == 4 && (wordAt c.payload 0).toNat % 4 == 0
  hstStartAt 0x02 d (fun c => if ok c then readAddrs c else []) fun c d => if ok c then readReply c 1 d else hstDone c stBadParam [] d

/-- READ_BLOCK (R399, R400). -/
def cmdReadBlock (d : Dev) : Dev :=
  let n (c : Cmd) : Nat := (wordAt c.payload 4).toNat
  let ok (c : Cmd) : Bool :=
    c.payload.length == 8 && (wordAt c.payload 0).toNat % 4 == 0 && n c % 4 == 0 && decide (4 ≤ n c ∧ n c ≤ 1024)
  hstStartAt 0x04 d (fun c => if ok c then readAddrs c else []) fun c d =>
    if ok c then readReply c (n c / 4) d else hstDone c stBadParam [] d

/-- A write command whose words stand at the addresses given by `addrs`. -/
def hstWriteAt (op : Nat) (d : Dev) (addrs : Cmd → List Nat) (f : Cmd → Dev → Dev) : Dev :=
  match hstFront d (· == op) with
  | none => d
  | some c => if (addrs c).any (hostWriteWaits d) || hostFull d then d else f c (hstPop c d)

/-- A write that sets EN of a ring set was refused (R400, R417): EN is still clear, and the enable does not wait for its descriptors. -/
def badDesc (a : Nat) (v : Word) (before after : Dev) : Bool :=
  match Reg.ofAddr a with
  | some (.capr r .ctl) =>
    CAPR_CTL.EN.bit v && !before.b (.capr r .ctl) CAPR_CTL.EN && !after.b (.capr r .ctl) CAPR_CTL.EN && !after.cap[r].enW
  | _ => false

/-- WRITE (R399, R400). -/
def cmdWrite (d : Dev) : Dev :=
  let a (c : Cmd) : Nat := (wordAt c.payload 0).toNat
  hstWriteAt 0x03 d (fun c => if cmdWrites (a c) then [a c] else []) fun c d =>
    if c.payload.length ≠ 8 ∨ a c % 4 ≠ 0 then hstDone c stBadParam [] d
    else if !cmdWrites (a c) then hstDone c stBadAddr [] d
    else
      let v := wordAt c.payload 4
      let d1 := hostIssue [(a c, 0xF, v)] d
      hstDone c (if badDesc (a c) v d d1 then stBadDesc else stOk) [] d1

/-- WRITE_BLOCK (R399, R400). -/
def cmdWriteBlock (d : Dev) : Dev :=
  let n (c : Cmd) : Nat := (c.payload.length - 4) / 4
  let addrs (c : Cmd) : List Nat := ((List.range (n c)).map fun k => (wordAt c.payload 0).toNat + 4 * k).takeWhile cmdWrites
  hstWriteAt 0x05 d addrs fun c d =>
    if c.payload.length % 4 ≠ 0 ∨ n c < 1 ∨ 255 < n c ∨ (wordAt c.payload 0).toNat % 4 ≠ 0 then hstDone c stBadParam [] d
    else
      let l := addrs c
      let ws := l.zip ((List.range (n c)).map fun k => ((0xF : BitVec 4), wordAt c.payload (4 + 4 * k)))
      hstDone c (if l.length < n c then stBadAddr else stOk) (bytesLE 4 l.length) (hostIssue ws d)

/-- LNKADDR as a reply carries it. -/
def addrBytes (d : Dev) : List Byte := wordBytes [regView d (.lnk .lnkaddr)]

/-- ENUMERATE (R399, R401). -/
def cmdEnumerate (d : Dev) : Dev :=
  hstStart 0x08 d fun c d =>
    if !c.payload.isEmpty then hstDone c stBadParam [] d
    else if d.hst.enum.isSome then hstDone c stBusy [] d
    else if !lnkHead d then hstDone c stOk (addrBytes d) d
    else hstFlush (lnkEnumStart (d.hstU fun x => { x with enum := some (c.hdr, d.now) }))

/-- An enumeration has completed on the head: a waiting ENUMERATE is answered (R401). -/
def hstEnumCheck (d : Dev) : Dev :=
  match d.hst.enum with
  | none => d
  | some (h, _) =>
    if lnkHead d && !lnkBusy d then hstReply h stOk (addrBytes d) (d.hstU fun x => { x with enum := none }) else d

/-- ENUMERATE_TIMEOUT (R401): 10 ms after its start. -/
def hstEnumTimeout (d : Dev) : Dev :=
  match d.hst.enum with
  | none => d
  | some (h, t) => hstReply h stTimeout [] ((d.at (t + 10000 * tuUs)).hstU fun x => { x with enum := none })

/-- TIME_SYNC (R399). -/
def cmdTimeSync (d : Dev) : Dev :=
  hstStart 0x09 d fun c d =>
    if c.payload.isEmpty then
      hstDone c stOk (bytesLE 8 c.stamp ++ wordBytes [regView d (.lnk .lnktstat), regView d (.lnk .lnkstat)]) d
    else hstDone c stBadParam [] d

/-- SNAPSHOT (R399, R401, R421). -/
def cmdSnapshot (d : Dev) : Dev :=
  hstStart 0x0A d fun c d =>
    let w := (wordAt c.payload 0).toNat
    let named := (finsIn 16 w).filter fun r => d.b (.capr r .stat) CAPR_STAT.RUN
    if c.payload.length ≠ 4 ∨ 2 ^ 16 ≤ w ∨ named.isEmpty then hstDone c stBadParam [] d
    else
      let took := (named.filter fun r => d.cap[r].snap.isNone).foldl (fun a r => a + 2 ^ r.val) 0
      hstDone c stOk (bytesLE 8 c.stamp ++ bytesLE 4 took) (d.each named fun r d => capSnapStart r c.stamp c.tv d)

/-- The masks of a CALIBRATE in its reply. -/
def calReply (k : CalCmd) (d : Dev) : Dev :=
  let pass := (w32 k.mask &&& ~~~w32 (k.fail ||| k.skip)).toNat
  hstReply k.hdr (if k.fail = 0 ∧ k.skip = 0 then stOk else stCalPartial) (bytesLE 4 pass ++ bytesLE 4 k.fail ++ bytesLE 4 k.skip) d

/-- The bits of the converters a test holds of. -/
def adcMask (p : Fin 32 → Bool) : Nat := packBits ((fins 32).map p)

/-- Converters that a CALIBRATE waits for and that have ended (R119): it is answered once none is left. -/
def hstCalCheck (d : Dev) : Dev :=
  match d.hst.cal with
  | none => d
  | some k =>
    let wait := adcMask fun n => bitN k.wait n.val && d.b (.adc n .stat) ADC_STAT.CALBUSY
    let fail := k.fail ||| adcMask fun n =>
      bitN k.wait n.val && !d.b (.adc n .stat) ADC_STAT.CALBUSY && d.b (.adc n .stat) ADC_STAT.CALFAIL
    let k1 := { k with wait := wait, fail := fail }
    if wait = 0 then calReply k1 (d.hstU fun x => { x with cal := none }) else d.hstU fun x => { x with cal := some k1 }

/-- CALIBRATE (R399, R401, R116, R119). -/
def cmdCalibrate (d : Dev) : Dev :=
  hstStart 0x0B d fun c d =>
    let m := (wordAt c.payload 0).toNat
    if c.payload.length ≠ 4 then hstDone c stBadParam [] d
    else if d.hst.cal.isSome then hstDone c stBusy [] d
    else
      let skip := adcMask fun n => bitN m n.val && (adcMode d n != 0 || d.b (.adc n .stat) ADC_STAT.CALBUSY)
      let k : CalCmd := { hdr := c.hdr, mask := m, skip := skip, wait := m - skip, fail := 0 }
      hstFlush (hstCalCheck (adcCalibrate m (d.hstU fun x => { x with cal := some k })))

/-- Status of a flash RESULT (R405). -/
def flStatus (r : Nat) : Nat := if r = 0 then stOk else 0x2F + r

/-- A chunk ends: the claim is released and the bytes programmed are reported (R402). -/
def chunkDone (k : ChunkCmd) (st : Nat) (d : Dev) : Dev :=
  hstReply k.hdr st (bytesLE 4 k.done_) (flRelease 5 (d.hstU fun x => { x with chunk := none }))

/-- The chunk's next operation, once the engine is idle (R402).  An engine that takes no more commands ends it with ABORTED.
DESIGN CHOICE (log entry 132). -/
def chunkStep (d : Dev) : Dev :=
  match d.hst.chunk with
  | none => d
  | some k =>
    if k.going || d.b (.fl .flstat) FLSTAT.BUSY then d
    else
      match k.words with
      | [] => chunkDone k stOk d
      | w :: _ =>
        if d.b (.fl .flstat) FLSTAT.NOCMD then chunkDone k (flStatus 5) d
        else
          let erase := k.addr % 0x8000 == 0 && !k.erased
          let d1 := flTry (if erase then .erase else .program) 5 k.addr w 0 0 d
          if d1.fl.op.isSome then d1.hstU fun x => { x with chunk := some { k with going := true } }
          else chunkDone k (flStatus (d1.f (.fl .flstat) FLSTAT.RESULT)) d1

/-- A flash operation has ended: a chunk whose own it was goes on or ends (R402). -/
def chunkAfter (d : Dev) : Dev :=
  match d.hst.chunk with
  | none => d
  | some k =>
    if !k.going then chunkStep d
    else
      let r := d.f (.fl .flstat) FLSTAT.RESULT
      let erase := k.addr % 0x8000 == 0 && !k.erased
      let k1 : ChunkCmd :=
        if erase then { k with going := false, erased := true }
        else { k with going := false, erased := false, addr := k.addr + 16, words := k.words.drop 1, done_ := k.done_ + 16 }
      if r = 0 then chunkStep (d.hstU fun x => { x with chunk := some k1 }) else chunkDone k (flStatus r) d

/-- The 128-bit words of a chunk's data. -/
def chunkWords (l : List Byte) : List (BitVec 128) :=
  (List.range (l.length / 16)).map fun k => BitVec.ofNat 128 (ofLE ((l.drop (16 * k)).take 16))

/-- IMAGE_CHUNK (R399, R402). -/
def cmdChunk (d : Dev) : Dev :=
  hstStart 0x10 d fun c d =>
    let bank := (wordAt c.payload 0).toNat
    let off := (wordAt c.payload 4).toNat
    let n := c.payload.length - 8
    if c.payload.length < 24 ∨ 1016 < c.payload.length ∨ n % 16 ≠ 0 ∨ 1 < bank ∨ off % 16 ≠ 0 then hstDone c stBadParam [] d
    else if d.hst.chunk.isSome then hstDone c stBusy [] d
    else if flOwner d ≠ 7 ∧ flOwner d ≠ 5 then hstDone c stBusy [] d
    else if d.b (.sys .bootstat) BOOTSTAT.DONE && d.f (.sys .bootstat) BOOTSTAT.IMG == bank then hstDone c stImgActive [] d
    else if 0x600000 < off + n then hstDone c stBadParam [] d
    else
      let k : ChunkCmd :=
        { hdr := c.hdr, addr := bankBase (bank == 1) + off, words := chunkWords (c.payload.drop 8), done_ := 0, erased := false }
      hstFlush (chunkStep ((d.setF (.fl .flclaim) FLCLAIM.OWNER 5).hstU fun x => { x with chunk := some k }))

/-- S cannot serve (R403): in reset, halted, locked up or parked. -/
def sAway (d : Dev) : Bool :=
  d.core[4].run == .held || d.core[4].run == .halted || d.core[4].run == .locked || d.core[4].parked

/-- IMAGE_COMMIT (R399, R403, R437). -/
def cmdCommit (d : Dev) : Dev :=
  hstStart 0x11 d fun c d =>
    let bank := (wordAt c.payload 0).toNat
    if c.payload.length ≠ 4 ∨ 1 < bank then hstDone c stBadParam [] d
    else if sAway d then hstDone c stNotReady [] d
    else if d.hst.commit.isSome || d.sec.ver.isSome then hstDone c stBusy [] d
    else hstFlush (verStart (bank == 1) .command (d.hstU fun x => { x with commit := some c.hdr }))

/-- TK_STAGE (R399, R403, R428): the reply follows the nonce computation. -/
def cmdTkStage (d : Dev) : Dev :=
  hstStart 0x18 d fun c d =>
    let a := (wordAt c.payload 0).toNat
    if c.payload.length ≠ 8 ∨ a % 4 ≠ 0 then hstDone c stBadParam [] d
    else if sAway d then hstDone c stNotReady [] d
    else
      match tkStage 5 a (wordAt c.payload 4) d with
      | (.taken, d1) => hstDone c stOk (bytesLE 2 (crc16 (tkNonceBytes d1))) (tkNonceReady d1)
      | (.busy, d1) => hstDone c stTkPending [] d1
      | (.refused, d1) => hstDone c stTkRefused [] d1

/-- The hardware opcodes of R399. -/
def hwOpcodes : List Nat := [0x01, 0x02, 0x03, 0x04, 0x05, 0x08, 0x09, 0x0A, 0x0B, 0x10, 0x11, 0x18]

/-- BAD_OPCODE (R394, R399). -/
def cmdBadOpcode (d : Dev) : Dev :=
  match hstFront d (fun o => o == 0xFF || (decide (o < 0x80) && !hwOpcodes.contains o)) with
  | none => d
  | some c => hstDone c stBadOpcode [] (hstPop c d)

/-- A packet copied into FWCMDBUF; bytes beyond it keep what they hold. -/
def fwCopy (b : List Byte) (d : Dev) : Dev :=
  d.each ((fins 512).filter fun k => 4 * k.val < b.length) fun k d =>
    let old := bytesLE 4 (d.get (.hif (.fwcmdbuf k))).toNat
    let new := (b.drop (4 * k.val)).take 4
    d.put (.hif (.fwcmdbuf k)) (wordAt (new ++ old.drop new.length) 0)

/-- FIRMWARE_OPCODE (R404). -/
def cmdFirmware (d : Dev) : Dev :=
  match hstFront d (fun o => decide (0x80 ≤ o ∧ o ≤ 0xFE)) with
  | none => d
  | some c =>
    let d1 := hstPop c d
    if !d1.b (.hif .hifcfg) HIFCFG.FWEN then hstDone c stNoFirmware [] d1
    else if d1.b (.hif .fwstat) FWSTAT.PEND then hstDone c stBusy [] d1
    else
      let d2 := (fwCopy c.raw d1).flag (.hif .fwstat) FWSTAT.PEND
      hstFlush (d2.hstU fun x => { x with fw := some (c.hdr, d2.now), fwLate := false })

/-- RECOVERY_RESET (R403): the software device reset that follows the reply to an IMAGE_COMMIT in recovery. -/
def recoveryReset (d : Dev) : Dev :=
  match d.hst.recAt with
  | some (t, _, _) => deviceReset .soft (d.at t)
  | none => d

/-! ### PCIe requests -/

/-- Physical addresses of the words of an inbound request (R406). -/
def inAddrs (q : Inbound) : List Nat :=
  (List.range q.be.length).map fun k => (if q.bar2 then 0 else 0x40000000) + q.addr / 4 * 4 + 4 * k

/-- An inbound read (R407). -/
def inRead (q : Inbound) (d : Dev) : Dev :=
  let l := inAddrs q
  let odd := (l.zip q.be).any fun p => inReg p.1 && p.2 != 0xF
  let hole := l.any fun a => regionOf a == .unmapped || regionOf a == .window
  if odd || hole then
    let d1 := if odd then hstFlag HSTAT.ALIGN d else d
    (if hole then hstFlag HSTAT.UNMAP d1 else d1).send (.completion [] false false)
  else
    match l.find? (hostWaits d) with
    | some a => hostAsk a d
    | none =>
      if hostFull d then d else
      let ((ws, bad), d1) := hostWords reqHost l (d.tagTake 69 1)
      (d1.tagBack 69 1).send (.completion ws true bad)

/-- An inbound write (R407). -/
def inWrite (q : Inbound) (d : Dev) : Dev :=
  let l := inAddrs q
  if hostFull d || l.any (hostWriteWaits d) then d else hostIssue (l.zip (q.be.zip q.data)) d

/-- A request from the host wakes a link in a low-power state, and goes on (R38).  DEDUCED (log entry 173): a link that has been in
L0 since reset and is neither held in reset nor turned off is in a low-power state when it is out of L0. -/
def pcieWake (d : Dev) : Dev :=
  if d.l0 || d.hst.perst || !d.b (.hif .hifcfg) HIFCFG.PCIEEN || !d.b (.hif .pciestat) PCIESTAT.SEEN then d
  else ((d.flag (.hif .pciestat) PCIESTAT.L0).flag (.sys (.ready 0)) READY0.PCIE).lineOff 467

/-- PCIE_INBOUND_REQUEST (R407): a request outside its BAR does not reach the endpoint, nor does one to a link that is down. -/
def pcieInbound (q : Inbound) (d0 : Dev) : Dev :=
  let d := pcieWake d0
  let size := if q.bar2 then d.hst.cfg.bar2 else d.hst.cfg.bar0
  if !d.l0 || decide (size < q.addr / 4 * 4 + 4 * q.be.length) then d
  else if q.write then inWrite q d else inRead q d

/-- The oldest outbound read of core c leaves the list (R408). -/
def obTake (d : Dev) (c : Fin 5) : Option (OutRead × Dev) :=
  (d.hst.reads.find? fun x => x.core == c).map fun x =>
    (x, (d.hstU fun h => { h with reads := h.reads.erase x }).tagBack (coreHolder c) 1)

/-- OUTBOUND_COMPLETION (R408). -/
def obComplete (c : Fin 5) (v : Word) (ok poison : Bool) (d : Dev) : Dev :=
  match obTake d c with
  | none => d
  | some (x, d1) =>
    let d2 := if !ok then obFail d1 else if poison then (hstFlag HSTAT.OBPOIS d1).pulse 468 else d1
    if x.dead then d2 else giveBack (.core c) x.addr (if ok then v else 0xFFFFFFFF) d2

/-- OUTBOUND_READ_TIMEOUT (R408): 50 µs after its issue. -/
def obTimeout (c : Fin 5) (d : Dev) : Dev :=
  match obTake d c with
  | none => d
  | some (x, d1) =>
    let d2 := obFail (d1.at (x.at_ + 50 * tuUs))
    if x.dead then d2 else giveBack (.core c) x.addr 0xFFFFFFFF d2

/-- The endpoint in reset (R460): its MSI-X table, its pending bits, and the speed and width of its link are at their reset values. -/
def pcieClear (d : Dev) : Dev :=
  let d1 := d.each (fins 32) fun k d => d.put (.hif (.msixtab k)) (Reg.reset (.hif (.msixtab k)))
  ((d1.put (.hif .msixpba) (Reg.reset (.hif .msixpba))).setF (.hif .pciestat) PCIESTAT.SPEED 0).setF (.hif .pciestat) PCIESTAT.WIDTH 0

/-- PCIE_RESET (R460): the level of PERST_N.  Lines on their way to the host are lost with the link (R420). -/
def pcieReset (low : Bool) (d : Dev) : Dev :=
  let d1 := d.hstU fun x => { x with perst := low }
  if low then pcieClear ((pcieDown d1).each (fins 16) capLinkLost) else hstFlush d1

end Sys2Proof.Machine
end

