-- ==== Sys2Proof/Machine/AdcRows.lean ====
section
/-!
DEFINITION. The commands of the converters (R95-R121).
-/
namespace Sys2Proof.Machine
open Sys2Proof

/-- ADC_ENABLE (R101): `v` gives the other fields of the write. -/
def execAdcEnable (by_ : Requester) (n : Fin 32) (v : Word) (s : State) : Outc :=
  act (writeBy by_ (.adc n .ctl) (ADC_CTL.EN.put 1 v)) s

/-- ADC_DISABLE (R103): `v` gives the other fields of the write. -/
def execAdcDisable (by_ : Requester) (n : Fin 32) (v : Word) (s : State) : Outc :=
  act (writeBy by_ (.adc n .ctl) (ADC_CTL.EN.put 0 v)) s

/-- ADCGSTART (R102). -/
def execAdcgstart (by_ : Requester) (v : Word) (s : State) : Outc :=
  act (writeBy by_ (.adcg .adcgstart) v) s

/-- ADCGSTOP (R103). -/
def execAdcgstop (by_ : Requester) (v : Word) (s : State) : Outc :=
  act (writeBy by_ (.adcg .adcgstop) v) s

/-- ADC_START_TASK (R101). -/
def execAdcStartTask (ch : Fin 256) (s : State) : Outc :=
  act (fabTask .adcStart ch (adcTaskStart ch.val)) s

/-- ADC_HOLD (R100): `raw` is the code the core converts, before correction. -/
def execAdcHold (n : Fin 32) (raw : Int) (s : State) : Outc := act (adcHold n raw) s

/-- ADC_RESULT_READY (R110). -/
def execAdcResultReady (n : Fin 32) (s : State) : Outc := act (adcReady n) s

/-- ADC_TRIGGER_TASK (R105). -/
def execAdcTriggerTask (ch : Fin 256) (s : State) : Outc :=
  act (fabTask .adcTrig ch (adcTaskTrigger ch.val)) s

/-- ADC_BUSY_END (R106). -/
def execAdcBusyEnd (n : Fin 32) (s : State) : Outc := act (adcBusyEnd n) s

/-- ADC_CALIBRATE_START (R116). -/
def execAdcCalibrateStart (by_ : Requester) (v : Word) (s : State) : Outc :=
  act (writeBy by_ (.adcg .adccalstart) v) s

/-- ADC_CALIBRATION_END (R117): `gain` and `offset` are the measured factors; a CALIBRATE that waits for the converter is
answered (R119). -/
def execAdcCalibrationEnd (n : Fin 32) (gain : Nat) (offset : Int) (s : State) : Outc :=
  act (fun d => hstFlush (hstCalCheck (adcCalEnd n gain offset d))) s

/-- ADC_LAST_READ (R110). -/
def execAdcLastRead (by_ : Requester) (n : Fin 32) (s : State) : Outc :=
  act (readBy by_ (.adc n .last)) s

/-- ADC_RESULT_READ (R110). -/
def execAdcResultRead (by_ : Requester) (n : Fin 32) (k : Fin 16) (s : State) : Outc :=
  act (readBy by_ (.adc n (.res k))) s

end Sys2Proof.Machine
end

