-- ==== Sys2Proof/Machine/CapRows.lean ====
section
/-!
DEFINITION. The commands of the capture engine (R412-R422).
-/
namespace Sys2Proof.Machine
open Sys2Proof

/-- CAPTURE_ENABLE (R417): `v` gives the other fields of the write. -/
def execCaptureEnable (by_ : Requester) (r : Fin 16) (v : Word) (s : State) : Outc :=
  act (writeBy by_ (.capr r .ctl) (CAPR_CTL.EN.put 1 v)) s

/-- CAPTURE_DISABLE (R421). -/
def execCaptureDisable (by_ : Requester) (r : Fin 16) (v : Word) (s : State) : Outc :=
  act (writeBy by_ (.capr r .ctl) (CAPR_CTL.EN.put 0 v)) s

/-- CAPTURE_FLUSH (R413). -/
def execCaptureFlush (r : Fin 16) (s : State) : Outc := act (capFlush r) s

/-- CAPTURE_START_TASK (R421). -/
def execCaptureStartTask (ch : Fin 256) (s : State) : Outc :=
  act (fabTask .capStart ch (capTaskStart ch.val)) s

/-- CAPTURE_STOP_TASK (R421). -/
def execCaptureStopTask (ch : Fin 256) (s : State) : Outc :=
  act (fabTask .capStop ch (capTaskStop ch.val)) s

/-- CAPTURE_SNAPSHOT_TASK (R421). -/
def execCaptureSnapshotTask (ch : Fin 256) (s : State) : Outc :=
  act (fabTask .capSnap ch (capTaskSnap ch.val)) s

end Sys2Proof.Machine
end

