-- ==== Sys2Proof/Machine/CmpRows.lean ====
section
/-!
DEFINITION. The commands of the comparators (R155-R165).
-/
namespace Sys2Proof.Machine
open Sys2Proof

/-- CMP_RAW_CHANGE (R155): the inputs CMPnP and CMPnN, a pair in units of 0.1 mV, that the raw output follows at instant `t`. -/
def execCmpRawChange (n : Fin 64) (v : Int × Int) (t : Nat) (s : State) : Outc :=
  actBoard (fun d => cmpInput n v.1 v.2 (d.at t)) s

/-- The oldest filter run of comparator n completes: F changes on its ready tick (R157). -/
def cmpRunDone (n : Fin 64) (d : Dev) : Dev :=
  match d.cmp[n].runs with
  | [] => d
  | r :: t =>
    let ready := runReady d n r.at_
    cmpFset n r ready ((d.at ready).cmpU n fun c => { c with runs := t })

/-- CMP_FILTER_CHANGE (R157). -/
def execCmpFilterChange (n : Fin 64) (s : State) : Outc := act (cmpRunDone n) s

/-- A blanking window of comparator n ends, on the trip path or on the digital path (R156, R158, R238). -/
def cmpWinEnd (n : Fin 64) (trip : Bool) (d : Dev) : Dev :=
  if trip then
    match d.cmp[n].twin with
    | some w =>
      let d1 := d.at (tripEnd d w)
      tripTrack n (d1.cmpU n fun c => { c with twin := if w.till ≤ d1.now then none else some w })
    | none => d
  else
    match d.cmp[n].win with
    | some e => cmpWinClose n e (d.at e)
    | none => d

/-- BLANK_WINDOW_CLOSE (R158). -/
def execBlankWindowClose (n : Fin 64) (trip : Bool) (s : State) : Outc := act (cmpWinEnd n trip) s

/-- CMP_ENABLE (R163): `v` gives the other fields of the write. -/
def execCmpEnable (by_ : Requester) (n : Fin 64) (v : Word) (s : State) : Outc :=
  act (writeBy by_ (.cmp n .ctl) (CMP_CTL.EN.put 1 v)) s

/-- CMP_CAP_READ (R162). -/
def execCmpCapRead (by_ : Requester) (n : Fin 64) (s : State) : Outc :=
  act (readBy by_ (.cmp n .cap)) s

end Sys2Proof.Machine
end

