-- ==== Sys2Proof/Machine/CoreAlu.lean ====
section
/-!
DEFINITION. The integer instructions: arithmetic, logic, bits and shifts (R263-R267, R270, R279).
-/
namespace Sys2Proof.Machine
open Sys2Proof

/-- Bytes after the prefixes of an arithmetic instruction (R263). -/
def aluLen (w : Width) : AluB → Nat
  | .reg _ => 2
  | .imm _ => 2 + w.bytes
  | .mem8 _ _ => 3
  | .mem16 _ _ => 4

/-- The form has a memory operand. -/
def aluMem : AluB → Bool
  | .reg _ => false
  | .imm _ => false
  | .mem8 _ _ => true
  | .mem16 _ _ => true

/-- The operand y of R263. -/
def aluY (c : Fin 5) (p : Pre) (b : AluB) (d : Dev) : Acc Word :=
  let mem (r : Fin 16) (disp : Int) : Acc Word :=
    match load c (dataSeg p r) (reqLoad c) false (dispOff (d.w c r) disp) p.width.bytes d with
    | .ok v d1 => .ok (w32 v) d1
    | .exc k o s e d1 => .exc k o s e d1
    | .stall d1 => .stall d1
  match b with
  | .reg r => .ok (d.w c r) d
  | .imm v => .ok v d
  | .mem8 r disp => mem r disp.toInt
  | .mem16 r disp => mem r disp.toInt

/-- Write the result to A and the flags. -/
def aluPut (c : Fin 5) (a : Fin 16) (o : AluOut) (d : Dev) : Dev := (d.setW c a o.res).setPsw c (o.psw d.core[c].psw)

/-- Set the flags alone. -/
def aluFlags (c : Fin 5) (o : AluOut) (d : Dev) : Dev := d.setPsw c (o.psw d.core[c].psw)

/-- An instruction of R263: `f` computes from x and y, `fin` ends it. -/
def aluRun (c : Fin 5) (p : Pre) (a : Fin 16) (b : AluB) (u : WidthUse) (f : Word → Word → AluOut)
    (fin : AluOut → Dev → CoreRes) : Dev → Dev :=
  coreRun c (legalPre c p (aluMem b) u) (p.len + aluLen p.width b) fun d =>
    (aluY c p b d).then fun y d1 => fin (f (d1.w c a) y) d1

/-- The ends of R263: A and the flags, the flags alone, the checked end of R270. -/
def finPut (c : Fin 5) (a : Fin 16) (o : AluOut) (d : Dev) : CoreRes := .ok (aluPut c a o d)
def finFlags (c : Fin 5) (o : AluOut) (d : Dev) : CoreRes := .ok (aluFlags c o d)
def finChecked (c : Fin 5) (a : Fin 16) (o : AluOut) (d : Dev) : CoreRes :=
  if o.v = some true then
    if PSW.OVE.bit d.core[c].psw then .exc 11 0 0 0 d
    else
      let d1 := aluPut c a o d
      .ok (d1.setPsw c (PSW.OVS.put 1 d1.core[c].psw))
  else .ok (aluPut c a o d)

/-- An instruction that takes registers alone, with `ext` bytes after its opcode and operand form, and `opc` opcode bytes. -/
def regRun (c : Fin 5) (p : Pre) (ok : Bool) (u : WidthUse) (len : Nat) (body : Dev → Dev) : Dev → Dev :=
  coreRun c (legalPre c p false u && ok) (p.len + len) fun d => .ok (body d)

/-- An instruction of one byte with neither a result nor an access (R262). -/
def plainRun (c : Fin 5) (p : Pre) (body : Dev → Dev) : Dev → Dev :=
  coreRunPlain c (legalPre c p false .no) (p.len + 1) fun d => .ok (body d)

/-- ADD (R263). -/
def execAdd (c : Fin 5) (p : Pre) (a : Fin 16) (b : AluB) (s : State) : Outc :=
  act (aluRun c p a b .yes (fun x y => addOut p.width x y false) (finPut c a)) s

/-- SUB (R263). -/
def execSub (c : Fin 5) (p : Pre) (a : Fin 16) (b : AluB) (s : State) : Outc :=
  act (aluRun c p a b .yes (fun x y => subOut p.width x y false) (finPut c a)) s

/-- AND (R263). -/
def execAnd (c : Fin 5) (p : Pre) (a : Fin 16) (b : AluB) (s : State) : Outc :=
  act (aluRun c p a b .yes (andOut p.width) (finPut c a)) s

/-- OR (R263). -/
def execOr (c : Fin 5) (p : Pre) (a : Fin 16) (b : AluB) (s : State) : Outc :=
  act (aluRun c p a b .yes (orOut p.width) (finPut c a)) s

/-- XOR (R263). -/
def execXor (c : Fin 5) (p : Pre) (a : Fin 16) (b : AluB) (s : State) : Outc :=
  act (aluRun c p a b .yes (xorOut p.width) (finPut c a)) s

/-- CMP (R263). -/
def execCmp (c : Fin 5) (p : Pre) (a : Fin 16) (b : AluB) (s : State) : Outc :=
  act (aluRun c p a b .yes (fun x y => subOut p.width x y false) (finFlags c)) s

/-- MOV (R263). -/
def execMov (c : Fin 5) (p : Pre) (a : Fin 16) (b : AluB) (s : State) : Outc :=
  act (aluRun c p a b .yes (fun _ y => movOut p.width y) (finPut c a)) s

/-- TST (R263). -/
def execTst (c : Fin 5) (p : Pre) (a : Fin 16) (b : AluB) (s : State) : Outc :=
  act (aluRun c p a b .yes (andOut p.width) (finFlags c)) s

/-- ADDV (R270). -/
def execAddv (c : Fin 5) (p : Pre) (a : Fin 16) (b : AluB) (s : State) : Outc :=
  act (aluRun c p a b .no (fun x y => addOut .b32 x y false) (finChecked c a)) s

/-- SUBV (R270). -/
def execSubv (c : Fin 5) (p : Pre) (a : Fin 16) (b : AluB) (s : State) : Outc :=
  act (aluRun c p a b .no (fun x y => subOut .b32 x y false) (finChecked c a)) s

/-- ADDSAT (R263). -/
def execAddsat (c : Fin 5) (p : Pre) (a : Fin 16) (b : AluB) (s : State) : Outc :=
  act (aluRun c p a b .no addSatOut (finPut c a)) s

/-- SUBSAT (R263). -/
def execSubsat (c : Fin 5) (p : Pre) (a : Fin 16) (b : AluB) (s : State) : Outc :=
  act (aluRun c p a b .no subSatOut (finPut c a)) s

/-- A shift (R266, R267). -/
def shiftRun (op : ShiftOp) (c : Fin 5) (p : Pre) (a : Fin 16) (k : ShiftBy) : Dev → Dev :=
  match k with
  | .reg b => regRun c p true .yes 2 fun d => aluPut c a (shiftOut op p.width (d.w c a) ((d.w c b).toNat % 32)) d
  | .imm n => regRun c p (decide (n.toNat < 32)) .yes 3 fun d => aluPut c a (shiftOut op p.width (d.w c a) (n.toNat % 32)) d

/-- SHL (R267). -/
def execShl (c : Fin 5) (p : Pre) (a : Fin 16) (k : ShiftBy) (s : State) : Outc :=
  act (shiftRun .shl c p a k) s

/-- SHR (R267). -/
def execShr (c : Fin 5) (p : Pre) (a : Fin 16) (k : ShiftBy) (s : State) : Outc :=
  act (shiftRun .shr c p a k) s

/-- SAR (R267). -/
def execSar (c : Fin 5) (p : Pre) (a : Fin 16) (k : ShiftBy) (s : State) : Outc :=
  act (shiftRun .sar c p a k) s

/-- ROR (R267). -/
def execRor (c : Fin 5) (p : Pre) (a : Fin 16) (k : ShiftBy) (s : State) : Outc :=
  act (shiftRun .ror c p a k) s

/-- NEG (R266). -/
def execNeg (c : Fin 5) (p : Pre) (a b : Fin 16) (s : State) : Outc :=
  act (regRun c p true .yes 2 fun d => aluPut c a (subOut p.width 0 (d.w c b) false) d) s

/-- NOT (R266). -/
def execNot (c : Fin 5) (p : Pre) (a b : Fin 16) (s : State) : Outc :=
  act (regRun c p true .yes 2 fun d => aluPut c a (notOut p.width (d.w c b)) d) s

/-- CLZ (R266). -/
def execClz (c : Fin 5) (p : Pre) (a b : Fin 16) (s : State) : Outc :=
  act (regRun c p true .no 2 fun d => aluPut c a (clzOut (d.w c b)) d) s

/-- SXT (R266). -/
def execSxt (c : Fin 5) (p : Pre) (a b : Fin 16) (s : State) : Outc :=
  act (regRun c p true .required 2 fun d => aluPut c a (sxtOut p.width (d.w c b)) d) s

/-- POS, LEN - 1 and SX of a bit field instruction. -/
def bfPos (imm : BitVec 16) : Fin 32 := Fin.ofNat 32 imm.toNat
def bfLen1 (imm : BitVec 16) : Fin 32 := Fin.ofNat 32 (imm.toNat / 32)
def bfSx (imm : BitVec 16) : Bool := imm.getLsbD 10

/-- BFX (R267). -/
def execBfx (c : Fin 5) (p : Pre) (a b : Fin 16) (imm : BitVec 16) (s : State) : Outc :=
  act (regRun c p (decide (imm.toNat < 2 ^ 11)) .no 4 fun d =>
    aluPut c a (bfxOut (bfPos imm) (bfLen1 imm) (bfSx imm) (d.w c b)) d) s

/-- BFI (R267). -/
def execBfi (c : Fin 5) (p : Pre) (a b : Fin 16) (imm : BitVec 16) (s : State) : Outc :=
  act (regRun c p (decide (imm.toNat < 2 ^ 10)) .no 4 fun d =>
    aluPut c a (bfiOut (bfPos imm) (bfLen1 imm) (d.w c a) (d.w c b)) d) s

/-- BPERM (R267). -/
def execBperm (c : Fin 5) (p : Pre) (a b : Fin 16) (imm : Byte) (s : State) : Outc :=
  act (regRun c p true .no 3 fun d => aluPut c a (bpermOut imm (d.w c b)) d) s

/-- ADC (R279). -/
def execAdc (c : Fin 5) (p : Pre) (a b : Fin 16) (s : State) : Outc :=
  act (regRun c p true .no 3 fun d => aluPut c a (addOut .b32 (d.w c a) (d.w c b) (PSW.C.bit d.core[c].psw)) d) s

/-- SBC (R279). -/
def execSbc (c : Fin 5) (p : Pre) (a b : Fin 16) (s : State) : Outc :=
  act (regRun c p true .no 3 fun d => aluPut c a (subOut .b32 (d.w c a) (d.w c b) (PSW.C.bit d.core[c].psw)) d) s

/-- PICK (R279): a condition code 0xF is illegal. -/
def execPick (c : Fin 5) (p : Pre) (a b : Fin 16) (imm : Byte) (s : State) : Outc :=
  act (regRun c p ((condOf imm.toNat).isSome) .no 4 fun d =>
    if (condOf imm.toNat).any fun k => condHolds k d.core[c].psw then d.setW c a (d.w c b) else d) s

end Sys2Proof.Machine
end

