-- ==== Sys2Proof/Machine/CoreMem.lean ====
section
/-!
DEFINITION. The loads and stores of the cores (R254-R257, R265, R274, R276, R279).
-/
namespace Sys2Proof.Machine
open Sys2Proof

/-- Bytes after the prefixes of a memory form (R265). -/
def memLen : MemForm → Nat
  | .ind _ => 2
  | .disp8 _ _ => 3
  | .disp16 _ _ => 4
  | .post _ => 2

/-- Base register of a memory form, and its displacement. -/
def memBase : MemForm → Fin 16
  | .ind b => b
  | .disp8 b _ => b
  | .disp16 b _ => b
  | .post b => b

def memDisp : MemForm → Int
  | .ind _ => 0
  | .disp8 _ k => k.toInt
  | .disp16 _ k => k.toInt
  | .post _ => 0

/-- The base register goes up by the access size, and is the destination (R265). -/
def memPost (c : Fin 5) (size : Nat) (d : Dev) : MemForm → Dev
  | .post b => d.setW c b (d.w c b + w32 size)
  | .ind _ => d
  | .disp8 _ _ => d
  | .disp16 _ _ => d

def postIs (a : Fin 16) : MemForm → Bool
  | .post b => a == b
  | .ind _ => false
  | .disp8 _ _ => false
  | .disp16 _ _ => false

/-- Offset that a memory form addresses. -/
def memOff (c : Fin 5) (m : MemForm) (d : Dev) : Nat := dispOff (d.w c (memBase m)) (memDisp m)

/-- A load of R265: `g` takes the value. -/
def loadRun (c : Fin 5) (p : Pre) (ok : Bool) (u : WidthUse) (m : MemForm) (size : Nat) (g : Nat → Dev → Dev) : Dev → Dev :=
  coreRun c (legalPre c p true u && ok) (p.len + memLen m) fun d =>
    (load c (dataSeg p (memBase m)) (reqLoad c) false (memOff c m d) size d).then fun v d1 =>
      .ok (g v (memPost c size d1 m))

/-- A store of R265 of the value that `g` reads: the base register is updated with it. -/
def storeRun (c : Fin 5) (p : Pre) (u : WidthUse) (m : MemForm) (size : Nat) (g : Dev → Word) : Dev → Dev :=
  coreRun c (legalPre c p true u) (p.len + memLen m) fun d =>
    (store c (dataSeg p (memBase m)) (memOff c m d) size (g d).toNat (memPost c size d m)).then fun _ d1 => .ok d1

/-- LD (R265). -/
def execLd (c : Fin 5) (p : Pre) (a : Fin 16) (m : MemForm) (s : State) : Outc :=
  act (loadRun c p (!postIs a m) .yes m p.width.bytes fun v d => d.setW c a (w32 v)) s

/-- ST (R265). -/
def execSt (c : Fin 5) (p : Pre) (a : Fin 16) (m : MemForm) (s : State) : Outc :=
  act (storeRun c p .yes m p.width.bytes fun d => d.w c a) s

/-- LDS (R265). -/
def execLds (c : Fin 5) (p : Pre) (a : Fin 16) (m : MemForm) (s : State) : Outc :=
  act (loadRun c p (!postIs a m) .required m p.width.bytes fun v d => d.setW c a (wInt (sextN p.width.bits v))) s

/-- XCHG (R265). -/
def execXchg (c : Fin 5) (p : Pre) (a b : Fin 16) (disp : BitVec 8) (s : State) : Outc :=
  act (coreRun c (legalPre c p true .yes) (p.len + 3) fun d =>
    let off := dispOff (d.w c b) disp.toInt
    let x := d.w c a
    (load c (dataSeg p b) (reqXchg c) true off p.width.bytes d).then fun v d1 =>
      .ok (storeParts c (dataSeg p b) off p.width.bytes x.toNat (d1.setW c a (w32 v)))) s

/-- Bytes of a displacement, and its value. -/
def dispLen : Disp → Nat
  | .short _ => 1
  | .long _ => 2
def dispInt : Disp → Int
  | .short k => k.toInt
  | .long k => k.toInt

/-- STI (R279). -/
def execSti (c : Fin 5) (p : Pre) (b : Fin 16) (disp : Disp) (v : Word) (s : State) : Outc :=
  act (coreRun c (legalPre c p true .yes) (p.len + 7 + dispLen disp) fun d =>
    (store c (dataSeg p b) (dispOff (d.w c b) (dispInt disp)) p.width.bytes v.toNat d).then fun _ d1 => .ok d1) s

/-- FLD (R276). -/
def execFld (c : Fin 5) (p : Pre) (a : Fin 8) (m : MemForm) (s : State) : Outc :=
  act (loadRun c p true .no m 4 fun v d => d.setFr c a (w32 v)) s

/-- FST (R276). -/
def execFst (c : Fin 5) (p : Pre) (a : Fin 8) (m : MemForm) (s : State) : Outc :=
  act (storeRun c p .no m 4 fun d => d.fr c a) s

/-- Push a word on the stack of R255: W15 goes down by 4 and the word is stored there. -/
def push (c : Fin 5) (v : Word) (d : Dev) : Acc Unit :=
  let sp := d.w c 15 - 4
  store c .ss (sp.toNat % 65536) 4 v.toNat (d.setW c 15 sp)

/-- Pop a word: it is loaded and W15 goes up by 4. -/
def pop (c : Fin 5) (d : Dev) : Acc Word :=
  let sp := d.w c 15
  match load c .ss (reqLoad c) false (sp.toNat % 65536) 4 d with
  | .ok v d1 => .ok (w32 v) (d1.setW c 15 (sp + 4))
  | .exc k o s e d1 => .exc k o s e d1
  | .stall d1 => .stall d1

/-- PUSH (R274). -/
def execPush (c : Fin 5) (p : Pre) (a : Fin 16) (s : State) : Outc :=
  act (coreRun c (legalPre c p false .no) (p.len + 2) fun d => (push c (d.w c a) d).then fun _ d1 => .ok d1) s

/-- POP (R274). -/
def execPop (c : Fin 5) (p : Pre) (a : Fin 16) (s : State) : Outc :=
  act (coreRun c (legalPre c p false .no) (p.len + 2) fun d => (pop c d).then fun v d1 => .ok (d1.setW c a v)) s

end Sys2Proof.Machine
end

