-- ==== Sys2Proof/Machine/CoreCtl.lean ====
section
/-!
DEFINITION. The control transfers of the cores (R272-R274, R283).
-/
namespace Sys2Proof.Machine
open Sys2Proof

/-- A taken transfer: it empties the loop buffer (R283). -/
def jump (c : Fin 5) (target : Nat) (d : Dev) : Dev :=
  d.coreU c fun x => { x with pc := BitVec.ofNat 17 (target % 65536), buf := none }

/-- The CS offset of the following instruction, and a relative target (R273). -/
def nextOff (c : Fin 5) (d : Dev) : Nat := d.core[c].pc.toNat % 65536
def relTo (c : Fin 5) (k : Int) (d : Dev) : Nat := (((nextOff c d : Int) + k) % 65536).toNat

/-- BCC (R273). -/
def execBcc (c : Fin 5) (p : Pre) (k : Cond) (disp : Disp) (s : State) : Outc :=
  act (coreRunPlain c (legalPre c p false .no) (p.len + 2 + dispLen disp) fun d =>
    .ok (if condHolds k d.core[c].psw then jump c (relTo c (dispInt disp) d) d else d)) s

/-- JMP (R273). -/
def execJmp (c : Fin 5) (p : Pre) (disp : BitVec 16) (s : State) : Outc :=
  act (coreRunPlain c (legalPre c p false .no) (p.len + 3) fun d => .ok (jump c (relTo c disp.toInt d) d)) s

/-- JMPR (R273). -/
def execJmpr (c : Fin 5) (p : Pre) (a : Fin 16) (s : State) : Outc :=
  act (coreRunPlain c (legalPre c p false .no) (p.len + 2) fun d => .ok (jump c (d.w c a).toNat d)) s

/-- CALL (R273). -/
def execCall (c : Fin 5) (p : Pre) (disp : BitVec 16) (s : State) : Outc :=
  act (coreRun c (legalPre c p false .no) (p.len + 3) fun d =>
    (push c (w32 (nextOff c d)) d).then fun _ d1 => .ok (jump c (relTo c disp.toInt d) d1)) s

/-- CALLR (R273): the target is read before the push changes W15. -/
def execCallr (c : Fin 5) (p : Pre) (a : Fin 16) (s : State) : Outc :=
  act (coreRun c (legalPre c p false .no) (p.len + 2) fun d =>
    (push c (w32 (nextOff c d)) d).then fun _ d1 => .ok (jump c (d.w c a).toNat d1)) s

/-- RET (R273). -/
def execRet (c : Fin 5) (p : Pre) (s : State) : Outc :=
  act (coreRun c (legalPre c p false .no) (p.len + 1) fun d => (pop c d).then fun v d1 => .ok (jump c v.toNat d1)) s

/-- Load CS by the walk and go on there (JMPF, CALLF, RETF). -/
def farTo (c : Fin 5) (sel : BitVec 16) (off : Nat) (d : Dev) (g : Dev → CoreRes) : CoreRes :=
  match walk c (d.level c) true sel d with
  | (.stall, _) => .stall d
  | (.fault e, d1) => .exc 9 0 0 e d1
  | (.ok t, d1) => g (jump c off (d1.coreU c fun x => { x with seg := x.seg.set 0 t }))

/-- JMPF (R273). -/
def execJmpf (c : Fin 5) (p : Pre) (imm : Word) (s : State) : Outc :=
  act (coreRunPlain c (legalPre c p false .no) (p.len + 5) fun d =>
    farTo c (BitVec.ofNat 16 (imm.toNat / 65536)) imm.toNat d .ok) s

/-- Push the CS selector, then the offset `off` (CALLF). -/
def pushFar (c : Fin 5) (sel off : Word) (d : Dev) : Acc Unit :=
  match push c sel d with
  | .ok _ d1 => push c off d1
  | .exc k o s e d1 => .exc k o s e d1
  | .stall d1 => .stall d1

/-- CALLF (R273): the pushes are checked, the walk made, then the stores performed. -/
def execCallf (c : Fin 5) (p : Pre) (imm : Word) (s : State) : Outc :=
  act (coreRun c (legalPre c p false .no) (p.len + 5) fun d =>
    let sel := w32 (d.core[c].seg[0]).sel.toNat
    let off := w32 (nextOff c d)
    match pushFar c sel off d with
    | .exc k o t e _ => .exc k o t e d
    | .stall _ => .stall d
    | .ok _ _ =>
      farTo c (BitVec.ofNat 16 (imm.toNat / 65536)) imm.toNat d fun d1 => (pushFar c sel off d1).then fun _ d2 => .ok d2) s

/-- RETF (R273). -/
def execRetf (c : Fin 5) (p : Pre) (s : State) : Outc :=
  act (coreRun c (legalPre c p false .no) (p.len + 1) fun d =>
    (pop c d).then fun off d1 => (pop c d1).then fun sel d2 => farTo c (BitVec.ofNat 16 sel.toNat) off.toNat d2 .ok) s

/-- The `n` bytes at an offset of CS, as memory holds them now. -/
def codeBytes (c : Fin 5) (off n : Nat) (d : Dev) : List Byte :=
  match d.core[c].seg[0].desc with
  | none => []
  | some t =>
    (List.range n).map fun k =>
      let a := (t.base.toNat + off + k) % 2 ^ 32
      BitVec.ofNat 8 ((arrayRead (reqFetch c) (a / 4 * 4) d).1.data.toNat / 2 ^ (8 * (a % 4)))

/-- The loop buffer after a taken LOOP of `len` bytes (R283): the range from its target to its end, if the target lies before the LOOP and
the range is at most 64 bytes and holds at most 16 instructions, as 16 bytes always do; the buffer is emptied otherwise. -/
def loopFill (c : Fin 5) (len target : Nat) (d : Dev) : Option (Nat × Nat) :=
  let last := d.core[c].pc.toNat
  let n := last - target
  if target + len < last ∧ n ≤ 64 ∧ (n ≤ 16 ∨ countInstrs c 64 (codeBytes c target n d) ≤ 16) then some (target, last) else none

/-- LOOP (R283). -/
def execLoop (c : Fin 5) (p : Pre) (a : Fin 16) (disp : BitVec 8) (s : State) : Outc :=
  act (coreRun c (legalPre c p false .no) (p.len + 3) fun d =>
    let v := d.w c a - 1
    let d1 := d.setW c a v
    let dest := relTo c disp.toInt d
    .ok (if v = 0 then d1.coreU c fun x => { x with buf := none }
      else (jump c dest d1).coreU c fun x => { x with buf := loopFill c (p.len + 3) dest d })) s

end Sys2Proof.Machine
end

