-- ==== Sys2Proof/Machine/CoreFp.lean ====
section
/-!
DEFINITION. The floating-point instructions (R251, R276-R278).
-/
namespace Sys2Proof.Machine
open Sys2Proof

/-- The exceptions that an instruction of `len` bytes raised: sticky flags, TP, and FPXPC if TP was 0 (R278). -/
def fpRaise (len exc : Nat) (x : CoreSt) : CoreSt :=
  let trap := (exc &&& FPSR.TRAPS.get x.fpsr) != 0
  let f := FPSR.FLAGS.put (FPSR.FLAGS.get x.fpsr ||| exc) x.fpsr
  { x with fpsr := if trap then FPSR.TP.put 1 f else f,
           fpxpc := if trap && !FPSR.TP.bit x.fpsr then
             w32 (2 ^ 16 * (x.seg[0]).sel.toNat + (x.pc.toNat + 2 ^ 16 - len) % 65536) else x.fpxpc }

/-- A floating-point instruction of two bytes: its body, and the exceptions it raises. -/
def fpRun (c : Fin 5) (p : Pre) (f : Nat → Dev → FpOut) (put : Word → Dev → Dev) : Dev → Dev :=
  regRun c p true .no 2 fun d =>
    let o := f (FPSR.RM.get d.core[c].fpsr) d
    (put o.bits d).coreU c (fpRaise (p.len + 2) o.exc)

/-- FADD (R277). -/
def execFadd (c : Fin 5) (p : Pre) (a b : Fin 8) (s : State) : Outc :=
  act (fpRun c p (fun rm d => fAdd rm (d.fr c a) (d.fr c b)) fun v d => d.setFr c a v) s

/-- FSUB (R277). -/
def execFsub (c : Fin 5) (p : Pre) (a b : Fin 8) (s : State) : Outc :=
  act (fpRun c p (fun rm d => fSub rm (d.fr c a) (d.fr c b)) fun v d => d.setFr c a v) s

/-- FMUL (R277). -/
def execFmul (c : Fin 5) (p : Pre) (a b : Fin 8) (s : State) : Outc :=
  act (fpRun c p (fun rm d => fMul rm (d.fr c a) (d.fr c b)) fun v d => d.setFr c a v) s

/-- FDIV (R277). -/
def execFdiv (c : Fin 5) (p : Pre) (a b : Fin 8) (s : State) : Outc :=
  act (fpRun c p (fun rm d => fDiv rm (d.fr c a) (d.fr c b)) fun v d => d.setFr c a v) s

/-- FSQRT (R277). -/
def execFsqrt (c : Fin 5) (p : Pre) (a b : Fin 8) (s : State) : Outc :=
  act (fpRun c p (fun rm d => fSqrt rm (d.fr c b)) fun v d => d.setFr c a v) s

/-- The PSW after a comparison (R277). -/
def fcmpPsw (r : Bool × Bool × Bool × Bool) (p : Word) : Word :=
  p |> PSW.N.put (b2n r.1) |> PSW.Z.put (b2n r.2.1) |> PSW.C.put (b2n r.2.2.1) |> PSW.V.put (b2n r.2.2.2)

/-- FCMP (R277). -/
def execFcmp (c : Fin 5) (p : Pre) (a b : Fin 8) (s : State) : Outc :=
  act (regRun c p true .no 2 fun d =>
    let r := fCmp (d.fr c a) (d.fr c b)
    (d.setPsw c (fcmpPsw r.1 d.core[c].psw)).coreU c (fpRaise (p.len + 2) r.2)) s

/-- FMOV (R276). -/
def execFmov (c : Fin 5) (p : Pre) (a b : Fin 8) (s : State) : Outc :=
  act (regRun c p true .no 2 fun d => d.setFr c a (d.fr c b)) s

/-- FNEG (R276). -/
def execFneg (c : Fin 5) (p : Pre) (a b : Fin 8) (s : State) : Outc :=
  act (regRun c p true .no 2 fun d => d.setFr c a (d.fr c b ^^^ 0x80000000)) s

/-- FABS (R276). -/
def execFabs (c : Fin 5) (p : Pre) (a b : Fin 8) (s : State) : Outc :=
  act (regRun c p true .no 2 fun d => d.setFr c a (d.fr c b &&& 0x7FFFFFFF)) s

/-- CVTIF (R277). -/
def execCvtif (c : Fin 5) (p : Pre) (a : Fin 8) (b : Fin 16) (s : State) : Outc :=
  act (fpRun c p (fun rm d => fFromInt rm (d.w c b).toInt 0) fun v d => d.setFr c a v) s

/-- CVTFI (R277). -/
def execCvtfi (c : Fin 5) (p : Pre) (a : Fin 16) (b : Fin 8) (s : State) : Outc :=
  act (fpRun c p (fun _ d => fToInt 1 0 (d.fr c b)) fun v d => d.setW c a v) s

/-- CVTQF (R277). -/
def execCvtqf (c : Fin 5) (p : Pre) (a : Fin 8) (b : Fin 16) (s : State) : Outc :=
  act (fpRun c p (fun rm d => fFromInt rm (d.w c b).toInt (-30)) fun v d => d.setFr c a v) s

/-- CVTFQ (R277). -/
def execCvtfq (c : Fin 5) (p : Pre) (a : Fin 16) (b : Fin 8) (s : State) : Outc :=
  act (fpRun c p (fun rm d => fToInt rm 30 (d.fr c b)) fun v d => d.setW c a v) s

/-- FMOVWF (R276). -/
def execFmovwf (c : Fin 5) (p : Pre) (a : Fin 8) (b : Fin 16) (s : State) : Outc :=
  act (regRun c p true .no 2 fun d => d.setFr c a (d.w c b)) s

/-- FMOVFW (R276). -/
def execFmovfw (c : Fin 5) (p : Pre) (a : Fin 16) (b : Fin 8) (s : State) : Outc :=
  act (regRun c p true .no 2 fun d => d.setW c a (d.fr c b)) s

end Sys2Proof.Machine
end

