-- ==== Sys2Proof/Machine/CoreMul.lean ====
section
/-!
DEFINITION. The exposed multiplier and the divider (R268-R270).
-/
namespace Sys2Proof.Machine
open Sys2Proof

/-- MH:ML as the register holds it. -/
def mhml (x : CoreSt) : BitVec 64 := BitVec.ofNat 64 (x.mh.toNat * 2 ^ 32 + x.ml.toNat)

/-- MH:ML as a read returns it (R269): the previous product for three instructions, then open until an MWAIT or a level entry. -/
def productRead (c : Fin 5) (d : Dev) : BitVec 64 × Dev :=
  match d.core[c].win with
  | none => (mhml (drainMul d.core[c]), d)
  | some w =>
    if w.since ≤ 3 then (w.prev, d)
    else (if Config.freeBool d.free then w.prev else w.new, d.bumpFree)

/-- A multiplier instruction starts: the earlier product is written, this one is on its way (R269). -/
def mulStart (c : Fin 5) (f : BitVec 64 → BitVec 64) (d : Dev) : Dev :=
  d.coreU c fun x =>
    let y := drainMul x
    { y with prod := some (f (mhml y)), win := some { prev := mhml y, new := f (mhml y), since := 0 } }

/-- MUL (R268). -/
def execMul (c : Fin 5) (p : Pre) (a b : Fin 16) (s : State) : Outc :=
  act (regRun c p true .no 2 fun d => mulStart c (fun _ => product true (d.w c a) (d.w c b)) d) s

/-- MULU (R268). -/
def execMulu (c : Fin 5) (p : Pre) (a b : Fin 16) (s : State) : Outc :=
  act (regRun c p true .no 2 fun d => mulStart c (fun _ => product false (d.w c a) (d.w c b)) d) s

/-- MAC (R268). -/
def execMac (c : Fin 5) (p : Pre) (a b : Fin 16) (s : State) : Outc :=
  act (regRun c p true .no 2 fun d => mulStart c (fun m => m + product true (d.w c a) (d.w c b)) d) s

/-- MACU (R268). -/
def execMacu (c : Fin 5) (p : Pre) (a b : Fin 16) (s : State) : Outc :=
  act (regRun c p true .no 2 fun d => mulStart c (fun m => m + product false (d.w c a) (d.w c b)) d) s

/-- PRODUCT_WRITE (R269). -/
def execProductWrite (c : Fin 5) (s : State) : Outc := act (fun d => d.coreU c drainMul) s

/-- QRD (R268). -/
def execQrd (c : Fin 5) (p : Pre) (a : Fin 16) (s : State) : Outc :=
  act (regRun c p true .no 2 fun d => aluPut c a (qrdOut (productRead c d).1) (productRead c d).2) s

/-- MWAIT (R268). -/
def execMwait (c : Fin 5) (p : Pre) (s : State) : Outc :=
  act (plainRun c p fun d => d.coreU c fun x => { drainMul x with win := none }) s

/-- A divide by zero with DZE = 0 (R270). -/
def divZero (signed : Bool) (x : Word) : Word × Word :=
  (if !signed then 0xFFFFFFFF else if x.msb then 0x80000000 else 0x7FFFFFFF, x)

/-- A divide issues (R270): it waits for an earlier one; its results are on their way to DQ and DM. -/
def divRun (signed : Bool) (c : Fin 5) (p : Pre) (a b : Fin 16) : Dev → Dev :=
  coreRun c (legalPre c p false .no) (p.len + 2) fun d0 =>
    let d := d0.coreU c drainDiv
    let x := d.w c a
    let y := d.w c b
    let psw := d.core[c].psw
    if y = 0 then
      if PSW.DZE.bit psw then .exc 10 0 0 0 d
      else .ok ((d.coreU c fun k => { k with divn := some (divZero signed x) }).setPsw c (PSW.DZ.put 1 psw))
    else if signed ∧ x = 0x80000000 ∧ y = 0xFFFFFFFF then
      if PSW.OVE.bit psw then .exc 11 0 0 0 d
      else .ok ((d.coreU c fun k => { k with divn := some (0x80000000, 0) }).setPsw c (PSW.OVS.put 1 psw))
    else .ok (d.coreU c fun k => { k with divn := some (quotRem signed x y) })

/-- DIV (R270). -/
def execDiv (c : Fin 5) (p : Pre) (a b : Fin 16) (s : State) : Outc := act (divRun true c p a b) s

/-- DIVU (R270). -/
def execDivu (c : Fin 5) (p : Pre) (a b : Fin 16) (s : State) : Outc := act (divRun false c p a b) s

/-- DIVIDE_COMPLETE (R270). -/
def execDivideComplete (c : Fin 5) (s : State) : Outc := act (fun d => d.coreU c drainDiv) s

end Sys2Proof.Machine
end

