-- ==== Sys2Proof/Machine/CoreSys.lean ====
section
/-!
DEFINITION. Special registers, segment registers and the system instructions (R252, R257, R271, R275, R278, R290, R293).
-/
namespace Sys2Proof.Machine
open Sys2Proof

/-- The special registers (R252). -/
inductive Spr where
  | psw
  | mh
  | ml
  | dq
  | dm
  | fpsr
  | fpxpc
  | dtbase
  | coreid
  | savepc (l : Fin 8)
  | savepsw (l : Fin 8)
  | saveseg (l : Fin 8)
  deriving DecidableEq, Repr

/-- The register of a special number. -/
def sprOf (n : Nat) : Option Spr :=
  if n < 9 then [Spr.psw, .mh, .ml, .dq, .dm, .fpsr, .fpxpc, .dtbase, .coreid][n]?
  else if n < 0x10 then none
  else if n < 0x18 then some (.savepc (Fin.ofNat 8 n))
  else if n < 0x20 then some (.savepsw (Fin.ofNat 8 n))
  else if n < 0x28 then some (.saveseg (Fin.ofNat 8 n))
  else none

/-- SPRD of a register: its value, and the state after the reads that wait (R252, R269). -/
def sprRead (c : Fin 5) (r : Spr) (d : Dev) : Word × Dev :=
  let x := d.core[c]
  match r with
  | .psw => (x.psw, d)
  | .mh => (w32 ((productRead c d).1.toNat / 2 ^ 32), (productRead c d).2)
  | .ml => (w32 (productRead c d).1.toNat, (productRead c d).2)
  | .dq => ((drainDiv x).dq, d.coreU c drainDiv)
  | .dm => ((drainDiv x).dm, d.coreU c drainDiv)
  | .fpsr => (x.fpsr, d)
  | .fpxpc => (x.fpxpc, d)
  | .dtbase => (d.get (.sys (.dtbase c)), d)
  | .coreid => (w32 c.val, d)
  | .savepc l => (x.savepc[l], d)
  | .savepsw l => (x.savepsw[l], d)
  | .saveseg l => (x.saveseg[l], d)

/-- SPWR of a register: LEVEL, TP, the reserved bits and the read-only registers stay (R250-R252).
DEDUCED (log entry 85): a write of MH or ML ends the product window. -/
def sprWrite (r : Spr) (v : Word) (x : CoreSt) : CoreSt :=
  match r with
  | .psw => { x with psw := (v &&& 0xFF0) ||| (x.psw &&& 0xF) }
  | .mh => { drainMul x with mh := v, win := none }
  | .ml => { drainMul x with ml := v, win := none }
  | .dq => { drainDiv x with dq := v }
  | .dm => { drainDiv x with dm := v }
  | .fpsr => { x with fpsr := (v &&& 0x31F1F) ||| (x.fpsr &&& 0x80000000) }
  | .fpxpc => x
  | .dtbase => x
  | .coreid => x
  | .savepc l => { x with savepc := x.savepc.set l v }
  | .savepsw l => { x with savepsw := x.savepsw.set l v }
  | .saveseg l => { x with saveseg := x.saveseg.set l v }

/-- SPRD (R252). -/
def execSprd (c : Fin 5) (p : Pre) (a : Fin 16) (num : Byte) (s : State) : Outc :=
  act (regRun c p (sprOf num.toNat).isSome .no 3 fun d =>
    match sprOf num.toNat with
    | none => d
    | some r => (sprRead c r d).2.setW c a (sprRead c r d).1) s

/-- SPWR (R252). -/
def execSpwr (c : Fin 5) (p : Pre) (a : Fin 16) (num : Byte) (s : State) : Outc :=
  act (regRun c p (sprOf num.toNat).isSome .no 3 fun d =>
    match sprOf num.toNat with
    | none => d
    | some r => d.coreU c (sprWrite r (d.w c a))) s

/-- MOVSG (R305): naming CS is illegal; a walk that faults leaves the segment register unchanged. -/
def execMovsg (c : Fin 5) (p : Pre) (a : Fin 16) (sg : Seg) (s : State) : Outc :=
  act (coreRun c (legalPre c p false .no && sg != .cs) (p.len + 2) fun d =>
    match walk c (d.level c) false (BitVec.ofNat 16 (d.w c a).toNat) d with
    | (.stall, _) => .stall d
    | (.fault e, d1) => .exc 9 0 (segCode sg).val e d1
    | (.ok t, d1) => .ok (d1.coreU c fun x => { x with seg := x.seg.set (segCode sg) t })) s

/-- MOVGS (R271). -/
def execMovgs (c : Fin 5) (p : Pre) (a : Fin 16) (sg : Seg) (s : State) : Outc :=
  act (regRun c p true .no 2 fun d => d.setW c a (w32 (d.core[c].seg[segCode sg]).sel.toNat)) s

/-- NOP (R275). -/
def execNop (c : Fin 5) (p : Pre) (s : State) : Outc := act (plainRun c p fun d => d) s

/-- WAIT (R293). -/
def execWait (c : Fin 5) (p : Pre) (s : State) : Outc :=
  act (plainRun c p fun d => (d.coreU c fun x => { x with run := .waiting }).tgtU c fun t => { t with woke := false }) s

/-- RETL (R290): at the base level it is illegal. -/
def execRetl (c : Fin 5) (p : Pre) (s : State) : Outc :=
  act (coreRunPlain c (legalPre c p false .no) (p.len + 1) fun d =>
    if h : d.level c < 8 then
      match retlWalk c ⟨d.level c, h⟩ d with
      | (.stall, _) => .stall d
      | (.fault e, d1) => .exc 9 0 0 e d1
      | (.ok t, d1) => .ok (retlDone c ⟨d.level c, h⟩ t d1)
    else .exc 8 0 0 0 d) s

/-- TRAP (R287). -/
def execTrap (c : Fin 5) (p : Pre) (imm : Byte) (s : State) : Outc :=
  act (coreRunPlain c (legalPre c p false .no) (p.len + 2) fun d => .exc 13 0 0 imm.toNat d) s

/-- An earlier access of core c is still outstanding. -/
def outstanding (d : Dev) (c : Fin 5) : Bool := storesWait d c || d.sys.waits.any fun w => w.by_ == Requester.core c

/-- SYNC (R257). -/
def execSync (c : Fin 5) (p : Pre) (s : State) : Outc :=
  act (coreRunPlain c (legalPre c p false .no) (p.len + 1) fun d =>
    if outstanding d c then .stall d else .ok (d.coreU c fun x => { x with buf := none })) s

/-- FBAR (R278): every earlier instruction has completed here; a waiting exception is due at the boundary after it. -/
def execFbar (c : Fin 5) (p : Pre) (s : State) : Outc :=
  act (plainRun c p fun d => d.coreU c fun x => { x with fpDue := x.fpDue || FPSR.TP.bit x.fpsr }) s

/-- Core c reaches a boundary at which an event can be taken: it runs or waits, every issued load has returned (R285), and no halt is
due (R286, R293). -/
def atBoundary (d : Dev) (c : Fin 5) : Bool :=
  (d.core[c].run == .run || d.core[c].run == .waiting) && !d.core[c].haltRq && !d.core[c].parked && d.core[c].ldWait.isEmpty &&
    !(c == 4 && d.sec.entry.isSome)

/-- ILLEGAL_INSTRUCTION (R261): as one byte: an unassigned opcode. -/
def execIllegalInstruction (c : Fin 5) (s : State) : Outc := act (coreRunPlain c false 1 fun d => .ok d) s

/-- INTERRUPT_ENTRY (R288): the source becomes active and its entry is pushed; a core without a free tag waits for the
walk's. -/
def execInterruptEntry (c : Fin 5) (s : State) : Outc :=
  act (fun d =>
    if !atBoundary d c || d.core[c].fpDue || (vecSel d c != 0 && tagsFull d (coreHolder c)) then d
    else
      match icRequest d c with
      | none => d
      | some (src, l) =>
        match enterLevel c l l d.core[c].pc.toNat 0 0 0 (icAccept c src l d) with
        | .stall => d
        | .locked d1 => d1
        | .entered d1 => if vecSel d c ≠ 0 then d1 else (romInterrupt c l d1).getD d) s

/-- FP_EXCEPTION_ENTRY (R292): at level 0 it is a double fault at the location in FPXPC. -/
def execFpExceptionEntry (c : Fin 5) (s : State) : Outc :=
  act (fun d =>
    let x := d.core[c]
    let detail := FPSR.FLAGS.get x.fpsr &&& FPSR.TRAPS.get x.fpsr
    if !atBoundary d c || !FPSR.TP.bit x.fpsr || (vecSel d c != 0 && tagsFull d (coreHolder c)) then d
    else if d.level c = 0 then lockup c 12 0 detail 0 (BitVec.ofNat 16 (x.fpxpc.toNat / 65536)) x.fpxpc.toNat d
    else
      match enterLevel c 12 0 x.pc.toNat 0 0 detail (d.coreU c fun y => { y with fpsr := FPSR.TP.put 0 y.fpsr, fpDue := false }) with
      | .stall => d
      | .locked d1 => d1
      | .entered d1 => if vecSel d c ≠ 0 then d1 else park c d1.core[c].saveseg[0] d1.core[c].savepc[0] d1) s

/-- CORE_HALT (R294): not before every issued load has returned and every issued store is complete (R285). -/
def execCoreHalt (c : Fin 5) (s : State) : Outc :=
  act (fun d =>
    let x := d.core[c]
    if x.haltRq && (x.run == .run || x.run == .waiting) && x.ldWait.isEmpty && !storesWait d c then
      d.coreU c fun y => { drain y with run := .halted, haltRq := false, buf := none }
    else d) s

/-- VECSEL_WRITE (R299). -/
def execVecselWrite (by_ : Requester) (c : Fin 5) (v : Word) (s : State) : Outc :=
  act (writeBy by_ (.core c .vecsel) v) s

end Sys2Proof.Machine
end

