-- ==== Sys2Proof/Machine/FabricRows.lean ====
section
/-!
DEFINITION. The commands of the event fabric and the interrupt controller (R185-R219).
-/
namespace Sys2Proof.Machine
open Sys2Proof

/-- PRODUCER_EVENT (R188): an event that some block has raised. -/
def execProducerEvent (p : Fin 512) (s : State) : Outc := act (fabEvent p) s

/-- HOLDOFF_END (R190). -/
def execHoldoffEnd (ch : Fin 256) (s : State) : Outc := act (fabHoldoffEnd ch) s

/-- SWTRIG (R187). -/
def execSwtrig (by_ : Requester) (v : Word) (s : State) : Outc := act (writeBy by_ (.ev .swtrig) v) s

/-- The register of a channel that a write names. -/
def chanReg : ChanPart → ChReg
  | .en k => .en k
  | .ctl => .ctl
  | .own => .own

/-- CHANNEL_WRITE (R196). -/
def execChannelWrite (by_ : Requester) (ch : Fin 256) (part : ChanPart) (v : Word) (s : State) : Outc :=
  act (writeBy by_ (.ch ch (chanReg part)) v) s

/-- QUEUE_RECORD (R206). -/
def execQueueRecord (c : Fin 5) (s : State) : Outc := act (icRecord c) s

/-- ICEOI (R203). -/
def execIceoi (by_ : Requester) (c : Fin 5) (v : Word) (s : State) : Outc :=
  act (writeBy by_ (.icc c .iceoi) v) s

/-- ICQDONE (R210). -/
def execIcqdone (by_ : Requester) (c : Fin 5) (v : Word) (s : State) : Outc :=
  act (writeBy by_ (.icc c .icqdone) v) s

/-- ICQRD_WRITE (R206). -/
def execIcqrdWrite (by_ : Requester) (c : Fin 5) (v : Word) (s : State) : Outc :=
  act (writeBy by_ (.icc c .icqrd) v) s

/-- IC_TARGET_ENABLE (R205): `v` gives the other fields of the write. -/
def execIcTargetEnable (by_ : Requester) (c : Fin 5) (v : Word) (s : State) : Outc :=
  act (writeBy by_ (.icc c .iccfg) (ICCFG.EN.put 1 v)) s

/-- ICENSET (R200). -/
def execIcenset (by_ : Requester) (k : Fin 12) (v : Word) (s : State) : Outc :=
  act (writeBy by_ (.ic (.icenset k)) v) s

/-- ICENCLR (R200). -/
def execIcenclr (by_ : Requester) (k : Fin 12) (v : Word) (s : State) : Outc :=
  act (writeBy by_ (.ic (.icenclr k)) v) s

/-- ISWSET (R198). -/
def execIswset (by_ : Requester) (v : Word) (s : State) : Outc := act (writeBy by_ (.ic .iswset) v) s

/-- ISWCLR (R198). -/
def execIswclr (by_ : Requester) (v : Word) (s : State) : Outc := act (writeBy by_ (.ic .iswclr) v) s

/-- MODERATION_TIMEOUT (R211). -/
def execModerationTimeout (c : Fin 5) (s : State) : Outc := act (icModTimeout c) s

/-- PRODUCER_HOLD_END (R188). -/
def execProducerHoldEnd (p : Fin 512) (s : State) : Outc := act (fabHoldEnd p) s

end Sys2Proof.Machine
end

