-- ==== Sys2Proof/Machine/FaultRows.lean ====
section
/-!
DEFINITION. The commands of the fault collector, the shroud's releases, TOLL, the watchdogs and the monitors (R220-R247).
-/
namespace Sys2Proof.Machine
open Sys2Proof

/-- FAULT_OCCURRENCE (R224): the collector's next cycle captures every assertion that waits. -/
def execFaultOccurrence (s : State) : Outc := act (fcCycle) s

/-- FACK (R226). -/
def execFack (by_ : Requester) (v : Word) (s : State) : Outc := act (writeBy by_ (.fc .fack) v) s

/-- SHREL (R229). -/
def execShrel (by_ : Requester) (k : Fin 3) (v : Word) (s : State) : Outc :=
  act (writeBy by_ (.shg (.shrel k)) v) s

/-- SHGATE_WRITE (R230). -/
def execShgateWrite (by_ : Requester) (v : Word) (s : State) : Outc :=
  act (writeBy by_ (.shg .shgate) v) s

/-- FRECPOP (R231). -/
def execFrecpop (by_ : Requester) (v : Word) (s : State) : Outc := act (writeBy by_ (.fc .frecpop) v) s

/-- COMPARATOR_TRIP (R237). -/
def execComparatorTrip (m : Fin 64) (s : State) : Outc := act (cmpTrip m) s

/-- TOLL_TOGGLE (R239). -/
def execTollToggle (s : State) : Outc := act (tollToggle) s

/-- TOLLFEED (R239). -/
def execTollfeed (by_ : Requester) (v : Word) (s : State) : Outc := act (writeBy by_ (.fc .tollfeed) v) s

/-- WATCHDOG_ENABLE (R240): `v` gives the other fields of the write. -/
def execWatchdogEnable (by_ : Requester) (n : Fin 5) (v : Word) (s : State) : Outc :=
  act (writeBy by_ (.wd n .ctl) (WD_CTL.EN.put 1 v)) s

/-- WATCHDOG_FEED (R240). -/
def execWatchdogFeed (by_ : Requester) (n : Fin 5) (v : Word) (s : State) : Outc :=
  act (writeBy by_ (.wd n .feed) v) s

/-- WATCHDOG_WARN (R240). -/
def execWatchdogWarn (n : Fin 5) (s : State) : Outc := act (wdWarn n) s

/-- WATCHDOG_EXPIRY (R240). -/
def execWatchdogExpiry (n : Fin 5) (s : State) : Outc := act (wdReach n) s

/-- THERMAL_WARNING (R241): `hot` names the sensors at or above 135 °C. -/
def execThermalWarning (hot : Byte) (s : State) : Outc := actBoard (thWarn hot.toNat) s

/-- THERMAL_SHUTDOWN (R242). -/
def execThermalShutdown (s : State) : Outc := actBoard (thShutdown) s

/-- LOCKDOWN_COMPLETE (R242). -/
def execLockdownComplete (s : State) : Outc := act (fcLockRest) s

/-- SUPPLY_THRESHOLD_CROSS (R220): where the supply now lies. -/
def execSupplyThresholdCross (k : Fin 8) (rail : Rail) (s : State) : Outc := actBoard (supplyCross k rail) s

/-- REFERENCE_LOST (R222). -/
def execReferenceLost (s : State) : Outc := actBoard (refLost) s

/-- THERMAL_WARNING_CLEAR (R241). -/
def execThermalWarningClear (s : State) : Outc := actBoard (thClear) s

/-- REFERENCE_RETURN (R222). -/
def execReferenceReturn (s : State) : Outc := actBoard (refBack) s

end Sys2Proof.Machine
end

