-- ==== Sys2Proof/Machine/HostRows.lean ====
section
/-!
DEFINITION. The commands of the host: packets for the interpreter, the mailbox, SPI and PCIe (R391-R411).
-/
namespace Sys2Proof.Machine
open Sys2Proof

/-- STATUS (R399): the packet at the front of the interpreter's queue; so for every row named after an opcode. -/
def execStatus (s : State) : Outc := act (cmdStatus) s

/-- READ (R400). -/
def execRead (s : State) : Outc := act (cmdRead) s

/-- WRITE (R400). -/
def execWrite (s : State) : Outc := act (cmdWrite) s

/-- READ_BLOCK (R400). -/
def execReadBlock (s : State) : Outc := act (cmdReadBlock) s

/-- WRITE_BLOCK (R400). -/
def execWriteBlock (s : State) : Outc := act (cmdWriteBlock) s

/-- ENUMERATE (R401). -/
def execEnumerate (s : State) : Outc := act (cmdEnumerate) s

/-- ENUMERATE_TIMEOUT (R401). -/
def execEnumerateTimeout (s : State) : Outc := act (fun d => hstFlush (hstEnumTimeout d)) s

/-- TIME_SYNC (R399). -/
def execTimeSync (s : State) : Outc := act (cmdTimeSync) s

/-- SNAPSHOT (R401). -/
def execSnapshot (s : State) : Outc := act (cmdSnapshot) s

/-- CALIBRATE (R401). -/
def execCalibrate (s : State) : Outc := act (cmdCalibrate) s

/-- IMAGE_CHUNK (R402). -/
def execImageChunk (s : State) : Outc := act (cmdChunk) s

/-- IMAGE_COMMIT (R403). -/
def execImageCommit (s : State) : Outc := act (cmdCommit) s

/-- TK_STAGE_COMMAND (R428). -/
def execTkStageCommand (s : State) : Outc := act (cmdTkStage) s

/-- BAD_OPCODE (R394). -/
def execBadOpcode (s : State) : Outc := act (cmdBadOpcode) s

/-- FIRMWARE_OPCODE (R404). -/
def execFirmwareOpcode (s : State) : Outc := act (cmdFirmware) s

/-- FWRPL (R404). -/
def execFwrpl (by_ : Requester) (v : Word) (s : State) : Outc :=
  act (fun d => hstFlush (writeBy by_ (.hif .fwrpl) v d)) s

/-- FIRMWARE_TIMEOUT (R404). -/
def execFirmwareTimeout (s : State) : Outc := act (fun d => hstFlush (fwTimeout d)) s

/-- RECOVERY_RESET (R403). -/
def execRecoveryReset (s : State) : Outc := act (recoveryReset) s

/-- DOORBELL (R409). -/
def execDoorbell (by_ : Requester) (count : BitVec 11) (s : State) : Outc :=
  act (writeBy by_ (.hif .hdbell) (HDBELL.COUNT.put count.toNat 0)) s

/-- HRACK (R409). -/
def execHrack (by_ : Requester) (v : Word) (s : State) : Outc := act (writeBy by_ (.hif .hrack) v) s

/-- SPI_CMD_FRAME (R410). -/
def execSpiCmdFrame (bytes : List Byte) (s : State) : Outc := act (spiCmd bytes) s

/-- SPI_RPL_FRAME (R410): `whole`: the host clocked the reply out to its end. -/
def execSpiRplFrame (whole : Bool) (s : State) : Outc := act (fun d => hstFlush (spiRpl whole d)) s

/-- SPI_STAT_FRAME (R410). -/
def execSpiStatFrame (s : State) : Outc := act (spiStatFrame) s

/-- SPI_IGNORED_FRAME (R410). -/
def execSpiIgnoredFrame (s : State) : Outc := act (spiIgnored) s

/-- SPI_GAP_TIMEOUT (R395). -/
def execSpiGapTimeout (s : State) : Outc := act (spiGap) s

/-- SPI_CS_RISE (R395). -/
def execSpiCsRise (s : State) : Outc := act (spiRise) s

/-- PCIE_INBOUND_REQUEST (R407). -/
def execPcieInboundRequest (req : Inbound) (s : State) : Outc := act (pcieInbound req) s

/-- OUTBOUND_COMPLETION (R408). -/
def execOutboundCompletion (c : Fin 5) (v : Word) (ok poison : Bool) (s : State) : Outc :=
  act (obComplete c v ok poison) s

/-- OUTBOUND_READ_TIMEOUT (R408). -/
def execOutboundReadTimeout (c : Fin 5) (s : State) : Outc := act (obTimeout c) s

/-- PCIE_LINK_UP (R406). -/
def execPcieLinkUp (speed : Fin 5) (width : Fin 3) (s : State) : Outc := act (pcieUp speed.val width.val) s

/-- PCIE_LINK_DOWN (R423). -/
def execPcieLinkDown (s : State) : Outc := act (pcieDown) s

/-- PCIE_RESET (R460). -/
def execPcieReset (low : Bool) (s : State) : Outc := actBoard (pcieReset low) s

end Sys2Proof.Machine
end

