-- ==== Sys2Proof/Machine/LegRows.lean ====
section
/-!
DEFINITION. The commands of the timebases and the legs (R50-R94, R234-R236).
-/
namespace Sys2Proof.Machine
open Sys2Proof

/-- PERIOD_START (R52). -/
def execPeriodStart (b : Fin 32) (s : State) : Outc := act (tbPeriod b) s

/-- LOAD_POINT (R56, R72): 3 ticks before the next period start.  DESIGN CHOICE (log entry 160): so too in a period whose length is not P
ticks, where the counter would reach P - 3 a tick earlier or later or the alignment has moved. -/
def loadPoint (b : Fin 32) (d : Dev) : Dev :=
  if !d.tbRun b || d.tb[b].loaded then d else tbLoad b (d.at (tbDue d b - 3 * tuTick))
def execLoadPoint (b : Fin 32) (s : State) : Outc := act (loadPoint b) s

/-- The match instant of edge A (`b` false) or B is reached (R66, R72): on a leg in RUN whose timebase runs, once a period. -/
def edgeMatch (n : Fin 96) (b : Bool) (d : Dev) : Dev :=
  let g := d.leg[n]
  if !d.tbRun (d.legTb n) || legShown d n != 1 || (if b then g.spentB else g.spentA) then d
  else
    let d1 := d.at (if b then g.curB else g.curA)
    legEmit n (if b then .b else .a) (if b then g.curB else g.curA) d1

/-- EDGE_MATCH (R66). -/
def execEdgeMatch (n : Fin 96) (b : Bool) (s : State) : Outc := act (edgeMatch n b) s

/-- The dead-time of a leg that is being counted has elapsed (R67). -/
def deadtimeEnd (n : Fin 96) (d : Dev) : Dev :=
  match legDue d n with
  | some t => legFire n (d.at t)
  | none => d

/-- DEADTIME_END (R67). -/
def execDeadtimeEnd (n : Fin 96) (s : State) : Outc := act (deadtimeEnd n) s

/-- ON_TIME_CUT (R236): `low` names the switch LnL, otherwise LnH. -/
def execOnTimeCut (n : Fin 96) (low : Bool) (s : State) : Outc := act (legCut n (if low then .l else .h)) s

/-- COMMIT_CAPTURE (R72): the oldest commit that loop engine n has presented; register commits are captured by the write
itself (R77, R82). -/
def execCommitCapture (n : Fin 64) (s : State) : Outc := act (leCapture n) s

/-- TB_ENABLE (R57): `v` gives the other fields of the write. -/
def execTbEnable (by_ : Requester) (b : Fin 32) (v : Word) (s : State) : Outc :=
  act (writeBy by_ (.tb b .ctl) (TB_CTL.EN.put 1 v)) s

/-- TB_DISABLE (R58): `v` gives the other fields of the write. -/
def execTbDisable (by_ : Requester) (b : Fin 32) (v : Word) (s : State) : Outc :=
  act (writeBy by_ (.tb b .ctl) (TB_CTL.EN.put 0 v)) s

/-- TBGSTART (R57). -/
def execTbgstart (by_ : Requester) (v : Word) (s : State) : Outc := act (writeBy by_ (.tbg .tbgstart) v) s

/-- TBGSTOP (R58). -/
def execTbgstop (by_ : Requester) (v : Word) (s : State) : Outc := act (writeBy by_ (.tbg .tbgstop) v) s

/-- TB_START_TASK (R57). -/
def execTbStartTask (ch : Fin 256) (s : State) : Outc := act (fabTask .tbStart ch (tbTask ch.val)) s

/-- FOLLOWER_START (R61). -/
def execFollowerStart (b : Fin 32) (s : State) : Outc := act (tbFollow b) s

/-- CHAIN_TB_START (R62). -/
def execChainTbStart (b : Fin 32) (s : State) : Outc := act (tbChainStart b) s

/-- EVCMP_MATCH (R92). -/
def execEvcmpMatch (b : Fin 32) (k : Fin 4) (s : State) : Outc := act (tbEvcmp b k) s

/-- LEG_RUN_WRITE (R78): the register's other fields are written as they stand. -/
def execLegRunWrite (by_ : Requester) (n : Fin 96) (run : Bool) (s : State) : Outc :=
  act (fun d => writeBy by_ (.leg n .ctl) (LEG_CTL.RUN.put (b2n run) (d.get (.leg n .ctl))) d) s

/-- LEG_FORCE_WRITE (R84): the register's other fields are written as they stand. -/
def execLegForceWrite (by_ : Requester) (n : Fin 96) (force : Fin 4) (fsync : Bool) (s : State) : Outc :=
  act (fun d =>
    writeBy by_ (.leg n .ctl) (d.get (.leg n .ctl) |> LEG_CTL.FORCE.put force.val |> LEG_CTL.FSYNC.put (b2n fsync)) d) s

/-- LEG_COMPARE_WRITE (R77). -/
def execLegCompareWrite (by_ : Requester) (n : Fin 96) (which : LegCmp) (v : Word) (s : State) : Outc :=
  act (writeBy by_ (.leg n (legCmpReg which)) v) s

/-- LEGCOMMIT (R77). -/
def execLegcommit (by_ : Requester) (k : Fin 3) (v : Word) (s : State) : Outc :=
  act (writeBy by_ (.tbg (.legcommit k)) v) s

/-- The legs whose FOCH names channel ch with FOEN = 1 are forced off (R85). -/
def legTaskOff (ch : Nat) (d : Dev) : Dev :=
  let on (b : Bool) (x : Dev) : Dev :=
    x.each ((fins 96).filter fun n => d.b (.leg n .ctl) LEG_CTL.FOEN && d.f (.leg n .ctl) LEG_CTL.FOCH == ch && tbB d (d.legTb n) == b)
      fun n y => legForceOff n (y.at (tickUp b d.now))
  if tickUp false d.now ≤ tickUp true d.now then on true (on false d) else on false (on true d)

/-- FORCE_OFF_TASK (R85). -/
def execForceOffTask (ch : Fin 256) (s : State) : Outc := act (fabTask .forceOff ch (legTaskOff ch.val)) s

/-- FOFF_RELEASE_REQUEST (R85): a write of FOFF alone. -/
def execFoffReleaseRequest (by_ : Requester) (n : Fin 96) (s : State) : Outc :=
  act (writeBy by_ (.leg n .stat) LEG_STAT.FOFF.mask) s

end Sys2Proof.Machine
end

