-- ==== Sys2Proof/Machine/LinkRows.lean ====
section
/-!
DEFINITION. The commands of the Nueryen link (R363-R390).
-/
namespace Sys2Proof.Machine
open Sys2Proof

/-- The link acts, what is due leaves its ports, and an enumeration that has completed is answered. -/
def lnkAct (f : Dev → Dev) (d : Dev) : Dev := hstFlush (hstEnumCheck (lnkPump (f d)))

/-- PORT_TRAINED (R378): `inv` and `skew` are what the training found. -/
def execPortTrained (p : Fin 2) (inv : Fin 4) (skew : Byte) (s : State) : Outc :=
  act (lnkAct fun d => if lnkTrained d p then d else lnkPortUp p (lnkAlign p 3 inv.val skew.toNat true d)) s

/-- PORT_DOWN (R377). -/
def execPortDown (p : Fin 2) (s : State) : Outc := act (lnkAct (lnkPortDown p)) s

/-- LANE_ALIGNMENT (R364): `partner`: the partner's IDLE_R is received. -/
def execLaneAlignment (p : Fin 2) (align inv : Fin 4) (skew : Byte) (partner : Bool) (s : State) : Outc :=
  act (lnkAct (lnkAlign p align.val inv.val skew.toNat partner)) s

/-- LINK_ERROR_WINDOW (R364). -/
def execLinkErrorWindow (p : Fin 2) (errs : Nat) (s : State) : Outc := act (lnkAct (lnkErrWindow p errs)) s

/-- TIME_FRAME (R384): received at t, sent at device time `tx`; `tail`: its SEQ and the CRC-16 it carries (R365, R366). -/
def execTimeFrame (p : Fin 2) (t tx : Nat) (v back : Bool) (hops : Nat) (tail : Byte × BitVec 16) (s : State) : Outc :=
  act (lnkAct (lnkTake p ((Frame.time tx v back hops tail.1.toNat).sumOk tail.2) t (lnkTimeFrame p t tx v back hops))) s

/-- TIME_FRAME_SEND (R383). -/
def execTimeFrameSend (s : State) : Outc := act (lnkAct lnkTimeNext) s

/-- DREQ (R382): the CRC-16 it carries; with it, the TYPE and the payload of a control frame whose TYPE is not listed, which is discarded
and counted whatever its CRC-16 (R366). -/
def execDreq (p : Fin 2) (t : Nat) (tail : BitVec 16 × Option (Byte × List Byte)) (s : State) : Outc :=
  act (lnkAct (lnkTake p (tail.2.isNone && Frame.dreq.sumOk tail.1) t (lnkDreq p t))) s

/-- DRSP (R382). -/
def execDrsp (p : Fin 2) (t t2 t3 : Nat) (sum : BitVec 16) (s : State) : Outc :=
  act (lnkAct (lnkTake p ((Frame.drsp t2 t3).sumOk sum) t (lnkDrsp p t t2 t3))) s

/-- DELAY_EXCHANGE (R382). -/
def execDelayExchange (p : Fin 2) (s : State) : Outc := act (lnkAct (lnkExchange p)) s

/-- DELAY_EXCHANGE_TIMEOUT (R382). -/
def execDelayExchangeTimeout (p : Fin 2) (s : State) : Outc := act (lnkAct (lnkExchTimeout p)) s

/-- ENUM (R373): `tail`: the head's flags and the CRC-16 the frame carries (R366, R367). -/
def execEnum (p : Fin 2) (n : Nat) (tail : Byte × BitVec 16) (s : State) : Outc :=
  act (lnkAct fun d => lnkTake p ((Frame.enum n tail.1.toNat).sumOk tail.2) d.now (lnkEnum p n tail.1) d) s

/-- ENUM_DONE (R373). -/
def execEnumDone (p : Fin 2) (count : Nat) (ring ovr : Bool) (sum : BitVec 16) (s : State) : Outc :=
  act (lnkAct fun d => lnkTake p ((Frame.enumDone count ring ovr).sumOk sum) d.now (lnkEnumDone count ring ovr) d) s

/-- LSTAT (R377). -/
def execLstat (p : Fin 2) (addr port state : Nat) (sum : BitVec 16) (s : State) : Outc :=
  let f := Frame.lstat addr port state
  act (lnkAct fun d => lnkTake p (f.sumOk sum) d.now (lnkRelay p addr f (lnkLstat addr port state)) d) s

/-- LOCKDOWN_FRAME (R379). -/
def execLockdownFrame (p : Fin 2) (addr cls time : Nat) (sum : BitVec 16) (s : State) : Outc :=
  let f := Frame.lockdown addr cls time
  act (lnkAct fun d => lnkTake p (f.sumOk sum) d.now (lnkRelay p addr f (lnkLockdown addr cls)) d) s

/-- A packet frame with its end, and its consumer in this unit (R368, R370, R375). -/
def lnkFrameIn (p : Fin 2) (dst src kind crc : Option Byte) (bytes : List Byte) (aborted : Bool) (d : Dev) : Dev :=
  match lnkPacket p dst src kind crc bytes aborted d with
  | (some (src, kind, bytes), d1) => hstFromLink src kind bytes aborted d1
  | (none, d1) => d1

/-- PACKET_FRAME (R375): its envelope as far as it came, its packet bytes, and whether ABORT or a K28.5 ends it rather than
K29.7. -/
def execPacketFrame (p : Fin 2) (dst src kind crc : Option Byte) (bytes : List Byte) (aborted : Bool) (s : State) : Outc :=
  act (lnkAct (lnkFrameIn p dst src kind crc bytes aborted)) s

/-- PACKET_PAD_TIMEOUT (R370): 20 µs after its latest byte the frame is ended by ABORT. -/
def execPacketPadTimeout (p : Fin 2) (dst src kind crc : Option Byte) (bytes : List Byte) (s : State) : Outc :=
  act (lnkAct fun d => lnkFrameIn p dst src kind crc bytes true (d.at (d.now + 20 * tuUs))) s

/-- CHAIN_TIME_TIMEOUT (R385). -/
def execChainTimeTimeout (s : State) : Outc := act (lnkAct lnkTimeout) s

/-- ENUM_START (R373). -/
def execEnumStart (by_ : Requester) (s : State) : Outc :=
  act (lnkAct (writeBy by_ (.lnk .lnktcmd) (LNKTCMD.ENUM.put 1 0))) s

/-- DELAY_MEASURE_START (R382). -/
def execDelayMeasureStart (by_ : Requester) (s : State) : Outc :=
  act (lnkAct (writeBy by_ (.lnk .lnktcmd) (LNKTCMD.DMEAS.put 1 0))) s

/-- LNKTIMEL_READ (R390). -/
def execLnktimelRead (by_ : Requester) (s : State) : Outc := act (readBy by_ (.lnk .lnktimel)) s

end Sys2Proof.Machine
end

