-- ==== Sys2Proof/Machine/LoopRows.lean ====
section
/-!
DEFINITION. The commands of the loop engines (R122-R154).
-/
namespace Sys2Proof.Machine
open Sys2Proof

/-- LE_STROBE_ARRIVE (R127). -/
def execLeStrobeArrive (n : Fin 64) (s : State) : Outc := act (leArrive n) s

/-- LE_SAMPLE (R129). -/
def execLeSample (n : Fin 64) (s : State) : Outc := act (leSample n) s

/-- LE_WAIT_RESUME (R128). -/
def execLeWaitResume (n : Fin 64) (s : State) : Outc := act (leResume n) s

/-- LE_WAIT_TIMEOUT (R128). -/
def execLeWaitTimeout (n : Fin 64) (s : State) : Outc := act (leTimeout n) s

/-- LE_ENABLE (R140): `v` gives the other fields of the write. -/
def execLeEnable (by_ : Requester) (n : Fin 64) (v : Word) (s : State) : Outc :=
  act (writeBy by_ (.le n .ctl) (LE_CTL.EN.put 1 v)) s

/-- LE_DISABLE (R141): `v` gives the other fields of the write. -/
def execLeDisable (by_ : Requester) (n : Fin 64) (v : Word) (s : State) : Outc :=
  act (writeBy by_ (.le n .ctl) (LE_CTL.EN.put 0 v)) s

/-- LE_SWAP_REQUEST (R136). -/
def execLeSwapRequest (by_ : Requester) (n : Fin 64) (s : State) : Outc :=
  act (writeBy by_ (.le n .cmd) (LE_CMD.SWAP.put 1 0)) s

/-- LESWAP (R136). -/
def execLeswap (by_ : Requester) (k : Fin 2) (v : Word) (s : State) : Outc :=
  act (writeBy by_ (.lesh (.leswap k)) v) s

/-- LE_SWAP_TASK (R136). -/
def execLeSwapTask (ch : Fin 256) (s : State) : Outc := act (fabTask .leSwap ch (leSwapTask ch.val)) s

/-- LE_MREG_WRITE (R124). -/
def execLeMregWrite (by_ : Requester) (n : Fin 64) (v : Word) (s : State) : Outc :=
  act (writeBy by_ (.le n .mreg) v) s

/-- LE_REF_WRITE (R124). -/
def execLeRefWrite (by_ : Requester) (n : Fin 64) (v : Word) (s : State) : Outc :=
  act (writeBy by_ (.le n .ref) v) s

/-- LE_FREG_WRITE (R124). -/
def execLeFregWrite (by_ : Requester) (n : Fin 64) (v : Word) (s : State) : Outc :=
  act (writeBy by_ (.le n .freg) v) s

/-- A full write of a word of engine n's memory, once the scrub has ended (R317). -/
def leMemCmd (n k : Fin 64) (v : Word) (d : Dev) : Dev := if memWaits d (leAddr n (4 * k.val)) then d else leMemWrite n k v d

/-- LE_MEMORY_WRITE (R135): the rules are the same for every requester `by_`. -/
def execLeMemoryWrite (by_ : Requester) (n k : Fin 64) (v : Word) (s : State) : Outc :=
  act (asks by_ (leMemCmd n k v)) s

end Sys2Proof.Machine
end

