-- ==== Sys2Proof/Machine/MemRows.lean ====
section
/-!
DEFINITION. The commands of the memories and of flash (R310-R338).
-/
namespace Sys2Proof.Machine
open Sys2Proof

/-- PATROL_READ (R318). -/
def execPatrolRead (s : State) : Outc := act (memPatrol) s

/-- SRAM_SCRUB_DONE (R317). -/
def execSramScrubDone (s : State) : Outc := act (fun d => capEnableServe (memRawServe (sramReady d))) s

/-- REMAP_WRITE (R320). -/
def execRemapWrite (by_ : Requester) (b : Fin 8) (e : Fin 16) (v : Word) (s : State) : Outc :=
  act (writeBy by_ (.sys (.remap b e)) v) s

/-- REMAP_COPY_DONE (R320): the oldest copy in progress. -/
def execRemapCopyDone (s : State) : Outc := act (fun d => capEnableServe (memRawServe (memCopyDone d))) s

/-- RAW_READ (R321). -/
def execRawRead (by_ : Requester) (s : State) : Outc :=
  act (writeBy by_ (.sys .memtcmd) (MEMTCMD.CMD.put 1 0)) s

/-- RAW_WRITE (R321). -/
def execRawWrite (by_ : Requester) (s : State) : Outc :=
  act (writeBy by_ (.sys .memtcmd) (MEMTCMD.CMD.put 2 0)) s

/-- FLASH_CLAIM (R330). -/
def execFlashClaim (by_ : Requester) (s : State) : Outc :=
  act (writeBy by_ (.fl .flclaim) (FLCLAIM.CLAIM.put 1 0)) s

/-- FLASH_RELEASE (R330). -/
def execFlashRelease (by_ : Requester) (s : State) : Outc :=
  act (writeBy by_ (.fl .flclaim) (FLCLAIM.REL.put 1 0)) s

/-- PROGRAM (R331). -/
def execProgram (by_ : Requester) (s : State) : Outc :=
  act (writeBy by_ (.fl .flcmd) (FLCMD.OP.put 1 0)) s

/-- ERASE (R331). -/
def execErase (by_ : Requester) (s : State) : Outc := act (writeBy by_ (.fl .flcmd) (FLCMD.OP.put 2 0)) s

/-- VERIFY (R331). -/
def execVerify (by_ : Requester) (margin : Fin 4) (count : BitVec 16) (s : State) : Outc :=
  act (writeBy by_ (.fl .flcmd) ((0 : Word) |> FLCMD.OP.put 3 |> FLCMD.MARGIN.put margin.val |> FLCMD.COUNT.put count.toNat)) s

/-- EVALCAL (R338). -/
def execEvalcal (by_ : Requester) (s : State) : Outc :=
  act (writeBy by_ (.fl .flcmd) (FLCMD.OP.put 4 0)) s

/-- FLASH_OPERATION_END (R332): `ok` says whether the array took the operation, `weak` names the words that fail at a margin;
a chunk of an image goes on. -/
def execFlashOperationEnd (ok : Bool) (weak : List Nat) (s : State) : Outc :=
  act (fun d => hstFlush (chunkAfter (flEnd ok weak d))) s

/-- FLASH_INIT_DONE (R336). -/
def execFlashInitDone (s : State) : Outc := act (flashReady) s

end Sys2Proof.Machine
end

