-- ==== Sys2Proof/Machine/PkgRows.lean ====
section
/-!
DEFINITION. The balls and the test access port (R360, R449, R450, R462, R464).
-/
namespace Sys2Proof.Machine
open Sys2Proof

/-- I/O bank of a leg's balls (R449), and whether a bank's VIO is there (R453). -/
def legBank (n : Fin 96) : Nat := if n.val < 48 then 1 else 2
def vioOn (d : Dev) (k : Fin 4) : Bool := d.sys.vio[k] != .absent

/-- A driven ball, and what a boundary cell sees of a ball: the level `open_` where nothing drives it. -/
def Ball.of (b : Bool) : Ball := if b then .high else .low
def Ball.seen (open_ : Bool) : Ball → Bool
  | .low => false
  | .high => true
  | .z => open_

/-- The ball of a leg's switch (R360, R450, R453, R464): at high impedance, which its resistor pulls down, in reset and while its bank's VIO
is away; at its off level until the bank has latched. -/
def legBall (d : Dev) (n : Fin 96) (w : Sw) : Ball :=
  let pol := match w with
    | .h => d.b (.leg n .ctl) LEG_CTL.POLH
    | .l => d.b (.leg n .ctl) LEG_CTL.POLL
  if !d.b (.sys (.ready 0)) READY0.SHROUD || !vioOn d (Fin.ofNat 4 (legBank n)) then .z
  else .of (pol != ((d.leg[n].sw w).stage d.now && bankOn d (legBank n)))

/-- POSnC (R166, R174, R360): at high impedance in reset and until its channel is enabled in a serial mode; a clock that is open has the level
given. -/
def posBall (d : Dev) (n : Fin 8) (open_ : Bool) : Ball :=
  if d.sys.rst.isSome || !vioOn d 3 || !posSerial d n || !d.b (.pos n .ctl) POS_CTL.EN then .z else .of ((posClock d n).getD open_)

/-- The balls that EXTEST may drive, in function (R360, R410, R464): MISO at high impedance in reset and while CS_N is high; the bit that it
shifts is open. -/
def funBalls (d : Dev) : OutBalls :=
  let open_ (k : Nat) : Bool := (Config.freeValue d.free).getLsbD k
  { toll := .of (d.b (.fc .tollstat) TOLLSTAT.PIN),
    lockup := .of ((fins 5).any fun c => d.core[c].run == .locked),
    rstout := .of (d.b (.sys (.ready 0)) READY0.SHROUD),
    posC := Vector.ofFn fun n => posBall d n (open_ n.val),
    miso := if d.sys.rst.isSome || !d.hst.spi.low then .z else .of (open_ 8) }

/-- The balls as the boundary cells drive them. -/
def TestBalls.driven (x : TestBalls) : OutBalls :=
  { toll := .of x.toll, lockup := .of x.lockup, rstout := .of x.rstout, posC := x.posC.map Ball.of, miso := .of x.miso }

/-- The balls as they stand: EXTEST drives them from the boundary cells.  DEDUCED (log entry 176): the reset states of R360 hold
under EXTEST too. -/
def testBalls (d : Dev) : OutBalls := if d.jtag.ir = .extest ∧ d.sys.rst = none then d.jtag.cells.driven else funBalls d

/-- What boundary cells see of those balls: a ball at high impedance is open. -/
def OutBalls.seen (d : Dev) (x : OutBalls) : TestBalls :=
  let open_ (k : Nat) : Bool := (Config.freeValue (d.free + 1)).getLsbD k
  { toll := x.toll.seen false, lockup := x.lockup.seen false, rstout := x.rstout.seen false,
    posC := Vector.ofFn fun n => x.posC[n].seen (open_ n.val), miso := x.miso.seen (open_ 8) }

/-- The digital inputs. -/
def inBalls (d : Dev) : InBalls :=
  { posA := d.pos.map (·.a), posB := d.pos.map (·.b), posZ := d.pos.map (·.z), perstN := !d.hst.perst, csN := !d.hst.spi.low,
    rstN := match d.sys.rst with
      | some (.pin, _) => false
      | _ => true }

/-- What a link transmitter sends between frames (R360, R364): nothing (electrical idle) in reset, IDLE_R where `some true`, IDLE_NR
where `some false`. -/
def lnkLanes (d : Dev) (p : Fin 2) : Option Bool := if d.sys.rst.isSome then none else some d.lnk.port[p].idleR

/-- The PCIe lanes are held in reset (R360, R460). -/
def pcieHeld (d : Dev) : Bool := d.sys.rst.isSome || d.hst.perst

/-- Cells from a word: TOLL, LOCKUP, RSTOUT_N, POS0C to POS7C, MISO from bit 0 on. -/
def cellsOf (v : BitVec 12) : TestBalls :=
  { toll := v.getLsbD 0, lockup := v.getLsbD 1, rstout := v.getLsbD 2, posC := Vector.ofFn fun n => v.getLsbD (3 + n.val),
    miso := v.getLsbD 11 }

/-- The cells that only observe, and those of the inputs, take what the balls show (R462); a leg at high impedance is pulled down. -/
def jtagObserve (d : Dev) : Dev :=
  { d with jtag := { d.jtag with
      legs := (fins 96).flatMap fun n => [(legBall d n .h).seen false, (legBall d n .l).seen false],
      gates := (List.range 4).map (gatePin d), ins := inBalls d } }

/-- The port takes an instruction, unless TRST is low (R462). -/
def jtagTake (f : Dev → Dev) (d : Dev) : Dev := if d.jtag.trst then d else f d

/-- EXTEST (R462); with a gate driver enabled the driven balls are open. -/
def jtagExtest (cells : BitVec 12) (d0 : Dev) : Dev :=
  let d := jtagObserve d0
  let live := (List.range 4).any (gatePin d)
  let v := if live then BitVec.ofNat 12 (Config.freeValue d.free).toNat else cells
  let d1 := if live then d.bumpFree else d
  { d1 with jtag := { d1.jtag with ir := .extest, cells := cellsOf v } }

/-- SAMPLE/PRELOAD (R462): what the cells observe, and what is shifted into the cells of the driven balls. -/
def jtagSample (cells : BitVec 12) (d0 : Dev) : Dev :=
  let d := jtagObserve d0
  { d with jtag := { d.jtag with ir := .sample, cells := cellsOf cells, seen := (testBalls d).seen d }, free := d.free + 2 }

/-- The port's instruction. -/
def jtagIr (i : JtagIr) (d : Dev) : Dev := { d with jtag := { d.jtag with ir := i } }

/-- TRST changes its level: low holds the test logic in its reset state, where the identification register is selected (R343, R462).
DESIGN CHOICE (log entry 188): the row's next coming is the rise. -/
def jtagTrst (d : Dev) : Dev := { d with jtag := { d.jtag with trst := !d.jtag.trst, ir := .idcode } }

/-- What the selected data register captures (R462): the identification code, or the 0 of the bypass register. -/
def jtagDr (d : Dev) : Option Word :=
  match d.jtag.ir with
  | .idcode => some (w32 (0x19648 * 2 ^ 12 + 2 * Config.jtagMaker.toNat + 1))
  | .bypass => some 0
  | .sample => none
  | .extest => none

/-- TDO while bit `k` of the selected data register is shifted, `none` outside the shift states: no level is high impedance
(R360).  The order of the boundary cells is not given: their bits are open. -/
def tdo (d : Dev) (k : Option Nat) : Option Bool :=
  if d.sys.rst.isSome then none
  else k.map fun j => match jtagDr d with
    | some w => w.getLsbD j
    | none => Config.freeBool (d.free + j)

/-- JTAG_EXTEST (R462). -/
def execJtagExtest (cells : BitVec 12) (s : State) : Outc := actBoard (jtagTake (jtagExtest cells)) s

/-- JTAG_SAMPLE_PRELOAD (R462). -/
def execJtagSamplePreload (cells : BitVec 12) (s : State) : Outc := actBoard (jtagTake (jtagSample cells)) s

/-- JTAG_IDCODE (R462). -/
def execJtagIdcode (s : State) : Outc := actBoard (jtagTake (jtagIr .idcode)) s

/-- JTAG_BYPASS (R462). -/
def execJtagBypass (s : State) : Outc := actBoard (jtagTake (jtagIr .bypass)) s

/-- TEST_RESET (R343). -/
def execTestReset (s : State) : Outc := actBoard jtagTrst s

/-- Power-on reset is held. -/
def porHeld (d : Dev) : Bool :=
  match d.sys.rst with
  | some (.por, _) => true
  | _ => false

/-- Bank k latches its class (R450), 1 ms after its supply first rises: the line of its supply follows from then on; `v33`: the
supply lies above 2.50 V.  One that has fallen below its threshold by then asserts its line at once.  A latched class holds until power-on reset. -/
def bankLatch (k : Fin 4) (v33 : Bool) (d : Dev) : Dev :=
  if porHeld d || bankOn d k.val then d
  else
    let p := d.f (.sys .iostat) IOSTAT.PRESENT ||| 2 ^ k.val
    let c := d.f (.sys .iostat) IOSTAT.V33 ||| (if v33 then 2 ^ k.val else 0)
    let d1 := (d.setF (.sys .iostat) IOSTAT.PRESENT p).setF (.sys .iostat) IOSTAT.V33 c
    match d.sys.vio[k] with
    | .good => d1
    | .low => d1.lineOn (484 + k.val)
    | .absent => { d1 with sys := { d1.sys with vio := d1.sys.vio.set k .good } }

/-- IO_BANK_LATCH (R450). -/
def execIoBankLatch (k : Fin 4) (v33 : Bool) (s : State) : Outc := actBoard (bankLatch k v33) s

end Sys2Proof.Machine
end

