-- ==== Sys2Proof/Machine/PosRows.lean ====
section
/-!
DEFINITION. The commands of the position channels (R166-R184).
-/
namespace Sys2Proof.Machine
open Sys2Proof

/-- The inputs of channel n change at instant `t`, and what changed holds until `held`: through the filter's run it reaches the channel on the
run's ready tick, otherwise nothing follows (R157, R167, R168); a channel that does not sample only takes the inputs (R180). -/
def posInputs (n : Fin 8) (a b z : Bool) (t held : Nat) (d : Dev) : Dev :=
  if posOn d n then
    if held < posRunEnd d n t then d else posInput n a b z t (d.at (posReady d n t))
  else (d.at t).posU n fun p => { p with a := a, b := b, z := z }

/-- POS_INPUT_CHANGE (R168): `t`: the instant of the change, and the instant until which it holds. -/
def execPosInputChange (n : Fin 8) (a b z : Bool) (t : Nat × Nat) (s : State) : Outc :=
  actBoard (posInputs n a b z t.1 t.2) s

/-- A task reaches the position channels that name its channel (R172), on the next tick of their timebase. -/
def posTask (ch : Nat) (d : Dev) : Dev :=
  d.each ((fins 8).filter fun n => !(d.b (.pos n .trig) POS_TRIG.TSRC) && d.f (.pos n .trig) POS_TRIG.TCH == ch)
    (fun n x => posTrigger n (tickUp (tbB x (posTb x n)) x.now) x)

/-- POS_TRIGGER_TASK (R172). -/
def execPosTriggerTask (ch : Fin 256) (s : State) : Outc := act (fabTask .posTrig ch (posTask ch.val)) s

/-- POS_FRAME_START (R174): `t` is the instant at which the data ball is high. -/
def execPosFrameStart (n : Fin 8) (t : Nat) (s : State) : Outc := act (posFrameStart n t) s

/-- POS_FRAME_CHECK (R175): what the encoder answered: the data field in two words; CDS, error and warning bits and CRC
of a BiSS-C frame; the parity bit of an SSI frame. -/
def execPosFrameCheck (n : Fin 8) (hi lo : Word) (cds nE nW : Bool) (crc : BitVec 6) (par : Bool) (s : State) : Outc :=
  act (posFrameCheck n (hi.toNat * 2 ^ 32 + lo.toNat) cds nE nW crc par) s

/-- A frame of channel n has not finished in time (R177); one whose last bit is sampled by then has. -/
def posLate (n : Fin 8) (d : Dev) : Dev :=
  match d.pos[n].frame with
  | .idle => d
  | .waiting ts => posFrameLate n ts d
  | .shifting ts start _ _ =>
    if (posLastSample d n start).any (decide <| · ≤ ts + posTimeout d n) then d else posFrameLate n ts d

/-- POS_FRAME_TIMEOUT (R177). -/
def execPosFrameTimeout (n : Fin 8) (s : State) : Outc := act (posLate n) s

/-- POS_SPEED_TIMEOUT (R173). -/
def execPosSpeedTimeout (n : Fin 8) (s : State) : Outc := act (posSpeedTimeout n) s

/-- POS_ENABLE (R180): `v` gives the other fields of the write. -/
def execPosEnable (by_ : Requester) (n : Fin 8) (v : Word) (s : State) : Outc :=
  act (writeBy by_ (.pos n .ctl) (POS_CTL.EN.put 1 v)) s

/-- POS_UPOS_READ (R172). -/
def execPosUposRead (by_ : Requester) (n : Fin 8) (s : State) : Outc :=
  act (readBy by_ (.pos n .upos)) s

end Sys2Proof.Machine
end

