-- ==== Sys2Proof/Machine/ResetRows.lean ====
section
/-!
DEFINITION. The resets and the start of the device (R343-R357).
-/
namespace Sys2Proof.Machine
open Sys2Proof

/-- POWER_ON_RESET (R344). -/
def execPowerOnReset (s : State) : Outc := actBoard (deviceReset .por) s

/-- A reset of one of two kinds is released: it is the kind in progress. -/
def releaseKind (por head : Bool) (d : Dev) : Dev :=
  match d.sys.rst with
  | some (k, _) => if (k == .por) == por then resetRelease head d else d
  | none => d

/-- POR_RELEASE (R343): `head` is the level of NL_HEAD. -/
def execPorRelease (head : Bool) (s : State) : Outc := actBoard (releaseKind true head) s

/-- PIN_RESET (R345). -/
def execPinReset (s : State) : Outc := actBoard (deviceReset .pin) s

/-- DEVICE_RESET_RELEASE (R343): an early release is the end of the 10 µs hold. -/
def execDeviceResetRelease (head : Bool) (s : State) : Outc := actBoard (releaseKind false head) s

/-- DEVICE_RESET_REQUEST (R346). -/
def execDeviceResetRequest (by_ : Requester) (key : Byte) (s : State) : Outc :=
  act (writeBy by_ (.sys .rstctl) ((0 : Word) |> RSTCTL.KEY.put key.toNat |> RSTCTL.DEVRST.put 1)) s

/-- CORE_RESET_REQUEST (R346): `v` gives the key and the cores. -/
def execCoreResetRequest (by_ : Requester) (v : Word) (s : State) : Outc :=
  act (writeBy by_ (.sys .rstctl) (RSTCTL.DEVRST.put 0 v)) s

/-- CORERUN_WRITE (R347). -/
def execCorerunWrite (by_ : Requester) (v : Word) (s : State) : Outc :=
  act (writeBy by_ (.sys .corerun) v) s

/-- CORE_RESET_END (R347). -/
def execCoreResetEnd (c : Fin 5) (s : State) : Outc := act (coreResetEnd c) s

/-- SHROUD_READY (R349). -/
def execShroudReady (s : State) : Outc := act (shroudReady) s

/-- ANALOG_READY (R349). -/
def execAnalogReady (s : State) : Outc := act (analogReady) s

/-- BOOT_ROM_RUN (R352). -/
def execBootRomRun (s : State) : Outc := act (bootRun) s

end Sys2Proof.Machine
end

