-- ==== Sys2Proof/Machine/SecRows.lean ====
section
/-!
DEFINITION. The commands of two-party keys, verification and the random number generator (R428-R443).
-/
namespace Sys2Proof.Machine
open Sys2Proof

/-- TK_STAGE_WRITE (R428). -/
def execTkStageWrite (by_ : Requester) (v : Word) (s : State) : Outc :=
  act (writeBy by_ (.sec .tk_stage) v) s

/-- NONCE_READY (R429). -/
def execNonceReady (s : State) : Outc := act (tkNonceReady) s

/-- TK_COMMIT_A (R430). -/
def execTkCommitA (by_ : Requester) (v : Word) (s : State) : Outc :=
  act (writeBy by_ (.sec .tk_commit_a) v) s

/-- TK_COMMIT_B (R430). -/
def execTkCommitB (by_ : Requester) (v : Word) (s : State) : Outc :=
  act (writeBy by_ (.sec .tk_commit_b) v) s

/-- TK_CLEAR (R431). -/
def execTkClear (by_ : Requester) (v : Word) (s : State) : Outc := act (writeBy by_ (.sec .tk_clear) v) s

/-- TK_EXPIRY (R431). -/
def execTkExpiry (s : State) : Outc := act (tkExpire) s

/-- VERIFY_START (R437). -/
def execVerifyStart (by_ : Requester) (bank : Bool) (s : State) : Outc :=
  act (writeBy by_ (.sec .verctl) ((0 : Word) |> VERCTL.START.put 1 |> VERCTL.BANK.put (b2n bank))) s

/-- VERIFICATION_END (R437): `progOk`: the array took each word of the first key, where it is programmed (R439). -/
def execVerificationEnd (progOk : Bool × Bool) (s : State) : Outc := act (fun d => hstFlush (verEnd progOk d)) s

/-- RNG_READ (R440). -/
def execRngRead (by_ : Requester) (s : State) : Outc := act (readBy by_ (.sec .rng)) s

end Sys2Proof.Machine
end

