-- ==== Sys2Proof/Machine/SystemRows.lean ====
section
/-!
DEFINITION. The commands of the self-timed fabric and the clocks (R13-R49, R59, R349).
-/
namespace Sys2Proof.Machine
open Sys2Proof

/-- REGISTER_WRITE (R13). -/
def execRegisterWrite (by_ : Requester) (addr v : Word) (s : State) : Outc := act (regWriteAt by_ addr v) s

/-- TEMPO_WINDOW_END (R24). -/
def execTempoWindowEnd (counts : Vector Nat 12) (s : State) : Outc := act (tempoWindow counts) s

/-- PACE_MODE_CHANGE (R32). -/
def execPaceModeChange (by_ : Requester) (v : Word) (s : State) : Outc :=
  act (writeBy by_ (.sys .sysctl) v) s

/-- PACE_CHANGE_COMPLETE (R32). -/
def execPaceChangeComplete (s : State) : Outc := act (paceDone) s

/-- PACE_LOCK_SET (R34). -/
def execPaceLockSet (by_ : Requester) (v : Word) (s : State) : Outc :=
  act (fun d => writeBy by_ (.sys .sysctl) v d) s

/-- SYSTEM_PHASE_WRITE (R49). -/
def execSystemPhaseWrite (by_ : Requester) (v : Word) (s : State) : Outc :=
  act (fun d => writeBy by_ (.sys .sysctl) v d) s

/-- PACE_LOST (R35). -/
def execPaceLost (s : State) : Outc := act (paceLoss) s

/-- PACE_SLIP (R36). -/
def execPaceSlip (n : Fin 12) (s : State) : Outc := act (paceSlip n) s

/-- PACE_SLIP_READ (R17). -/
def execPaceSlipRead (by_ : Requester) (s : State) : Outc := act (readBy by_ (.sys .pace_slip)) s

/-- WAKE_GATE_OPEN (R38). -/
def execWakeGateOpen (s : State) : Outc := act (wakeOpen) s

/-- WAKE_TIMEOUT (R42). -/
def execWakeTimeout (s : State) : Outc := act (wakeTimeout) s

/-- FIFO_RESYNC (R41). -/
def execFifoResync (f : Fifo) (s : State) : Outc := act (fifoResync f) s

/-- TAG_RETURNED (R46). -/
def execTagReturned (h : Fin 70) (ring : Option (Fin 16)) (s : State) : Outc := act (tagReturned h ring) s

/-- TAGUSE_READ (R468). -/
def execTaguseRead (by_ : Requester) (h : Fin 70) (s : State) : Outc := act (readBy by_ (.sys (.taguse h))) s

/-- PLL_LOSS (R59): PLL A's loss also stops device time (R380) and ends a CALIBRATE (R117, R119). -/
def execPllLoss (pllB : Bool) (s : State) : Outc :=
  act (fun d => if pllB then pllLoss true d else hstCalCheck (lnkPllLoss (pllLoss false d))) s

/-- PLL_LOCK (R349): PLL A's lock starts device time (R380). -/
def execPllLock (pllB : Bool) (s : State) : Outc :=
  act (fun d => if pllB then pllLock true d else lnkPllLock (pllLock false d)) s

end Sys2Proof.Machine
end

