-- ==== Sys2Proof/Machine/Dispatch.lean ====
section
/-!
DEFINITION. One arm for each command: a direct call of its meaning.
-/
namespace Sys2Proof.Machine
open Sys2Proof

def exec (i : Instr) (s : State) : Host.Outcome State Fault Refusal :=
  match i with
  | .registerWrite by_ addr v => Sys2Proof.Machine.execRegisterWrite by_ addr v s
  | .tempoWindowEnd counts => Sys2Proof.Machine.execTempoWindowEnd counts s
  | .paceModeChange by_ v => Sys2Proof.Machine.execPaceModeChange by_ v s
  | .paceChangeComplete => Sys2Proof.Machine.execPaceChangeComplete s
  | .paceLockSet by_ v => Sys2Proof.Machine.execPaceLockSet by_ v s
  | .systemPhaseWrite by_ v => Sys2Proof.Machine.execSystemPhaseWrite by_ v s
  | .paceLost => Sys2Proof.Machine.execPaceLost s
  | .paceSlip n => Sys2Proof.Machine.execPaceSlip n s
  | .paceSlipRead by_ => Sys2Proof.Machine.execPaceSlipRead by_ s
  | .wakeGateOpen => Sys2Proof.Machine.execWakeGateOpen s
  | .wakeTimeout => Sys2Proof.Machine.execWakeTimeout s
  | .fifoResync f => Sys2Proof.Machine.execFifoResync f s
  | .tagReturned h ring => Sys2Proof.Machine.execTagReturned h ring s
  | .taguseRead by_ h => Sys2Proof.Machine.execTaguseRead by_ h s
  | .pllLoss pllB => Sys2Proof.Machine.execPllLoss pllB s
  | .pllLock pllB => Sys2Proof.Machine.execPllLock pllB s
  | .periodStart b => Sys2Proof.Machine.execPeriodStart b s
  | .loadPoint b => Sys2Proof.Machine.execLoadPoint b s
  | .edgeMatch n b => Sys2Proof.Machine.execEdgeMatch n b s
  | .deadtimeEnd n => Sys2Proof.Machine.execDeadtimeEnd n s
  | .onTimeCut n low => Sys2Proof.Machine.execOnTimeCut n low s
  | .commitCapture n => Sys2Proof.Machine.execCommitCapture n s
  | .tbEnable by_ b v => Sys2Proof.Machine.execTbEnable by_ b v s
  | .tbDisable by_ b v => Sys2Proof.Machine.execTbDisable by_ b v s
  | .tbgstart by_ v => Sys2Proof.Machine.execTbgstart by_ v s
  | .tbgstop by_ v => Sys2Proof.Machine.execTbgstop by_ v s
  | .tbStartTask ch => Sys2Proof.Machine.execTbStartTask ch s
  | .followerStart b => Sys2Proof.Machine.execFollowerStart b s
  | .chainTbStart b => Sys2Proof.Machine.execChainTbStart b s
  | .evcmpMatch b k => Sys2Proof.Machine.execEvcmpMatch b k s
  | .legRunWrite by_ n run => Sys2Proof.Machine.execLegRunWrite by_ n run s
  | .legForceWrite by_ n force fsync => Sys2Proof.Machine.execLegForceWrite by_ n force fsync s
  | .legCompareWrite by_ n which v => Sys2Proof.Machine.execLegCompareWrite by_ n which v s
  | .legcommit by_ k v => Sys2Proof.Machine.execLegcommit by_ k v s
  | .forceOffTask ch => Sys2Proof.Machine.execForceOffTask ch s
  | .foffReleaseRequest by_ n => Sys2Proof.Machine.execFoffReleaseRequest by_ n s
  | .adcEnable by_ n v => Sys2Proof.Machine.execAdcEnable by_ n v s
  | .adcDisable by_ n v => Sys2Proof.Machine.execAdcDisable by_ n v s
  | .adcgstart by_ v => Sys2Proof.Machine.execAdcgstart by_ v s
  | .adcgstop by_ v => Sys2Proof.Machine.execAdcgstop by_ v s
  | .adcStartTask ch => Sys2Proof.Machine.execAdcStartTask ch s
  | .adcHold n raw => Sys2Proof.Machine.execAdcHold n raw s
  | .adcResultReady n => Sys2Proof.Machine.execAdcResultReady n s
  | .adcTriggerTask ch => Sys2Proof.Machine.execAdcTriggerTask ch s
  | .adcBusyEnd n => Sys2Proof.Machine.execAdcBusyEnd n s
  | .adcCalibrateStart by_ v => Sys2Proof.Machine.execAdcCalibrateStart by_ v s
  | .adcCalibrationEnd n gain offset => Sys2Proof.Machine.execAdcCalibrationEnd n gain offset s
  | .adcLastRead by_ n => Sys2Proof.Machine.execAdcLastRead by_ n s
  | .adcResultRead by_ n k => Sys2Proof.Machine.execAdcResultRead by_ n k s
  | .leStrobeArrive n => Sys2Proof.Machine.execLeStrobeArrive n s
  | .leSample n => Sys2Proof.Machine.execLeSample n s
  | .leWaitResume n => Sys2Proof.Machine.execLeWaitResume n s
  | .leWaitTimeout n => Sys2Proof.Machine.execLeWaitTimeout n s
  | .leEnable by_ n v => Sys2Proof.Machine.execLeEnable by_ n v s
  | .leDisable by_ n v => Sys2Proof.Machine.execLeDisable by_ n v s
  | .leSwapRequest by_ n => Sys2Proof.Machine.execLeSwapRequest by_ n s
  | .leswap by_ k v => Sys2Proof.Machine.execLeswap by_ k v s
  | .leSwapTask ch => Sys2Proof.Machine.execLeSwapTask ch s
  | .leMregWrite by_ n v => Sys2Proof.Machine.execLeMregWrite by_ n v s
  | .leRefWrite by_ n v => Sys2Proof.Machine.execLeRefWrite by_ n v s
  | .leFregWrite by_ n v => Sys2Proof.Machine.execLeFregWrite by_ n v s
  | .leMemoryWrite by_ n k v => Sys2Proof.Machine.execLeMemoryWrite by_ n k v s
  | .cmpRawChange n v t => Sys2Proof.Machine.execCmpRawChange n v t s
  | .cmpFilterChange n => Sys2Proof.Machine.execCmpFilterChange n s
  | .blankWindowClose n trip => Sys2Proof.Machine.execBlankWindowClose n trip s
  | .cmpEnable by_ n v => Sys2Proof.Machine.execCmpEnable by_ n v s
  | .cmpCapRead by_ n => Sys2Proof.Machine.execCmpCapRead by_ n s
  | .posInputChange n a b z t => Sys2Proof.Machine.execPosInputChange n a b z t s
  | .posTriggerTask ch => Sys2Proof.Machine.execPosTriggerTask ch s
  | .posFrameStart n t => Sys2Proof.Machine.execPosFrameStart n t s
  | .posFrameCheck n hi lo cds nE nW crc par => Sys2Proof.Machine.execPosFrameCheck n hi lo cds nE nW crc par s
  | .posFrameTimeout n => Sys2Proof.Machine.execPosFrameTimeout n s
  | .posSpeedTimeout n => Sys2Proof.Machine.execPosSpeedTimeout n s
  | .posEnable by_ n v => Sys2Proof.Machine.execPosEnable by_ n v s
  | .posUposRead by_ n => Sys2Proof.Machine.execPosUposRead by_ n s
  | .producerEvent p => Sys2Proof.Machine.execProducerEvent p s
  | .holdoffEnd ch => Sys2Proof.Machine.execHoldoffEnd ch s
  | .swtrig by_ v => Sys2Proof.Machine.execSwtrig by_ v s
  | .channelWrite by_ ch part v => Sys2Proof.Machine.execChannelWrite by_ ch part v s
  | .queueRecord c => Sys2Proof.Machine.execQueueRecord c s
  | .iceoi by_ c v => Sys2Proof.Machine.execIceoi by_ c v s
  | .icqdone by_ c v => Sys2Proof.Machine.execIcqdone by_ c v s
  | .icqrdWrite by_ c v => Sys2Proof.Machine.execIcqrdWrite by_ c v s
  | .icTargetEnable by_ c v => Sys2Proof.Machine.execIcTargetEnable by_ c v s
  | .icenset by_ k v => Sys2Proof.Machine.execIcenset by_ k v s
  | .icenclr by_ k v => Sys2Proof.Machine.execIcenclr by_ k v s
  | .iswset by_ v => Sys2Proof.Machine.execIswset by_ v s
  | .iswclr by_ v => Sys2Proof.Machine.execIswclr by_ v s
  | .moderationTimeout c => Sys2Proof.Machine.execModerationTimeout c s
  | .faultOccurrence => Sys2Proof.Machine.execFaultOccurrence s
  | .fack by_ v => Sys2Proof.Machine.execFack by_ v s
  | .shrel by_ k v => Sys2Proof.Machine.execShrel by_ k v s
  | .shgateWrite by_ v => Sys2Proof.Machine.execShgateWrite by_ v s
  | .frecpop by_ v => Sys2Proof.Machine.execFrecpop by_ v s
  | .comparatorTrip m => Sys2Proof.Machine.execComparatorTrip m s
  | .tollToggle => Sys2Proof.Machine.execTollToggle s
  | .tollfeed by_ v => Sys2Proof.Machine.execTollfeed by_ v s
  | .watchdogEnable by_ n v => Sys2Proof.Machine.execWatchdogEnable by_ n v s
  | .watchdogFeed by_ n v => Sys2Proof.Machine.execWatchdogFeed by_ n v s
  | .watchdogWarn n => Sys2Proof.Machine.execWatchdogWarn n s
  | .watchdogExpiry n => Sys2Proof.Machine.execWatchdogExpiry n s
  | .thermalWarning hot => Sys2Proof.Machine.execThermalWarning hot s
  | .thermalShutdown => Sys2Proof.Machine.execThermalShutdown s
  | .lockdownComplete => Sys2Proof.Machine.execLockdownComplete s
  | .supplyThresholdCross k rail => Sys2Proof.Machine.execSupplyThresholdCross k rail s
  | .referenceLost => Sys2Proof.Machine.execReferenceLost s
  | .add c p a b => Sys2Proof.Machine.execAdd c p a b s
  | .sub c p a b => Sys2Proof.Machine.execSub c p a b s
  | .and c p a b => Sys2Proof.Machine.execAnd c p a b s
  | .or c p a b => Sys2Proof.Machine.execOr c p a b s
  | .xor c p a b => Sys2Proof.Machine.execXor c p a b s
  | .cmp c p a b => Sys2Proof.Machine.execCmp c p a b s
  | .mov c p a b => Sys2Proof.Machine.execMov c p a b s
  | .tst c p a b => Sys2Proof.Machine.execTst c p a b s
  | .addv c p a b => Sys2Proof.Machine.execAddv c p a b s
  | .subv c p a b => Sys2Proof.Machine.execSubv c p a b s
  | .addsat c p a b => Sys2Proof.Machine.execAddsat c p a b s
  | .subsat c p a b => Sys2Proof.Machine.execSubsat c p a b s
  | .ld c p a m => Sys2Proof.Machine.execLd c p a m s
  | .st c p a m => Sys2Proof.Machine.execSt c p a m s
  | .lds c p a m => Sys2Proof.Machine.execLds c p a m s
  | .xchg c p a b disp => Sys2Proof.Machine.execXchg c p a b disp s
  | .shl c p a k => Sys2Proof.Machine.execShl c p a k s
  | .shr c p a k => Sys2Proof.Machine.execShr c p a k s
  | .sar c p a k => Sys2Proof.Machine.execSar c p a k s
  | .ror c p a k => Sys2Proof.Machine.execRor c p a k s
  | .neg c p a b => Sys2Proof.Machine.execNeg c p a b s
  | .not c p a b => Sys2Proof.Machine.execNot c p a b s
  | .clz c p a b => Sys2Proof.Machine.execClz c p a b s
  | .sxt c p a b => Sys2Proof.Machine.execSxt c p a b s
  | .bfx c p a b imm => Sys2Proof.Machine.execBfx c p a b imm s
  | .bfi c p a b imm => Sys2Proof.Machine.execBfi c p a b imm s
  | .bperm c p a b imm => Sys2Proof.Machine.execBperm c p a b imm s
  | .mul c p a b => Sys2Proof.Machine.execMul c p a b s
  | .mulu c p a b => Sys2Proof.Machine.execMulu c p a b s
  | .mac c p a b => Sys2Proof.Machine.execMac c p a b s
  | .macu c p a b => Sys2Proof.Machine.execMacu c p a b s
  | .productWrite c => Sys2Proof.Machine.execProductWrite c s
  | .qrd c p a => Sys2Proof.Machine.execQrd c p a s
  | .mwait c p => Sys2Proof.Machine.execMwait c p s
  | .div c p a b => Sys2Proof.Machine.execDiv c p a b s
  | .divu c p a b => Sys2Proof.Machine.execDivu c p a b s
  | .divideComplete c => Sys2Proof.Machine.execDivideComplete c s
  | .sprd c p a num => Sys2Proof.Machine.execSprd c p a num s
  | .spwr c p a num => Sys2Proof.Machine.execSpwr c p a num s
  | .movsg c p a sg => Sys2Proof.Machine.execMovsg c p a sg s
  | .movgs c p a sg => Sys2Proof.Machine.execMovgs c p a sg s
  | .bcc c p k disp => Sys2Proof.Machine.execBcc c p k disp s
  | .jmp c p disp => Sys2Proof.Machine.execJmp c p disp s
  | .jmpr c p a => Sys2Proof.Machine.execJmpr c p a s
  | .call c p disp => Sys2Proof.Machine.execCall c p disp s
  | .callr c p a => Sys2Proof.Machine.execCallr c p a s
  | .ret c p => Sys2Proof.Machine.execRet c p s
  | .jmpf c p imm => Sys2Proof.Machine.execJmpf c p imm s
  | .callf c p imm => Sys2Proof.Machine.execCallf c p imm s
  | .retf c p => Sys2Proof.Machine.execRetf c p s
  | .loop c p a disp => Sys2Proof.Machine.execLoop c p a disp s
  | .push c p a => Sys2Proof.Machine.execPush c p a s
  | .pop c p a => Sys2Proof.Machine.execPop c p a s
  | .nop c p => Sys2Proof.Machine.execNop c p s
  | .wait c p => Sys2Proof.Machine.execWait c p s
  | .retl c p => Sys2Proof.Machine.execRetl c p s
  | .trap c p imm => Sys2Proof.Machine.execTrap c p imm s
  | .sync c p => Sys2Proof.Machine.execSync c p s
  | .fbar c p => Sys2Proof.Machine.execFbar c p s
  | .fadd c p a b => Sys2Proof.Machine.execFadd c p a b s
  | .fsub c p a b => Sys2Proof.Machine.execFsub c p a b s
  | .fmul c p a b => Sys2Proof.Machine.execFmul c p a b s
  | .fdiv c p a b => Sys2Proof.Machine.execFdiv c p a b s
  | .fsqrt c p a b => Sys2Proof.Machine.execFsqrt c p a b s
  | .fcmp c p a b => Sys2Proof.Machine.execFcmp c p a b s
  | .fmov c p a b => Sys2Proof.Machine.execFmov c p a b s
  | .fneg c p a b => Sys2Proof.Machine.execFneg c p a b s
  | .fabs c p a b => Sys2Proof.Machine.execFabs c p a b s
  | .cvtif c p a b => Sys2Proof.Machine.execCvtif c p a b s
  | .cvtfi c p a b => Sys2Proof.Machine.execCvtfi c p a b s
  | .cvtqf c p a b => Sys2Proof.Machine.execCvtqf c p a b s
  | .cvtfq c p a b => Sys2Proof.Machine.execCvtfq c p a b s
  | .fmovwf c p a b => Sys2Proof.Machine.execFmovwf c p a b s
  | .fmovfw c p a b => Sys2Proof.Machine.execFmovfw c p a b s
  | .fld c p a m => Sys2Proof.Machine.execFld c p a m s
  | .fst c p a m => Sys2Proof.Machine.execFst c p a m s
  | .adc c p a b => Sys2Proof.Machine.execAdc c p a b s
  | .sbc c p a b => Sys2Proof.Machine.execSbc c p a b s
  | .pick c p a b imm => Sys2Proof.Machine.execPick c p a b imm s
  | .sti c p b disp v => Sys2Proof.Machine.execSti c p b disp v s
  | .illegalInstruction c => Sys2Proof.Machine.execIllegalInstruction c s
  | .interruptEntry c => Sys2Proof.Machine.execInterruptEntry c s
  | .fpExceptionEntry c => Sys2Proof.Machine.execFpExceptionEntry c s
  | .coreHalt c => Sys2Proof.Machine.execCoreHalt c s
  | .vecselWrite by_ c v => Sys2Proof.Machine.execVecselWrite by_ c v s
  | .patrolRead => Sys2Proof.Machine.execPatrolRead s
  | .sramScrubDone => Sys2Proof.Machine.execSramScrubDone s
  | .remapWrite by_ b e v => Sys2Proof.Machine.execRemapWrite by_ b e v s
  | .remapCopyDone => Sys2Proof.Machine.execRemapCopyDone s
  | .rawRead by_ => Sys2Proof.Machine.execRawRead by_ s
  | .rawWrite by_ => Sys2Proof.Machine.execRawWrite by_ s
  | .flashClaim by_ => Sys2Proof.Machine.execFlashClaim by_ s
  | .flashRelease by_ => Sys2Proof.Machine.execFlashRelease by_ s
  | .program by_ => Sys2Proof.Machine.execProgram by_ s
  | .erase by_ => Sys2Proof.Machine.execErase by_ s
  | .verify by_ margin count => Sys2Proof.Machine.execVerify by_ margin count s
  | .evalcal by_ => Sys2Proof.Machine.execEvalcal by_ s
  | .flashOperationEnd ok weak => Sys2Proof.Machine.execFlashOperationEnd ok weak s
  | .flashInitDone => Sys2Proof.Machine.execFlashInitDone s
  | .powerOnReset => Sys2Proof.Machine.execPowerOnReset s
  | .porRelease head => Sys2Proof.Machine.execPorRelease head s
  | .pinReset => Sys2Proof.Machine.execPinReset s
  | .deviceResetRequest by_ key => Sys2Proof.Machine.execDeviceResetRequest by_ key s
  | .coreResetRequest by_ v => Sys2Proof.Machine.execCoreResetRequest by_ v s
  | .corerunWrite by_ v => Sys2Proof.Machine.execCorerunWrite by_ v s
  | .coreResetEnd c => Sys2Proof.Machine.execCoreResetEnd c s
  | .shroudReady => Sys2Proof.Machine.execShroudReady s
  | .analogReady => Sys2Proof.Machine.execAnalogReady s
  | .bootRomRun => Sys2Proof.Machine.execBootRomRun s
  | .testReset => Sys2Proof.Machine.execTestReset s
  | .ioBankLatch k v33 => Sys2Proof.Machine.execIoBankLatch k v33 s
  | .portTrained p inv skew => Sys2Proof.Machine.execPortTrained p inv skew s
  | .portDown p => Sys2Proof.Machine.execPortDown p s
  | .linkErrorWindow p errs => Sys2Proof.Machine.execLinkErrorWindow p errs s
  | .timeFrame p t tx v back hops tail => Sys2Proof.Machine.execTimeFrame p t tx v back hops tail s
  | .timeFrameSend => Sys2Proof.Machine.execTimeFrameSend s
  | .dreq p t tail => Sys2Proof.Machine.execDreq p t tail s
  | .drsp p t t2 t3 sum => Sys2Proof.Machine.execDrsp p t t2 t3 sum s
  | .delayExchange p => Sys2Proof.Machine.execDelayExchange p s
  | .delayExchangeTimeout p => Sys2Proof.Machine.execDelayExchangeTimeout p s
  | .enum p n tail => Sys2Proof.Machine.execEnum p n tail s
  | .enumDone p count ring ovr sum => Sys2Proof.Machine.execEnumDone p count ring ovr sum s
  | .lstat p addr port state sum => Sys2Proof.Machine.execLstat p addr port state sum s
  | .lockdownFrame p addr cls time sum => Sys2Proof.Machine.execLockdownFrame p addr cls time sum s
  | .packetFrame p dst src kind crc bytes aborted => Sys2Proof.Machine.execPacketFrame p dst src kind crc bytes aborted s
  | .packetPadTimeout p dst src kind crc bytes => Sys2Proof.Machine.execPacketPadTimeout p dst src kind crc bytes s
  | .chainTimeTimeout => Sys2Proof.Machine.execChainTimeTimeout s
  | .enumStart by_ => Sys2Proof.Machine.execEnumStart by_ s
  | .delayMeasureStart by_ => Sys2Proof.Machine.execDelayMeasureStart by_ s
  | .lnktimelRead by_ => Sys2Proof.Machine.execLnktimelRead by_ s
  | .status => Sys2Proof.Machine.execStatus s
  | .read => Sys2Proof.Machine.execRead s
  | .write => Sys2Proof.Machine.execWrite s
  | .readBlock => Sys2Proof.Machine.execReadBlock s
  | .writeBlock => Sys2Proof.Machine.execWriteBlock s
  | .enumerate => Sys2Proof.Machine.execEnumerate s
  | .enumerateTimeout => Sys2Proof.Machine.execEnumerateTimeout s
  | .timeSync => Sys2Proof.Machine.execTimeSync s
  | .snapshot => Sys2Proof.Machine.execSnapshot s
  | .calibrate => Sys2Proof.Machine.execCalibrate s
  | .imageChunk => Sys2Proof.Machine.execImageChunk s
  | .imageCommit => Sys2Proof.Machine.execImageCommit s
  | .tkStageCommand => Sys2Proof.Machine.execTkStageCommand s
  | .badOpcode => Sys2Proof.Machine.execBadOpcode s
  | .firmwareOpcode => Sys2Proof.Machine.execFirmwareOpcode s
  | .fwrpl by_ v => Sys2Proof.Machine.execFwrpl by_ v s
  | .firmwareTimeout => Sys2Proof.Machine.execFirmwareTimeout s
  | .recoveryReset => Sys2Proof.Machine.execRecoveryReset s
  | .doorbell by_ count => Sys2Proof.Machine.execDoorbell by_ count s
  | .hrack by_ v => Sys2Proof.Machine.execHrack by_ v s
  | .spiCmdFrame bytes => Sys2Proof.Machine.execSpiCmdFrame bytes s
  | .spiRplFrame whole => Sys2Proof.Machine.execSpiRplFrame whole s
  | .spiStatFrame => Sys2Proof.Machine.execSpiStatFrame s
  | .spiGapTimeout => Sys2Proof.Machine.execSpiGapTimeout s
  | .spiCsRise => Sys2Proof.Machine.execSpiCsRise s
  | .pcieInboundRequest req => Sys2Proof.Machine.execPcieInboundRequest req s
  | .outboundCompletion c v ok poison => Sys2Proof.Machine.execOutboundCompletion c v ok poison s
  | .outboundReadTimeout c => Sys2Proof.Machine.execOutboundReadTimeout c s
  | .pcieLinkUp speed width => Sys2Proof.Machine.execPcieLinkUp speed width s
  | .pcieLinkDown => Sys2Proof.Machine.execPcieLinkDown s
  | .pcieReset low => Sys2Proof.Machine.execPcieReset low s
  | .captureEnable by_ r v => Sys2Proof.Machine.execCaptureEnable by_ r v s
  | .captureDisable by_ r v => Sys2Proof.Machine.execCaptureDisable by_ r v s
  | .captureFlush r => Sys2Proof.Machine.execCaptureFlush r s
  | .captureStartTask ch => Sys2Proof.Machine.execCaptureStartTask ch s
  | .captureStopTask ch => Sys2Proof.Machine.execCaptureStopTask ch s
  | .captureSnapshotTask ch => Sys2Proof.Machine.execCaptureSnapshotTask ch s
  | .tkStageWrite by_ v => Sys2Proof.Machine.execTkStageWrite by_ v s
  | .nonceReady => Sys2Proof.Machine.execNonceReady s
  | .tkCommitA by_ v => Sys2Proof.Machine.execTkCommitA by_ v s
  | .tkCommitB by_ v => Sys2Proof.Machine.execTkCommitB by_ v s
  | .tkClear by_ v => Sys2Proof.Machine.execTkClear by_ v s
  | .tkExpiry => Sys2Proof.Machine.execTkExpiry s
  | .verifyStart by_ bank => Sys2Proof.Machine.execVerifyStart by_ bank s
  | .verificationEnd progOk => Sys2Proof.Machine.execVerificationEnd progOk s
  | .rngRead by_ => Sys2Proof.Machine.execRngRead by_ s
  | .jtagExtest cells => Sys2Proof.Machine.execJtagExtest cells s
  | .jtagSamplePreload cells => Sys2Proof.Machine.execJtagSamplePreload cells s
  | .jtagIdcode => Sys2Proof.Machine.execJtagIdcode s
  | .jtagBypass => Sys2Proof.Machine.execJtagBypass s
  | .thermalWarningClear => Sys2Proof.Machine.execThermalWarningClear s
  | .referenceReturn => Sys2Proof.Machine.execReferenceReturn s
  | .deviceResetRelease head => Sys2Proof.Machine.execDeviceResetRelease head s
  | .producerHoldEnd p => Sys2Proof.Machine.execProducerHoldEnd p s
  | .laneAlignment p align inv skew partner => Sys2Proof.Machine.execLaneAlignment p align inv skew partner s
  | .spiIgnoredFrame => Sys2Proof.Machine.execSpiIgnoredFrame s

end Sys2Proof.Machine
end

