-- ==== Sys2Proof/Machine/Idle.lean ====
section
/-!
DEFINITION. What a tick does while no command waits.
-/
namespace Sys2Proof.Machine
open Sys2Proof

/-- One tick of 625 ps passes. -/
def Dev.tick (d : Dev) : Dev := { d with now := d.now + tuTick }

/-- What a tick does (R29): frames whose boundary has come leave the link's ports, replies take the room they leave, words that wait for
a tag are written, the capture engine goes on. -/
def tickWork (d : Dev) : Dev := capSnapAll (capTick (hostIssueAll (hstFlush (lnkPump d.tick))))

/-- A step with no command.  DESIGN CHOICE (log entry 1): it is a tick, of which a held reset lets only the time pass (R343). -/
def idle (s : State) : State :=
  { s with toDev := if s.sys.rst.isSome then s.toDev.tick else settle (timely tickWork (catchUp s.toDev)) }

end Sys2Proof.Machine
end

