-- ==== Sys2Proof/Safety.lean ====
section
/-!
DEFINITION. What statements call a safe step, a machine that is not in reset, an access that acts at once, and a core that executes
an instruction.
-/
namespace Sys2Proof.Machine
open Sys2Proof

/-- A step is safe: it answers a next state. -/
def Safe (s : State) : Prop := ∃ t, step s = .next t

/-- No device reset is held, and no cut or trip that is due in device time has been passed over (R19). -/
def Up (s : State) : Prop := s.sys.rst = none ∧ overdue s.toDev = false

/-- The device as a command finds it: what the shroud had to do is done (R19), where no reset holds the device. -/
def found (s : State) : Dev := if s.sys.rst.isSome then s.toDev else catchUp s.toDev

/-- Nothing that the shroud has to do falls due before instant t (R19). -/
def Calm (s : State) (t : Nat) : Prop := overdue (s.toDev.at t) = false

/-- Nothing that the shroud has to do falls due at any instant up to t. -/
def CalmTo (s : State) (t : Nat) : Prop := ∀ u, u ≤ t → Calm s u

/-- The device from which a requester's access goes on: it holds the tag of the access (R43, R468). -/
def asked (by_ : Requester) (d : Dev) : Dev := d.tagPulse (reqHolder by_) 1

/-- An access to a register acts at once: the device is up, and the register's domain runs (R38, R42). -/
def Open (s : State) (r : Reg) : Prop := Up s ∧ regWaits s.toDev r = false

/-- A requester's access to a register acts at once: it also has a tag left for it (R46). -/
def Asks (by_ : Requester) (s : State) (r : Reg) : Prop := Open s r ∧ tagsFull s.toDev (reqHolder by_) = false

/-- Core c executes a legal instruction of `len` bytes: it runs and holds a tag, no load of it is in progress, no floating-point
exception is due, and the fetch finds the bytes, leaving the device in state d. -/
def Issues (s : State) (c : Fin 5) (len : Nat) (d : Dev) : Prop :=
  Up s ∧ coreRuns s.toDev c = true ∧ s.core[c].ldWait = [] ∧ s.core[c].ldBack = [] ∧ s.core[c].fpDue = false ∧
    fetchInstr c len s.toDev = (.ok, d)

/-- The device as the instruction's own effect finds it: the next offset, and the tag the instruction takes and returns (R43); none for
an instruction with neither a result nor an access. -/
def issuedTags (tags : Nat) (c : Fin 5) (len : Nat) (d : Dev) : Dev := (d.coreU c (coreNext len)).tagPulse (coreHolder c) tags
def issued (c : Fin 5) (len : Nat) (d : Dev) : Dev := issuedTags 1 c len d
def issuedPlain (c : Fin 5) (len : Nat) (d : Dev) : Dev := issuedTags 0 c len d

/-- The answer of a command that leaves the device in state d, after which the interrupt controller has followed its sources. -/
def after (s : State) (d : Dev) : Outc := .next { s with toDev := settle d }

/-- The answer of an instruction that leaves the device in state e but for core c, which `g` changes. -/
def endsIn (s : State) (c : Fin 5) (e : Dev) (g : CoreSt → CoreSt) : Outc := after s (e.coreU c g)

/-- The answer of an instruction that takes the precise exception k: the core as it was before the instruction enters it. -/
def trapsIn (s : State) (c : Fin 5) (k aofs seg detail : Nat) (e : Dev) : Outc :=
  after s (except c k s.core[c].pc.toNat s.core[c].pc.toNat aofs seg detail { e with core := e.core.set c s.core[c] })

/-- The answer of an instruction that breaks R259 or R260, or whose combination is illegal (R261): the illegal-instruction exception,
from the device as the fetch leaves it. -/
def illegalIn (s : State) (c : Fin 5) (d : Dev) : Outc := after s (except c 8 s.core[c].pc.toNat s.core[c].pc.toNat 0 0 0 d)

/-- A command completes: exec answers a next state with the queue kept, and P holds of the device in it. -/
def Does (i : Instr) (s : State) (P : Dev → Prop) : Prop := ∃ t, exec i s = .next t ∧ t.pending = s.pending ∧ P t.toDev

/-- PSW with its four result flags replaced (R250). -/
def withFlags (n z c v : Bool) (p : Word) : Word :=
  p |> PSW.N.put (b2n n) |> PSW.Z.put (b2n z) |> PSW.C.put (b2n c) |> PSW.V.put (b2n v)

/-- The general registers with register a replaced. -/
def CoreSt.setW (x : CoreSt) (a : Fin 16) (v : Word) : CoreSt := { x with w := x.w.set a v }

/-- The commands that are events of the board, which a held device reset does not stop: resets and their release, the pins and the
test access port, the monitors, and the inputs of comparators and position channels (R343-R345, R220-R222, R462). -/
def board : Instr → Bool
  | .powerOnReset | .porRelease _ | .pinReset | .deviceResetRelease _ | .thermalWarning _ | .thermalShutdown | .thermalWarningClear
  | .supplyThresholdCross _ _ | .referenceLost | .referenceReturn | .pcieReset _ | .jtagExtest _ | .jtagSamplePreload _ | .jtagIdcode
  | .jtagBypass | .testReset | .ioBankLatch _ _ | .cmpRawChange _ _ _ | .posInputChange _ _ _ _ _ => true
  | _ => false

/-- The interrupt controller follows its sources (R201): where some target stamps or withholds requests, a source has the instant at
which it became pending exactly while it is pending. -/
def Followed (d : Dev) : Prop := icWatch d = true → ∀ src, src < 384 → (icSrc d src).pendAt.isSome = icPending d src

end Sys2Proof.Machine
end

