-- ==== Sys2Proof/Certificates/Slice0/Obligations.lean ====
section
/-!
DEFINITION. What the model is claimed to do, for the provers: one proposition for each statement.
-/
open Sys2Proof Sys2Proof.Machine

/-- ADD, SUB and CMP in every form and at every width (R263, R264): result, N, Z, the carry or borrow C and the signed overflow V. The
operand y is a register, an immediate or memory; e is the device after it is read. AND, OR, XOR, TST and MOV in every form and at every
width (R263): N and Z from the result, V cleared, C kept; MOV sets no flag. Where the spec leaves a choice it rests on the readings of
log entries 13, 78. -/
def Obligations.IntegerArithmetic : Prop :=
  (∀ (s : State) (c : Fin 5) (p : Pre) (a : Fin 16) (b : AluB) (y : Word) (d e : Dev),
     legalPre c p (aluMem b) .yes = true → Issues s c (p.len + aluLen p.width b) d →
     aluY c p b (issued c (p.len + aluLen p.width b) d) = .ok y e →
     let m := 2 ^ p.width.bits
     let X := (e.w c a).toNat % m
     let Y := y.toNat % m
     let sg := sextN p.width.bits
     let sum := (X + Y) % m
     let dif := (X + m - Y) % m
     let subFlags := withFlags (dif.testBit (p.width.bits - 1)) (dif == 0) (decide (X < Y)) (sg dif != sg X - sg Y)
     exec (.add c p a b) s = endsIn s c e (fun x => { x.setW a (BitVec.ofNat 32 sum) with
       psw := withFlags (sum.testBit (p.width.bits - 1)) (sum == 0) (decide (m ≤ X + Y)) (sg sum != sg X + sg Y) x.psw }) ∧
     exec (.sub c p a b) s = endsIn s c e (fun x => { x.setW a (BitVec.ofNat 32 dif) with psw := subFlags x.psw }) ∧
     exec (.cmp c p a b) s = endsIn s c e (fun x => { x with psw := subFlags x.psw })) ∧
  (∀ (s : State) (c : Fin 5) (p : Pre) (a : Fin 16) (b : AluB) (y : Word) (d e : Dev),
     legalPre c p (aluMem b) .yes = true → Issues s c (p.len + aluLen p.width b) d →
     aluY c p b (issued c (p.len + aluLen p.width b) d) = .ok y e →
     let m := 2 ^ p.width.bits
     let X := (e.w c a).toNat % m
     let Y := y.toNat % m
     let nzv (r : Nat) (q : Word) : Word := withFlags (r.testBit (p.width.bits - 1)) (r == 0) (PSW.C.bit q) false q
     let put (r : Nat) : Outc := endsIn s c e fun x => { x.setW a (BitVec.ofNat 32 r) with psw := nzv r x.psw }
     exec (.and c p a b) s = put (X &&& Y) ∧
     exec (.or c p a b) s = put (X ||| Y) ∧
     exec (.xor c p a b) s = put (X ^^^ Y) ∧
     exec (.tst c p a b) s = endsIn s c e (fun x => { x with psw := nzv (X &&& Y) x.psw }) ∧
     exec (.mov c p a b) s = endsIn s c e (fun x => x.setW a (BitVec.ofNat 32 Y)))

/-- ADDV and SUBV (R263, R270): without overflow the sum or difference and its flags; with overflow and OVE = 0 the wrapped result, the
flags and OVS; with overflow and OVE = 1 the overflow exception of the unchanged core. ADDSAT and SUBSAT (R263): the exact sum or
difference, or the nearest end of the 32-bit signed range with V = 1; C is kept. Where the spec leaves a choice it rests on the
readings of log entries 13, 78. -/
def Obligations.CheckedAndSaturating : Prop :=
  (∀ (s : State) (c : Fin 5) (p : Pre) (a : Fin 16) (b : AluB) (y : Word) (d e : Dev),
     legalPre c p (aluMem b) .no = true → Issues s c (p.len + aluLen p.width b) d →
     aluY c p b (issued c (p.len + aluLen p.width b) d) = .ok y e →
     let X := e.w c a
     let flags (r : Word) (cy ovf : Bool) (q : Word) : Word := withFlags r.msb (r == 0) cy ovf q
     let sticky (ovf : Bool) (q : Word) : Word := if ovf then PSW.OVS.put 1 q else q
     let sumV := (X + y).toInt != X.toInt + y.toInt
     let difV := (X - y).toInt != X.toInt - y.toInt
     exec (.addv c p a b) s = (if sumV && PSW.OVE.bit e.core[c].psw then trapsIn s c 11 0 0 0 e else endsIn s c e fun x =>
       { x.setW a (X + y) with psw := sticky sumV (flags (X + y) (decide (2 ^ 32 ≤ X.toNat + y.toNat)) sumV x.psw) }) ∧
     exec (.subv c p a b) s = (if difV && PSW.OVE.bit e.core[c].psw then trapsIn s c 11 0 0 0 e else endsIn s c e fun x =>
       { x.setW a (X - y) with psw := sticky difV (flags (X - y) (decide (X.toNat < y.toNat)) difV x.psw) })) ∧
  (∀ (s : State) (c : Fin 5) (p : Pre) (a : Fin 16) (b : AluB) (y : Word) (d e : Dev),
     legalPre c p (aluMem b) .no = true → Issues s c (p.len + aluLen p.width b) d →
     aluY c p b (issued c (p.len + aluLen p.width b) d) = .ok y e →
     let sat (i : Int) : Word := if 2 ^ 31 ≤ i then 0x7FFFFFFF else if i < -(2 ^ 31) then 0x80000000 else BitVec.ofInt 32 i
     let done (i : Int) : Outc := endsIn s c e fun x => { x.setW a (sat i) with
       psw := withFlags (sat i).msb (sat i == 0) (PSW.C.bit x.psw) (decide (2 ^ 31 ≤ i ∨ i < -(2 ^ 31))) x.psw }
     exec (.addsat c p a b) s = done ((e.w c a).toInt + y.toInt) ∧
     exec (.subsat c p a b) s = done ((e.w c a).toInt - y.toInt))

/-- SHL, SHR, SAR and ROR in both forms and at every width (R266, R267): a count of 0 leaves A and C and sets N and Z from A; another count
shifts, and C is the last bit shifted out; V is kept. Where the spec leaves a choice it rests on the readings of log entries 13, 78,
82. -/
def Obligations.Shifts : Prop :=
  ∀ (s : State) (c : Fin 5) (p : Pre) (a : Fin 16) (k : ShiftBy) (d : Dev),
    let len := p.len + (match k with | .reg _ => 2 | .imm _ => 3)
    let e := issued c len d
    let n := match k with | .reg b => (e.w c b).toNat % 32 | .imm i => i.toNat
    let W := p.width.bits
    let A := (e.w c a).toNat % 2 ^ W
    legalPre c p false .yes = true → Issues s c len d → n < 32 →
    let nz (r : Nat) (q : Word) : Word := q |> PSW.N.put (b2n (r.testBit (W - 1))) |> PSW.Z.put (b2n (r == 0))
    let ends (r : Nat) (cy : Bool) : Outc :=
      endsIn s c e fun x => if n = 0 then { x with psw := nz A x.psw }
        else { x.setW a (BitVec.ofNat 32 r) with psw := PSW.C.put (b2n cy) (nz r x.psw) }
    let sg := sextN W A
    let ror := A / 2 ^ (n % W) + A % 2 ^ (n % W) * 2 ^ (W - n % W)
    exec (.shl c p a k) s = ends (A * 2 ^ n % 2 ^ W) (decide (n ≤ W) && A.testBit (W - n)) ∧
    exec (.shr c p a k) s = ends (A / 2 ^ n) (A.testBit (n - 1)) ∧
    exec (.sar c p a k) s = ends (BitVec.ofInt W (sg / 2 ^ n)).toNat (sg / 2 ^ (n - 1) % 2 == 1) ∧
    exec (.ror c p a k) s = ends (ror % 2 ^ W) (ror.testBit (W - 1))

/-- NEG and NOT at every width, CLZ, and SXT of 8 or 16 bits (R266). ADC, SBC and PICK (R279): the carry in and out, the borrow in and out,
and the move under a condition; PICK's reserved condition 0xF and a condition byte above it are illegal. Where the spec leaves a choice
it rests on the readings of log entries 13, 78, 83. -/
def Obligations.OneOperand : Prop :=
  (∀ (s : State) (c : Fin 5) (p : Pre) (a b : Fin 16) (d : Dev),
     let e := issued c (p.len + 2) d
     let W := p.width.bits
     let B := (e.w c b).toNat % 2 ^ W
     let put (r : Word) (f : Word → Word) : Outc := endsIn s c e fun x => { x.setW a r with psw := f x.psw }
     let nz (n z : Bool) (q : Word) : Word := q |> PSW.N.put (b2n n) |> PSW.Z.put (b2n z)
     Issues s c (p.len + 2) d →
     (legalPre c p false .yes = true →
       exec (.neg c p a b) s = put (BitVec.ofNat 32 ((2 ^ W - B) % 2 ^ W))
         (withFlags (decide (B ≠ 0 ∧ B ≤ 2 ^ (W - 1))) (B == 0) (B != 0) (B == 2 ^ (W - 1))) ∧
       exec (.not c p a b) s = put (BitVec.ofNat 32 (2 ^ W - 1 - B)) (nz (decide (B < 2 ^ (W - 1))) (B == 2 ^ W - 1))) ∧
     (legalPre c p false .no = true →
       exec (.clz c p a b) s = put (BitVec.ofNat 32 (if e.w c b = 0 then 32 else 31 - (e.w c b).toNat.log2))
         (PSW.Z.put (b2n (e.w c b).msb))) ∧
     (legalPre c p false .required = true →
       exec (.sxt c p a b) s = put (BitVec.ofInt 32 (sextN W B)) (nz (decide (2 ^ (W - 1) ≤ B)) (B == 0)))) ∧
  (∀ (s : State) (c : Fin 5) (p : Pre) (a b : Fin 16) (imm : Byte) (d : Dev),
     legalPre c p false .no = true →
     (let e := issued c (p.len + 3) d
      let X := e.w c a
      let Y := e.w c b
      let k := b2n (PSW.C.bit e.core[c].psw)
      let sum := X + Y + BitVec.ofNat 32 k
      let dif := X - Y - BitVec.ofNat 32 k
      let put (r : Word) (cy v : Bool) : Outc := endsIn s c e fun x => { x.setW a r with psw := withFlags r.msb (r == 0) cy v x.psw }
      Issues s c (p.len + 3) d →
       exec (.adc c p a b) s = put sum (decide (2 ^ 32 ≤ X.toNat + Y.toNat + k)) (sum.toInt != X.toInt + Y.toInt + k) ∧
       exec (.sbc c p a b) s = put dif (decide (X.toNat < Y.toNat + k)) (dif.toInt != X.toInt - Y.toInt - k)) ∧
     (let e := issued c (p.len + 4) d
      Issues s c (p.len + 4) d →
       exec (.pick c p a b imm) s = match condOf imm.toNat with
         | some k => if condHolds k e.core[c].psw then endsIn s c e fun x => x.setW a (e.w c b) else after s e
         | none => illegalIn s c d))

/-- BFX, BFI and BPERM (R267), bit by bit: the field is bits POS to min(31, POS + LEN - 1). Where the spec leaves a choice it rests on the
readings of log entries 13, 78, 83. -/
def Obligations.BitFields : Prop :=
  ∀ (s : State) (c : Fin 5) (p : Pre) (a b : Fin 16) (imm : BitVec 16) (perm : Byte) (d : Dev),
    legalPre c p false .no = true →
    let pos := imm.toNat % 32
    let top := min 31 (pos + imm.toNat / 32 % 32)
    let e := issued c (p.len + 4) d
    (Issues s c (p.len + 4) d → imm.toNat < 2 ^ 11 → ∃ r : Word,
      (∀ i < 32, r.getLsbD i = if i ≤ top - pos then (e.w c b).getLsbD (pos + i) else imm.getLsbD 10 && (e.w c b).getLsbD top) ∧
      exec (.bfx c p a b imm) s = endsIn s c e fun x => { x.setW a r with
        psw := x.psw |> PSW.N.put (b2n r.msb) |> PSW.Z.put (b2n (r == 0)) }) ∧
    (Issues s c (p.len + 4) d → imm.toNat < 2 ^ 10 → ∃ r : Word,
      (∀ i < 32, r.getLsbD i = if pos ≤ i ∧ i ≤ top then (e.w c b).getLsbD (i - pos) else (e.w c a).getLsbD i) ∧
      exec (.bfi c p a b imm) s = endsIn s c e fun x => x.setW a r) ∧
    (let f := issued c (p.len + 3) d
     Issues s c (p.len + 3) d → ∃ r : Word,
      (∀ i < 4, r.toNat / 256 ^ i % 256 = (f.w c b).toNat / 256 ^ (perm.toNat / 4 ^ i % 4) % 256) ∧
      exec (.bperm c p a b perm) s = endsIn s c f fun x => x.setW a r)

/-- LD, LDS and FLD (R265, R276): the value read, zero- or sign-extended, and the base register that form 3 moves on; LD and LDS of form 3
into their own base are illegal. Where the spec leaves a choice it rests on the readings of log entries 12, 13, 78, 134. -/
def Obligations.Loads : Prop :=
  ∀ (s : State) (c : Fin 5) (p : Pre) (a : Fin 16) (fa : Fin 8) (m : MemForm) (d : Dev),
    Issues s c (p.len + memLen m) d →
    let e := issued c (p.len + memLen m) d
    let get (size : Nat) : Acc Nat := load c (dataSeg p (memBase m)) (reqLoad c) false (memOff c m e) size e
    let moved (size : Nat) (x : CoreSt) : CoreSt := match m with
      | .post b => x.setW b (x.w[b] + BitVec.ofNat 32 size)
      | _ => x
    (∀ v f, legalPre c p true .yes = true → get p.width.bytes = .ok v f → exec (.ld c p a m) s =
      if m = .post a then illegalIn s c d
      else endsIn s c f fun x => (moved p.width.bytes x).setW a (BitVec.ofNat 32 v)) ∧
    (∀ v f, legalPre c p true .required = true → get p.width.bytes = .ok v f → exec (.lds c p a m) s =
      if m = .post a then illegalIn s c d
      else endsIn s c f fun x => (moved p.width.bytes x).setW a (BitVec.ofInt 32 (sextN p.width.bits v))) ∧
    (∀ v f, legalPre c p true .no = true → get 4 = .ok v f → exec (.fld c p fa m) s =
      endsIn s c f fun x => let y := moved 4 x; { y with f := y.f.set fa (BitVec.ofNat 32 v) })

/-- ST, FST and STI (R265, R276, R279) where the store is permitted and passes over nothing the shroud has to do: nothing but the store,
and the base register of form 3. Where the spec leaves a choice it rests on the readings of log entries 12, 13, 78. -/
def Obligations.Stores : Prop :=
  ∀ (s : State) (c : Fin 5) (p : Pre) (a b : Fin 16) (fa : Fin 8) (m : MemForm) (disp : Disp) (v : Word) (d f : Dev),
    let e := issued c (p.len + memLen m) d
    let moved (size : Nat) : Dev := match m with
      | .post r => e.coreU c fun x => x.setW r (x.w[r] + BitVec.ofNat 32 size)
      | _ => e
    let put (size : Nat) (w : Word) : Prop :=
      store c (dataSeg p (memBase m)) (memOff c m e) size w.toNat (moved size) = .ok () f
    (Issues s c (p.len + memLen m) d →
      (legalPre c p true .yes = true → put p.width.bytes (e.w c a) → Calm s f.now → exec (.st c p a m) s = after s f) ∧
      (legalPre c p true .no = true → put 4 (e.fr c fa) → Calm s f.now → exec (.fst c p fa m) s = after s f)) ∧
    (let g := issued c (p.len + 7 + dispLen disp) d
     Issues s c (p.len + 7 + dispLen disp) d → legalPre c p true .yes = true →
      store c (dataSeg p b) (dispOff (g.w c b) (dispInt disp)) p.width.bytes v.toNat g = .ok () f → Calm s f.now →
      exec (.sti c p b disp v) s = after s f)

/-- XCHG, PUSH and POP (R265, R255, R274): the exchange, the word of A from before the decrement stored at the new W15, and the popped
word, which is what POP W15 leaves in W15. Where the spec leaves a choice it rests on the readings of log entries 13, 78. -/
def Obligations.ExchangeAndStack : Prop :=
  ∀ (s : State) (c : Fin 5) (p : Pre) (a b : Fin 16) (disp : BitVec 8) (v : Nat) (d f g : Dev),
    (let e := issued c (p.len + 3) d
     let off := dispOff (e.w c b) disp.toInt
     legalPre c p true .yes = true → Issues s c (p.len + 3) d →
      load c (dataSeg p b) (reqXchg c) true off p.width.bytes e = .ok v f →
      store c (dataSeg p b) off p.width.bytes (e.w c a).toNat (f.coreU c fun x => x.setW a (BitVec.ofNat 32 v)) = .ok () g →
      Calm s g.now → exec (.xchg c p a b disp) s = after s g) ∧
    (let e := issued c (p.len + 2) d
     let sp := e.w c 15
     legalPre c p false .no = true → Issues s c (p.len + 2) d →
      (store c .ss ((sp - 4).toNat % 65536) 4 (e.w c a).toNat (e.coreU c fun x => x.setW 15 (sp - 4)) = .ok () g →
        Calm s g.now → exec (.push c p a) s = after s g) ∧
      (load c .ss (reqLoad c) false (sp.toNat % 65536) 4 e = .ok v f →
        exec (.pop c p a) s = endsIn s c f fun x => (x.setW 15 (sp + 4)).setW a (BitVec.ofNat 32 v)))

/-- The multiplier (R268, R269): each instruction puts its product, or the sum with it, on its way, an earlier product being written;
PRODUCT_WRITE and MWAIT write it. A read of MH:ML, by QRD or by SPRD, returns the previous product where fewer than three instructions
lie between, the new one after an MWAIT or a level entry (where no window stands), and otherwise one of the two, which is left open;
QRD rounds it to Q2.30, halves away from zero, saturated. Where the spec leaves a choice it rests on the readings of log entries 13,
78, 85. -/
def Obligations.Multiplier : Prop :=
  ∀ (s : State) (c : Fin 5) (p : Pre) (a b : Fin 16) (d : Dev),
    legalPre c p false .no = true →
    (let e := issued c (p.len + 2) d
     let x0 := drainMul e.core[c]
     let old : BitVec 64 := x0.mh ++ x0.ml
     let X := e.w c a
     let Y := e.w c b
     let start (m : BitVec 64) : Outc :=
      endsIn s c e fun _ => { x0 with prod := some m, win := some { prev := old, new := m, since := 0 } }
     Issues s c (p.len + 2) d →
      exec (.mul c p a b) s = start (X.signExtend 64 * Y.signExtend 64) ∧
      exec (.mulu c p a b) s = start (X.zeroExtend 64 * Y.zeroExtend 64) ∧
      exec (.mac c p a b) s = start (old + X.signExtend 64 * Y.signExtend 64) ∧
      exec (.macu c p a b) s = start (old + X.zeroExtend 64 * Y.zeroExtend 64) ∧
      (let rounds (m : BitVec 64) (f : Dev) : Prop :=
        let q := m.toInt
        let r : Int := if q < 0 then -((-q + 2 ^ 29) / 2 ^ 30) else (q + 2 ^ 29) / 2 ^ 30
        let sat := max (-(2 ^ 31)) (min (2 ^ 31 - 1) r)
        exec (.qrd c p a) s = endsIn s c f fun x => { x.setW a (BitVec.ofInt 32 sat) with psw := PSW.V.put (b2n (r != sat)) x.psw }
       (s.core[c].win = none → rounds old e) ∧
       (∀ w, s.core[c].win = some w → w.since < 3 → rounds w.prev e) ∧
       (∀ w, s.core[c].win = some w → 3 ≤ w.since → rounds w.prev e.bumpFree ∨ rounds w.new e.bumpFree))) ∧
    (let e := issued c (p.len + 3) d
     let x0 := drainMul e.core[c]
     let reads (m : BitVec 64) (f : Dev) : Prop :=
      exec (.sprd c p a 0x01) s = (endsIn s c f fun x => x.setW a (m.extractLsb' 32 32)) ∧
      exec (.sprd c p a 0x02) s = (endsIn s c f fun x => x.setW a (m.extractLsb' 0 32))
     Issues s c (p.len + 3) d →
      (s.core[c].win = none → reads (x0.mh ++ x0.ml) e) ∧
      (∀ w, s.core[c].win = some w → w.since < 3 → reads w.prev e) ∧
      (∀ w, s.core[c].win = some w → 3 ≤ w.since → reads w.prev e.bumpFree ∨ reads w.new e.bumpFree)) ∧
    (Issues s c (p.len + 1) d → exec (.mwait c p) s =
      endsIn s c (issuedPlain c (p.len + 1) d) fun x => { drainMul x with win := none }) ∧
    (∀ m, Up s → s.core[c].prod = some m → exec (.productWrite c) s =
      endsIn s c s.toDev fun x => { x with mh := m.extractLsb' 32 32, ml := m.extractLsb' 0 32, prod := none })

/-- DIV and DIVU (R270) in every case of its table, and DIVIDE_COMPLETE, which writes DQ and DM. Where the spec leaves a choice it rests on
the readings of log entries 13, 78, 84. -/
def Obligations.Divider : Prop :=
  ∀ (s : State) (c : Fin 5) (p : Pre) (a b : Fin 16) (d : Dev),
    (let e := issued c (p.len + 2) d
     let X := e.w c a
     let Y := e.w c b
     let dze := PSW.DZE.bit e.core[c].psw
     let ove := PSW.OVE.bit e.core[c].psw
     let ends (q r : Word) (f : Word → Word) : Outc :=
      endsIn s c e fun x => { drainDiv x with divn := some (q, r), psw := f x.psw }
     legalPre c p false .no = true → Issues s c (p.len + 2) d →
      exec (.div c p a b) s =
        (if Y = 0 then
          if dze then trapsIn s c 10 0 0 0 e else ends (if X.msb then 0x80000000 else 0x7FFFFFFF) X (PSW.DZ.put 1)
        else if X = 0x80000000 ∧ Y = 0xFFFFFFFF then
          if ove then trapsIn s c 11 0 0 0 e else ends 0x80000000 0 (PSW.OVS.put 1)
        else ends (X.sdiv Y) (X.srem Y) id) ∧
      exec (.divu c p a b) s =
        (if Y = 0 then if dze then trapsIn s c 10 0 0 0 e else ends 0xFFFFFFFF X (PSW.DZ.put 1)
        else ends (X / Y) (X % Y) id)) ∧
    (∀ q r, Up s → s.core[c].divn = some (q, r) →
      exec (.divideComplete c) s = endsIn s c s.toDev fun x => { x with dq := q, dm := r, divn := none })

/-- SPRD and SPWR (R252): which special numbers there are, what each reads, and which bits each write changes: PSW keeps LEVEL, FPSR keeps
TP, FPXPC, DTBASE and COREID stay; MH, ML, DQ and DM wait for the results on their way. MOVSG and MOVGS (R271, R305): the selector and
the descriptor that the walk finds, the segment fault of a walk that finds none, the illegal MOVSG of CS, and the selector read back.
Where the spec leaves a choice it rests on the readings of log entries 13, 78, 85. -/
def Obligations.SpecialRegisters : Prop :=
  (∀ (s : State) (c : Fin 5) (p : Pre) (a : Fin 16) (num : Byte) (l : Fin 8) (d : Dev),
     legalPre c p false .no = true → Issues s c (p.len + 3) d →
     let e := issued c (p.len + 3) d
     let x := e.core[c]
     let v := e.w c a
     let rd (n : Byte) (w : Word) (f : Dev) : Prop := exec (.sprd c p a n) s = endsIn s c f fun y => y.setW a w
     let wr (n : Byte) (f : CoreSt → CoreSt) : Prop := exec (.spwr c p a n) s = endsIn s c e f
     let save (k : Nat) : Byte := BitVec.ofNat 8 (k + l.val)
     ((0x08 < num.toNat ∧ num.toNat < 0x10 ∨ 0x27 < num.toNat) →
       exec (.sprd c p a num) s = illegalIn s c d ∧ exec (.spwr c p a num) s = illegalIn s c d) ∧
     (rd 0x00 x.psw e ∧ wr 0x00 fun y => { y with psw := (v &&& 0xFF0) ||| (y.psw &&& 0xF) }) ∧
     (rd 0x01 ((productRead c e).1.extractLsb' 32 32) (productRead c e).2 ∧
       ∃ w, wr 0x01 fun y => { drainMul y with mh := v, win := w }) ∧
     (rd 0x02 ((productRead c e).1.extractLsb' 0 32) (productRead c e).2 ∧
       ∃ w, wr 0x02 fun y => { drainMul y with ml := v, win := w }) ∧
     (rd 0x03 (drainDiv x).dq (e.coreU c drainDiv) ∧ wr 0x03 fun y => { drainDiv y with dq := v }) ∧
     (rd 0x04 (drainDiv x).dm (e.coreU c drainDiv) ∧ wr 0x04 fun y => { drainDiv y with dm := v }) ∧
     (rd 0x05 x.fpsr e ∧ wr 0x05 fun y => { y with fpsr := (v &&& 0x31F1F) ||| (y.fpsr &&& 0x80000000) }) ∧
     (rd 0x06 x.fpxpc e ∧ wr 0x06 id) ∧
     (rd 0x07 (e.get (.sys (.dtbase c))) e ∧ wr 0x07 id) ∧
     (rd 0x08 (BitVec.ofNat 32 c.val) e ∧ wr 0x08 id) ∧
     (rd (save 0x10) x.savepc[l] e ∧ wr (save 0x10) fun y => { y with savepc := y.savepc.set l v }) ∧
     (rd (save 0x18) x.savepsw[l] e ∧ wr (save 0x18) fun y => { y with savepsw := y.savepsw.set l v }) ∧
     (rd (save 0x20) x.saveseg[l] e ∧ wr (save 0x20) fun y => { y with saveseg := y.saveseg.set l v })) ∧
  (∀ (s : State) (c : Fin 5) (p : Pre) (a : Fin 16) (sg : Seg) (d f : Dev),
     legalPre c p false .no = true → Issues s c (p.len + 2) d →
     let e := issued c (p.len + 2) d
     let found := walk c (e.level c) false (BitVec.ofNat 16 (e.w c a).toNat) e
     (exec (.movsg c p a .cs) s = illegalIn s c d) ∧
     (∀ t, sg ≠ .cs → found = (.ok t, f) →
       exec (.movsg c p a sg) s = endsIn s c f fun x => { x with seg := x.seg.set (segCode sg) t }) ∧
     (∀ k, sg ≠ .cs → found = (.fault k, f) → exec (.movsg c p a sg) s = trapsIn s c 9 0 (segCode sg).val k f) ∧
     (exec (.movgs c p a sg) s = endsIn s c e fun x => x.setW a ((x.seg[segCode sg]).sel.zeroExtend 32)))

/-- Jumps, branches and LOOP (R272, R273, R283): the targets modulo 65,536 from the next offset, the conditions, and the loop buffer, which
a transfer empties and a LOOP taken to a target before it, over at most 64 bytes and 16 instructions, fills. Where the spec leaves a
choice it rests on the readings of log entries 13, 78, 179. -/
def Obligations.Jumps : Prop :=
  ∀ (s : State) (c : Fin 5) (p : Pre) (a : Fin 16) (k : Cond) (disp : Disp) (d16 : BitVec 16) (d8 : BitVec 8) (d : Dev),
    legalPre c p false .no = true →
    let goes (n : Nat) (target : Dev → Int) : Outc := endsIn s c (issuedPlain c n d) fun x =>
      { x with pc := BitVec.ofInt 17 (target (issuedPlain c n d) % 65536), buf := none }
    let rel (k : Int) (e : Dev) : Int := e.core[c].pc.toNat + k
    (Issues s c (p.len + 2 + dispLen disp) d → exec (.bcc c p k disp) s =
      if condHolds k (issuedPlain c (p.len + 2 + dispLen disp) d).core[c].psw then goes (p.len + 2 + dispLen disp) (rel (dispInt disp))
      else after s (issuedPlain c (p.len + 2 + dispLen disp) d)) ∧
    (Issues s c (p.len + 3) d → exec (.jmp c p d16) s = goes (p.len + 3) (rel d16.toInt)) ∧
    (Issues s c (p.len + 2) d → exec (.jmpr c p a) s = goes (p.len + 2) fun e => (e.w c a).toNat) ∧
    (Issues s c (p.len + 3) d →
      let e := issued c (p.len + 3) d
      let target := (rel d8.toInt e % 65536).toNat
      let last := e.core[c].pc.toNat
      exec (.loop c p a d8) s = endsIn s c e fun x =>
        if x.w[a] = 1 then { x.setW a 0 with buf := none }
        else { x.setW a (x.w[a] - 1) with
          pc := BitVec.ofNat 17 target,
          buf := if target + (p.len + 3) < last ∧ last ≤ target + 64 ∧
              (last ≤ target + 16 ∨ countInstrs c 64 (codeBytes c target (last - target) e) ≤ 16) then some (target, last) else none })

/-- CALL, CALLR, RET, JMPF, CALLF and RETF (R273, R274) where the stack accesses are permitted and the walk finds CS; the segment fault of
JMPF whose walk finds none leaves the core as it was. Where the spec leaves a choice it rests on the readings of log entries 13, 78,
80. -/
def Obligations.CallsAndReturns : Prop :=
  ∀ (s : State) (c : Fin 5) (p : Pre) (a : Fin 16) (disp : BitVec 16) (imm : Word) (d f g h : Dev) (v u : Word) (t : SegSt),
    legalPre c p false .no = true →
    let to16 (n : Int) (x : CoreSt) : CoreSt := { x with pc := BitVec.ofInt 17 (n % 65536), buf := none }
    let far (t : SegSt) (n : Int) (x : CoreSt) : CoreSt := to16 n { x with seg := x.seg.set 0 t }
    let next (e : Dev) : Word := BitVec.ofNat 32 (e.core[c].pc.toNat % 65536)
    let finds (sel : BitVec 16) (e f : Dev) : Prop := walk c (e.level c) true sel e = (.ok t, f)
    (let e := issued c (p.len + 3) d
     Issues s c (p.len + 3) d → push c (next e) e = .ok () f → Calm s f.now →
      exec (.call c p disp) s = endsIn s c f (to16 (e.core[c].pc.toNat + disp.toInt))) ∧
    (let e := issued c (p.len + 2) d
     Issues s c (p.len + 2) d → push c (next e) e = .ok () f → Calm s f.now →
      exec (.callr c p a) s = endsIn s c f (to16 (e.w c a).toNat)) ∧
    (let e := issued c (p.len + 1) d
     Issues s c (p.len + 1) d → pop c e = .ok v f →
      exec (.ret c p) s = endsIn s c f (to16 v.toNat) ∧
      (pop c f = .ok u g → finds (u.extractLsb' 0 16) g h → exec (.retf c p) s = endsIn s c h (far t v.toNat))) ∧
    (let e := issuedPlain c (p.len + 5) d
     Issues s c (p.len + 5) d →
      (finds (imm.extractLsb' 16 16) e f → exec (.jmpf c p imm) s = endsIn s c f (far t imm.toNat)) ∧
      (∀ k, walk c (e.level c) true (imm.extractLsb' 16 16) e = (.fault k, f) →
        exec (.jmpf c p imm) s = trapsIn s c 9 0 0 k f)) ∧
    (let e := issued c (p.len + 5) d
     Issues s c (p.len + 5) d → finds (imm.extractLsb' 16 16) e f →
        (pushFar c ((e.core[c].seg[0]).sel.zeroExtend 32) (next e) e = .ok () g →
          pushFar c ((e.core[c].seg[0]).sel.zeroExtend 32) (next e) (f.coreU c (far t imm.toNat)) = .ok () h →
          Calm s h.now → exec (.callf c p imm) s = after s h))

/-- NOP, WAIT, SYNC, FBAR, TRAP and RETL (R257, R275, R278, R287, R290): RETL takes PSW, CS and the return offset from the save registers
of the current level, if the walk finds its CS, and is illegal at the base level; the trap returns after itself, with its number as
detail. Where the spec leaves a choice it rests on the readings of log entries 13, 78, 89, 92. -/
def Obligations.SystemInstructions : Prop :=
  ∀ (s : State) (c : Fin 5) (p : Pre) (imm : Byte) (d f : Dev),
    legalPre c p false .no = true →
    (let e := issuedPlain c (p.len + 1) d
     Issues s c (p.len + 1) d →
      exec (.nop c p) s = after s e ∧
      exec (.wait c p) s =
        after s ((e.coreU c fun x => { x with run := .waiting }).tgtU c fun y => { y with woke := false }) ∧
      ((∀ w ∈ e.sys.waits, w.by_ ≠ .core c) → (∀ o ∈ e.mem.rawQ, o.by_ ≠ .core c) → exec (.sync c p) s = endsIn s c e fun x => { x with buf := none }) ∧
      exec (.fbar c p) s = endsIn s c e (fun x => { x with fpDue := x.fpDue || FPSR.TP.bit x.fpsr }) ∧
      (∀ (l : Fin 8) t, e.level c = l.val → PSW.LEVEL.get f.core[c].savepsw[l] ≤ 8 → retlWalk c l e = (.ok t, f) →
        exec (.retl c p) s = after s (icReturn c (PSW.LEVEL.get (f.core[c].savepsw[l] &&& 0xFFF)) (f.coreU c fun x =>
          { x with psw := x.savepsw[l] &&& 0xFFF, seg := x.seg.set 0 t, pc := BitVec.ofNat 17 (x.savepc[l].toNat % 65536),
                   buf := none }))) ∧
      (8 ≤ e.level c → exec (.retl c p) s = trapsIn s c 8 0 0 0 e)) ∧
    (let e := issuedPlain c (p.len + 2) d
     let pc := s.core[c].pc.toNat
     Issues s c (p.len + 2) d → exec (.trap c p imm) s =
      after s (except c 13 pc (pc + (p.len + 2)) 0 0 imm.toNat { e with core := e.core.set c s.core[c] }))

/-- FADD, FSUB, FMUL, FDIV, FSQRT and the conversions (R277, R278): the result, the sticky flags of the exceptions raised, TP where a trap
of theirs is enabled, and FPXPC with the location of the instruction where TP was 0. CorrectRounding and FloatingSpecials say what the
results are. The NaN and invalid rules of R277: the first NaN operand, quieted, with invalid operation for a signalling one;
0x7FC0_0000 and invalid operation for ∞ − ∞, 0 × ∞, 0 / 0 and the root of a negative number; division of a finite number by zero; the
conversions to integers out of range and of a NaN. Where the spec leaves a choice it rests on the readings of log entries 13, 78, 86,
87. -/
def Obligations.FloatingArithmetic : Prop :=
  (∀ (s : State) (c : Fin 5) (p : Pre) (a b : Fin 8) (i : Fin 16) (d : Dev),
     legalPre c p false .no = true → Issues s c (p.len + 2) d →
     let e := issued c (p.len + 2) d
     let rm := FPSR.RM.get e.core[c].fpsr
     let here : Word := (e.core[c].seg[0]).sel ++ d.core[c].pc.extractLsb' 0 16
     let raise (exc : Nat) (x : CoreSt) : CoreSt :=
       let sticky := FPSR.FLAGS.put (FPSR.FLAGS.get x.fpsr ||| exc) x.fpsr
       if exc &&& FPSR.TRAPS.get x.fpsr = 0 then { x with fpsr := sticky }
       else { x with fpsr := FPSR.TP.put 1 sticky, fpxpc := if FPSR.TP.bit x.fpsr then x.fpxpc else here }
     let toF (o : FpOut) : Outc := endsIn s c e fun x => raise o.exc { x with f := x.f.set a o.bits }
     let toW (o : FpOut) : Outc := endsIn s c e fun x => raise o.exc (x.setW i o.bits)
     exec (.fadd c p a b) s = toF (fAdd rm (e.fr c a) (e.fr c b)) ∧
     exec (.fsub c p a b) s = toF (fSub rm (e.fr c a) (e.fr c b)) ∧
     exec (.fmul c p a b) s = toF (fMul rm (e.fr c a) (e.fr c b)) ∧
     exec (.fdiv c p a b) s = toF (fDiv rm (e.fr c a) (e.fr c b)) ∧
     exec (.fsqrt c p a b) s = toF (fSqrt rm (e.fr c b)) ∧
     exec (.cvtif c p a i) s = toF (fFromInt rm (e.w c i).toInt 0) ∧
     exec (.cvtqf c p a i) s = toF (fFromInt rm (e.w c i).toInt (-30)) ∧
     exec (.cvtfi c p i b) s = toW (fToInt 1 0 (e.fr c b)) ∧
     exec (.cvtfq c p i b) s = toW (fToInt rm 30 (e.fr c b))) ∧
  (∀ (rm : Nat) (a b : Word),
     let nan : Word := if fIsNan a then a else b
     let quieted : FpOut := { bits := nan ||| 0x00400000, exc := if fIsSnan a || fIsSnan b then 16 else 0 }
     let invalid : FpOut := { bits := 0x7FC00000, exc := 16 }
     let inf (s : Bool) : Word := if s then 0xFF800000 else 0x7F800000
     let zero (s : Bool) : Word := if s then 0x80000000 else 0
     (fIsNan a = true ∨ fIsNan b = true →
       fAdd rm a b = quieted ∧ fSub rm a b = quieted ∧ fMul rm a b = quieted ∧ fDiv rm a b = quieted) ∧
     (fIsNan b = true → fSqrt rm b = { bits := b ||| 0x00400000, exc := if fIsSnan b then 16 else 0 }) ∧
     (∀ s t : Bool,
       fAdd rm (inf s) (inf !s) = invalid ∧ fSub rm (inf s) (inf s) = invalid ∧
       fMul rm (zero s) (inf t) = invalid ∧ fMul rm (inf s) (zero t) = invalid ∧
       fDiv rm (zero s) (zero t) = invalid ∧ fDiv rm (inf s) (inf t) = invalid ∧
       (∀ m e, fVal a = .fin s m e → m ≠ 0 → fDiv rm a (zero t) = { bits := inf (s != t), exc := 8 })) ∧
     (∀ m e, fVal b = .fin true m e → m ≠ 0 → fSqrt rm b = invalid) ∧
     (fIsNan b = true → ∀ k, fToInt rm k b = { bits := 0, exc := 16 }) ∧
     (∀ s k, fToInt rm k (inf s) = { bits := if s then 0x80000000 else 0x7FFFFFFF, exc := 16 }))

/-- FMOV, FNEG, FABS, FMOVWF and FMOVFW move bits and raise nothing (R276, R277); FCMP sets the four result flags from the relation, and
with a NaN operand they are 0, 0, 1, 1 and invalid operation is raised. Where the spec leaves a choice it rests on the readings of log
entries 13, 78. -/
def Obligations.FloatingMoves : Prop :=
  ∀ (s : State) (c : Fin 5) (p : Pre) (a b : Fin 8) (i : Fin 16) (d : Dev),
    legalPre c p false .no = true → Issues s c (p.len + 2) d →
    let e := issued c (p.len + 2) d
    let A := e.fr c a
    let B := e.fr c b
    let toF (v : Word) : Outc := endsIn s c e fun x => { x with f := x.f.set a v }
    exec (.fmov c p a b) s = toF B ∧
    exec (.fneg c p a b) s = toF (B ^^^ 0x80000000) ∧
    exec (.fabs c p a b) s = toF (B &&& 0x7FFFFFFF) ∧
    exec (.fmovwf c p a i) s = toF (e.w c i) ∧
    exec (.fmovfw c p i b) s = endsIn s c e (fun x => x.setW i B) ∧
    (fIsNan A = true ∨ fIsNan B = true → exec (.fcmp c p a b) s = endsIn s c e fun x =>
      fpRaise (p.len + 2) 16 { x with psw := withFlags false false true true x.psw }) ∧
    (∀ m n e1 e2 sa sb, fVal A = .fin sa m e1 → fVal B = .fin sb n e2 →
      let u : Int := (if sa then -1 else 1) * (m * 2 ^ (e1 - min e1 e2).toNat : Nat)
      let v : Int := (if sb then -1 else 1) * (n * 2 ^ (e2 - min e1 e2).toNat : Nat)
      exec (.fcmp c p a b) s = endsIn s c e fun x =>
        { x with psw := withFlags (decide (u < v)) (decide (u = v)) (decide (u < v)) false x.psw })

/-- Correct rounding (R277): where the exact result is not zero, FADD, FSUB, FMUL, FDIV, FSQRT, CVTIF and CVTQF give the word that it
rounds to in the mode of RM, with the exact result's sign: nearest with ties to even, toward zero, up or down, subnormals in full, and
past the largest finite value the infinity or that value; inexact is raised exactly where the result differs and overflow where it
overflows. Zero results have IEEE 754's sign. CVTFI and CVTFQ give the integer that the value rounds to, or the nearest end of the
range with invalid operation. An integer of at most 24 bits is converted exactly and back to itself. -/
def Obligations.CorrectRounding : Prop :=
  let M (w : Word) : Nat := w.toNat % 2 ^ 23
  let E (w : Word) : Nat := w.toNat / 2 ^ 23 % 256
  let fin (w : Word) : Prop := E w ≠ 255
  let V (w : Word) : ℝ := (if w.msb then -1 else 1) *
    if E w = 0 then (M w : ℝ) * 2 ^ (-149 : ℤ) else ((2 ^ 23 + M w : Nat) : ℝ) * 2 ^ ((E w : ℤ) - 150)
  let inf (s : Bool) : Word := if s then 0xFF800000 else 0x7F800000
  let near (x : ℝ) (r : Word) : Prop :=
    (2 ^ 128 - 2 ^ 103 ≤ |x| → r = inf r.msb) ∧
    (|x| < 2 ^ 128 - 2 ^ 103 → fin r ∧ ∀ w, fin w → |x - V r| ≤ |x - V w| ∧ (|x - V r| = |x - V w| → V w ≠ V r → r.toNat % 2 = 0))
  let zero (x : ℝ) (r : Word) : Prop := fin r ∧ |V r| ≤ |x| ∧ ∀ w, fin w → |V w| ≤ |x| → |V w| ≤ |V r|
  let up (x : ℝ) (r : Word) : Prop :=
    (∀ w, fin w → x ≤ V w → fin r ∧ x ≤ V r ∧ V r ≤ V w) ∧ ((∀ w, fin w → V w < x) → r = inf false)
  let down (x : ℝ) (r : Word) : Prop :=
    (∀ w, fin w → V w ≤ x → fin r ∧ V r ≤ x ∧ V w ≤ V r) ∧ ((∀ w, fin w → x < V w) → r = inf true)
  let rounds (rm : Nat) (x : ℝ) (o : FpOut) : Prop :=
    (o.bits.msb = true ↔ x < 0) ∧
    (match rm with
      | 0 => near x o.bits
      | 1 => zero x o.bits
      | 2 => up x o.bits
      | _ => down x o.bits) ∧
    (o.exc.testBit 0 = true ↔ ¬ (fin o.bits ∧ V o.bits = x)) ∧ (o.exc.testBit 2 = true ↔ ¬ fin o.bits ∨ 2 ^ 128 ≤ |x|) ∧ o.exc < 8
  let whole (rm : Nat) (x : ℝ) (n : ℤ) : Prop := match rm with
    | 0 => |x - n| ≤ 1 / 2 ∧ (|x - n| = 1 / 2 → n % 2 = 0)
    | 1 => |(n : ℝ)| ≤ |x| ∧ |x| < |(n : ℝ)| + 1 ∧ 0 ≤ x * n
    | 2 => x ≤ n ∧ (n : ℝ) < x + 1
    | _ => (n : ℝ) ≤ x ∧ x < n + 1
  (∀ (rm : Nat) (a b : Word), rm < 4 → fin a → fin b →
    (V a + V b ≠ 0 → rounds rm (V a + V b) (fAdd rm a b)) ∧
    (V a - V b ≠ 0 → rounds rm (V a - V b) (fSub rm a b)) ∧
    (V a * V b ≠ 0 → rounds rm (V a * V b) (fMul rm a b)) ∧
    (V a ≠ 0 → V b ≠ 0 → rounds rm (V a / V b) (fDiv rm a b)) ∧
    (0 < V b → rounds rm (√(V b)) (fSqrt rm b)) ∧
    (let none : Word := if rm = 3 then 0x80000000 else 0
     (V a + V b = 0 → fAdd rm a b = { bits := if a = b then a else none }) ∧
     (V a - V b = 0 → fSub rm a b = { bits := if a = b ^^^ 0x80000000 then a else none })) ∧
    (V a * V b = 0 → fMul rm a b = { bits := (a ^^^ b) &&& 0x80000000 }) ∧
    (V a = 0 → V b ≠ 0 → fDiv rm a b = { bits := (a ^^^ b) &&& 0x80000000 }) ∧
    (V b = 0 → fSqrt rm b = { bits := b })) ∧
  (∀ (rm : Nat) (i : ℤ), rm < 4 →
    (i ≠ 0 → rounds rm i (fFromInt rm i 0) ∧ rounds rm (i / 2 ^ 30) (fFromInt rm i (-30))) ∧
    fFromInt rm 0 0 = { bits := 0 } ∧ fFromInt rm 0 (-30) = { bits := 0 }) ∧
  (∀ (rm k : Nat) (b : Word), rm < 4 → k = 0 ∨ k = 30 → fin b → ∃ n : ℤ, whole rm (V b * 2 ^ k) n ∧
    (n < -(2 ^ 31) → fToInt rm k b = { bits := 0x80000000, exc := 16 }) ∧
    (2 ^ 31 ≤ n → fToInt rm k b = { bits := 0x7FFFFFFF, exc := 16 }) ∧
    (-(2 ^ 31) ≤ n → n < 2 ^ 31 → (fToInt rm k b).bits = BitVec.ofInt 32 n ∧
      ((n : ℝ) = V b * 2 ^ k → (fToInt rm k b).exc = 0) ∧ ((n : ℝ) ≠ V b * 2 ^ k → (fToInt rm k b).exc = 1))) ∧
  (∀ (rm : Nat) (i : Int), -(2 ^ 24) ≤ i → i ≤ 2 ^ 24 →
    (fFromInt rm i 0).exc = 0 ∧ fToInt 1 0 (fFromInt rm i 0).bits = { bits := BitVec.ofInt 32 i, exc := 0 })

/-- Which bytes begin no instruction: the unassigned opcodes, those after the escape byte, the reserved prefixes and a group of prefixes
that appears twice; the bytes of the worked example of R280 and what they spell (R258-R261). An unassigned opcode byte, a prefix that
an instruction does not take and 0xEC on a helm core raise the illegal-instruction exception, here for the instructions with no memory
operand and no width prefix. Where the spec leaves a choice it rests on the readings of log entries 78, 80, 88. -/
def Obligations.IllegalForms : Prop :=
  ∀ (s : State) (c : Fin 5) (p : Pre) (a b : Fin 16) (fa fb : Fin 8) (imm : Word) (num : Byte) (sg : Seg) (k : Cond) (disp : Disp)
    (d16 : BitVec 16) (d8 : BitVec 8) (d : Dev) (x y : Byte) (l : List Byte),
    (let within (i j : Nat) : Prop := i ≤ x.toNat ∧ x.toNat ≤ j
     let group (z : Byte) : Nat := if 0xE0 ≤ z.toNat ∧ z.toNat ≤ 0xE5 then 1 else if z.toNat = 0xE8 ∨ z.toNat = 0xE9 then 2
       else if z.toNat = 0xEC then 3 else 0
     (within 0x3D 0x3F ∨ within 0x4F 0x4F ∨ within 0x5C 0x5F ∨ within 0x6D 0x6F ∨ within 0x76 0x7F ∨ within 0x8F 0x8F ∨ within 0x98 0xDF ∨
        within 0xF1 0xFF → decodeCore c (x :: l) = .illegal) ∧
     (x.toNat ∈ [0xE6, 0xE7, 0xEA, 0xEB, 0xED, 0xEE, 0xEF] → decodeCore c (x :: l) = .illegal) ∧
     (x.toNat ∉ [0x00, 0x01, 0x02, 0x20, 0x21] → decodeCore c (0xF0 :: x :: l) = .illegal) ∧
     (group x ≠ 0 → group x = group y → decodeCore c (x :: y :: l) = .illegal)) ∧
    (let xs : Pre := { seg := some .xs }
     decodeCore c (0x10 :: 0x11 :: l) = .instr (.xor c {} 1 (.reg 1)) 2 ∧
     decodeCore c (0xE4 :: 0x32 :: 0x21 :: 0xF8 :: 0x02 :: l) = .instr (.ld c xs 2 (.disp16 1 0x02F8)) 5 ∧
     decodeCore c (0x19 :: 0x30 :: 0x00 :: 0x00 :: 0x00 :: 0x30 :: l) = .instr (.mov c {} 3 (.imm 0x30000000)) 6 ∧
     decodeCore c (0x50 :: 0x23 :: l) = .instr (.mul c {} 2 3) 2 ∧ decodeCore c (0x55 :: l) = .instr (.mwait c {}) 1 ∧
     decodeCore c (0x54 :: 0x40 :: l) = .instr (.qrd c {} 4) 2 ∧
     decodeCore c (0xE4 :: 0x36 :: 0x41 :: 0xA0 :: 0x0A :: l) = .instr (.st c xs 4 (.disp16 1 0x0AA0)) 5 ∧
     decodeCore c (0x74 :: l) = .instr (.sync c {}) 1) ∧
    (Issues s c 1 d → exec (.illegalInstruction c) s = illegalIn s c d) ∧
    (legalPre c p false .no = false →
      ∀ q ∈ ([(.nop c p, 1), (.wait c p, 1), (.retl c p, 1), (.trap c p num, 2), (.sync c p, 1), (.fbar c p, 1), (.ret c p, 1),
          (.retf c p, 1), (.jmp c p d16, 3), (.jmpr c p a, 2), (.call c p d16, 3), (.callr c p a, 2), (.jmpf c p imm, 5),
          (.callf c p imm, 5), (.loop c p a d8, 3), (.push c p a, 2), (.pop c p a, 2), (.bcc c p k disp, 2 + dispLen disp),
          (.mul c p a b, 2), (.mulu c p a b, 2), (.mac c p a b, 2), (.macu c p a b, 2), (.qrd c p a, 2), (.mwait c p, 1),
          (.div c p a b, 2), (.divu c p a b, 2), (.sprd c p a num, 3), (.spwr c p a num, 3), (.movsg c p a sg, 2),
          (.movgs c p a sg, 2), (.clz c p a b, 2), (.bfx c p a b d16, 4), (.bfi c p a b d16, 4), (.bperm c p a b num, 3),
          (.adc c p a b, 3), (.sbc c p a b, 3), (.pick c p a b num, 4), (.fadd c p fa fb, 2), (.fsub c p fa fb, 2),
          (.fmul c p fa fb, 2), (.fdiv c p fa fb, 2), (.fsqrt c p fa fb, 2), (.fcmp c p fa fb, 2), (.fmov c p fa fb, 2),
          (.fneg c p fa fb, 2), (.fabs c p fa fb, 2), (.cvtif c p fa a, 2), (.cvtfi c p a fb, 2), (.cvtqf c p fa a, 2),
          (.cvtfq c p a fb, 2), (.fmovwf c p fa a, 2), (.fmovfw c p a fb, 2)] : List (Instr × Nat)),
        Issues s c (p.len + q.2) d → exec q.1 s = illegalIn s c d)

/-- A level entry (R288) that is made: what the save registers of the level hold, which bits of PSW change, where the core goes on, and
that the general and floating-point registers, FPSR, the other segment registers and every other core keep their values. An exception
at level 0 is a double fault (R296, R297): the core locks up, LOCKINFO and LOCKPC name the exception and its place, line 416 + c is
asserted, and nothing else of the register file changes. Where the spec leaves a choice it rests on the readings of log entries 80, 81,
91. -/
def Obligations.LevelEntry : Prop :=
  (∀ (c j : Fin 5) (k : Nat) (nl : Fin 8) (ret aofs seg detail : Nat) (d f : Dev),
     enterLevel c k nl.val ret aofs seg detail d = .entered f →
     let x := drain d.core[c]
     let y := f.core[c]
     y.savepc[nl] = BitVec.ofNat 32 (2 ^ 16 * aofs + ret % 65536) ∧
     y.savepsw[nl] = x.psw ∧
     y.saveseg[nl] = BitVec.ofNat 32 (2 ^ 28 * k + 2 ^ 24 * seg + 2 ^ 16 * detail + (x.seg[0]).sel.toNat) ∧
     y.psw = (x.psw |> PSW.LEVEL.put nl.val |> PSW.DZE.put 0 |> PSW.OVE.put 0) ∧
     y.pc = BitVec.ofNat 17 (0x200 + 0x10 * k) ∧ y.buf = none ∧ y.run = .run ∧
     (vecSel d c = 0 → y.seg[0] = { sel := 0, desc := some { base := 0, limit := 0xFFFF, x := true, w := false, r := true } }) ∧
     (y.w = x.w ∧ y.f = x.f ∧ y.fpsr = x.fpsr ∧ y.fpxpc = x.fpxpc ∧ y.mh = x.mh ∧ y.ml = x.ml ∧ y.dq = x.dq ∧ y.dm = x.dm) ∧
     (∀ g : Fin 6, g ≠ 0 → y.seg[g] = x.seg[g]) ∧
     (∀ l : Fin 8, l ≠ nl → y.savepc[l] = x.savepc[l] ∧ y.savepsw[l] = x.savepsw[l] ∧ y.saveseg[l] = x.saveseg[l]) ∧
     (j ≠ c → f.core[j] = d.core[j])) ∧
  (∀ (c : Fin 5) (k pc ret aofs seg detail : Nat) (d : Dev) (r : Reg), d.level c = 0 →
     let f := except c k pc ret aofs seg detail d
     f.core[c] = { drain d.core[c] with run := .locked, haltRq := false } ∧
     (k < 16 → detail < 256 → f.get (.core c .lockinfo) = ((0 : Word) |> LOCKINFO.KIND.put k |> LOCKINFO.DETAIL.put detail)) ∧
     f.get (.core c .lockpc) = ((0 : Word) |> LOCKPC.SEL.put (d.core[c].seg[0]).sel.toNat |> LOCKPC.PC.put (pc % 65536)) ∧
     416 + c.val ∈ f.fc.level ∧
     (r ≠ .core c .lockinfo → r ≠ .core c .lockpc → f.get r = d.get r))

/-- What a core does between instructions: INTERRUPT_ENTRY accepts the request presented and enters its level, FP_EXCEPTION_ENTRY enters
level 0 with TP cleared (R288, R292), CORE_HALT stops a core whose halt is due and whose loads and stores are complete (R294, R285);
here with a vector segment of the firmware's own. VECSEL_WRITE (R299) changes VECSELc from core c, or from S for a helm core, and is
refused otherwise. Where the spec leaves a choice it rests on the readings of log entries 87, 90. -/
def Obligations.CoreEvents : Prop :=
  ∀ (s : State) (c : Fin 5) (by_ : Requester) (v : Word) (f : Dev),
    let d := s.toDev
    let x := d.core[c]
    (Up s → (x.run = .run ∨ x.run = .waiting) → x.haltRq = false → x.parked = false → x.ldWait = [] →
      (c = 4 → d.sec.entry = none) → vecSel d c ≠ 0 →
      tagsFull d (coreHolder c) = false →
      (∀ src l, x.fpDue = false → icRequest d c = some (src, l) →
        enterLevel c l l x.pc.toNat 0 0 0 (icAccept c src l d) = .entered f → exec (.interruptEntry c) s = after s f) ∧
      (FPSR.TP.bit x.fpsr = true → d.level c ≠ 0 →
        enterLevel c 12 0 x.pc.toNat 0 0 (FPSR.FLAGS.get x.fpsr &&& FPSR.TRAPS.get x.fpsr)
          (d.coreU c fun y => { y with fpsr := FPSR.TP.put 0 y.fpsr, fpDue := false }) = .entered f →
        exec (.fpExceptionEntry c) s = after s f)) ∧
    (Up s → x.haltRq = true → (x.run = .run ∨ x.run = .waiting) → x.ldWait = [] → storesWait d c = false →
      exec (.coreHalt c) s = endsIn s c d fun y => { drain y with run := .halted, haltRq := false, buf := none }) ∧
    (let q := asked by_ d
     Asks by_ s (.core c .vecsel) → exec (.vecselWrite by_ c v) s = after s (
      if by_ = .core c ∨ (by_ = .core 4 ∧ c ≠ 4) then q.put (.core c .vecsel) ((q.get (.core c .vecsel) &&& 0xFFFF0000) ||| (v &&& 0xFFFF))
      else q.put (.sys .corestat) (q.get (.sys .corestat) ||| 0x80000000)))

/-- The SRAM code (R311, R312): a stored word reads clean, any one of its 39 bits in error is corrected, any two are never taken for a
clean or a correctable word, and the poison encoding reads as poison. The flash code (R326): a stored word reads clean, any one of its
137 bits in error is corrected and any two are found uncorrectable, but where the word read is all ones, which is the erased word.
Where the spec leaves a choice it rests on the readings of log entry 97. -/
def Obligations.ErrorCodes : Prop :=
  (∀ (w : Word) (i j : Nat), i < 39 → j < 39 → i ≠ j →
     let v := eccEnc w
     let flip (k : Nat) (x : Ecc) : Ecc := x ^^^ BitVec.ofNat 39 (2 ^ k)
     eccDecode v = .clean ∧ eccData v = w ∧ eccDecode (flip i v) = .fixed w ∧
     (eccDecode (flip j (flip i v)) = .bad ∨ eccDecode (flip j (flip i v)) = .poison) ∧
     eccDecode (eccPoison w) = .poison ∧ eccData (eccPoison w) = w) ∧
  (∀ (w : BitVec 128) (i j : Nat), i < 137 → j < 137 → i ≠ j →
     let v := flEnc w
     let flip (k : Nat) (x : FlWord) : FlWord := x ^^^ BitVec.ofNat 137 (2 ^ k)
     let ones := BitVec.allOnes 137
     flDecode v = .clean w ∧ (flip i v ≠ ones → flDecode (flip i v) = .fixed w) ∧
     (flip j (flip i v) ≠ ones → flDecode (flip j (flip i v)) = .bad) ∧ flDecode ones = .clean (BitVec.allOnes 128))

/-- A full write of a word of SRAM or loop engine memory reads back and leaves every other stored word, every register and every other part
of the device as they were; the arrays keep their canonical form (R310, R312, R319). -/
def Obligations.WordsReadBack : Prop :=
  ∀ (q : MemReq) (a b : Nat) (w : Word) (d : Dev), (inSram a || inLem a) = true → (inSram b || inLem b) = true →
    let e := memWrite a w d
    let cell (x : Nat) : Bool × Nat := (inLem x, if inLem x then x / 4 % 4096 else sramCell d x)
    memRead q a e = (⟨w, none⟩, e) ∧ (cell a ≠ cell b → memGet e b = memGet d b) ∧ e = { d with mem := e.mem } ∧
    (d.mem.wf = true → e.mem.wf = true)

/-- What a read of a memory word finds (R312, R313, R315, R316): a correctable word is corrected, written back, counted and logged; an
uncorrectable one is left as it stands, counted, flagged for its reader and logged if no error is held. A write of some bytes of a word
(R314): merged with the corrected word where it reads, else written with the poison encoding, with MEMSTAT.POISON, the count and line
436. Where the spec leaves a choice it rests on the readings of log entry 99. -/
def Obligations.MemoryErrors : Prop :=
  (∀ (q : MemReq) (a : Nat) (d : Dev),
     let v := memGet d a
     let r := (memRead q a d).1
     let e := (memRead q a d).2
     let cnt (f : Fld) : Nat := min (2 ^ f.width - 1) (d.f (.sys .memcnt) f + 1)
     (eccDecode v = .clean → r = ⟨eccData v, none⟩ ∧ e = d) ∧
     (∀ w, eccDecode v = .fixed w → r = ⟨w, none⟩ ∧ memGet e a = eccEnc w ∧ e.b (.sys .memstat) MEMSTAT.CE = true ∧
       e.f (.sys .memcnt) MEMCNT.CE_CNT = cnt MEMCNT.CE_CNT ∧ e.get (.sys .memceaddr) = BitVec.ofNat 32 (a / 4 * 4) ∧
       (if inLem a then 437 else 432) ∈ e.fc.fresh ∧ e.get (.sys .memueaddr) = d.get (.sys .memueaddr)) ∧
     (eccDecode v = .bad ∨ eccDecode v = .poison →
       r = ⟨eccData v, some (if eccDecode v = .poison then 0x24 else if inLem a then 0x23 else 0x20)⟩ ∧ e.mem = d.mem ∧
       e.f (.sys .memcnt) MEMCNT.UE_CNT = cnt MEMCNT.UE_CNT ∧ e.b (.sys .memueinfo) MEMUEINFO.V = true ∧
       e.get (.sys .memueaddr) = (if d.b (.sys .memueinfo) MEMUEINFO.V then d.get (.sys .memueaddr) else BitVec.ofNat 32 (a / 4 * 4)) ∧
       (∀ f, q.flag = some f → f ∈ [MEMSTAT.UE, MEMSTAT.PATROLUE, MEMSTAT.LEMUE] → e.b (.sys .memstat) f = true) ∧
       (∀ l, q.line = some l → l ∈ e.fc.fresh))) ∧
  (∀ (req a : Nat) (mask w : Word) (d : Dev),
     let v := memGet d a
     let e := memMerge req a mask w d
     let merged (x : Word) : Word := (x &&& ~~~mask) ||| (w &&& mask)
     (eccDecode v = .clean → e = memPut a (eccEnc (merged (eccData v))) d) ∧
     (∀ x, eccDecode v = .fixed x → memGet e a = eccEnc (merged x)) ∧
     (eccDecode v = .bad ∨ eccDecode v = .poison → memGet e a = eccPoison (merged (eccData v)) ∧
       e.b (.sys .memstat) MEMSTAT.POISON = true ∧ 436 ∈ e.fc.fresh ∧
       e.f (.sys .memcnt) MEMCNT.POISON_CNT = min 255 (d.f (.sys .memcnt) MEMCNT.POISON_CNT + 1)))

/-- Raw access and remapping (R320, R321): what RAW_READ shows, the exact word RAW_WRITE leaves, from S or the host alone, and both waiting
while the scrub or the copy of the line runs; a REMAP_WRITE that starts the copy of a line, and those refused. The scrub, the patrol
and the copy of a line (R317, R318, R320): the scrub leaves every word of SRAM and of loop engine memory 0 with check bits 0 and sets
the SRAM readiness bit, before which no copy ends, the patrol takes the lines in order, a copy ends with the entry valid and each word,
corrected or poisoned, in the spare. Where the spec leaves a choice it rests on the readings of log entries 48, 101, 102. -/
def Obligations.MemoryCommands : Prop :=
  (∀ (s : State) (by_ : Requester) (b : Fin 8) (e : Fin 16) (v : Word),
     let d := asked by_ s.toDev
     let a := (d.get (.sys .memtaddr)).toNat
     let x := memGet d a
     let word : BitVec 39 := BitVec.ofNat 7 (d.f (.sys .memtchk) MEMTCHK.CHK) ++ d.get (.sys .memtdata)
     let trej := after s (d.flag (.sys .memstat) MEMSTAT.TREJ)
     let waits (v : Option (BitVec 39)) : Outc :=
       after s { d with mem := { d.mem with rawQ := d.mem.rawQ ++ [{ by_ := by_, addr := a, val := v }] } }
     (Asks by_ s (.sys .memtcmd) →
       exec (.rawRead by_) s = (if inSram a ∨ inLem a then
           if memWaits d a then waits none else after s ((d.put (.sys .memtdata) (x.extractLsb' 0 32)).put (.sys .memtchk)
             ((0 : Word) |> MEMTCHK.CHK.put (x.extractLsb' 32 7).toNat |> MEMTCHK.SYN.put (64 * b2n (eccP x) + eccS x)))
         else trej) ∧
       exec (.rawWrite by_) s = (if (inSram a ∨ inLem a) ∧ (by_ = .host ∨ by_ = .core 4) then
           if memWaits d a then waits (some word) else after s (memPut a word d)
         else trej)) ∧
     (Asks by_ s (.sys (.remap b e)) →
       let named (k : Fin 16) : Prop := d.b (.sys (.remap b k)) REMAP.V = true ∧ d.f (.sys (.remap b k)) REMAP.LINE = REMAP.LINE.get v
       let free : Prop := d.b (.sys (.remap b e)) REMAP.V = false ∧ REMAP.V.bit v = true
       (free → (∀ k, k ≠ e → ¬ named k) → (∀ l, (b, e, l) ∉ d.mem.copies) →
         exec (.remapWrite by_ b e v) s =
           after s { d with mem := { d.mem with copies := d.mem.copies ++ [(b, e, REMAP.LINE.get v)] } }) ∧
       (¬ free ∨ (∃ k, k ≠ e ∧ named k) → exec (.remapWrite by_ b e v) s = after s (d.flag (.sys .memstat) MEMSTAT.REMAPREJ)))) ∧
  (∀ (s : State) (b : Fin 8) (e : Fin 16) (line : Nat) (rest : List (Fin 8 × Fin 16 × Nat)), Up s →
     s.mem.rawQ = [] → (∀ r : Fin 16, (s.cap[r]).enW = false) →
     let d := s.toDev
     (d.b (.sys (.ready 0)) READY0.SRAM = false → d.b (.sys (.ready 0)) READY0.FLASH = true →
       Does .sramScrubDone s fun t => t.b (.sys (.ready 0)) READY0.SRAM = true ∧ ∀ a, (inSram a || inLem a) = true → memGet t a = 0) ∧
     (let n := d.f (.sys .mempatrol) MEMPATROL.LINE
      d.b (.sys .memctl) MEMCTL.PATEN = true → memWaits d (patrolAddr n 0) = false →
       let at_ := d.mem.patAt + max 1 (d.f (.sys .memctl) MEMCTL.INTERVAL) * 100 * tuNs
       Calm s at_ → Does .patrolRead s fun t =>
         t.now = max d.now at_ ∧ t.mem.patAt = t.now ∧
         t.f (.sys .mempatrol) MEMPATROL.LINE = (if n + 1 < 65792 then n + 1 else 0) ∧
         t.f (.sys .mempatrol) MEMPATROL.PASS =
           (if n + 1 < 65792 then d.f (.sys .mempatrol) MEMPATROL.PASS else (d.f (.sys .mempatrol) MEMPATROL.PASS + 1) % 256)) ∧
     (d.b (.sys (.ready 0)) READY0.SRAM = false → exec .remapCopyDone s = after s d) ∧
     (d.mem.copies = (b, e, line) :: rest → line < 2 ^ 13 → d.b (.sys (.ready 0)) READY0.SRAM = true →
       (∀ k, d.b (.sys (.remap b k)) REMAP.V = true → d.f (.sys (.remap b k)) REMAP.LINE ≠ line) →
       Does .remapCopyDone s fun t =>
         t.get (.sys (.remap b e)) = ((0 : Word) |> REMAP.V.put 1 |> REMAP.LINE.put line) ∧
         t.b (.sys .memstat) MEMSTAT.REMAPDONE = true ∧ t.mem.copies = rest ∧
         ∀ k < 16, let a := 0x20000000 + 512 * line + 64 * b.val + 4 * k
           memGet t a = (match eccDecode (memGet d a) with
             | .fixed w => eccEnc w
             | .clean => eccEnc (eccData (memGet d a))
             | .bad => eccPoison (eccData (memGet d a))
             | .poison => eccPoison (eccData (memGet d a)))))

/-- The flash engine's claim and commands (R325, R330-R334): who claims and releases it, and a PROGRAM, ERASE, VERIFY or EVALCAL that
starts, is refused with its result, meets a busy engine, or comes from another than the owner. RANGE: an address outside the arrays or
in information sectors 3-14; DENIED: the factory row, an erase of the OTP sector, a program of it from another than S; WP: FLWP
protects the sector; NOT_ERASED: a program of a word that does not read erased; of a VERIFY RANGE alone: COUNT 0, MARGIN 0b11, a range
past an array. Where the spec leaves a choice it rests on the readings of log entries 107, 182. -/
def Obligations.FlashCommands : Prop :=
  ∀ (s : State) (by_ : Requester) (margin : Fin 4) (count : BitVec 16),
    let d := asked by_ s.toDev
    let q := reqCode by_
    let own := d.f (.fl .flclaim) FLCLAIM.OWNER
    let a := (d.get (.fl .fladdr)).toNat
    let word : BitVec 128 := d.get (.fl (.fldata 3)) ++ d.get (.fl (.fldata 2)) ++ d.get (.fl (.fldata 1)) ++ d.get (.fl (.fldata 0))
    let rej (f : Fld) : Outc := after s (d.flag (.fl .flstat) f)
    let arr (x : Nat) : Nat := if 0x100000 ≤ x ∧ x < 0x700000 then 1 else if 0x700000 ≤ x ∧ x < 0xD00000 then 2
      else if 0xE00000 ≤ x ∧ x < 0xE10000 then 3 else 0
    let protected_ : Bool :=
      if a < 0x700000 then (d.f (.fl .flwp) FLWP.BANKA).testBit ((a - 0x100000) / 0x80000)
      else if a < 0xD00000 then (d.f (.fl .flwp) FLWP.BANKB).testBit ((a - 0x700000) / 0x80000)
      else (decide (0xE01000 ≤ a ∧ a < 0xE02000) && d.b (.fl .flwp) FLWP.SLOTA) ||
        (decide (0xE02000 ≤ a ∧ a < 0xE03000) && d.b (.fl .flwp) FLWP.SLOTB)
    let erased : Bool := if flOpen d a then Config.freeBool d.free else flGet d a == BitVec.allOnes 137
    let result (program : Bool) : Option Nat :=
      if arr a = 0 ∨ (0xE03000 ≤ a ∧ a < 0xE0F000) then some 3
      else if (0xE00000 ≤ a ∧ a < 0xE01000) ∨ (0xE0F000 ≤ a ∧ (program = false ∨ q ≠ 4)) then some 6
      else if protected_ then some 1
      else if program ∧ erased = false then some 2
      else none
    (Asks by_ s (.fl .flclaim) →
      exec (.flashClaim by_) s = (if own = 7 then after s (d.setF (.fl .flclaim) FLCLAIM.OWNER q) else rej FLSTAT.CLAIMREJ) ∧
      exec (.flashRelease by_) s = (if own = q then after s (d.setF (.fl .flclaim) FLCLAIM.OWNER 7) else after s d)) ∧
    (Asks by_ s (.fl .flcmd) →
      let runs (i : Instr) (op arr : Nat) (sector : Nat) (o : FlOp) : Prop := Does i s fun t =>
        t.fl.op = some o ∧ t.b (.fl .flstat) FLSTAT.BUSY = true ∧ t.f (.fl .flstat) FLSTAT.OP = op ∧
        t.get (.fl .flopstat) = ((0 : Word) |> FLOPSTAT.BUSY.put 1 |> FLOPSTAT.OP.put op |> FLOPSTAT.ARRAY.put arr |>
          FLOPSTAT.SECTOR.put sector) ∧ t.fl.words = d.fl.words ∧ (op = 2 → sector ∈ t.fl.eic)
      let refused (i : Instr) (r : Nat) : Prop := Does i s fun t =>
        t.fl = d.fl ∧ t.b (.fl .flstat) FLSTAT.DONE = true ∧ t.f (.fl .flstat) FLSTAT.RESULT = r ∧
        (r = 1 → t.b (.fl .flstat) FLSTAT.WPREJ = true ∧ 451 ∈ t.fc.fresh)
      let all := [Instr.program by_, .erase by_, .verify by_ margin count, .evalcal by_]
      (own ≠ 7 → own ≠ q → ∀ i ∈ all, exec i s = rej FLSTAT.CLAIMREJ) ∧
      (own = 7 ∨ own = q →
        (d.b (.fl .flstat) FLSTAT.BUSY = true ∨ d.b (.fl .flstat) FLSTAT.NOCMD = true → ∀ i ∈ all, exec i s = rej FLSTAT.CMDREJ) ∧
        (d.b (.fl .flstat) FLSTAT.BUSY = false → d.b (.fl .flstat) FLSTAT.NOCMD = false → d.b (.sys (.ready 0)) READY0.FLASH = true →
          (∀ r, result true = some r → refused (.program by_) r) ∧
          (∀ r, result false = some r → refused (.erase by_) r) ∧
          (result true = none →
            runs (.program by_) 1 (arr a - 1) (flSector a) { kind := .program, addr := a / 16 * 16, data := word, margin := 0, count := 0, by_ := q }) ∧
          (result false = none →
            runs (.erase by_) 2 (arr a - 1) (flSector a) { kind := .erase, addr := a / 16 * 16, data := word, margin := 0, count := 0, by_ := q }) ∧
          (let bad := count = 0 ∨ margin = 3 ∨ arr a = 0 ∨ arr (a + 16 * (count.toNat - 1)) ≠ arr a
           (bad → refused (.verify by_ margin count) 3) ∧
           (¬ bad → runs (.verify by_ margin count) 3 (arr a - 1) (flSector a)
              { kind := .verify, addr := a / 16 * 16, data := word, margin := margin.val, count := count.toNat, by_ := q })) ∧
          runs (.evalcal by_) 4 2 385
            { kind := .evalcal, addr := a / 16 * 16, data := word, margin := 0, count := 0, by_ := q })))

/-- The end of a flash operation (R331-R335, R338): what each leaves in the array, the engine's status and its results, here with no image
chunk and no packet waiting; under thermal shutdown or lockdown a PROGRAM completes, after which the engine takes no command, an ERASE
is aborted, and a VERIFY or an EVALCAL stops with nothing written; and the end of the engine's own start. Where the spec leaves a
choice it rests on the readings of log entries 103, 104, 105, 106, 182. -/
def Obligations.FlashResults : Prop :=
  ∀ (s : State) (o : FlOp) (weak : List Nat), Up s → s.hst.chunk = none → s.hst.cmds = [] → s.hst.late = [] →
    let d := s.toDev
    let sec := flSector o.addr
    let inSector (x : Nat) : Prop := flBase sec ≤ 16 * (x / 16) ∧ 16 * (x / 16) < flBase sec + flSize sec
    let ended (r : Nat) (t : Dev) : Prop := t.fl.op = none ∧ t.b (.fl .flstat) FLSTAT.BUSY = false ∧
      t.b (.fl .flstat) FLSTAT.DONE = true ∧ t.f (.fl .flstat) FLSTAT.RESULT = r ∧ t.get (.fl .flopstat) = 0
    (d.fl.op = some o → d.fl.stop = false →
      (o.kind = .program → Does (.flashOperationEnd true weak) s fun t => ended 0 t ∧
        (if o.addr / 16 ∈ d.fl.undet then o.addr / 16 ∈ t.fl.undet else flGet t o.addr = flEnc o.data) ∧
        (∀ x, x / 16 ≠ o.addr / 16 → flGet t x = flGet d x)) ∧
      (o.kind = .erase → sec ≠ 384 → Does (.flashOperationEnd true weak) s fun t => ended 0 t ∧ sec ∉ t.fl.eic ∧
        (∀ x, inSector x → flGet t x = BitVec.allOnes 137) ∧ (∀ x, ¬ inSector x → flGet t x = flGet d x)) ∧
      (o.kind = .program ∨ o.kind = .erase → Does (.flashOperationEnd false weak) s fun t => ended 4 t ∧
        t.b (.fl .flstat) FLSTAT.FAIL = true ∧ 449 ∈ t.fc.fresh ∧ t.fl.words = d.fl.words ∧ t.fl.eic = d.fl.eic ∧
        (o.kind = .program → o.addr / 16 ∈ t.fl.undet)) ∧
      (o.kind = .verify → o.margin = 0 → (∀ k < o.count, flOpen d (o.addr + 16 * k) = false) →
        let bad := ((List.range o.count).map fun k => o.addr + 16 * k).filter fun x => flDecode (flGet d x) == .bad
        Does (.flashOperationEnd true weak) s fun t => ended 0 t ∧ t.fl.words = d.fl.words ∧
          t.f (.fl .flvfail) FLVFAIL.COUNT = min 0xFFFF bad.length ∧
          (∀ x l, bad = x :: l → t.get (.fl .flvaddr) = BitVec.ofNat 32 x)) ∧
      (o.kind = .evalcal → let A := flSlot d 0x00E01000
        let B := flSlot d 0x00E02000
        Does (.flashOperationEnd true weak) s fun t => ended 0 t ∧ t.fl.words = d.fl.words ∧
          t.b (.fl .flcal) FLCAL.NONE = (A.isNone && B.isNone) ∧
          t.f (.fl .flcal) FLCAL.VALID = b2n A.isSome + 2 * b2n B.isSome ∧
          (∀ x y, A = some x → B = some y → t.b (.fl .flcal) FLCAL.SEL = decide (x < y)) ∧
          (A = none → B = none → 453 ∈ t.fc.fresh))) ∧
    (d.fl.op = some o → d.fl.stop = true → o.kind = .erase → Does (.flashOperationEnd true weak) s fun t => ended 5 t ∧
      t.b (.fl .flstat) FLSTAT.FAIL = true ∧ t.b (.fl .flstat) FLSTAT.ABORT = true ∧ t.b (.fl .flstat) FLSTAT.NOCMD = true ∧
      450 ∈ t.fc.fresh ∧ t.fl.eic = d.fl.eic ∧ t.fl.words = d.fl.words) ∧
    (d.fl.op = some o → d.fl.stop = true → o.kind = .program →
      (Does (.flashOperationEnd true weak) s fun t => ended 0 t ∧ t.b (.fl .flstat) FLSTAT.NOCMD = true ∧
        (if o.addr / 16 ∈ d.fl.undet then o.addr / 16 ∈ t.fl.undet else flGet t o.addr = flEnc o.data) ∧
        (∀ x, x / 16 ≠ o.addr / 16 → flGet t x = flGet d x)) ∧
      (Does (.flashOperationEnd false weak) s fun t => ended 4 t ∧ t.b (.fl .flstat) FLSTAT.NOCMD = true ∧
        t.b (.fl .flstat) FLSTAT.FAIL = true ∧ 449 ∈ t.fc.fresh ∧ t.fl.words = d.fl.words ∧ o.addr / 16 ∈ t.fl.undet)) ∧
    (d.fl.op = some o → d.fl.stop = true → o.kind = .verify ∨ o.kind = .evalcal → ∀ ok, Does (.flashOperationEnd ok weak) s fun t =>
      ended 5 t ∧ t.b (.fl .flstat) FLSTAT.FAIL = true ∧ t.b (.fl .flstat) FLSTAT.NOCMD = true ∧
      t.b (.fl .flstat) FLSTAT.ABORT = d.b (.fl .flstat) FLSTAT.ABORT ∧ t.fc.fresh = d.fc.fresh ∧
      t.fl.words = d.fl.words ∧ t.fl.undet = d.fl.undet ∧ t.fl.eic = d.fl.eic ∧
      ∀ r, r ≠ .flstat → r ≠ .flopstat → t.get (.fl r) = d.get (.fl r)) ∧
    (d.b (.sys (.ready 0)) READY0.FLASH = false → Does .flashInitDone s fun t =>
      t.b (.sys (.ready 0)) READY0.FLASH = true ∧ t.b (.sys (.ready 0)) READY0.THERM = (facOk || d.b (.sys (.ready 0)) READY0.THERM) ∧ t.fl.words = d.fl.words ∧
      (d.sys.por = true → d.fl.eic ≠ [] → t.b (.fl .flstat) FLSTAT.EIFOUND = true ∧ 454 ∈ t.fc.fresh) ∧
      (facOk = false → t.b (.fl .flstat) FLSTAT.FACBAD = true ∧ 452 ∈ t.fc.fresh))

/-- The resets of the device (R343-R346, R348): power-on and pin reset, the software request by S or the host with its key and its refusal,
and the release, which samples the strap. The core resets (R346, R347): CORE_RESET_REQUEST with its key by S or, for S itself, by the
host alone; CORERUN_WRITE, whose bits written 0 reset helm cores, in reset or not; what a reset core holds; and which cores are left
alone. Where the spec leaves a choice it rests on the readings of log entries 64, 71, 75, 112, 114. -/
def Obligations.DeviceResets : Prop :=
  (∀ (s : State) (by_ : Requester) (key : Byte) (head : Bool),
     let d := found s
     let history : Word := if d.b (.fc .fsum) FSUM.LOCKDOWN then d.get (.sys .rstcause) ||| 8 else d.get (.sys .rstcause)
     let wiped (k : RstKind) (cause : Word) (t : Dev) : Prop :=
       t.sys.rst = some (k, d.now) ∧ t.now = d.now ∧ t.get (.sys .rstcause) = cause ∧
       (∀ r, r ≠ .sys .rstcause → (∀ b e, r = .sys (.remap b e) → k = .por) → (r = .sys .iostat → k = .por) → t.get r = r.reset) ∧
       (∀ r, (∃ b e, r = .sys (.remap b e)) → k ≠ .por → t.get r = d.get r) ∧
       (∀ n : Fin 96, t.leg[n] = {}) ∧ (∀ c : Fin 5, t.core[c] = {}) ∧ t.fl.words = d.fl.words ∧ t.fl.eic = d.fl.eic ∧
       t.jtag = (if k = .por then { trst := d.jtag.trst } else d.jtag)
     Does .powerOnReset s (wiped .por 1) ∧
     ((∀ t, d.sys.rst ≠ some (.por, t)) → Does .pinReset s (wiped .pin (history ||| 2))) ∧
     (∀ t, d.sys.rst = some (.por, t) → exec .pinReset s = after s d) ∧
     (Asks by_ s (.sys .rstctl) →
       (key = 0x5A ∧ (by_ = .core 4 ∨ by_ = .host) → Does (.deviceResetRequest by_ key) s (wiped .soft (history ||| 4))) ∧
       (¬ (key = 0x5A ∧ (by_ = .core 4 ∨ by_ = .host)) →
         exec (.deviceResetRequest by_ key) s = after s ((asked by_ d).flag (.sys .rstcause) RSTCAUSE.RSTREJ))) ∧
     (∀ k t, d.sys.rst = some (k, t) → Does (if k = .por then .porRelease head else .deviceResetRelease head) s fun u =>
       u.sys.rst = none ∧ u.now = max d.now (t + (if k = .por then 200 else 10) * tuUs) ∧ u.b (.lnk .lnkstat) LNKSTAT.HEAD = head ∧
       u.get (.lnk .lnkaddr) = (if head then (0 : Word) |> LNKADDR.V.put 1 |> LNKADDR.COUNT.put 1 else d.get (.lnk .lnkaddr)))) ∧
  (∀ (s : State) (by_ : Requester) (v : Word) (c : Fin 5),
     let d := asked by_ s.toDev
     let cores := RSTCTL.CORERST.get v
     let new := CORERUN.H.get v
     let resetIf (hit : Bool) (t : Dev) : Prop :=
       if hit then t.core[c] = { resetAt := d.now } ∧ t.get (.core c .vecsel) = 0 ∧ t.get (.core c .exccnt) = 0 ∧
         t.ic.tgt[c].stack = [] ∧ t.f (.fl .flclaim) FLCLAIM.OWNER ≠ c.val ∧ t.get (.core c .lockinfo) = d.get (.core c .lockinfo)
       else t.core[c] = d.core[c]
     (Asks by_ s (.sys .rstctl) →
       (RSTCTL.KEY.get v = 0x5A → by_ = .host ∨ (by_ = .core 4 ∧ cores < 16) →
         Does (.coreResetRequest by_ v) s fun t => resetIf (cores.testBit c.val) t ∧
           t.f (.sys .rstcause) RSTCAUSE.CRST = d.f (.sys .rstcause) RSTCAUSE.CRST ||| cores) ∧
       (RSTCTL.KEY.get v ≠ 0x5A ∨ (by_ = .core 4 ∧ 16 ≤ cores) ∨ (by_ ≠ .host ∧ by_ ≠ .core 4 ∧ cores ≠ 0) →
         exec (.coreResetRequest by_ v) s = after s (d.flag (.sys .rstcause) RSTCAUSE.RSTREJ))) ∧
     (Asks by_ s (.sys .corerun) →
       (by_ = .core 4 ∨ by_ = .host → Does (.corerunWrite by_ v) s fun t =>
         resetIf (decide (c ≠ 4) && !new.testBit c.val) t ∧ t.f (.sys .corerun) CORERUN.H = new ∧
           t.f (.sys .rstcause) RSTCAUSE.CRST = d.f (.sys .rstcause) RSTCAUSE.CRST ||| (15 - new)) ∧
       (by_ ≠ .core 4 → by_ ≠ .host → exec (.corerunWrite by_ v) s = after s (d.flag (.sys .rstcause) RSTCAUSE.RSTREJ))))

/-- The start of the device (R347, R349, R352-R354, R357): the readiness of the shroud and of the analog blocks, the end of a core reset
for a helm core and for S, and the boot ROM's run with and without an image that verifies. Where the spec leaves a choice it rests on
the readings of log entries 93, 94, 95, 115, 116. -/
def Obligations.StartUp : Prop :=
  ∀ (s : State) (c : Fin 4) (f : Dev) (t : SegSt) (b : Bool) (h : Header), Up s →
    let d := s.toDev
    let ready (x : Dev) (k : Fld) : Bool := x.b (.sys (.ready 0)) k
    let k : Fin 5 := Fin.ofNat 5 c.val
    (ready d READY0.SHROUD = false → Does .shroudReady s fun x =>
      ready x READY0.AON = true ∧ ready x READY0.SHROUD = true ∧ ready x READY0.FABRIC = true ∧
      x.core[(4 : Fin 5)] = { d.core[(4 : Fin 5)] with run := .run } ∧ x.fc.tollAt = some (d.now + 50 * tuUs) ∧
      (x.get (.sys (.ready 3))).getLsbD 4 = true) ∧
    (ready d READY0.ANALOG = false → Does .analogReady s fun x => ready x READY0.ANALOG = true ∧ x.now = d.now) ∧
    (coreMayStart d k = true → Calm s (d.core[k].resetAt + tuUs) →
      let e := coreLeavesReset k (wdRestart k (d.at (d.core[k].resetAt + tuUs)))
      (d.b (.sys .bootstat) BOOTSTAT.DONE = false → Does (.coreResetEnd k) s fun x =>
        x.core[k].parked = true ∧ x.core[k].run = .waiting ∧ x.get (.sys (.bootfseg k)) = 0xF0000000) ∧
      (d.b (.sys .bootstat) BOOTSTAT.DONE = true →
        walk k 8 true (BitVec.ofNat 16 (e.f (.sys (.bootent c)) BOOTENT.SEL)) e = (.ok t, f) →
        exec (.coreResetEnd k) s = endsIn s k f fun y =>
          { y with seg := y.seg.set 0 t, pc := BitVec.ofNat 17 (e.f (.sys (.bootent c)) BOOTENT.OFS) })) ∧
    (coreMayStart d 4 = true → Calm s (d.core[(4 : Fin 5)].resetAt + tuUs) → d.f (.sys .bootstat) BOOTSTAT.IMG < 2 → Does (.coreResetEnd 4) s fun x =>
      x.core[(4 : Fin 5)].run = .run ∧ x.b (.sec .verstat) VERSTAT.BUSY = true ∧
      x.now = max d.now (d.core[(4 : Fin 5)].resetAt + tuUs) ∧
      (x.sec.ver.map fun v => (v.bank, v.for_)) = some (d.f (.sys .bootstat) BOOTSTAT.IMG == 1, VerFor.restart)) ∧
    (bootDue d = true →
      let e := bootBadHeader true (bootBadHeader false d)
      (bootVerify (candOrder e) e = (none, f) → exec .bootRomRun s = after s
        (((f.flag (.sys .bootstat) BOOTSTAT.RECOV).setF (.sys .bootstat) BOOTSTAT.IMG 3).setF (.sys .sysctl) SYSCTL.PHASE 3)) ∧
      (bootVerify (candOrder e) e = (some b, f) → bankHeader f b = some (some h) → Does .bootRomRun s fun x =>
        x.b (.sys .bootstat) BOOTSTAT.DONE = true ∧ x.f (.sys .bootstat) BOOTSTAT.IMG = b2n b ∧ ready x READY0.BOOT = true ∧
        x.get (.sys .bootseq) = BitVec.ofNat 32 h.seq ∧
        x.f (.sys .corerun) CORERUN.H = (f.f (.sys .corerun) CORERUN.H ||| h.cores) % 16))

/-- The package (R449, R450, R462): the bank that latches its class, once until power-on reset, and the line of a supply that is low by
then; and the instructions of the test access port: what EXTEST drives while no gate driver is enabled, what the observing cells take,
and TRST, whose low level holds the test logic in reset and whose changes each TEST_RESET makes. Where the spec leaves a choice it
rests on the readings of log entries 38, 39, 117, 176. -/
def Obligations.PackageAndJtag : Prop :=
  ∀ (s : State) (k : Fin 4) (v33 : Bool) (cells : BitVec 12),
    let d := found s
    let present := d.f (.sys .iostat) IOSTAT.PRESENT
    let latched := (d.setF (.sys .iostat) IOSTAT.PRESENT (present ||| 2 ^ k.val)).setF (.sys .iostat) IOSTAT.V33
      (d.f (.sys .iostat) IOSTAT.V33 ||| (if v33 then 2 ^ k.val else 0))
    let high (n : Fin 96) (w : Sw) : Bool := decide (legBall d n w = .high)
    let looked : JtagSt := { d.jtag with legs := (List.finRange 96).flatMap (fun n => [high n .h, high n .l]), ins := inBalls d, gates :=
      [gatePin d 0, gatePin d 1, gatePin d 2, gatePin d 3] }
    let preload : TestBalls :=
      { toll := cells.getLsbD 0, lockup := cells.getLsbD 1, rstout := cells.getLsbD 2,
        posC := Vector.ofFn (fun n => cells.getLsbD (3 + n.val)), miso := cells.getLsbD 11 }
    ((∀ t, d.sys.rst ≠ some (.por, t)) → present.testBit k.val = false → exec (.ioBankLatch k v33) s = after s (
      match d.sys.vio[k] with
      | .good => latched
      | .low => latched.lineOn (484 + k.val)
      | .absent => { latched with sys := { latched.sys with vio := latched.sys.vio.set k .good } })) ∧
    ((∃ t, d.sys.rst = some (.por, t)) ∨ present.testBit k.val = true → exec (.ioBankLatch k v33) s = after s d) ∧
    (d.jtag.trst = false →
      ((∀ g < 4, gatePin d g = false) →
        exec (.jtagExtest cells) s = after s { d with jtag := { looked with ir := .extest, cells := preload } }) ∧
      ((∃ g < 4, gatePin d g = true) → Does (.jtagExtest cells) s fun t =>
        { t.jtag with cells := looked.cells } = { looked with ir := .extest } ∧ t.regs = d.regs) ∧
      exec (.jtagSamplePreload cells) s = after s { d with free := d.free + 2, jtag :=
        { looked with ir := .sample, cells := preload, seen := (testBalls d).seen d } } ∧
      exec .jtagIdcode s = after s { d with jtag := { d.jtag with ir := .idcode } } ∧
      exec .jtagBypass s = after s { d with jtag := { d.jtag with ir := .bypass } }) ∧
    (d.jtag.trst = true → ∀ i ∈ [Instr.jtagExtest cells, .jtagSamplePreload cells, .jtagIdcode, .jtagBypass], exec i s = after s d) ∧
    exec .testReset s = after s { d with jtag := { d.jtag with trst := !d.jtag.trst, ir := .idcode } }

/-- The read and write commands (R399, R400), STATUS and TIME_SYNC, each in front of what the interpreter sees of its queue with a packet
behind it that has failed no check: what they read or write, and the reply; the refusals of a bad length or parameter, of a bad opcode
and of a bad address, which a block meets at its first word that lies in no region, in the outbound window or, for a write, in the boot
ROM or flash (R300); and the order in which words are written. Where the spec leaves a choice it rests on the readings of log entries
13, 126, 131. -/
def Obligations.AccessCommands : Prop :=
  ∀ (s : State) (c : Cmd) (rest : List Cmd),
    Up s → hstSeen s.toDev = c :: rest → (∀ x, rest.head? = some x → x.err = none) → c.err = none → s.hst.late = [] →
    hstRoom s.toDev c.hdr.iface = true →
    let d := s.toDev
    let e : Dev := { d with hst := { d.hst with cmds := d.hst.cmds.erase c } }
    let f := e.tagPulse 69 1
    let g := e.tagTake 69 1
    let answers (op : Nat) (i : Instr) (st : Nat) (data : List Byte) (x : Dev) : Prop :=
      c.hdr.op = op → exec i s = after s (hstReply c.hdr st data x)
    let view (l : List Reg) : List Byte := l.flatMap fun r => bytesLE 4 (readNow .host r e).1.toNat
    let a := (wordAt c.payload 0).toNat
    let len := c.payload.length
    (len = 0 →
      answers 0x01 .status 0 (view [.sys (.ready 0), .sys (.ready 1), .sys (.ready 2), .sys (.ready 3), .sys .ident, .fc .fsum,
        .sys .bootstat, .lnk .lnkaddr]) e ∧
      answers 0x09 .timeSync 0 (bytesLE 8 c.stamp ++ view [.lnk .lnktstat, .lnk .lnkstat]) e) ∧
    (len ≠ 0 → answers 0x01 .status 0x14 [] e ∧ answers 0x09 .timeSync 0x14 [] e) ∧
    (∀ op, (op = 0xFF ∨ op < 0x80 ∧ op ∉ [0x01, 0x02, 0x03, 0x04, 0x05, 0x08, 0x09, 0x0A, 0x0B, 0x10, 0x11, 0x18]) →
      answers op .badOpcode 0x13 [] e) ∧
    -- the words of a write command are made in ascending order, each with a tag of its own
    (∀ (x : Dev) p t, let y (l : List (Nat × BitVec 4 × Word)) : Dev := { x with hst := { x.hst with posted := l } }
      hostIssueAll (y []) = y [] ∧ hostIssueAll (y (p :: t)) =
        if tagsFull x 69 = true ∨ hostWriteWaits x p.1 = true then y (p :: t)
        else hostIssueAll (inWriteWord p.1 p.2.1 p.2.2 ((y t).tagPulse 69 1))) ∧
    (tagsFull d 69 = false → d.hst.posted = [] →
      let within (x lo hi : Nat) : Prop := lo ≤ x ∧ x < hi
      let writable (x : Nat) : Prop := within x 0x20000000 0x20400000 ∨ within x 0x30000000 0x30004000 ∨ within x 0x40000000 0x50000000
      let readable (x : Nat) : Prop := x < 0x10000 ∨ within x 0x100000 0xD00000 ∨ within x 0xE00000 0xE10000 ∨ writable x
      let m := (wordAt c.payload 4).toNat
      let v := wordAt c.payload 4
      let word (k : Nat) : Word := wordAt c.payload (4 + 4 * k)
      (len ≠ 4 ∨ a % 4 ≠ 0 → answers 0x02 .read 0x14 [] e) ∧
      (len ≠ 8 ∨ a % 4 ≠ 0 ∨ m % 4 ≠ 0 ∨ m < 4 ∨ 1024 < m → answers 0x04 .readBlock 0x14 [] e) ∧
      (len = 4 → a % 4 = 0 → ¬ readable a → answers 0x02 .read 0x15 [] f) ∧
      (∀ w bad x, len = 4 → a % 4 = 0 → readable a → hostWaits d a = false → hostWord reqHost a g = ((w, bad), x) →
        answers 0x02 .read (if bad then 0x16 else 0) (bytesLE 4 w.toNat) (x.tagBack 69 1)) ∧
      (∀ n j ws bad x, len = 8 → a % 4 = 0 → m = 4 * n → 1 ≤ n → n ≤ 256 → j ≤ n →
        (∀ k < j, readable (a + 4 * k) ∧ hostWaits d (a + 4 * k) = false) → (j < n → ¬ readable (a + 4 * j)) →
        hostWords reqHost ((List.range j).map fun k => a + 4 * k) g = ((ws, bad), x) →
        answers 0x04 .readBlock (if j < n then 0x15 else if bad then 0x16 else 0)
          (if j < n then [] else ws.flatMap fun w => bytesLE 4 w.toNat) (x.tagBack 69 1)) ∧
      (hostWriteWaits d a = false → len ≠ 8 ∨ a % 4 ≠ 0 → answers 0x03 .write 0x14 [] e) ∧
      (len = 8 → a % 4 = 0 → ¬ writable a → answers 0x03 .write 0x15 [] e) ∧
      (len = 8 → a % 4 = 0 → writable a → hostWriteWaits d a = false →
        let x := hostWrite a v f
        let refused : Prop := ∃ r : Fin 16, Reg.ofAddr a = some (.capr r .ctl) ∧ CAPR_CTL.EN.bit v = true ∧
          d.b (.capr r .ctl) CAPR_CTL.EN = false ∧ x.b (.capr r .ctl) CAPR_CTL.EN = false ∧ x.cap[r].enW = false
        (¬ refused → answers 0x03 .write 0 [] x) ∧ (refused → answers 0x03 .write 0x20 [] x)) ∧
      ((∀ k < 256, hostWriteWaits d (a + 4 * k) = false) →
        (len % 4 ≠ 0 ∨ len < 8 ∨ 1024 < len ∨ a % 4 ≠ 0 → answers 0x05 .writeBlock 0x14 [] e) ∧
        (∀ n j, len = 4 + 4 * n → 1 ≤ n → n ≤ 255 → a % 4 = 0 → j ≤ n → (∀ k < j, writable (a + 4 * k)) →
          (j < n → ¬ writable (a + 4 * j)) →
          answers 0x05 .writeBlock (if j < n then 0x15 else 0) (bytesLE 4 j)
            (hostIssue ((List.range j).map fun k => (a + 4 * k, (0xF : BitVec 4), word k)) e))))

/-- The commands that start something (R401-R404, R428): ENUMERATE, SNAPSHOT, CALIBRATE, IMAGE_CHUNK, IMAGE_COMMIT, TK_STAGE and a firmware
opcode, with the same premises as the access commands. Where the spec leaves a choice it rests on the readings of log entries 120, 126,
132, 133. -/
def Obligations.OperationCommands : Prop :=
  ∀ (s : State) (c : Cmd) (rest : List Cmd) (n : Fin 32),
    Up s → hstSeen s.toDev = c :: rest → (∀ x, rest.head? = some x → x.err = none) → c.err = none → s.hst.late = [] →
    hstRoom s.toDev c.hdr.iface = true →
    let d := s.toDev
    let e : Dev := { d with hst := { d.hst with cmds := d.hst.cmds.erase c } }
    let answers (op : Nat) (i : Instr) (st : Nat) (data : List Byte) (x : Dev) : Prop :=
      c.hdr.op = op → exec i s = after s (hstReply c.hdr st data x)
    let a := (wordAt c.payload 0).toNat
    let len := c.payload.length
    let away := d.core[(4 : Fin 5)].run ∈ [CoreRun.held, .halted, .locked] ∨ d.core[(4 : Fin 5)].parked = true
    (len = 0 → d.hst.enum = none → lnkHead d = false →
      answers 0x08 .enumerate 0 (bytesLE 4 (d.get (.lnk .lnkaddr)).toNat) e) ∧
    (len = 0 → d.hst.enum = none → lnkHead d = true → lnkBusy d = false → c.hdr.op = 0x08 → Does .enumerate s fun t =>
      t.hst.enum = some (c.hdr, d.now) ∧ lnkBusy t = true ∧
      (lnkTrained d 1 = true → t.lnk.port[(1 : Fin 2)].txq = d.lnk.port[(1 : Fin 2)].txq ++ [{ frame := .enum 1 0, at_ := d.now, fwd := false }])) ∧
    (let named := (finsIn 16 a).filter fun r => d.b (.capr r .stat) CAPR_STAT.RUN
     let took := (named.filter fun r => d.cap[r].snap.isNone).foldl (fun m r => m + 2 ^ r.val) 0
     len = 4 → a < 2 ^ 16 → named ≠ [] → answers 0x0A .snapshot 0 (bytesLE 8 c.stamp ++ bytesLE 4 took)
       (e.each named fun r x => capSnapStart r c.stamp c.tv x)) ∧
    (len = 4 → d.hst.cal = none → d.sys.pllA = true → a.testBit n.val = true → adcMode d n = 0 →
      d.b (.adc n .stat) ADC_STAT.CALBUSY = false → c.hdr.op = 0x0B → Does .calibrate s fun t =>
        t.b (.adc n .stat) ADC_STAT.CALBUSY = true ∧ t.adc[n].calEnd = some (acUp d.now + 960000 * tuAc) ∧
        (t.hst.cal.map fun k => (k.hdr, k.mask, k.wait.testBit n.val)) = some (c.hdr, a, true)) ∧
    (let bank := a == 1
     let off := (wordAt c.payload 4).toNat
     let to_ := bankBase bank + off
     24 ≤ len → len ≤ 1016 → len % 16 = 8 → a ≤ 1 → off % 0x8000 = 0 → off + (len - 8) ≤ 0x600000 → d.hst.chunk = none →
     (flOwner d = 7 ∨ flOwner d = 5) → ¬ (d.b (.sys .bootstat) BOOTSTAT.DONE = true ∧ d.f (.sys .bootstat) BOOTSTAT.IMG = a) →
     d.b (.fl .flstat) FLSTAT.BUSY = false → d.b (.fl .flstat) FLSTAT.NOCMD = false → d.b (.sys (.ready 0)) READY0.FLASH = true →
     flProtected d (flSector to_) = false → c.hdr.op = 0x10 → Does .imageChunk s fun t =>
       flOwner t = 5 ∧ (t.fl.op.map fun o => (o.kind, o.addr)) = some (FlKind.erase, to_) ∧
       (t.hst.chunk.map fun k => (k.hdr, k.going, k.words.length)) = some (c.hdr, true, (len - 8) / 16)) ∧
    (len = 4 → a ≤ 1 → ¬ away → d.hst.commit = none → d.sec.ver = none → c.hdr.op = 0x11 → Does .imageCommit s fun t =>
      t.hst.commit = some c.hdr ∧ (t.sec.ver.map fun v => (v.bank, v.for_)) = some (a == 1, VerFor.command) ∧
      t.b (.sec .verstat) VERSTAT.BUSY = true) ∧
    (len = 4 → a ≤ 1 → away → answers 0x11 .imageCommit 0x21 [] e) ∧
    (∀ x, len = 8 → a % 4 = 0 → ¬ away →
      (tkStage 5 a (wordAt c.payload 4) e = (.taken, x) →
        answers 0x18 .tkStageCommand 0 (bytesLE 2 (crc16 (tkNonceBytes x))) (tkNonceReady x)) ∧
      (tkStage 5 a (wordAt c.payload 4) e = (.refused, x) → answers 0x18 .tkStageCommand 0x51 [] x) ∧
      (tkStage 5 a (wordAt c.payload 4) e = (.busy, x) → answers 0x18 .tkStageCommand 0x50 [] x)) ∧
    (0x80 ≤ c.hdr.op → c.hdr.op ≤ 0xFE →
      (d.b (.hif .hifcfg) HIFCFG.FWEN = false → exec .firmwareOpcode s = after s (hstReply c.hdr 0x1A [] e)) ∧
      (d.b (.hif .hifcfg) HIFCFG.FWEN = true → d.b (.hif .fwstat) FWSTAT.PEND = true →
        exec .firmwareOpcode s = after s (hstReply c.hdr 0x17 [] e)) ∧
      (d.b (.hif .hifcfg) HIFCFG.FWEN = true → d.b (.hif .fwstat) FWSTAT.PEND = false → Does .firmwareOpcode s fun t =>
        t.b (.hif .fwstat) FWSTAT.PEND = true ∧ t.hst.fw = some (c.hdr, d.now) ∧ t.hst.cmds = d.hst.cmds.erase c))

/-- A reply (R392, R393, R396, R398, R409): suppressed, queued for its interface, or kept until its queue has room; its bytes, with both
checks; and the mailbox that shows it when it was empty. A whole packet whose header is good (R394, R396, R397, R411): the status of
the check it fails, where it goes, and what is queued; one that completes on SPI while two await their start is discarded with SPIOVF.
Where the spec leaves a choice it rests on the readings of log entries 125, 126, 174. -/
def Obligations.Replies : Prop :=
  (∀ (d : Dev) (h : CmdHdr) (st : Nat) (data : List Byte), data.length ≤ 1024 →
     let mute := (h.bcast = true ∧ h.flags.testBit 1 = false) ∨ (st = 0 ∧ h.flags.testBit 0 = true)
     let b := replyBytes d h st data
     let t := hstReply h st data d
     let room := hstRoom d h.iface = true
     (mute → t = d) ∧
     (¬ mute → ¬ room → t = { d with hst := { d.hst with late := d.hst.late ++ [(h.iface, h.src, b)] } }) ∧
     (¬ mute → room → h.iface = .pcie → t.hst.pcie = d.hst.pcie ++ [b] ∧ t.hst.spiQ = d.hst.spiQ ∧
       (d.hst.pcie = [] → ∀ k : Fin 512, 4 * k.val < b.length → t.get (.hif (.hmbrpl k)) = wordAt b (4 * k.val)) ∧
       (d.hst.pcie ≠ [] → t.regs = d.regs)) ∧
     (¬ mute → room → h.iface = .spi → t = { d with hst := { d.hst with spiQ := d.hst.spiQ ++ [b] } }) ∧
     b.length = data.length + 14 ∧ ofLE ((b.drop 4).take 2) = data.length + 2 ∧ ofLE ((b.drop 6).take 2) = crc16 (b.take 6) ∧
     ofLE (b.drop (data.length + 10)) = crc32c ((b.drop 8).take (data.length + 2)) ∧ (b.drop 10).take data.length = data ∧
     (h.op < 256 → ofLE (b.take 1) = h.op) ∧ (h.tag < 256 → ofLE ((b.drop 1).take 1) = h.tag) ∧
     (st < 65536 → ofLE ((b.drop 8).take 2) = st)) ∧
  (∀ (d : Dev) (i : Iface) (b : List Byte) (len dst flags src : Nat),
     (let n := ofLE ((b.drop 4).take 2)
      let h := hstHdr i src b
      let c (e : Option Nat) : Cmd :=
       { hdr := h, payload := (b.drop 8).take n, raw := b.take (12 + n), at_ := d.now, err := e, stamp := d.stamp d.now, tv := d.ctv }
      let queued (e : Option Nat) (x : Dev) : Dev := hstFlush { x with hst := { x.hst with cmds := x.hst.cmds ++ [c e] } }
      let route := pktRoute d i (b.getD 2 0).toNat h.flags
      let sent (x : Dev) : Dev := lnkOwnPacket (b.getD 2 0).toNat 0 (b.take (12 + n)) x
      let starts : Bool := match hstSeen d with
        | x :: _ => hstRoom d x.hdr.iface
        | [] => true
      let held := ((if starts then (hstSeen d).tail else hstSeen d).filter fun x => x.hdr.iface == .spi).length
      (i = .spi → 2 ≤ held → hstPacket i src b d = hstFlag HSTAT.SPIOVF d) ∧
      (i ≠ .spi ∨ held < 2 →
        (packetErr b n = some 0x10 → hstPacket i src b d =
          queued (some 0x10) (((hstFlag HSTAT.PCRC d).bump (.hif .hcnt) HCNT.PCRC_CNT).pulse 465)) ∧
        (packetErr b n = some 0x14 → hstPacket i src b d = queued (some 0x14) d) ∧
        (packetErr b n = none →
          (route = .here → hstPacket i src b d = queued none d) ∧ (route = .noRoute → hstPacket i src b d = queued (some 0x18) d) ∧
          (route = .forward → hstPacket i src b d = sent d) ∧ (route = .both → hstPacket i src b d = sent (queued none d))))) ∧
     (packetErr b len = if crc32c ((b.drop 8).take len) ≠ ofLE ((b.drop (8 + len)).take 4) then some 0x10
       else if 8 ≤ (b.getD 3 0).toNat then some 0x14 else none) ∧
     (flags.testBit 2 = true ∨ i = .link → pktRoute d i dst flags = .here) ∧
     (flags.testBit 2 = false → i ≠ .link →
       (dst = 0x7F ∨ 0x80 ≤ dst → pktRoute d i dst flags = if lnkV d then .both else .here) ∧
       (0x40 ≤ dst ∧ dst ≤ 0x7E → pktRoute d i dst flags = .noRoute) ∧
       (dst < 0x40 → lnkV d = false → pktRoute d i dst flags = .here) ∧
       (dst < 0x40 → lnkV d = true →
         (lnkCount d ≤ dst → pktRoute d i dst flags = .noRoute) ∧
         (dst < lnkCount d → dst = lnkAddr d → pktRoute d i dst flags = .here) ∧
         (dst < lnkCount d → dst ≠ lnkAddr d →
           pktRoute d i dst flags = if i = (if d.b (.hif .hifcfg) HIFCFG.CHAINIF then .spi else .pcie) then .forward else .noRoute))))

/-- Firmware's replies and the mailbox (R403, R404, R409): FWRPL in time, late and refused; the timeouts of firmware and of an ENUMERATE;
the reset that follows an update 1 ms after its reply is queued, or once the reply has left; a doorbell that is ignored, refused or too
short; and the acknowledge of a reply. Where the spec leaves a choice it rests on the readings of log entries 127, 129, 130. -/
def Obligations.MailboxAndFirmware : Prop :=
  ∀ (s : State) (by_ : Requester) (v : Word) (count : BitVec 11) (h : CmdHdr) (t0 : Nat), Up s → s.hst.cmds = [] → s.hst.late = [] →
    let d := s.toDev
    let q := asked by_ d
    (Asks by_ s (.hif .fwrpl) →
      (∀ fw, d.hst.fw = some fw → fw = (h, t0) → fwExpired d = false → FWRPL.DLEN.get v ≤ 1024 →
        exec (.fwrpl by_ v) s = after s (hstReply h (FWRPL.STATUS.get v) (fwBytes d (FWRPL.DLEN.get v))
          ((q.setB (.hif .fwstat) FWSTAT.PEND false).hstU fun x => { x with fw := none }))) ∧
      (d.hst.fw ≠ none → fwExpired d = false → 1024 < FWRPL.DLEN.get v →
        exec (.fwrpl by_ v) s = after s (q.flag (.hif .fwstat) FWSTAT.RPLREJ)) ∧
      (d.hst.fw ≠ none → fwExpired d = true →
        exec (.fwrpl by_ v) s = after s (((fwTimeout q).flag (.hif .fwstat) FWSTAT.RPLREJ).flag (.hif .fwstat) FWSTAT.LATE)) ∧
      (d.hst.fw = none → exec (.fwrpl by_ v) s = after s (let e := q.flag (.hif .fwstat) FWSTAT.RPLREJ
        if d.hst.fwLate then e.flag (.hif .fwstat) FWSTAT.LATE else e))) ∧
    (d.hst.fw = some (h, t0) →
      let at_ := t0 + max 1 (d.f (.hif .hifcfg) HIFCFG.FWTMO) * 1000 * tuUs
      Calm s at_ →
      let e := (d.at at_).hstU fun x => { x with fw := none, fwLate := true }
      exec .firmwareTimeout s = after s (hstReply h 0x1B []
        (((e.setB (.hif .fwstat) FWSTAT.PEND false).flag (.hif .fwstat) FWSTAT.TMOF).pulse 471))) ∧
    (d.hst.enum = some (h, t0) → Calm s (t0 + 10000 * tuUs) → exec .enumerateTimeout s =
      after s (hstReply h 0x19 [] ((d.at (t0 + 10000 * tuUs)).hstU fun x => { x with enum := none }))) ∧
    (∀ i b, d.hst.recAt = some (t0, i, b) →
      (Calm s t0 → Does .recoveryReset s fun t => t.sys.rst = some (.soft, max d.now t0)) ∧
      (d.replyLeft i b d.now).hst.recAt = some (min t0 d.now, i, b) ∧ ∀ x, x ≠ b → d.replyLeft i x d.now = d) ∧
    (d.hst.recAt = none → exec .recoveryReset s = after s d) ∧
    (Asks by_ s (.hif .hdbell) →
      (d.b (.hif .hifcfg) HIFCFG.PCIEEN = false → exec (.doorbell by_ count) s = after s q) ∧
      (d.b (.hif .hifcfg) HIFCFG.PCIEEN = true →
        let b := hmbBytes d count.toNat
        let len := ofLE ((b.drop 4).take 2)
        let short := ((hstFlag HSTAT.TRUNC q).bump (.hif .hcnt) HCNT.TRUNC_CNT).pulse 466
        (count.toNat < 8 → exec (.doorbell by_ count) s = after s short) ∧
        (8 ≤ count.toNat → crc16 (b.take 6) = ofLE ((b.drop 6).take 2) →
          (1024 < len → exec (.doorbell by_ count) s = after s (hstReply (hstHdr .pcie 0 b) 0x12 [] q)) ∧
          (len ≤ 1024 → count.toNat < 12 + len → exec (.doorbell by_ count) s = after s (hstReply (hstHdr .pcie 0 b) 0x11 [] short))) ∧
        (8 ≤ count.toNat → crc16 (b.take 6) ≠ ofLE ((b.drop 6).take 2) → exec (.doorbell by_ count) s =
          after s (((hstFlag HSTAT.HCRC q).bump (.hif .hcnt) HCNT.HCRC_CNT).pulse 464)) ∧
        (8 ≤ count.toNat → crc16 (b.take 6) = ofLE ((b.drop 6).take 2) → len ≤ 1024 → 12 + len ≤ count.toNat →
          exec (.doorbell by_ count) s = after s (hstPacket .pcie 0 (b.take (12 + len)) q)))) ∧
    (Asks by_ s (.hif .hrack) →
      (d.hst.pcie = [] → exec (.hrack by_ v) s = after s q) ∧
      (∀ x rest, d.hst.pcie = x :: rest → Does (.hrack by_ v) s fun t => t.hst.pcie = rest ∧
        (∀ y l, rest = y :: l → ∀ k : Fin 512, 4 * k.val < y.length → t.get (.hif (.hmbrpl k)) = wordAt y (4 * k.val))))

/-- The SPI target (R394, R395, R410, R411): bytes of a command frame, fewer than a header, a header with a bad CRC or too long a packet, a
whole packet, and bytes that are skipped or discarded; a whole reply taken from the queue, the status frame, a frame of another code, a
gap 20 us after the last byte and the rise of CS_N with and without partial input; and the target turned off. Where the spec leaves a
choice it rests on the readings of log entries 127, 129. -/
def Obligations.SpiTarget : Prop :=
  ∀ (s : State) (bytes : List Byte) (whole : Bool), Up s → s.hst.cmds = [] → s.hst.late = [] →
    let d := s.toDev
    let sends (l : List Byte) (e : Dev) : Dev :=
      { e with hst := { e.hst with out := e.hst.out ++ [.spi (BitVec.ofNat 8 (spiSbyte d) :: l)] } }
    let spi (g : SpiSt) (e : Dev) : Dev := { e with hst := { e.hst with spi := g } }
    let x := d.hst.spi
    let gap := x.at_ + 20 * tuUs
    (d.b (.hif .hifcfg) HIFCFG.SPIEN = false →
      ∀ i ∈ [Instr.spiCmdFrame bytes, .spiRplFrame whole, .spiStatFrame, .spiIgnoredFrame], exec i s = after s d) ∧
    (d.b (.hif .hifcfg) HIFCFG.SPIEN = true → x.low = false →
      (bytes.length < 8 → exec (.spiCmdFrame bytes) s = after s (sends [] (spi { low := true, buf := bytes, at_ := d.now } d))) ∧
      (d.hst.spiQ = [] → exec (.spiRplFrame whole) s = after s (sends [0, 0] d)) ∧
      (∀ b rest, d.hst.spiQ = b :: rest → exec (.spiRplFrame whole) s =
        after s (let e := sends (bytesLE 2 b.length ++ b) d
          if whole then ({ e with hst := { e.hst with spiQ := rest } } : Dev).replyLeft .spi b d.now else e)) ∧
      exec .spiStatFrame s = after s (sends (bytesLE 4 (SPISTAT.CS.put 0 (spiStat d)).toNat) d) ∧
      exec .spiIgnoredFrame s = after s (sends [] (d.bump (.hif .hcnt) HCNT.DROP_CNT))) ∧
    (d.b (.hif .hifcfg) HIFCFG.SPIEN = true → x.low = true →
      let last := if bytes = [] then x.at_ else d.now
      let b := x.buf ++ bytes
      let len := ofLE ((b.drop 4).take 2)
      let goodHeader : Prop := 8 ≤ b.length ∧ crc16 (b.take 6) = ofLE ((b.drop 6).take 2)
      let takes (e : Dev) : Prop := exec (.spiCmdFrame bytes) s = after s e
      (x.drop = true → takes (spi { x with buf := [], at_ := last } d)) ∧
      (x.drop = false → 0 < x.skip → x.buf = [] → bytes.length ≤ x.skip →
        takes (spi { x with skip := x.skip - bytes.length, at_ := last } d)) ∧
      (x.drop = false → x.skip = 0 →
        (b.length < 8 → takes (spi { x with buf := b, at_ := last } d)) ∧
        (8 ≤ b.length → crc16 (b.take 6) ≠ ofLE ((b.drop 6).take 2) →
          takes (spi { x with buf := [], drop := true, at_ := last } (((hstFlag HSTAT.HCRC d).bump (.hif .hcnt) HCNT.HCRC_CNT).pulse 464))) ∧
        (goodHeader → 1024 < len → b.length ≤ 12 + len →
          takes (spi { x with buf := [], skip := 12 + len - b.length, at_ := last } (hstReply (hstHdr .spi 0 b) 0x12 [] d))) ∧
        (goodHeader → len ≤ 1024 → b.length < 12 + len → takes (spi { x with buf := b, at_ := last } d)) ∧
        (goodHeader → len ≤ 1024 → b.length = 12 + len →
          takes (spi { x with buf := [], at_ := last } (hstPacket .spi 0 b d))))) ∧
    (x.low = true →
      (x.drop = true → exec .spiGapTimeout s = after s d) ∧
      (x.buf = [] →
        (x.drop = false → Calm s gap → exec .spiGapTimeout s = after s (spi { x with skip := 0 } (d.at gap))) ∧
        exec .spiCsRise s = after s (spi {} d)) ∧
      (x.buf ≠ [] → d.b (.hif .hien) HIEN.TRUNC = false →
        (x.drop = false → Calm s gap → Does .spiGapTimeout s (fun t => t.hst.spi = { x with buf := [], skip := 0 } ∧
          t.b (.hif .hstat) HSTAT.TRUNC = true ∧ 466 ∈ t.fc.fresh ∧ t.now = max d.now gap)) ∧
        Does .spiCsRise s (fun t => t.hst.spi = {} ∧ t.b (.hif .hstat) HSTAT.TRUNC = true ∧ 466 ∈ t.fc.fresh))) ∧
    (let b := x.buf
     let h := hstHdr .spi 0 b
     x.low = true → 8 ≤ b.length → crc16 (b.take 6) = ofLE ((b.drop 6).take 2) → d.hst.spiQ.length < 4 → h.flags.testBit 1 = true →
      Does .spiCsRise s fun t => t.hst.spi = {} ∧ t.hst.spiQ = d.hst.spiQ ++ [replyBytes d h 0x11 []])

/-- The PCIe endpoint (R406-R408, R423, R460): inbound reads and writes, what a write of one word does by its region and its byte enables
and the flags of those refused, the completion and the timeout of an outbound read, and the link's state; a reset by PERST_N clears the
endpoint's own registers. Where the spec leaves a choice it rests on the readings of log entries 13, 134, 135, 137, 173, 181. -/
def Obligations.PcieEndpoint : Prop :=
  ∀ (s : State) (q : Inbound) (c : Fin 5) (v : Word) (speed : Fin 5) (width : Fin 3) (low : Bool), Up s →
    let d := s.toDev
    let l := (List.range q.be.length).map fun k => (if q.bar2 then 0 else 0x40000000) + q.addr / 4 * 4 + 4 * k
    let inBar := q.addr / 4 * 4 + 4 * q.be.length ≤ (if q.bar2 then d.hst.cfg.bar2 else d.hst.cfg.bar0)
    let wakes := d.hst.perst = false ∧ d.b (.hif .hifcfg) HIFCFG.PCIEEN = true ∧ d.b (.hif .pciestat) PCIESTAT.SEEN = true
    let whole := ∀ b ∈ q.be, b = 0xF
    let quiet := d.get (.hif .hien) = 0
    (d.l0 = true → inBar → q.write = false →
      (whole → (∀ a ∈ l, regionOf a ≠ .unmapped ∧ regionOf a ≠ .window ∧ hostWaits d a = false) → tagsFull d 69 = false → d.hst.posted = [] →
        ∀ ws bad f, hostWords reqHost l (d.tagTake 69 1) = ((ws, bad), f) →
          exec (.pcieInboundRequest q) s = after s ((f.tagBack 69 1).send (.completion ws true bad))) ∧
      (whole → (∃ a ∈ l, regionOf a = .unmapped ∨ regionOf a = .window) → quiet →
        exec (.pcieInboundRequest q) s = after s ((d.flag (.hif .hstat) HSTAT.UNMAP).send (.completion [] false false))) ∧
      ((∃ p ∈ l.zip q.be, regionOf p.1 ∈ [Region.device, .lem] ∧ p.2 ≠ 0xF) → (∀ a ∈ l, regionOf a ≠ .unmapped ∧ regionOf a ≠ .window) →
        quiet → exec (.pcieInboundRequest q) s = after s ((d.flag (.hif .hstat) HSTAT.ALIGN).send (.completion [] false false)))) ∧
    (d.l0 = true → inBar → q.write = true → tagsFull d 69 = false → d.hst.posted = [] → (∀ a ∈ l, hostWriteWaits d a = false) →
      exec (.pcieInboundRequest q) s = after s (hostIssue (l.zip (q.be.zip q.data)) d)) ∧
    (∀ (a : Nat) (be : BitVec 4) (e : Dev), e.get (.hif .hien) = 0 →
      let r := regionOf a
      let refused (f : Fld) : Prop := inWriteWord a be v e = e.flag (.hif .hstat) f
      (r = .device ∨ r = .lem → (be = 0xF → inWriteWord a be v e = hostWrite a v e) ∧ (be ≠ 0xF → refused HSTAT.ALIGN)) ∧
      (r = .rom ∨ r = .flash ∨ r = .info → refused HSTAT.WREJ) ∧ (r = .unmapped ∨ r = .window → refused HSTAT.UNMAP) ∧
      (r = .sram → (be = 0xF → inWriteWord a be v e = memWrite a v e) ∧ (be = 0 → inWriteWord a be v e = e) ∧
        (be ≠ 0xF → be ≠ 0 → ∃ mask : Word, (∀ k < 4, ∀ b < 8, mask.getLsbD (8 * k + b) = be.getLsbD k) ∧
          inWriteWord a be v e = memMerge 5 a mask v e))) ∧
    (d.l0 = false → ¬ wakes → exec (.pcieInboundRequest q) s = after s d) ∧
    (d.l0 = false → wakes → exec (.pcieInboundRequest q) s = exec (.pcieInboundRequest q)
      { s with toDev := ((d.flag (.hif .pciestat) PCIESTAT.L0).flag (.sys (.ready 0)) READY0.PCIE).lineOff 467 }) ∧
    (∀ x, d.hst.reads.find? (fun y => y.core == c) = some x → x.dead = false → x.addr ∈ d.core[c].ldWait →
      let e := (d.hstU fun h => { h with reads := h.reads.erase x }).tagBack (coreHolder c) 1
      exec (.outboundCompletion c v true false) s = after s (e.coreU c fun y => { y with ldBack := y.ldBack ++ [(x.addr, v)] }) ∧
      (quiet → exec (.outboundCompletion c v false false) s = after s
        (((e.flag (.hif .hstat) HSTAT.OBERR).pulse 468).coreU c fun y => { y with ldBack := y.ldBack ++ [(x.addr, 0xFFFFFFFF)] })) ∧
      (quiet → exec (.outboundCompletion c v true true) s = after s
        (((e.flag (.hif .hstat) HSTAT.OBPOIS).pulse 468).coreU c fun y => { y with ldBack := y.ldBack ++ [(x.addr, v)] })) ∧
      (quiet → Calm s (x.at_ + 50 * tuUs) → exec (.outboundReadTimeout c) s = after s
        ((((e.at (x.at_ + 50 * tuUs)).flag (.hif .hstat) HSTAT.OBERR).pulse 468).coreU c
          fun y => { y with ldBack := y.ldBack ++ [(x.addr, 0xFFFFFFFF)] }))) ∧
    (∀ x, d.hst.reads.find? (fun y => y.core == c) = some x → x.dead = true → exec (.outboundCompletion c v true false) s =
      after s ((d.hstU fun h => { h with reads := h.reads.erase x }).tagBack (coreHolder c) 1)) ∧
    (d.hst.perst = false → d.b (.hif .hifcfg) HIFCFG.PCIEEN = true → Does (.pcieLinkUp speed width) s fun t =>
      t.l0 = true ∧ t.f (.hif .pciestat) PCIESTAT.SPEED = speed.val ∧ t.f (.hif .pciestat) PCIESTAT.WIDTH = width.val ∧
      t.b (.sys (.ready 0)) READY0.PCIE = true ∧ 467 ∉ t.fc.level) ∧
    (d.l0 = true → Does .pcieLinkDown s fun t => t.l0 = false ∧ t.b (.sys (.ready 0)) READY0.PCIE = false ∧
      t.b (.hif .hstat) HSTAT.L0LOST = true ∧ 467 ∈ t.fc.level) ∧
    (Does (.pcieReset low) s fun t => t.hst.perst = low ∧
      (low = true → t.l0 = false ∧ t.b (.sys (.ready 0)) READY0.PCIE = (d.b (.sys (.ready 0)) READY0.PCIE && !d.l0) ∧
        t.f (.hif .pciestat) PCIESTAT.SPEED = 0 ∧ t.f (.hif .pciestat) PCIESTAT.WIDTH = 0 ∧
        t.get (.hif .msixpba) = Reg.reset (.hif .msixpba) ∧ (∀ k, t.get (.hif (.msixtab k)) = Reg.reset (.hif (.msixtab k))) ∧
        (∀ r : Fin 16, t.cap[r].sent = [])) ∧
      (low = false → d.hst.cmds = [] → d.hst.late = [] → t.regs = d.regs))

/-- The clocks and the self-timed fabric (R13, R24, R25, R32-R36, R38, R41, R42, R46, R49, R59, R349, R350): register writes, pacing, the
tempo monitor, accesses that waited, a resynchronised FIFO, returned tags, and the loss and lock of a PLL. Where the spec leaves a
choice it rests on the readings of log entries 10, 11, 13, 16, 17, 18. -/
def Obligations.ClocksAndPacing : Prop :=
  ∀ (s : State) (by_ : Requester) (addr v : Word) (counts : Vector Nat 12) (n : Fin 12) (h : Fin 70) (r : Reg) (w : WaitAcc) (pllB : Bool),
    Up s →
    let d := s.toDev
    let busy := d.b (.sys .sysstat) SYSSTAT.PACE_BUSY
    let paced := d.b (.sys .sysstat) SYSSTAT.PACED
    let slow := ∃ m : Fin 12, d.f (.sys (.tempo (Fin.ofNat 16 m.val))) TEMPO.VALUE < 64
    let idleRings := d.hst.posted = [] ∧ ∀ k : Fin 16, d.cap[k].snap = none ∧ d.cap[k].staged = []
    let q := asked by_ d
    let writes (x : Dev) : Prop := Calm s x.now → exec (.registerWrite by_ addr v) s = after s x
    (tagsFull d (reqHolder by_) = true → writes d) ∧
    (tagsFull d (reqHolder by_) = false → Reg.ofAddr (addr.toNat / 4 * 4) = none → writes q) ∧
    (tagsFull d (reqHolder by_) = false → Reg.ofAddr (addr.toNat / 4 * 4) = some r →
      (addr.toNat % 4 = 0 →
        let waits (x : Word) : Dev :=
          { q with sys := { q.sys with waits := q.sys.waits ++ [{ by_ := by_, addr := addr, val := some x, since := q.now }] } }
        let held := v &&& heldMask d r
        (regWaits d r = true → writes (waits v)) ∧
        (regWaits d r = false → held = 0 → writes (writeNow by_ r v q)) ∧
        (regWaits d r = false → held ≠ 0 → held = v → writes (waits held)) ∧
        (regWaits d r = false → held ≠ 0 → held ≠ v → writes (writeNow by_ r (v &&& ~~~held) (waits held)))) ∧
      (addr.toNat % 4 ≠ 0 → writes q.bumpFree ∨ ∃ x, writes (writeReg by_ r x q.bumpFree.bumpFree))) ∧
    (Asks by_ s (.sys .sysctl) → ∀ i ∈ [Instr.paceModeChange by_ v, .paceLockSet by_ v, .systemPhaseWrite by_ v], Does i s fun t =>
      let lock := d.b (.sys .sysctl) SYSCTL.PACE_LOCK
      t.b (.sys .sysctl) SYSCTL.PACE = (if lock then d.b (.sys .sysctl) SYSCTL.PACE else SYSCTL.PACE.bit v) ∧
      t.b (.sys .sysctl) SYSCTL.PACE_LOCK = (lock || SYSCTL.PACE_LOCK.bit v) ∧
      t.f (.sys .sysctl) SYSCTL.PHASE = (if SYSCTL.PHASE.get v ≤ 3 then SYSCTL.PHASE.get v else d.f (.sys .sysctl) SYSCTL.PHASE) ∧
      t.b (.sys .sysstat) SYSSTAT.PACE_BUSY = (busy || (!lock && SYSCTL.PACE.bit v != d.b (.sys .sysctl) SYSCTL.PACE))) ∧
    exec .paceChangeComplete s = after s (if busy then (d.setB (.sys .sysstat) SYSSTAT.PACE_BUSY false).setB (.sys .sysstat)
      SYSSTAT.PACED (d.b (.sys .sysctl) SYSCTL.PACE && d.sys.pllA) else d) ∧
    (d.sys.lossPend = true → Does .paceLost s fun t => t.b (.sys .sysstat) SYSSTAT.PACED = false ∧
      t.b (.sys .sysstat) SYSSTAT.PACE_LOST = true ∧ 401 ∈ t.fc.fresh ∧ t.sys.lossPend = false) ∧
    (paced = true → slow → Does (.paceSlip n) s fun t => (t.f (.sys .tmonstat) TMONSTAT.SLIP).testBit n.val = true ∧
      t.f (.sys .pace_slip) PACE_SLIP.COUNT = min 65535 (d.f (.sys .pace_slip) PACE_SLIP.COUNT + 1) ∧ 401 ∈ t.fc.fresh) ∧
    (paced = false ∨ ¬ slow → exec (.paceSlip n) s = after s d) ∧
    (Asks by_ s (.sys .pace_slip) → hasAsked d by_ (.sys .pace_slip) = false → Does (.paceSlipRead by_) s fun t =>
      t.sys.rdData = some (d.get (.sys .pace_slip)) ∧ t.f (.sys .pace_slip) PACE_SLIP.COUNT = 0) ∧
    (Asks by_ s (.sys (.taguse h)) → hasAsked d by_ (.sys (.taguse h)) = false → Does (.taguseRead by_ h) s fun t =>
      let n := d.inUse h + if reqHolder by_ = h then 1 else 0
      n < 2 ^ 12 → t.sys.rdData = some ((0 : Word) |> TAGUSE.PEAK.put (max (d.f (.sys (.taguse h)) TAGUSE.PEAK) n) |>
        TAGUSE.IN_USE.put n) ∧ t.f (.sys (.taguse h)) TAGUSE.PEAK = n ∧ t.sys.tags = d.sys.tags) ∧
    (let value (k : Fin 12) : Nat := min 255 (64 * counts[k] / max 1 (tempoRef d k.val))
     let thresh := d.f (.sys .tmonctl) TMONCTL.THRESH
     (d.sys.pllA = true → Does (.tempoWindowEnd counts) s fun t =>
      (∀ k : Fin 12, t.get (.sys (.tempo (Fin.ofNat 16 k.val))) = ((0 : Word) |> TEMPO.VALID.put 1 |> TEMPO.VALUE.put (value k)) ∧
        t.f (.sys .tempomin) TEMPOMIN.VALUE ≤ value k ∧ (value k < thresh → (t.f (.sys .tmonstat) TMONSTAT.SLOW).testBit k.val = true)) ∧
      (∃ k : Fin 12, t.f (.sys .tempomin) TEMPOMIN.REGION = k.val ∧ t.f (.sys .tempomin) TEMPOMIN.VALUE = value k) ∧
      (400 ∈ t.fc.level ↔ ∃ k : Fin 12, value k < thresh) ∧ t.b (.sys (.ready 0)) READY0.TEMPO = true) ∧
     (d.sys.pllA = false → exec (.tempoWindowEnd counts) s = after s d)) ∧
    (let e : Dev := { d with sys := { d.sys with waits := d.sys.waits.erase w } }
     (Reg.ofAddr w.addr.toNat = some r → d.sys.waits.find? (wakeReady d) = some w →
      (∀ x, w.val = some x → let held := x &&& heldMask d r
        let f := if held = 0 then writeNow w.by_ r x e
          else writeNow w.by_ r (x &&& ~~~held) { e with sys := { e.sys with waits := { w with val := some held } :: e.sys.waits } }
        Calm s f.now → exec .wakeGateOpen s = after s f) ∧
      (∀ x f, w.val = none → readNow w.by_ r e = (x, f) → exec .wakeGateOpen s = after s (giveBack w.by_ r.addr x f))) ∧
     (d.sys.waits.find? (fun x => !wakeReady d x) = some w → Calm s (w.since + 100 * tuUs) → Does .wakeTimeout s fun t =>
      t.sys.waits = d.sys.waits.erase w ∧ t.b (.sys .sysstat) SYSSTAT.WAKE_TO = true ∧ 402 ∈ t.fc.fresh ∧
      t.now = max d.now (w.since + 100 * tuUs) ∧
      (w.val = none → w.by_ = .host → t.hst.back = d.hst.back ++ [(w.addr.toNat, 0)]) ∧
      (∀ c, w.val = none → w.by_ = .core c → w.addr.toNat ∈ d.core[c].ldWait →
        t.core[c].ldBack = d.core[c].ldBack ++ [(w.addr.toNat, 0)]))) ∧
    ((∀ p, exec (.fifoResync (.linkRx p)) s = after s d) ∧
     (∀ p, Does (.fifoResync (.linkTx p)) s fun t => t.lnk.port[p].txq = [] ∧
      t.f (.lnk .lnkcnt) LNKCNT.DROP_CNT = min (2 ^ LNKCNT.DROP_CNT.width - 1) (d.f (.lnk .lnkcnt) LNKCNT.DROP_CNT + d.lnk.port[p].txq.length)) ∧
     (∀ i ∈ [Fifo.spiCmd, .pcieCmd], (i = .pcieCmd → d.hst.perst = false) →
      let mine (x : Cmd) : Bool := x.hdr.iface == (if i = .spiCmd then Iface.spi else .pcie)
      Does (.fifoResync i) s fun t => t.hst.cmds = d.hst.cmds.filter (fun x => !mine x) ∧
        t.f (.hif .hcnt) HCNT.DROP_CNT = min (2 ^ HCNT.DROP_CNT.width - 1) (d.f (.hif .hcnt) HCNT.DROP_CNT + (d.hst.cmds.filter mine).length)) ∧
     (∀ k : Fin 16, (d.hst.perst = true → exec (.fifoResync (.capStage k)) s = after s d) ∧
      (d.hst.perst = false → Does (.fifoResync (.capStage k)) s fun t => t.cap[k].staged = [] ∧
        (d.cap[k].staged ≠ [] → t.b (.capr k .stat) CAPR_STAT.LOSS = true)))) ∧
    (idleRings →
      (0 < tagsLoose d h → exec (.tagReturned h none) s = after s (d.tagBack h 1)) ∧
      (∀ (k : Fin 16) l rest, d.cap[k].sent = l :: rest → exec (.tagReturned 69 (some k)) s =
        after s (((d.tagBack 69 1).setF (.capr k .use) CAPR_USE.IN_USE (d.f (.capr k .use) CAPR_USE.IN_USE - 1)).capU k
          fun c => { c with sent := rest })) ∧
      (∀ k : Fin 16, d.cap[k].sent = [] ∨ h ≠ 69 → exec (.tagReturned h (some k)) s = after s d)) ∧
    (Does (.pllLoss pllB) s fun t => (if pllB then t.sys.pllB else t.sys.pllA) = false ∧
      t.b (.sys (.ready 0)) (if pllB then READY0.PLLB else READY0.PLLA) = false ∧
      ∀ b : Fin 32, tbB d b = pllB → d.tbRun b = true → t.tbRun b = false ∧ t.b (.tb b .stat) TB_STAT.PLL_LOSS = true ∧
        96 + b.val ∈ t.fc.fresh ∧ ∀ m : Fin 96, d.legTb m = b → t.leg[m].hi.on = false ∧ t.leg[m].lo.on = false) ∧
    (Does (.pllLock pllB) s fun t => (if pllB then t.sys.pllB else t.sys.pllA) = true ∧
      t.b (.sys (.ready 0)) (if pllB then READY0.PLLB else READY0.PLLA) = true ∧ (if pllB then 404 else 403) ∉ t.fc.level ∧
      (pllB = false → t.lnk.runs = true))

/-- Timebases (R52, R56-R58, R61, R62, R72, R92): TB_ENABLE, TB_DISABLE, TBGSTART, TBGSTOP and TB_START_TASK, FOLLOWER_START and
CHAIN_TB_START, LOAD_POINT, PERIOD_START and EVCMP_MATCH each answer a next state, with what it holds, where nothing falls due to the
shroud before their instant. Where the spec leaves a choice it rests on the readings of log entries 20, 21, 22, 25, 26, 27, 29, 158,
159, 160. -/
def Obligations.Timebases : Prop :=
  ∀ (s : State) (by_ : Requester) (b : Fin 32) (k : Fin 4) (v : Word) (ch : Fin 256), Up s →
    let d := s.toDev
    let bit (f : Fld) : Bool := d.b (.tb b .ctl) f
    let mode := d.f (.tb b .ctl) TB_CTL.SYNCSRC
    let clamp := clampN 320 160000 (d.f (.tb b .period) TB_PERIOD.PERIOD)
    let p (t : Dev) : Nat := t.f (.tb b .pact) TB_PACT.P
    let locked (x : Bool) : Prop := (if x then d.sys.pllB else d.sys.pllA) = true
    let starts (x : Bool) (t0 : Nat) (t : Dev) : Prop := t.tbRun b = true ∧ t.b (.tb b .ctl) TB_CTL.EN = true ∧
      t.tb[b].start = tickUp x t0 ∧ tickUp x t0 ≤ t.now ∧ p t = clamp ∧ t.tb[b].len = clamp ∧ t.b (.tb b .stat) TB_STAT.PSTART = true
    let off := d.tbRun b = false ∧ bit TB_CTL.EN = false
    let due := d.tb[b].start + d.tb[b].len * tuTick
    let ticks (t : Nat) : Nat := max (tickUp false t) (tickUp true t)
    (CalmTo s (ticks d.now) → Asks by_ s (.tb b .ctl) → off →
      let pll := TB_CTL.PLLSEL.bit v
      (TB_CTL.STEN.bit v = false → TB_CTL.SYNCSRC.get v = 0 → locked pll → Does (.tbEnable by_ b v) s (starts pll d.now)) ∧
      (TB_CTL.STEN.bit v = false → ¬ locked pll → Does (.tbEnable by_ b v) s fun t => t.tb[b].arm = .pll ∧ t.tbRun b = false) ∧
      (TB_CTL.STEN.bit v = true → Does (.tbEnable by_ b v) s fun t => t.tb[b].arm = .task ∧ t.tbRun b = false) ∧
      (TB_CTL.STEN.bit v = false → TB_CTL.SYNCSRC.get v = 2 → locked pll → Does (.tbEnable by_ b v) s fun t =>
        t.tb[b].arm = .sync d.now ∧ t.b (.tb b .stat) TB_STAT.WAIT_SYNC = !d.ctv ∧ t.tbRun b = false) ∧
      (TB_CTL.STEN.bit v = false → TB_CTL.SYNCSRC.get v = 1 → locked pll → Does (.tbEnable by_ b v) s fun t =>
        t.tb[b].arm = .sync d.now ∧ t.b (.tb b .stat) TB_STAT.WAIT_SYNC = !d.tbRun (Fin.ofNat 32 (TB_CTL.LEADER.get v)) ∧
        t.tbRun b = false)) ∧
    (CalmTo s (ticks d.now) → Asks by_ s (.tb b .ctl) → d.tbRun b = true →
      (TB_CTL.STOPMODE.bit v = false → Does (.tbDisable by_ b v) s fun t =>
        t.tb[b].stopRq = true ∧ t.tbRun b = true ∧ t.b (.tb b .ctl) TB_CTL.EN = false) ∧
      (TB_CTL.STOPMODE.bit v = true → Does (.tbDisable by_ b v) s fun t => t.tbRun b = false ∧ t.b (.tb b .ctl) TB_CTL.EN = false ∧
        ∀ m : Fin 96, d.legTb m = b → t.leg[m].hi.on = false ∧ t.leg[m].lo.on = false)) ∧
    (CalmTo s (ticks d.now) → Asks by_ s (.tbg .tbgstart) → off → v.getLsbD b.val = true → bit TB_CTL.STEN = false → mode = 0 → locked (bit TB_CTL.PLLSEL) →
      Does (.tbgstart by_ v) s (starts (bit TB_CTL.PLLSEL) d.now)) ∧
    (CalmTo s (ticks d.now) → Asks by_ s (.tbg .tbgstop) → v.getLsbD b.val = true → bit TB_CTL.EN = true ∨ d.tbRun b = true →
      Does (.tbgstop by_ v) s fun t => t.b (.tb b .ctl) TB_CTL.EN = false ∧ (bit TB_CTL.STOPMODE = true → t.tbRun b = false)) ∧
    (∀ e, fabTaskAt d .tbStart ch = some e → d.tb[b].arm = .task → bit TB_CTL.EN = true → bit TB_CTL.STEN = true →
      d.f (.tb b .ctl) TB_CTL.STCH = ch.val → mode = 0 → locked (bit TB_CTL.PLLSEL) →
      let got := (fabGot d ch e).getD (max d.now e)
      CalmTo s (max (max d.now e) (ticks got)) → Does (.tbStartTask ch) s (starts (bit TB_CTL.PLLSEL) got)) ∧
    (fabTaskAt d .tbStart ch = none → exec (.tbStartTask ch) s = after s d) ∧
    (∀ since, d.tb[b].arm = .sync since → d.tbRun b = false → bit TB_CTL.EN = true →
      (let l := Fin.ofNat 32 (d.f (.tb b .ctl) TB_CTL.LEADER)
       let lp := d.f (.tb l .pact) TB_PACT.P
       let at_ := tickUp (bit TB_CTL.PLLSEL) (d.tb[l].start + d.f (.tb b .offset) TB_OFFSET.COARSE % max 1 lp * tuTick)
       mode = 1 → l ≠ b → d.f (.tb l .ctl) TB_CTL.SYNCSRC ≠ 1 → d.tbRun l = true → 0 < since → since ≤ at_ → Calm s at_ →
        Does (.followerStart b) s fun t => t.tbRun b = true ∧ t.tb[b].start = at_ ∧ p t = lp % 2 ^ TB_PACT.P.width) ∧
      (let now := d.devTime d.now
       let goal := now + ((fineVal (d.get (.tb b .offset)) : Int) - now) % (24 * clamp : Nat)
       let first := tickUp (bit TB_CTL.PLLSEL) d.now
       CalmTo s (first + 2 ^ 18 * tuTick) → mode = 2 → d.ctv = true → d.lnk.runs = true → d.lnk.baseAt ≤ d.now → -1073742 ≤ d.lnk.rate → d.lnk.rate ≤ 1073742 →
        Does (.chainTbStart b) s fun t => t.tbRun b = true ∧ p t = clamp ∧
          ∃ n, t.tb[b].start = first + n * tuTick ∧ goal ≤ d.devTime (first + n * tuTick) ∧
            (n ≠ 0 → d.devTime (first + (n - 1) * tuTick) < goal))) ∧
    (d.tbRun b = false → exec (.loadPoint b) s = after s d ∧ exec (.periodStart b) s = after s d ∧ exec (.evcmpMatch b k) s = after s d) ∧
    (d.tbRun b = true → d.tb[b].loaded = false → mode ≠ 1 → Calm s (due - 3 * tuTick) → Does (.loadPoint b) s fun t =>
      t.tb[b].loaded = true ∧ t.tb[b].nxtP = clamp ∧ t.now = max d.now (due - 3 * tuTick) ∧ ∀ m : Fin 96, d.legTb m = b →
        let place := legPlace d m clamp d.tb[b].corrN
        t.leg[m].lp = true ∧ t.leg[m].nxtA = due + place.1 * tuFine ∧
        t.leg[m].nxtB = due + place.2.1 * tuFine ∧ t.leg[m].runN = d.b (.leg m .ctl) LEG_CTL.RUN) ∧
    (d.tbRun b = true → mode = 0 → d.tb[b].undef = false → Calm s due →
      (d.tb[b].stopRq = false → Does (.periodStart b) s fun t => t.tb[b].start = due ∧ t.now = max d.now due ∧
        p t = (if d.tb[b].loaded then d.tb[b].nxtP else clamp) % 2 ^ TB_PACT.P.width ∧ t.tb[b].period = d.tb[b].period + 1 ∧
        t.tb[b].loaded = false ∧ t.b (.tb b .stat) TB_STAT.PSTART = true) ∧
      (d.tb[b].stopRq = true → Does (.periodStart b) s fun t => t.tbRun b = false ∧ t.now = max d.now due)) ∧
    (d.tbRun b = true → d.b (.tb b (.evcmp k)) TB_EVCMP.EN = true → d.tb[b].evDone[k] = false → Calm s (tbEvTick d b k) → Does (.evcmpMatch b k) s fun t =>
      t.tb[b].evDone[k] = true ∧ (t.f (.tb b .stat) TB_STAT.EVF).testBit k.val = true ∧
      (∃ x ∈ t.fab.raised, x.val = 32 + 32 * k.val + b.val) ∧ t.now = max d.now (tbEvTick d b k))

/-- Legs and their shroud (R54, R66, R67, R69, R72, R76-R79, R83-R85, R235, R236): edges, dead-times, cuts, RUN, FORCE, commits, staging
and forced turn-off; what the interlock lets pass, and the 8 ticks to the output stage (R71). Where the spec leaves a choice it rests
on the readings of log entries 30, 31, 32, 33, 151, 152, 153, 154, 155, 156, 157. -/
def Obligations.Legs : Prop :=
  ∀ (s : State) (by_ : Requester) (n : Fin 96) (v : Word) (w : Sw) (on : Bool) (ch : Fin 256), Up s →
    let d := s.toDev
    let g := d.leg[n]
    let b := d.legTb n
    let shown := d.f (.leg n .stat) LEG_STAT.STATE
    let held := d.b (.shl n .hold) SHL_HOLD.HELD
    let q := asked by_ d
    let foff := d.b (.leg n .stat) LEG_STAT.FOFF
    let staging := d.b (.leg n .ctl) LEG_CTL.STAGE
    let limit (x : Sw) : Nat := (legLimit d n x).1 * tuTick
    let still (t : Nat) : Prop := (∀ x, legDue d n = some x → t < x) ∧
      (∀ x, (g.sw x).on = true → t < (g.sw x).onAt + limit x)
    let lastReg (r : LegReg) (t : Dev) : Prop := t.get (.leg n r) = plainWrite r.access (d.get (.leg n r)) v
    (∀ t, ¬ ((legOn n w t d).leg[n].hi.on = true ∧ (legOn n w t d).leg[n].lo.on = true)) ∧
    (∀ x t, ((g.sw w).turn x t).stage (t + 8 * tuTick) = x ∧
      ((g.sw w).way = [] → ∀ u, u < t + 8 * tuTick → ((g.sw w).turn x t).stage u = !x)) ∧
    (d.tbRun b = true → shown = 1 → g.full = false → g.curA ≠ g.curB → g.wait = false →
      (g.spentA = false → g.cmd = false → still (g.curA) → Calm s g.curA → Does (.edgeMatch n false) s fun t => t.leg[n].cmd = true ∧
        t.leg[n].spentA = true ∧ t.leg[n].lo.on = false ∧ t.leg[n].pend = some (.h, g.curA) ∧ t.now = max d.now g.curA) ∧
      (g.spentB = false → g.cmd = true → still (g.curB) → Calm s g.curB → Does (.edgeMatch n true) s fun t => t.leg[n].cmd = false ∧
        t.leg[n].spentB = true ∧ t.leg[n].hi.on = false ∧ t.leg[n].pend = some (.l, g.curB) ∧ t.now = max d.now g.curB)) ∧
    (g.pend = none → exec (.deadtimeEnd n) s = after s d) ∧
    (∀ o, g.pend = some (w, o) → d.tbRun b = true →
      let raw := (legDt d n w).1
      let dt := clampN (d.f (.shl n .dt) SHL_DT.DTMIN) (d.f (.shl n .dt) SHL_DT.DTMAX) raw
      let due := max g.pendFrom (o + dt * tuFine)
      let free := (g.sw w.other).on = false ∧ ∀ x, (g.sw w.other).offAt = some x → x + d.f (.shl n .dt) SHL_DT.DTMIN * tuFine ≤ due
      Calm s due →
      (free → limit w ≠ 0 → (g.sw w).on = false → Does (.deadtimeEnd n) s fun t => (t.leg[n].sw w).on = true ∧
        (t.leg[n].sw w).onAt = due ∧ (t.leg[n].sw w.other).on = false ∧ t.leg[n].pend = none ∧ t.now = max d.now due ∧
        t.b (.leg n .stat) LEG_STAT.DTCLAMP = (raw != dt)) ∧
      (¬ free → Does (.deadtimeEnd n) s fun t => t.leg[n].hi.on = false ∧ t.leg[n].lo.on = false ∧
        t.b (.shl n .hold) SHL_HOLD.HELD = true ∧ t.b (.shl n .stat) SHL_STAT.ILOCK = true ∧ t.f (.leg n .stat) LEG_STAT.STATE = 6 ∧
        n.val ∈ t.fc.fresh)) ∧
    ((g.sw (if on then .l else .h)).on = true →
      Calm s ((g.sw (if on then .l else .h)).onAt + limit (if on then .l else .h)) → Does (.onTimeCut n on) s fun t => (t.leg[n].sw (if on then .l else .h)).on = false ∧
      (t.leg[n].sw (if on then .l else .h)).cut = true ∧
      t.b (.shl n .stat) (if (legLimit d n (if on then .l else .h)).2 then SHL_STAT.REEFCUT else SHL_STAT.TONCUT) = true) ∧
    ((g.sw (if on then .l else .h)).on = false → exec (.onTimeCut n on) s = after s d) ∧
    (Asks by_ s (.leg n .ctl) →
      (staging = false → d.tbRun b = false → Does (.legRunWrite by_ n on) s fun t =>
        t.b (.leg n .ctl) LEG_CTL.RUN = on ∧ (on ≠ d.b (.leg n .ctl) LEG_CTL.RUN → t.leg[n].run = on)) ∧
      (staging = false → d.tbRun b = true → Does (.legRunWrite by_ n on) s fun t =>
        t.b (.leg n .ctl) LEG_CTL.RUN = on ∧ t.leg[n].run = g.run) ∧
      (staging = true → on ≠ d.b (.leg n .ctl) LEG_CTL.RUN → Does (.legRunWrite by_ n on) s fun t =>
        t.leg[n].stRun = some on ∧ t.b (.leg n .ctl) LEG_CTL.RUN = d.b (.leg n .ctl) LEG_CTL.RUN) ∧
      (∀ force : Fin 4, force.val ≠ d.f (.leg n .ctl) LEG_CTL.FORCE → held = false → foff = false → still d.now →
        (∀ fsync, Does (.legForceWrite by_ n force fsync) s fun t => t.f (.leg n .ctl) LEG_CTL.FORCE = force.val) ∧
        (force.val ≠ 0 → shown ≠ force.val + 1 → Does (.legForceWrite by_ n force false) s fun t => t.leg[n].force = force.val ∧
          t.f (.leg n .stat) LEG_STAT.STATE = force.val + 1 ∧
          (force.val = 1 → t.leg[n].hi.on = false ∧ t.leg[n].lo.on = false) ∧ (force.val = 2 → t.leg[n].lo.on = false) ∧
          (force.val = 3 → t.leg[n].hi.on = false)) ∧
        (d.tbRun b = true → Does (.legForceWrite by_ n force true) s fun t => t.leg[n].forceP = true ∧ t.leg[n].force = g.force))) ∧
    (∀ which : LegCmp, Asks by_ s (.leg n (legCmpReg which)) →
      (legOwned d n which = true → exec (.legCompareWrite by_ n which v) s = after s (q.flag (.leg n .stat) LEG_STAT.OWNED_WR)) ∧
      (legOwned d n which = false → staging = true → exec (.legCompareWrite by_ n which v) s = after s (q.legU n fun x =>
        match which with
        | .cmpa => { x with stA := some v }
        | .cmpb => { x with stB := some v }
        | .phase => { x with stPh := some v })) ∧
      (legOwned d n which = false → staging = false → d.tbRun b = false → exec (.legCompareWrite by_ n which v) s =
        after s (q.wr (.leg n (legCmpReg which)) v))) ∧
    (let tc := tickUp (tbB d b) d.now
     let new := d.tb[b].start + (((fineVal (plainWrite (LegReg.access .cmpa) (d.get (.leg n .cmpa)) v) : Int) +
       (fineVal (d.get (.leg n .phase)) + tbVoff d b d.tb[b].corr)) % (24 * d.f (.tb b .pact) TB_PACT.P : Nat)).toNat * tuFine
     Asks by_ s (.leg n .cmpa) → legOwned d n .cmpa = false → staging = false → d.tbRun b = true → shown = 1 →
      d.b (.leg n .ctl) LEG_CTL.PROF = false → d.f (.leg n .stat) LEG_STAT.UPDN < 4 → still tc → g.spentA = false → tc ≤ g.curA →
      let due := d.tb[b].start + d.tb[b].len * tuTick
      (due ≤ tc → exec (.legCompareWrite by_ n .cmpa v) s = after s (q.legU n fun x => { x with defer := x.defer ++ [[(.cmpa, v)]] })) ∧
      (tc < due → Does (.legCompareWrite by_ n .cmpa v) s fun t => lastReg .cmpa t ∧
        t.f (.leg n .stat) LEG_STAT.UPDN = d.f (.leg n .stat) LEG_STAT.UPDN + 1 ∧
        t.leg[n].curA = (if tc + 58 * tuFine ≤ new then new else g.curA) ∧
        (new ≠ g.curA → new < tc + 58 * tuFine → t.b (.leg n .stat) LEG_STAT.LATE = true))) ∧
    (∀ k : Fin 3, n.val / 32 = k.val → Asks by_ s (.tbg (.legcommit k)) →
      let held := heldMask d (.tbg (.legcommit k))
      (v ≠ 0 → v &&& held = v → exec (.legcommit by_ k v) s = after s { q with sys := { q.sys with waits := q.sys.waits ++
        [{ by_ := by_, addr := w32 (Reg.addr (.tbg (.legcommit k))), val := some v, since := d.now }] } }) ∧
      (v.getLsbD (n.val % 32) = true → held.getLsbD (n.val % 32) = (if tbB d b then !d.sys.pllB else !d.sys.pllA)) ∧
      (v &&& held = 0 → v.getLsbD (n.val % 32) = true → ∀ x, g.stA = some x → d.tbRun b = false → Does (.legcommit by_ k v) s fun t =>
        t.leg[n].stA = none ∧ t.get (.leg n .cmpa) = plainWrite (LegReg.access .cmpa) (d.get (.leg n .cmpa)) x) ∧
      (v.getLsbD (n.val % 32) = false → Does (.legcommit by_ k v) s fun t =>
        t.leg[n] = g ∧ t.get (.leg n .cmpa) = d.get (.leg n .cmpa) ∧ t.get (.leg n .ctl) = d.get (.leg n .ctl))) ∧
    (∀ e, fabTaskAt d .forceOff ch = some e → d.b (.leg n .ctl) LEG_CTL.FOEN = true → d.f (.leg n .ctl) LEG_CTL.FOCH = ch.val →
      let got := (fabGot d ch e).getD (max d.now e)
      CalmTo s (max (max d.now e) (max (tickUp false got) (tickUp true got))) → shown ≠ 5 → shown ≠ 6 → Does (.forceOffTask ch) s fun t => t.b (.leg n .stat) LEG_STAT.FOFF = true ∧
        t.leg[n].hi.on = false ∧ t.leg[n].lo.on = false) ∧
    (Asks by_ s (.leg n .stat) → foff = true →
      (d.tbRun b = true → Does (.foffReleaseRequest by_ n) s fun t => t.leg[n].relReq = true ∧ t.b (.leg n .stat) LEG_STAT.FOFF = true) ∧
      (d.tbRun b = false → Does (.foffReleaseRequest by_ n) s fun t => t.b (.leg n .stat) LEG_STAT.FOFF = false))

/-- Converters (R96, R97, R100-R106, R110, R113, R116-R118): starts and stops, a hold, a result with its correction, limit and stamp,
triggers, the end of a busy period, calibrations, and the reads that clear FRESH; where nothing falls due to the shroud before their
instant. Where the spec leaves a choice it rests on the readings of log entries 40, 41, 42, 43, 44, 164, 165, 166. -/
def Obligations.Converters : Prop :=
  ∀ (s : State) (by_ : Requester) (n : Fin 32) (k : Fin 16) (v : Word) (raw : Int) (ch : Fin 256) (gain : Nat) (offset : Int), Up s →
    let d := s.toDev
    let a := d.adc[n]
    let ctl (f : Fld) : Nat := d.f (.adc n .ctl) f
    let stat (f : Fld) : Bool := d.b (.adc n .stat) f
    let free := ctl ADC_CTL.EN = 0 ∧ stat ADC_STAT.RUNNING = false ∧ stat ADC_STAT.BUSY = false
    let len := if ctl ADC_CTL.LEN = 0 then 16 else ctl ADC_CTL.LEN
    (Asks by_ s (.adc n .ctl) → free →
      (stat ADC_STAT.CALBUSY = true → Does (.adcEnable by_ n v) s fun t =>
        t.b (.adc n .ctl) ADC_CTL.EN = false ∧ t.b (.adc n .stat) ADC_STAT.CFG_REJ = true ∧ t.adc[n] = a) ∧
      (stat ADC_STAT.CALBUSY = false →
        (ADC_CTL.MODE.get v = 1 → ADC_CTL.STEN.bit v = false → a.run = .idle → Does (.adcEnable by_ n v) s fun t =>
          t.b (.adc n .ctl) ADC_CTL.EN = true ∧ t.b (.adc n .stat) ADC_STAT.RUNNING = true ∧ t.adc[n].run = .cont (acUp d.now) 0 none) ∧
        (ADC_CTL.MODE.get v = 1 → ADC_CTL.STEN.bit v = true → a.run = .idle → Does (.adcEnable by_ n v) s fun t =>
          t.adc[n].armed = true ∧ t.b (.adc n .stat) ADC_STAT.RUNNING = false) ∧
        (ADC_CTL.MODE.get v = 2 → Does (.adcEnable by_ n v) s fun t => t.b (.adc n .stat) ADC_STAT.RUNNING = true ∧ t.adc[n] = a))) ∧
    (Asks by_ s (.adc n .ctl) → ctl ADC_CTL.EN = 1 →
      (a.run = .idle → Does (.adcDisable by_ n v) s fun t => t.b (.adc n .ctl) ADC_CTL.EN = false ∧
        t.b (.adc n .stat) ADC_STAT.RUNNING = false ∧ t.adc[n].armed = false ∧ t.adc[n].pend = none) ∧
      (∀ t0 h, a.run = .cont t0 h none → ADC_CTL.STOPMODE.bit v = false → (h = 0 ∨ h % len ≠ 0) → Does (.adcDisable by_ n v) s fun t =>
        t.b (.adc n .ctl) ADC_CTL.EN = false ∧ t.adc[n].run = .cont t0 h (some (h / len * len + len - 1)) ∧ t.adc[n].startW = false)) ∧
    (Asks by_ s (.adc n .ctl) → stat ADC_STAT.RUNNING = true → ∀ t0 h last, a.run = .cont t0 h (some last) → ADC_CTL.STOPMODE.bit v = true →
      Does (.adcDisable by_ n v) s fun t => ∃ l, t.adc[n].run = .cont t0 h (some l) ∧ l ≤ last ∧ l ≤ h) ∧
    (Asks by_ s (.adcg .adcgstart) → let e := asked by_ d
     let held (r : AdcgReg) : Outc := after s { e with sys := { e.sys with
       waits := e.sys.waits ++ [{ by_ := by_, addr := w32 (Reg.addr (.adcg r)), val := some v, since := d.now }] } }
     v ≠ 0 → d.sys.pllA = false → exec (.adcgstart by_ v) s = held .adcgstart ∧ exec (.adcgstop by_ v) s = held .adcgstop) ∧
    (Asks by_ s (.adcg .adcgstart) → d.sys.pllA = true → Does (.adcgstart by_ v) s fun t => ∀ m : Fin 32,
      (v.getLsbD m.val = false → t.adc[m] = d.adc[m] ∧ t.get (.adc m .ctl) = d.get (.adc m .ctl)) ∧
      (v.getLsbD m.val = true → t.b (.adc m .ctl) ADC_CTL.EN = (d.b (.adc m .ctl) ADC_CTL.EN || !d.b (.adc m .stat) ADC_STAT.CALBUSY) ∧
        (d.b (.adc m .stat) ADC_STAT.CALBUSY = true → t.b (.adc m .stat) ADC_STAT.CFG_REJ = true))) ∧
    (Asks by_ s (.adcg .adcgstop) → d.sys.pllA = true → Does (.adcgstop by_ v) s fun t => ∀ m : Fin 32,
      (v.getLsbD m.val = false → t.adc[m] = d.adc[m] ∧ t.get (.adc m .ctl) = d.get (.adc m .ctl)) ∧
      (v.getLsbD m.val = true → t.b (.adc m .ctl) ADC_CTL.EN = false)) ∧
    (∀ e, fabTaskAt d .adcStart ch = some e → a.armed = true → ctl ADC_CTL.STEN = 1 → ctl ADC_CTL.STCH = ch.val → ctl ADC_CTL.MODE = 1 →
      a.run = .idle → let got := (fabGot d ch e).getD (max d.now e)
      Calm s (max e got) →
      (d.sys.pllA = true → Does (.adcStartTask ch) s fun t =>
        t.adc[n].run = .cont (acUp got) 0 none ∧ t.adc[n].armed = false ∧ t.b (.adc n .stat) ADC_STAT.RUNNING = true) ∧
      (d.sys.pllA = false → Does (.adcStartTask ch) s fun t =>
        t.adc[n] = { a with armed := false, wake := true } ∧ t.b (.adc n .stat) ADC_STAT.RUNNING = stat ADC_STAT.RUNNING)) ∧
    (a.wake = true → a.run = .idle → ctl ADC_CTL.MODE = 1 → Does (.pllLock false) s fun t =>
      t.adc[n].run = .cont (acUp d.now) 0 none ∧ t.adc[n].wake = false ∧ t.b (.adc n .stat) ADC_STAT.RUNNING = true) ∧
    (let seq (h : Nat) : Word := d.get (.adc n (.seq (Fin.ofNat 16 (h % len))))
     let held (w : Word) (h at_ : Nat) (t : Dev) : Prop :=
      let lo : Int := if ADC_SEQ.SRC.get w ∈ [4, 5] then -32768 else 0
      let late (x : Option Nat) : Bool := x.any fun y => decide (at_ < y + 10 * tuNs)
      t.now = max d.now at_ ∧ t.adc[n].conv = a.conv ++
        [{ entry := Fin.ofNat 16 (h % len), seq := w, raw := max lo (min (lo + 65535) raw), at_ := at_, ts := d.stamp at_, tv := d.ctv,
           last := h % len == len - 1, skip := ADC_SEQ.SRC.get w == 7,
           openV := late a.seqAt[(Fin.ofNat 16 (h % len) : Fin 16)] ||
             (ADC_SEQ.SRC.get w == 6 && ADC_SEQ.ICH.get w == 3 && late d.sys.vioAt) }]
     (a.run = .idle → exec (.adcHold n raw) s = after s d) ∧
     (d.b (.sys (.ready 0)) READY0.ANALOG = true →
      (∀ t0 h, a.run = .cont t0 h none → let w := if h = 0 then a.seq0 else seq h
        let at_ := t0 + (4 + ctl ADC_CTL.SKEW) * tuAc + h * (50 * tuNs)
        seqGround d w = false → Calm s at_ → Does (.adcHold n raw) s fun t => t.adc[n].run = .cont t0 (h + 1) none ∧ held w h at_ t) ∧
      (∀ h0 h, a.run = .pass h0 h → h < len → seqGround d (seq h) = false → Calm s (h0 + h * (80 * tuTick)) →
        Does (.adcHold n raw) s fun t => t.adc[n].run = .pass h0 (h + 1) ∧ held (seq h) h (h0 + h * (80 * tuTick)) t))) ∧
    (a.conv = [] → exec (.adcResultReady n) s = after s d) ∧
    (∀ c rest, a.conv = c :: rest → c.openV = false →
      let diff := ADC_SEQ.SRC.get c.seq == 4 || ADC_SEQ.SRC.get c.seq == 5
      let lo : Int := if diff then -32768 else 0
      let calo := d.get (.adc n .calo)
      let y := rndAway ((c.raw - sextN 16 calo.toNat) * (d.get (.adc n .calg)).toNat) 32768
      let out := max lo (min (lo + 65535) y)
      let sat := decide (y < lo ∨ lo + 65535 < y ∨ c.raw ≤ lo ∨ lo + 65535 ≤ c.raw)
      let res := (0 : Word) |> ADC_RES.FRESH.put 1 |> ADC_RES.SAT.put (b2n sat) |> ADC_RES.DIFF.put (b2n diff) |>
        ADC_RES.DATA.put (out % 65536).toNat
      let lim (f : Fld) : Int := if diff then sextN 16 (d.f (.adc n .lim) f) else (d.f (.adc n .lim) f : Int)
      Calm s (c.at_ + 48 * tuNs) → Does (.adcResultReady n) s fun t => t.adc[n].conv = rest ∧ t.now ≥ c.at_ + 48 * tuNs ∧
        (c.skip = true → t.get (.adc n .last) = d.get (.adc n .last)) ∧
        (c.last = true → t.b (.adc n .stat) ADC_STAT.EOS = true) ∧
        (c.skip = false → t.get (.adc n (.res c.entry)) = res ∧
          t.get (.adc n .last) = (res |> ADC_LAST.TV.put (b2n c.tv) |> ADC_LAST.ENTRY.put c.entry.val) ∧
          t.adc[n].lastTs = c.ts ∧
          (ADC_SEQ.LIMEN.bit c.seq = true → out < lim ADC_LIM.LO ∨ lim ADC_LIM.HI < out →
            t.b (.adc n .stat) ADC_STAT.LIMIT = true ∧ 192 + n.val ∈ t.fc.fresh))) ∧
    (∀ e, fabTaskAt d .adcTrig ch = some e → d.b (.adc n .trig) ADC_TRIG.TSRC = false → d.f (.adc n .trig) ADC_TRIG.TCH = ch.val →
      ctl ADC_CTL.MODE = 2 → ctl ADC_CTL.EN = 1 → d.tbRun (adcTb d n) = true →
      let got := (fabGot d ch e).getD (max d.now e)
      let tt := tickUp (tbB d (adcTb d n)) got
      Calm s (max e got) →
      (stat ADC_STAT.BUSY = false → Does (.adcTriggerTask ch) s fun t => t.b (.adc n .stat) ADC_STAT.BUSY = true ∧
        t.adc[n].run = .pass (tt + (if d.b (.adc n .trig) ADC_TRIG.DLYUNIT then 16 else 1) * d.f (.adc n .trig) ADC_TRIG.DELAY * tuTick) 0) ∧
      (stat ADC_STAT.BUSY = true → a.pend = none → Does (.adcTriggerTask ch) s fun t => t.adc[n].pend = some tt ∧ t.adc[n].run = a.run ∧
        t.b (.adc n .stat) ADC_STAT.PEND = true) ∧
      (stat ADC_STAT.BUSY = true → a.pend ≠ none → Does (.adcTriggerTask ch) s fun t => t.adc[n] = a ∧
        t.b (.adc n .stat) ADC_STAT.OVERRUN = true ∧ 160 + n.val ∈ t.fc.fresh)) ∧
    (∀ h0 h, a.run = .pass h0 h → len ≤ h →
      let tf := h0 + len * (80 * tuTick)
      Calm s tf →
      (a.pend = none → Does (.adcBusyEnd n) s fun t => t.adc[n].run = .idle ∧ t.b (.adc n .stat) ADC_STAT.BUSY = false ∧ t.now = max d.now tf) ∧
      (∀ tp, a.pend = some tp → Does (.adcBusyEnd n) s fun t => t.adc[n].pend = none ∧ t.b (.adc n .stat) ADC_STAT.PEND = false ∧
        t.b (.adc n .stat) ADC_STAT.BUSY = true ∧ t.adc[n].run = .pass (max (tp + adcDelay d n) tf) 0 ∧
        (tp + adcDelay d n < tf → t.b (.adc n .stat) ADC_STAT.DEFER = true))) ∧
    (Asks by_ s (.adcg .adccalstart) → Does (.adcCalibrateStart by_ v) s fun t => ∀ m : Fin 32, v.getLsbD m.val = true →
      (adcMode d m ≠ 0 ∨ d.b (.adc m .stat) ADC_STAT.CALBUSY = true → (t.get (.adcg .adccalskip)).getLsbD m.val = true ∧ t.adc[m] = d.adc[m]) ∧
      (adcMode d m = 0 → d.b (.adc m .stat) ADC_STAT.CALBUSY = false → d.sys.pllA = true →
        t.b (.adc m .stat) ADC_STAT.CALBUSY = true ∧ t.adc[m].calEnd = some (acUp d.now + 960000 * tuAc))) ∧
    (∀ tc, a.calEnd = some tc → Calm s tc → Does (.adcCalibrationEnd n gain offset) s fun t => t.adc[n].calEnd = none ∧
      t.b (.adc n .stat) ADC_STAT.CALBUSY = false ∧ t.b (.adc n .stat) ADC_STAT.CALDONE = true ∧ t.now = max d.now tc ∧
      (0x7333 ≤ gain ∧ gain ≤ 0x8CCD ∧ -2048 ≤ offset ∧ offset ≤ 2047 → t.f (.adc n .calg) ADC_CALG.GAIN = gain ∧
        t.f (.adc n .calo) ADC_CALO.OFFSET = (offset % 65536).toNat ∧ (t.get (.sys (.ready 1))).getLsbD n.val = true) ∧
      (¬ (0x7333 ≤ gain ∧ gain ≤ 0x8CCD ∧ -2048 ≤ offset ∧ offset ≤ 2047) → t.b (.adc n .stat) ADC_STAT.CALFAIL = true ∧
        128 + n.val ∈ t.fc.fresh ∧ t.get (.adc n .calg) = d.get (.adc n .calg))) ∧
    (Asks by_ s (.adc n .last) → hasAsked d by_ (.adc n .last) = false → Does (.adcLastRead by_ n) s fun t =>
      t.sys.rdData = some (d.get (.adc n .last)) ∧ t.b (.adc n .last) ADC_RES.FRESH = false ∧
      t.get (.adc n .ltsl) = lo32 a.lastTs ∧ t.get (.adc n .ltsh) = hi32 a.lastTs) ∧
    (Asks by_ s (.adc n (.res k)) → hasAsked d by_ (.adc n (.res k)) = false → Does (.adcResultRead by_ n k) s fun t =>
      t.sys.rdData = some (d.get (.adc n (.res k))) ∧ t.b (.adc n (.res k)) ADC_RES.FRESH = false ∧
      t.f (.adc n (.res k)) ADC_RES.DATA = d.f (.adc n (.res k)) ADC_RES.DATA)

/-- Loop engines (R76, R124-R142, R147): strobes, a sample of the compensator in manual and automatic mode, the first one that presets the
history, soft-start, FREEZE, the words of its memory that it writes, its commit for a slot of each kind and the capture, stalls,
enabling, bank exchange, operand registers, whose new source has not strobed yet, and the engine's memory. Where the spec leaves a
choice it rests on the readings of log entries 14, 15, 28, 45, 46, 49, 50, 51, 161, 162, 163. -/
def Obligations.LoopEngines : Prop :=
  ∀ (s : State) (by_ : Requester) (n k : Fin 64) (v : Word) (ch : Fin 256), Up s →
    let d := s.toDev
    let e := d.le[n]
    let ctl (f : Fld) : Bool := d.b (.le n .ctl) f
    let stat (f : Fld) : Bool := d.b (.le n .stat) f
    let single := lePaired d n = false
    let q (r : LeReg) : Int := (d.get (.le n r)).toInt
    let sat (x : Int) : Int := max (-(2 ^ 31)) (min (2 ^ 31 - 1) x)
    (∀ x rest, e.inbound = x :: rest → single → stat LE_STAT.ACTIVE = true → Does (.leStrobeArrive n) s fun t =>
      t.le[n].inbound = rest ∧ t.le[n].count = e.count + 1 ∧
      (e.count % (d.f (.le n .ctl) LE_CTL.DECIM + 1) = 0 → t.le[n].held = some x ∧
        (e.held ≠ none → t.b (.le n .stat) LE_STAT.MISS = true)) ∧
      (e.count % (d.f (.le n .ctl) LE_CTL.DECIM + 1) ≠ 0 → t.le[n].held = e.held)) ∧
    (e.inbound = [] → exec (.leStrobeArrive n) s = after s d) ∧
    (∀ x, e.held = some x → single → leReadyFor d n = true → e.openPos = false →
      (d.b (.le n .rsrc) LE_RSRC.WAIT = true → e.frR = true) → (d.b (.le n .fsrc) LE_FSRC.WAIT = true → e.frF = true) →
      let now := stat LE_STAT.BANK != stat LE_STAT.SWPEND
      (∀ o ∈ leBankOffs now ++ leStateOffs, eccDecode (memGet d (leAddr n o)) = .clean) →
      let word (t : Dev) (o : Nat) : Int := (eccData (memGet t (leAddr n o))).toInt
      let bank (j : Nat) : Int := word d ((if now then 0x40 else 0) + 4 * j)
      let auto := ctl LE_CTL.MODE
      let first := e.first || (auto && !stat LE_STAT.AUTO)
      let ssen := ctl LE_CTL.SSEN
      let frozen : Prop := ctl LE_CTL.FREEZE = true ∧ ∃ l : Fin 96,
        (∃ z ∈ leSlots d n, z.kind ∈ [1, 2, 3, 4, 5] ∧ z.leg = l.val) ∧ (d.f (.leg l .stat) LEG_STAT.STATE ≠ 1 ∨ d.b (.shl l .hold) SHL_HOLD.REEFED = true)
      let m := sat (rndAway (q .mgain * x.toInt + q .mofs * 2 ^ 30) (2 ^ 30))
      let r := sat (rndAway (q .rgain * (leX d n .rsrc .ref e.xr).toInt + q .rofs * 2 ^ 30) (2 ^ 30))
      let f := sat (rndAway (bank 7 * (leX d n .fsrc .freg e.xf).toInt) (2 ^ 30))
      let rate : Int := d.f (.le n .ssrate) LE_SSRATE.RATE
      let was := word d 0x98
      let reff := if auto ∧ first then (if ssen then m else r) else if ssen then was + max (-rate) (min rate (r - was)) else r
      let err := sat (if ctl LE_CTL.ENEG then m - reff else reff - m)
      let third : Int := if ctl LE_CTL.STRUCT then bank 3 * word d 0x88 + bank 6 * word d 0x94 else 0
      let sum := bank 0 * err + bank 1 * word d 0x80 + bank 2 * word d 0x84 + bank 4 * word d 0x8C + bank 5 * word d 0x90 + third
      let preset := auto = false ∨ first = true
      let u := max (bank 8) (min (bank 9) (if preset then q .manout else sat (sat (rndAway sum (2 ^ 30)) + f)))
      let y := sat (u - f)
      bank 8 ≤ bank 9 → Does (.leSample n) s fun t => t.get (.le n .out) = wInt u ∧ t.le[n].held = none ∧ t.le[n].stall = none ∧
        t.b (.le n .stat) LE_STAT.BANK = now ∧ t.b (.le n .stat) LE_STAT.SWPEND = false ∧ t.b (.le n .stat) LE_STAT.AUTO = auto ∧
        t.le[n].first = (first && !auto) ∧
        (let past := [0x80, 0x84, 0x88, 0x8C, 0x90, 0x94]
         (preset → past.map (word t) = [err, err, err, y, y, y]) ∧
         (¬ preset → frozen → past.map (word t) = past.map (word d)) ∧
         (¬ preset → ¬ frozen → past.map (word t) = [err, word d 0x80, word d 0x84, y, word d 0x8C, word d 0x90])) ∧
        word t 0x98 = reff ∧ word t 0x9C = m ∧ word t 0xA0 = f ∧
        eccData (memGet t (leAddr n 0xA4)) = eccData (memGet d (leAddr n 0xA4)) + 1 ∧
        t.b (.le n .stat) LE_STAT.SSACT = (ssen && reff != r) ∧
        (ssen = true → stat LE_STAT.SSACT = true → reff = r → t.b (.le n .stat) LE_STAT.SSDONE = true) ∧
        (auto = true → ctl LE_CTL.MTRACK = true → t.get (.le n .manout) = wInt u) ∧
        ∃ c, t.le[n].commits = e.commits ++ [c] ∧ c.u = wInt u ∧
          (∀ (l : Fin 96) kind neg, leSlots d n = [{ kind := kind, leg := l.val, neg := neg, ofs := q (.dofs 0) },
              { kind := 0, leg := 0, neg := false, ofs := 0 }, { kind := 0, leg := 0, neg := false, ofs := 0 },
              { kind := 0, leg := 0, neg := false, ofs := 0 }] →
            let mapped := max (d.f (.le n .omin) LE_OMIN.VALUE : Int) (min (d.f (.le n .omax) LE_OMAX.VALUE : Int)
              (q .obase + rndAway ((if neg then -u else u) * q .ospan) (2 ^ 30)))
            let ds := mapped + q (.dofs 0)
            let turn : Int := max 1 (24 * d.f (.tb (d.legTb l) .pact) TB_PACT.P : Nat)
            let compare (v : Int) : Nat := v.toNat / 24 * 32 + v.toNat % 24
            let w := max 0 (min (turn - 1) ds)
            let centre := ((d.f (.le n .centre) LE_CENTRE.VALUE : Int) - w / 2) % turn
            c.vals = (if kind = 1 then [(.cmpa l, compare (ds % turn))] else if kind = 2 then [(.cmpb l, compare (ds % turn))]
              else if kind = 3 then [(.phase l, compare (ds % turn))]
              else if kind = 4 then [(.cmpa l, compare centre), (.cmpb l, compare ((centre + w) % turn))]
              else if kind = 5 then [(.period (d.legTb l), (max 0 (rndAway ds 24)).toNat)] else []))) ∧
    (e.commits = [] → exec (.commitCapture n) s = after s d) ∧
    (∀ c rest, e.commits = c :: rest → Does (.commitCapture n) s fun t => t.le[n].commits = rest ∧
      (∀ (l : Fin 96) x, c.legs = [l] → c.vals = [(.cmpa l, x)] → d.tbRun (d.legTb l) = false →
        t.get (.leg l .cmpa) = plainWrite (LegReg.access .cmpa) (d.get (.leg l .cmpa)) (w32 x))) ∧
    (e.stall = none → exec (.leWaitResume n) s = after s d ∧ exec (.leWaitTimeout n) s = after s d) ∧
    (∀ x, e.stall = some x →
      (leFresh d n x = true → Does (.leWaitResume n) s fun t => t.le[n].stall = none ∧ t.b (.le n .stat) LE_STAT.STALLED = false) ∧
      (leFresh d n x = false → exec (.leWaitResume n) s = after s d) ∧
      (leFresh d n x = true → Does (.leWaitTimeout n) s fun t => t.le[n].stall = none ∧
        t.b (.le n .stat) LE_STAT.STALE = stat LE_STAT.STALE) ∧
      (leFresh d n x = false → Calm s (x.at_ + max 1 (LE_WAIT.WAITTO.get (leSnap x .wait)) * 50 * tuNs) → Does (.leWaitTimeout n) s fun t => t.le[n].stall = none ∧ t.b (.le n .stat) LE_STAT.STALE = true ∧
        256 + n.val ∈ t.fc.fresh ∧ t.now = max d.now (x.at_ + max 1 (LE_WAIT.WAITTO.get (leSnap x .wait)) * 50 * tuNs))) ∧
    (let slots := leSlots d n
     let fields := (slots.map (leSlotFields d)).flatten
     let legal := (∀ x ∈ slots, x.kind ≤ 5 ∧ (x.kind = 0 ∨ x.leg ≤ 95)) ∧ fields.Nodup ∧ ∀ x ∈ fields, leFieldOwned d x = false
     Asks by_ s (.le n .ctl) → ctl LE_CTL.EN = false → single →
      (legal → Does (.leEnable by_ n v) s fun t => t.b (.le n .ctl) LE_CTL.EN = true ∧ t.b (.le n .stat) LE_STAT.ACTIVE = true ∧
        t.le[n].first = true ∧ t.le[n].owns = fields ∧ ∀ x ∈ fields, leFieldOwned t x = true) ∧
      (¬ legal → Does (.leEnable by_ n v) s fun t => t.b (.le n .ctl) LE_CTL.EN = false ∧ t.b (.le n .stat) LE_STAT.ENREJ = true ∧
        t.le[n] = e)) ∧
    (Asks by_ s (.le n .ctl) → ctl LE_CTL.EN = true → Does (.leDisable by_ n v) s fun t => t.b (.le n .ctl) LE_CTL.EN = false ∧
      t.b (.le n .stat) LE_STAT.ACTIVE = false ∧ t.le[n].held = none ∧ t.le[n].stall = none ∧ t.le[n].commits = [] ∧ t.le[n].owns = [] ∧
      ∀ x ∈ e.owns, leFieldOwned t x = false) ∧
    (let asks (i : Instr) : Prop :=
      (ctl LE_CTL.EN = true → stat LE_STAT.SWPEND = false → Does i s fun t => t.b (.le n .stat) LE_STAT.SWPEND = true) ∧
      (ctl LE_CTL.EN = true → stat LE_STAT.SWPEND = true → Does i s fun t => t.b (.le n .stat) LE_STAT.SWDUP = true) ∧
      (ctl LE_CTL.EN = false → Does i s fun t => t.b (.le n .stat) LE_STAT.BANK = !stat LE_STAT.BANK ∧
        t.b (.le n .stat) LE_STAT.SWDONE = true ∧ t.b (.le n .stat) LE_STAT.SWPEND = false)
     (Asks by_ s (.le n .cmd) → asks (.leSwapRequest by_ n)) ∧
     (∀ j : Fin 2, n.val / 32 = j.val → v.getLsbD (n.val % 32) = true → Asks by_ s (.lesh (.leswap j)) → asks (.leswap by_ j v)) ∧
     (∀ e, fabTaskAt d .leSwap ch = some e → Calm s e → ctl LE_CTL.SWEN = true → d.f (.le n .ctl) LE_CTL.SWCH = ch.val → asks (.leSwapTask ch))) ∧
    ((Asks by_ s (.le n .rsrc) → ctl LE_CTL.EN = false → plainWrite (LeReg.access .rsrc) (d.get (.le n .rsrc)) v ≠ d.get (.le n .rsrc) →
       Does (.registerWrite by_ (w32 (Reg.addr (.le n .rsrc))) v) s fun t => t.le[n].frR = false) ∧
     (Asks by_ s (.le n .fsrc) → ctl LE_CTL.EN = false → plainWrite (LeReg.access .fsrc) (d.get (.le n .fsrc)) v ≠ d.get (.le n .fsrc) →
       Does (.registerWrite by_ (w32 (Reg.addr (.le n .fsrc))) v) s fun t => t.le[n].frF = false)) ∧
    (let type (r : LeReg) : Nat := LE_MSRC.TYPE.get (d.get (.le n r))
     let d := asked by_ d
     (Asks by_ s (.le n .mreg) → exec (.leMregWrite by_ n v) s = after s
      (if type .msrc = 5 ∧ stat LE_STAT.ACTIVE = true then (d.wr (.le n .mreg) v).leU n fun x => { x with inbound := x.inbound ++ [v] }
        else d.wr (.le n .mreg) v)) ∧
     (Asks by_ s (.le n .ref) → exec (.leRefWrite by_ n v) s = after s
      (if type .rsrc = 5 then (d.wr (.le n .ref) v).leU n fun x => { x with xr := v, frR := true } else d.wr (.le n .ref) v)) ∧
     (Asks by_ s (.le n .freg) → exec (.leFregWrite by_ n v) s = after s
      (if type .fsrc = 5 then (d.wr (.le n .freg) v).leU n fun x => { x with xf := v, frF := true } else d.wr (.le n .freg) v))) ∧
    (let o := 4 * k.val
     let active := if stat LE_STAT.BANK then 0x40 else 0
     let inBanks := o < 0x28 ∨ (0x40 ≤ o ∧ o < 0x68)
     let inActive := active ≤ o ∧ o < active + 0x28
     let inState := 0x80 ≤ o ∧ o < 0x9C
     let d := asked by_ d
     tagsFull s.toDev (reqHolder by_) = false → memWaits d (leAddr n o) = false →
      (inBanks → ctl LE_CTL.EN = true → inActive → exec (.leMemoryWrite by_ n k v) s = after s (d.flag (.le n .stat) LE_STAT.ACTWR)) ∧
      (inState → ctl LE_CTL.EN = true → exec (.leMemoryWrite by_ n k v) s = after s (d.flag (.le n .stat) LE_STAT.CFG_REJ)) ∧
      ((inBanks ∧ ¬ (ctl LE_CTL.EN = true ∧ inActive)) ∨ (inState ∧ ctl LE_CTL.EN = false) →
        exec (.leMemoryWrite by_ n k v) s = after s (memWrite (leAddr n o) v d)) ∧
      (¬ inBanks → ¬ inState → exec (.leMemoryWrite by_ n k v) s = after s d))

/-- Comparators (R155, R157, R158, R162, R163): a change of the raw output, the end of a filter run, the close of a window, enabling, and
the read of a capture; where nothing falls due to the shroud before their instant. Where the spec leaves a choice it rests on the
readings of log entries 53, 54, 55. -/
def Obligations.Comparators : Prop :=
  ∀ (s : State) (by_ : Requester) (n : Fin 64) (v : Word) (vp vn : Int) (at_ : Nat), Up s →
    let d := s.toDev
    let c := d.cmp[n]
    let stat (f : Fld) : Bool := d.b (.cmp n .stat) f
    let half : Int := ([0, 25, 50, 100] : List Int).getD (d.f (.cmp n .ctl) CMP_CTL.HYST) 0
    let offset := half = 0 ∧ -30 ≤ vp - vn ∧ vp - vn ≤ 30
    let level : Bool := if vn + half < vp then true else if vp < vn - half then false else c.raw
    let x := level ^^ d.b (.cmp n .ctl) CMP_CTL.INV
    (Calm s at_ → Does (.cmpRawChange n (vp, vn) at_) s fun t => t.cmp[n].vp = vp ∧ t.cmp[n].vn = vn ∧ t.now = max d.now at_ ∧
      (¬ offset → t.cmp[n].raw = level)) ∧
    (Calm s at_ → ¬ offset → level = c.raw → Does (.cmpRawChange n (vp, vn) at_) s fun t => t.get (.cmp n .stat) = d.get (.cmp n .stat) ∧
      t.cmp[n].runs = c.runs) ∧
    (Calm s at_ → ¬ offset → level ≠ c.raw →
      (c.live = false → Does (.cmpRawChange n (vp, vn) at_) s fun t =>
        t.b (.cmp n .stat) CMP_STAT.OUT = x ∧ t.b (.cmp n .stat) CMP_STAT.QOUT = x) ∧
      (c.live = true → c.runs = [] → x ≠ stat CMP_STAT.OUT → Does (.cmpRawChange n (vp, vn) at_) s fun t =>
        t.cmp[n].runs = [{ val := x, at_ := max d.now at_, ts := d.stamp (max d.now at_), tv := d.ctv, un := false }] ∧
        t.b (.cmp n .stat) CMP_STAT.OUT = stat CMP_STAT.OUT)) ∧
    (c.runs = [] → exec (.cmpFilterChange n) s = after s d) ∧
    (∀ r rest, c.runs = r :: rest → r.un = false →
      let ready := tickOf d (cmpTb d n) r.at_ + (d.f (.cmp n .ctl) CMP_CTL.FILT + 3) * tuTick
      Calm s ready → Does (.cmpFilterChange n) s fun t => t.cmp[n].runs = rest ∧ t.now = max d.now ready ∧ t.b (.cmp n .stat) CMP_STAT.OUT = r.val ∧
        (c.win = none → t.b (.cmp n .stat) CMP_STAT.QOUT = r.val ∧
          (stat CMP_STAT.QOUT = false → r.val = true → t.b (.cmp n .stat) CMP_STAT.RISE = true) ∧
          (stat CMP_STAT.QOUT = true → r.val = false → t.b (.cmp n .stat) CMP_STAT.FALL = true)) ∧
        (∀ e, c.win = some e → ready < e → t.b (.cmp n .stat) CMP_STAT.QOUT = stat CMP_STAT.QOUT)) ∧
    (c.win = none → exec (.blankWindowClose n false) s = after s d) ∧
    (∀ e, c.win = some e → Calm s e → Does (.blankWindowClose n false) s fun t => t.cmp[n].win = none ∧ t.now = max d.now e ∧
      t.b (.cmp n .stat) CMP_STAT.QOUT = stat CMP_STAT.OUT ∧
      (stat CMP_STAT.OUT ≠ stat CMP_STAT.QOUT → t.b (.cmp n .stat) CMP_STAT.BLEDGE = true)) ∧
    (c.twin = none → exec (.blankWindowClose n true) s = after s d) ∧
    (∀ w, c.twin = some w → let shut := min w.till (w.since + d.f (.shg .shblankmax) SHBLANKMAX.MAX * tuTick)
      Calm s shut → Does (.blankWindowClose n true) s fun t => t.now = max d.now shut ∧
      t.cmp[n].twin = (if w.till ≤ t.now then none else some w) ∧
      (d.b (.sys (.ready 0)) READY0.ANALOG = true → tripLevel t n = c.raw)) ∧
    (Asks by_ s (.cmp n .ctl) → d.b (.cmp n .ctl) CMP_CTL.EN = false → c.live = false → CMP_CTL.WIN.bit v = false →
      Does (.cmpEnable by_ n v) s fun t => t.b (.cmp n .ctl) CMP_CTL.EN = true ∧
        t.cmp[n].live = d.tbRun (Fin.ofNat 32 (CMP_CTL.TB.get v)) ∧
        (CMP_CTL.HYST.get v = d.f (.cmp n .ctl) CMP_CTL.HYST → t.cmp[n].raw = c.raw) ∧
        t.b (.cmp n .stat) CMP_STAT.OUT = (t.cmp[n].raw ^^ CMP_CTL.INV.bit v) ∧
        t.b (.cmp n .stat) CMP_STAT.QOUT = (t.cmp[n].raw ^^ CMP_CTL.INV.bit v)) ∧
    (Asks by_ s (.cmp n .cap) → hasAsked d by_ (.cmp n .cap) = false → Does (.cmpCapRead by_ n) s fun t =>
      t.sys.rdData = some (d.get (.cmp n .cap)) ∧ t.b (.cmp n .cap) CMP_CAP.FRESH = false ∧
      t.get (.cmp n .ctsl) = lo32 c.capTs ∧ t.get (.cmp n .ctsh) = hi32 c.capTs)

/-- Position channels (R168, R170, R172-R177, R180): steps, updates, serial frames and their errors, the zero-speed timeout, enabling, and
the read that latches an update; where nothing falls due to the shroud before their instant. Where the spec leaves a choice it rests on
the readings of log entries 56, 58, 59, 168. -/
def Obligations.Positions : Prop :=
  ∀ (s : State) (by_ : Requester) (n : Fin 8) (v : Word) (a b z : Bool) (at_ till : Nat) (hi lo : Word) (cds nE nW par : Bool) (crc : BitVec 6)
    (ch : Fin 256), Up s →
    let d := s.toDev
    let data := hi.toNat * 2 ^ 32 + lo.toNat
    let p := d.pos[n]
    let mode := d.f (.pos n .ctl) POS_CTL.MODE
    let pos := (d.get (.pos n .pos)).toNat
    let cpr := (d.get (.pos n .cpr)).toNat + 1
    let filtered (ticks : Nat) : Nat := tickOf d (posTb d n) at_ + (d.f (.pos n .ctl) POS_CTL.FILT + ticks) * tuTick
    let takes (t : Dev) : Prop := t.pos[n].a = a ∧ t.pos[n].b = b ∧ t.pos[n].z = z ∧ t.now = max d.now (filtered 3)
    let due := Calm s (filtered 3)
    (posOn d n = true → till < filtered 1 → exec (.posInputChange n a b z (at_, till)) s = after s d) ∧
    (posOn d n = true → filtered 1 ≤ till → mode = 3 → a = true → p.a = false → p.low = true → p.slo = none → p.undef = false →
      ∀ ts start tv stamp, p.frame = .shifting ts start tv stamp → due →
        let half := posHalf d n * tuTick
        let k := ((filtered 3 - start - 1) / half - 1) / 2
        let y := (filtered 3 - (start + (2 * k + 1) * half)) / tuTick
        start + half < filtered 3 → y ≤ 4095 → Does (.posInputChange n a b z (at_, till)) s fun t => takes t ∧
          t.pos[n].slo = some (k, y) ∧ t.f (.pos n .sdly) POS_SDLY.DELAY = y) ∧
    (posOn d n = false → Calm s at_ → exec (.posInputChange n a b z (at_, till)) s =
      after s ((d.at at_).posU n fun x => { x with a := a, b := b, z := z })) ∧
    (posOn d n = true → filtered 1 ≤ till → due → mode = 0 → z = p.z → posRush d n at_ = false →
      let step := (quadPos a b + 4 - quadPos p.a p.b) % 4
      let up := (step == 1) != d.b (.pos n .ctl) POS_CTL.DIR
      Does (.posInputChange n a b z (at_, till)) s fun t => takes t ∧
        (step = 0 → t.get (.pos n .pos) = d.get (.pos n .pos) ∧ t.get (.pos n .rev) = d.get (.pos n .rev)) ∧
        (step = 1 ∨ step = 3 → t.b (.pos n .stat) POS_STAT.LASTDIR = !up ∧
          (up = true → pos + 1 = cpr → t.get (.pos n .pos) = 0 ∧ t.get (.pos n .rev) = d.get (.pos n .rev) + 1) ∧
          (up = true → pos + 1 ≠ cpr → t.get (.pos n .pos) = w32 (pos + 1) ∧ t.get (.pos n .rev) = d.get (.pos n .rev)) ∧
          (up = false → pos = 0 → t.get (.pos n .pos) = w32 (cpr - 1) ∧ t.get (.pos n .rev) = d.get (.pos n .rev) - 1) ∧
          (up = false → pos ≠ 0 → t.get (.pos n .pos) = w32 (pos - 1) ∧ t.get (.pos n .rev) = d.get (.pos n .rev))) ∧
        (step = 2 → t.get (.pos n .pos) = d.get (.pos n .pos) ∧ t.b (.pos n .stat) POS_STAT.ILLEGAL = true ∧ 320 + n.val ∈ t.fc.fresh)) ∧
    (posOn d n = true → filtered 1 ≤ till → due → mode = 0 → a ≠ p.a ∨ b ≠ p.b → posRush d n at_ = true →
      Does (.posInputChange n a b z (at_, till)) s fun t => takes t ∧ t.pos[n].moved = some at_) ∧
    (∀ e, fabTaskAt d .posTrig ch = some e → d.b (.pos n .trig) POS_TRIG.TSRC = false → d.f (.pos n .trig) POS_TRIG.TCH = ch.val →
      let got := (fabGot d ch e).getD (max d.now e)
      Calm s (max e got) → posOn d n = true →
      (mode < 2 → d.b (.pos n .ctl) POS_CTL.USRC = true → Does (.posTriggerTask ch) s fun t =>
        t.get (.pos n .upos) = d.get (.pos n .pos) ∧ t.b (.pos n .stat) POS_STAT.UPD = true ∧ (∃ x ∈ t.fab.raised, x.val = 448 + n.val)) ∧
      (2 ≤ mode → p.frame = .idle → Does (.posTriggerTask ch) s fun t =>
        t.pos[n].frame = .waiting (tickUp (tbB d (posTb d n)) got) ∧ t.b (.pos n .stat) POS_STAT.SHIFT = true) ∧
      (2 ≤ mode → p.frame ≠ .idle → Does (.posTriggerTask ch) s fun t => t.pos[n] = p ∧ t.b (.pos n .stat) POS_STAT.TRIGDROP = true)) ∧
    (∀ ts, p.frame = .waiting ts → posOn d n = true →
      let start := tickUp (tbB d (posTb d n)) (max ts (max at_ d.now))
      Calm s start → Does (.posFrameStart n at_) s fun t => t.pos[n].frame = .shifting ts start d.ctv (d.stamp start) ∧ t.now = max d.now start) ∧
    (∀ ts start tv stamp, p.frame = .shifting ts start tv stamp → posOn d n = true → posLastSample d n start = none →
      exec (.posFrameCheck n hi lo cds nE nW crc par) s = after s d) ∧
    (∀ ts start tv stamp last, p.frame = .shifting ts start tv stamp → posLastSample d n start = some last → posOn d n = true → p.undef = false →
      (if ts + posTimeout d n < last then Calm s (ts + posTimeout d n) else Calm s (last + 2 * tuTick)) →
      let raw := data % 2 ^ posDlen d n
      let ended (t : Dev) : Prop := t.pos[n].frame = .idle ∧ t.b (.pos n .stat) POS_STAT.SHIFT = false
      (ts + posTimeout d n < last → Does (.posFrameCheck n hi lo cds nE nW crc par) s fun t => ended t ∧
        t.b (.pos n .stat) POS_STAT.ERR_TIMEOUT = true ∧ t.get (.pos n .pos) = d.get (.pos n .pos) ∧ 320 + n.val ∈ t.fc.fresh) ∧
      (last ≤ ts + posTimeout d n → posFrameBad d n data cds nE nW crc par = [] → d.b (.pos n .scfg) POS_SCFG.GRAY = false →
        Does (.posFrameCheck n hi lo cds nE nW crc par) s fun t => ended t ∧ t.now = max d.now (last + 2 * tuTick) ∧
          t.get (.pos n .pos) = w32 (raw % 2 ^ min (len64 (d.f (.pos n .scfg) POS_SCFG.STBITS)) (posDlen d n) % cpr) ∧
          t.get (.pos n .srawl) = w32 (raw % 2 ^ 32) ∧ t.get (.pos n .upos) = t.get (.pos n .pos) ∧ t.pos[n].upd.ts = stamp) ∧
      (last ≤ ts + posTimeout d n → posFrameBad d n data cds nE nW crc par ≠ [] →
        Does (.posFrameCheck n hi lo cds nE nW crc par) s fun t => ended t ∧
          (∀ fl ∈ posFrameBad d n data cds nE nW crc par, t.b (.pos n .stat) fl = true) ∧
          (mode = 3 → nE = false → t.b (.pos n .stat) POS_STAT.ERR_ENC = true) ∧
          (mode = 3 → nW = false → t.b (.pos n .stat) POS_STAT.WARN = true) ∧ t.get (.pos n .pos) = d.get (.pos n .pos) ∧ 320 + n.val ∈ t.fc.fresh)) ∧
    (p.frame = .idle → exec (.posFrameTimeout n) s = after s d ∧ exec (.posFrameStart n at_) s = after s d) ∧
    (∀ ts start tv stamp last, p.frame = .shifting ts start tv stamp → posLastSample d n start = some last → last ≤ ts + posTimeout d n →
      exec (.posFrameTimeout n) s = after s d) ∧
    (∀ ts, (p.frame = .waiting ts ∨ ∃ start tv stamp, p.frame = .shifting ts start tv stamp ∧
        ∀ last, posLastSample d n start = some last → ts + posTimeout d n < last) → Calm s (ts + posTimeout d n) → Does (.posFrameTimeout n) s fun t =>
      t.pos[n].frame = .idle ∧ t.b (.pos n .stat) POS_STAT.SHIFT = false ∧ t.b (.pos n .stat) POS_STAT.ERR_TIMEOUT = true ∧
      t.now = max d.now (ts + max 2 (d.f (.pos n .stime) POS_STIME.TMO) * tuUs) ∧ 320 + n.val ∈ t.fc.fresh) ∧
    (posOn d n = true → mode < 2 → d.f (.pos n .spdto) POS_SPDTO.TO ≠ 0 →
      Calm s (p.zeroAt + d.f (.pos n .spdto) POS_SPDTO.TO * tuUs) → Does (.posSpeedTimeout n) s fun t =>
      t.get (.pos n .spd) = 0 ∧ t.b (.pos n .stat) POS_STAT.SPDZERO = true) ∧
    (d.f (.pos n .spdto) POS_SPDTO.TO = 0 → exec (.posSpeedTimeout n) s = after s d) ∧
    (Asks by_ s (.pos n .ctl) → d.b (.pos n .ctl) POS_CTL.EN = false → Does (.posEnable by_ n v) s fun t =>
      t.b (.pos n .ctl) POS_CTL.EN = true ∧ t.get (.pos n .pos) = 0 ∧ t.get (.pos n .rev) = 0 ∧ t.get (.pos n .spd) = 0 ∧
      t.pos[n].frame = .idle ∧ t.b (.pos n .stat) POS_STAT.RUNNING = d.tbRun (Fin.ofNat 32 (POS_CTL.TB.get v))) ∧
    (Asks by_ s (.pos n .upos) → hasAsked d by_ (.pos n .upos) = false → Does (.posUposRead by_ n) s fun t =>
      t.sys.rdData = some (d.get (.pos n .upos)) ∧ t.get (.pos n .urev) = p.upd.rev ∧ t.get (.pos n .uspd) = p.upd.spd ∧
      t.get (.pos n .utsl) = lo32 p.upd.ts ∧ t.get (.pos n .utsh) = hi32 p.upd.ts)

/-- The event fabric (R185, R187-R190, R192, R196): a producer's event, the hold of one that comes too soon, holdoff, activations and their
tasks, software triggers, and the ownership of channels; where nothing falls due to the shroud before their instant. Where the spec
leaves a choice it rests on the readings of log entries 60, 61. -/
def Obligations.EventFabric : Prop :=
  ∀ (s : State) (by_ : Requester) (p : Fin 512) (c : Fin 256) (v : Word) (part : ChanPart), Up s →
    let d := s.toDev
    let x := d.fab.chan[c]
    let strobe := if d.sys.pllA then tuTick else tuRef
    let edge := (d.now / strobe + 1) * strobe
    let hold := (if d.b (.ch c .ctl) CH_CTL.HOLD then 12 else 3) * strobe
    let soon := ∃ t0, fabLast d p = some t0 ∧ d.now < t0 + 3 * strobe
    let count (t : Dev) (f : Fld) : Nat := t.f (.ch c .cnt) f
    let activates (e : Nat) (t : Dev) : Prop := t.fab.chan[c] = { act := some e, pend := false } ∧
      count t CH_CNT.ACT_CNT = min (2 ^ CH_CNT.ACT_CNT.width - 1) (count d CH_CNT.ACT_CNT + 1) ∧
      (∀ k, fabNamed d k c = true → (k, c, e) ∈ t.fab.tasks)
    (p ∉ d.fab.raised → exec (.producerEvent p) s = after s d) ∧
    (p ∈ d.fab.raised →
      (p ∈ d.fab.held → Does (.producerEvent p) s fun t => t.fab.held = d.fab.held ∧ t.fab.chan = d.fab.chan ∧
        t.f (.ev .evcnt) EVCNT.PMERGE = min (2 ^ EVCNT.PMERGE.width - 1) (d.f (.ev .evcnt) EVCNT.PMERGE + 1)) ∧
      (p ∉ d.fab.held → soon → Does (.producerEvent p) s fun t => t.fab.held = d.fab.held ++ [p] ∧ t.fab.chan = d.fab.chan) ∧
      (p ∉ d.fab.held → ¬ soon → Does (.producerEvent p) s fun t => t.fab.raised = d.fab.raised.erase p ∧ fabLast t p = some d.now ∧
        (fabEnabled d c p = false → t.fab.chan[c] = x) ∧
        (fabEnabled d c p = true → x.act = none → activates edge t) ∧
        (∀ e, fabEnabled d c p = true → x.act = some e → x.pend = false → e < edge →
          (e + hold ≤ edge → activates edge t) ∧ (edge < e + hold → t.fab.chan[c] = { act := some e, pend := true })) ∧
        (fabEnabled d c p = true → x.act = some edge → x.pend = false → t.fab.chan[c] = x ∧
          count t CH_CNT.MERGE = min (2 ^ CH_CNT.MERGE.width - 1) (count d CH_CNT.MERGE + 1)))) ∧
    (x.act = none → exec (.holdoffEnd c) s = after s d) ∧
    (∀ e, x.act = some e → Calm s (e + hold) → (x.pend = true → Does (.holdoffEnd c) s fun t => activates (e + hold) t ∧ t.now = max d.now (e + hold)) ∧
      (x.pend = false → exec (.holdoffEnd c) s = after s (d.at (e + hold)))) ∧
    (∀ t0, p ∈ d.fab.held → fabLast d p = some t0 → Calm s (t0 + 3 * strobe) → Does (.producerHoldEnd p) s fun t => t.fab.held = d.fab.held.erase p ∧
      fabLast t p = some (max d.now (t0 + 3 * strobe)) ∧ t.now = max d.now (t0 + 3 * strobe)) ∧
    (p ∉ d.fab.held → exec (.producerHoldEnd p) s = after s d) ∧
    (Asks by_ s (.ev .swtrig) → Does (.swtrig by_ v) s fun t =>
      t.fab.raised.map Fin.val = d.fab.raised.map Fin.val ++ ((List.range 16).filter fun b =>
        v.getLsbD b && (decide (b < 8) || by_ == .core 4)).map (480 + ·) ∧
      (by_ ≠ .core 4 → v.toNat / 256 % 256 ≠ 0 → t.b (.ev .evstat) EVSTAT.SWREJ = true)) ∧
    (let may := if d.b (.ch c .own) CH_OWN.SEC then by_ = .core 4
       else d.f (.ch c .own) CH_OWN.OWNER = 0 ∨ (d.f (.ch c .own) CH_OWN.OWNER ≠ 7 ∧ d.f (.ch c .own) CH_OWN.OWNER = reqCode by_ + 1)
     Asks by_ s (.ch c (chanReg part)) →
      (part = .own → exec (.channelWrite by_ c part v) s = after s (asked by_ d)) ∧
      (part ≠ .own → may → exec (.channelWrite by_ c part v) s = after s ((asked by_ d).wr (.ch c (chanReg part)) v)) ∧
      (part ≠ .own → ¬ may → Does (.channelWrite by_ c part v) s fun t => t.get (.ch c (chanReg part)) = d.get (.ch c (chanReg part)) ∧
        t.b (.ev .evstat) (if d.b (.ch c .own) CH_OWN.SEC then EVSTAT.SECREJ else EVSTAT.OWNREJ) = true ∧
        t.f (.ev .evstat) EVSTAT.REJCH = c.val ∧ t.f (.ev .evstat) EVSTAT.REJREQ = reqCode by_))

/-- The interrupt controller (R200, R203-R206, R210, R211, R213, R215): its enables and software sources, the end of service and its
checks, records of a ring, enabling a target and a moderation window's end. Where the spec leaves a choice it rests on the readings of
log entries 62, 63, 64, 65, 66, 69, 167, 169. -/
def Obligations.InterruptController : Prop :=
  ∀ (s : State) (by_ : Requester) (c : Fin 5) (k : Fin 12) (v : Word), Up s →
    let d := s.toDev
    let g := d.ic.tgt[c]
    let mine := c ≠ 4 ∨ by_ = .core 4
    let enables (w : Word) (t : Dev) : Prop := (∀ j, t.get (.ic (.icen j)) = if j = k then w else d.get (.ic (.icen j))) ∧
      (∀ b : Fin 32, (icSrc t (32 * k.val + b.val)).pendAt.isSome = icPending t (32 * k.val + b.val)) ∧ t.core = d.core ∧ t.mem = d.mem
    (Asks by_ s (.ic (.icenset k)) → Does (.icenset by_ k v) s (enables (d.get (.ic (.icen k)) ||| v))) ∧
    (Asks by_ s (.ic (.icenclr k)) → Does (.icenclr by_ k v) s (enables (d.get (.ic (.icen k)) &&& ~~~ v))) ∧
    (Asks by_ s (.ic .iswset) → exec (.iswset by_ v) s = after s ((asked by_ d).put (.ic .iswset) (d.get (.ic .iswset) ||| (v &&& 0xFF)))) ∧
    (Asks by_ s (.ic .iswclr) → exec (.iswclr by_ v) s = after s ((asked by_ d).put (.ic .iswset) (d.get (.ic .iswset) &&& ~~~ v))) ∧
    (let broke (cause : Nat) (t : Dev) : Prop := t.ic.tgt[c].broken = true ∧ t.ic.tgt[c].cause = (if g.broken then g.cause else cause) ∧
       t.core[c].haltRq = true ∧ 392 + c.val ∈ t.fc.fresh ∧ t.ic.tgt[c].stack = g.stack
     Asks by_ s (.icc c .iceoi) →
      (¬ mine → exec (.iceoi by_ c v) s = after s ((asked by_ d).flag (.icc c .icstat) ICSTAT.WREJ)) ∧
      (mine → g.stack = [] → Does (.iceoi by_ c v) s (broke 2)) ∧
      (∀ e rest, mine → g.stack = e :: rest → g.chkOpen = false → e.par ≠ icPar e.src e.lvl → e.src = ICEOI.SRC.get v →
        Does (.iceoi by_ c v) s (broke 5)) ∧
      (∀ e rest, mine → g.stack = e :: rest → g.chkOpen = false → e.par = icPar e.src e.lvl →
        (e.src = ICEOI.SRC.get v → Does (.iceoi by_ c v) s fun t => t.ic.tgt[c].stack = rest ∧ t.ic.tgt[c].broken = g.broken ∧
          (e.src < 384 → (icSrc t e.src).serve = .free)) ∧
        (e.src ≠ ICEOI.SRC.get v → Does (.iceoi by_ c v) s (broke 1)))) ∧
    (let x := ICQDONE.SRC.get v
     Asks by_ s (.icc c .icqdone) → mine →
      (x < 384 → (icSrc d x).serve = .queued → icTarget d x = c → Does (.icqdone by_ c v) s fun t => (icSrc t x).serve = .free) ∧
      (¬ (x < 384 ∧ (icSrc d x).serve = .queued ∧ icTarget d x = c) → exec (.icqdone by_ c v) s = after s (asked by_ d))) ∧
    (Asks by_ s (.icc c .icqrd) → mine → Does (.icqrdWrite by_ c v) s fun t =>
      t.get (.icc c .icqrd) = plainWrite (IccReg.access .icqrd) (d.get (.icc c .icqrd)) v) ∧
    (Asks by_ s (.icc c .iccfg) → mine → d.b (.icc c .iccfg) ICCFG.EN = false →
      (ICCFG.MODE.bit v = false → Does (.icTargetEnable by_ c v) s fun t => t.b (.icc c .iccfg) ICCFG.EN = true) ∧
      (let base := (d.get (.icc c .icqbase)).toNat
       let q := d.f (.icc c .icqsize) ICQSIZE.QSZ
       let fits := base % 16 = 0 ∧ 4 ≤ q ∧ q ≤ 12 ∧ 0x20000000 ≤ base ∧ base + 16 * 2 ^ q ≤ 0x20400000
       ICCFG.MODE.bit v = true →
        (fits → Does (.icTargetEnable by_ c v) s fun t => t.b (.icc c .iccfg) ICCFG.EN = true ∧
          t.get (.icc c .icqwr) = 0 ∧ t.get (.icc c .icqrd) = 0) ∧
        (¬ fits → Does (.icTargetEnable by_ c v) s fun t => t.get (.icc c .iccfg) = d.get (.icc c .iccfg) ∧
          t.b (.icc c .icstat) ICSTAT.ENREJ = true))) ∧
    (let wr := d.f (.icc c .icqwr) ICQWR.INDEX
     let slots := 2 ^ d.f (.icc c .icqsize) ICQSIZE.QSZ
     let occ := (wr + 65536 - d.f (.icc c .icqrd) ICQRD.INDEX) % 65536
     let limit := min (d.f (.icc c .icqsize) ICQSIZE.LIMIT) slots
     let a := (d.get (.icc c .icqbase)).toNat + 16 * (wr % slots)
     d.b (.icc c .iccfg) ICCFG.EN = true → d.b (.icc c .iccfg) ICCFG.MODE = true → memWaits d a = false → g.ringOpen = false →
      a % 16 = 0 → inSram a = true →
      (limit ≤ occ → icCand d c ≠ [] → Does (.queueRecord c) s fun t => t.ic.tgt[c].full = true ∧ t.get (.icc c .icqwr) = d.get (.icc c .icqwr) ∧
        t.mem = d.mem) ∧
      (occ < limit → icCand d c = [] → exec (.queueRecord c) s = after s d) ∧
      (∀ x l, occ < limit → icBest (icCand d c) = some (x, l) →
        let src := icSrc d x
        let ts := src.pendTs
        Does (.queueRecord c) s fun t => t.f (.icc c .icqwr) ICQWR.INDEX = (wr + 1) % 65536 ∧ (icSrc t x).serve = .queued ∧
          (eccData (memGet t a)).toNat = (2 ^ 31 * (wr / slots % 2) + 2 ^ 30 * b2n src.pendTv + 2 ^ 29 * b2n src.resamp + 2 ^ 9 * l + x) % 2 ^ 32 ∧
          eccData (memGet t (a + 4)) = 0 ∧ eccData (memGet t (a + 8)) = lo32 ts ∧ eccData (memGet t (a + 12)) = hi32 ts)) ∧
    (g.win = none → exec (.moderationTimeout c) s = after s d) ∧
    (∀ w n us, g.win = some w → icModPar d c = some (n, us) → us ≠ 0 → Calm s (w.at_ + us * tuUs) → exec (.moderationTimeout c) s =
      after s ((d.at (w.at_ + us * tuUs)).tgtU c fun t => { t with win := none }))

/-- The fault collector (R220, R221, R224-R226, R229-R231, R237): an occurrence of a closed and of an open class and what its level does,
acknowledgement, release of held legs, the gate drivers, the records and a trip of a comparator, exactly its qualification time after
its condition began (log entry 201); where nothing else falls due to the shroud before their instant. Where the spec leaves a choice it
rests on the readings of log entries 70, 72, 73, 76, 192, 201. -/
def Obligations.Faults : Prop :=
  ∀ (s : State) (by_ : Requester) (v : Word) (l : Nat) (c : Fin 16) (n : Fin 96) (k : Fin 3) (m : Fin 64), Up s →
    let d := s.toDev
    let stat (f : Fld) : Nat := d.f (.fc (.fclstat c)) f
    let isOpen := d.b (.fc (.fclstat c)) FCLSTAT.OPEN
    let held (t : Dev) (x : Fin 96) : Prop := t.b (.shl x .hold) SHL_HOLD.HELD = true
    let level := min 5 (d.f (.fc (.flevel c)) FLEVEL.LEVEL)
    let ceil := max (min 5 (d.f (.fc (.flevel c)) FLEVEL.CEIL)) level
    (d.fc.fresh = [] → exec .faultOccurrence s = after s d) ∧
    let up := gridUp (fcPeriod d) 0 d.now
    let cycle := if up ≤ d.fc.cycle then d.fc.cycle + fcPeriod d else up
    (d.fc.fresh = [l] → Calm s cycle → l < 512 → l ≠ 473 → lineMasked d l = false → fcLast d l = none → c = lineClass l →
      let opens := isOpen = true ∨ 1 ≤ level ∨ c = 0 ∨ c = 1
      let el := if isOpen then max (stat FCLSTAT.ELEVEL) (min ceil (stat FCLSTAT.ELEVEL + 1)) else level
      let legs := (if isOpen then d.fc.legs[c] else clsMap d c) ||| lineLegs d l
      Does .faultOccurrence s fun t => t.now = max d.now cycle ∧ (t.get (.fc (.fstat (Fin.ofNat 16 (l / 32))))).getLsbD (l % 32) = true ∧
        (opens → t.b (.fc (.fclstat c)) FCLSTAT.OPEN = true ∧ t.f (.fc (.fclstat c)) FCLSTAT.ELEVEL = el % 8 ∧
          t.f (.fc (.fclstat c)) FCLSTAT.OCC = (if isOpen then min 255 (stat FCLSTAT.OCC + 1) else 1) ∧ t.fc.legs[c] = legs ∧
          (2 ≤ el → legs.testBit n.val = true → t.b (.shl n .hold) SHL_HOLD.REEFED = true) ∧
          (3 ≤ el → legs.testBit n.val = true → held t n) ∧
          (4 ≤ el → held t n ∧ t.f (.shg .shgate) SHGATE.EN = 0) ∧
          (el = 5 → stat FCLSTAT.ELEVEL < 5 → d.fc.locked = false → t.b (.fc .fsum) FSUM.LOCKDOWN = true)) ∧
        (¬ opens → t.get (.fc (.fclstat c)) = d.get (.fc (.fclstat c))) ∧
        (d.fc.recs.length < 32 → ∃ r, t.fc.recs = d.fc.recs ++ [r] ∧ r.w0.toNat % 512 = l)) ∧
    (Asks by_ s (.fc .fack) → isOpen = true → (FACK.CLASS.get v).testBit c.val = true →
      let asserted := ∃ x ∈ fcNow d, lineClass x = c ∧ (x ∈ d.fc.level ∨ x ∈ d.fc.fresh) ∧
        (lineMasked d x = false ∨ ∃ y ∈ d.fc.masked, y.1 = x ∧ y.2 / fcPeriod d = d.now / fcPeriod d)
      (¬ asserted → stat FCLSTAT.ELEVEL ≠ 5 → Does (.fack by_ v) s fun t => t.get (.fc (.fclstat c)) = 0 ∧ t.fc.legs[c] = 0) ∧
      (asserted ∨ stat FCLSTAT.ELEVEL = 5 → Does (.fack by_ v) s fun t =>
        t.get (.fc (.fclstat c)) = d.get (.fc (.fclstat c)) ∧ t.b (.fc .fcstat) FCSTAT.ACKREJ = true)) ∧
    (let mask := d.f (.shl n .hold) SHL_HOLD.HMASK
     Asks by_ s (.shg (.shrel k)) → n.val / 32 = k.val → v.getLsbD (n.val % 32) = true → d.leg[n].pend = none → d.leg[n].hi.on = false →
      d.leg[n].lo.on = false →
      ((∀ x : Fin 16, mask.testBit x.val = true → clsOpen d x = false) → Does (.shrel by_ k v) s fun t =>
        t.b (.shl n .hold) SHL_HOLD.HELD = false ∧ t.f (.shl n .hold) SHL_HOLD.HMASK = 0) ∧
      ((∃ x : Fin 16, mask.testBit x.val = true ∧ clsOpen d x = true) → Does (.shrel by_ k v) s fun t =>
        t.get (.shl n .hold) = d.get (.shl n .hold) ∧ t.b (.shg .shstat) SHSTAT.RELREJ = true)) ∧
    (Asks by_ s (.shg .shgate) →
      let may := (∀ x : Fin 16, clsOpen d x = true → d.f (.fc (.fclstat x)) FCLSTAT.ELEVEL < 4) ∧ d.b (.fc .fsum) FSUM.LOCKDOWN = false ∧
        d.b (.sys (.ready 0)) READY0.SHROUD = true
      (may → exec (.shgateWrite by_ v) s = after s ((asked by_ d).setF (.shg .shgate) SHGATE.EN (SHGATE.EN.get v))) ∧
      (¬ may → exec (.shgateWrite by_ v) s = after s (((asked by_ d).setF (.shg .shgate) SHGATE.EN 0).flagIf (SHGATE.EN.get v != 0)
        (.shg .shstat) SHSTAT.GATEREJ))) ∧
    (Asks by_ s (.fc .frecpop) →
      (d.fc.recs = [] → exec (.frecpop by_ v) s = after s ((asked by_ d).flag (.fc .fcstat) FCSTAT.POPEMPTY)) ∧
      (∀ r rest, d.fc.recs = r :: rest → exec (.frecpop by_ v) s = after s ((asked by_ d).fcU fun f => { f with recs := rest }))) ∧
    (d.cmp[m].cond = none → exec (.comparatorTrip m) s = after s d) ∧
    (∀ t0, d.cmp[m].cond = some t0 → tripCond d m = true → d.cmp[m].tripped = false →
      let qual := [0, 4, 8, 16].getD (d.f (.shtm m .cfg) SHTM_CFG.QUAL) 0
      Calm s (t0 + qual * tuNs) → Does (.comparatorTrip m) s fun t => (d.cmp[m].twin = none → t.cmp[m].tripped = true) ∧ 328 + m.val ∈ t.fc.level ∧ t.now = max d.now (t0 + qual * tuNs) ∧
        ((legRow d fun j => .shtm m (.leg j)).testBit n.val = true → held t n ∧
          (d.f (.leg n .stat) LEG_STAT.STATE ≠ 6 → t.leg[n].hi.on = false ∧ t.leg[n].lo.on = false)))

/-- TOLL, the watchdogs and the monitors (R220, R222, R239-R242): the toggles and their feed, watchdogs started, fed, warned and expired,
the thermal warning and shutdown, the supplies and the reference; where nothing falls due to the shroud before their instant. Where the
spec leaves a choice it rests on the readings of log entries 74, 75, 77. -/
def Obligations.MonitorsAndWatchdogs : Prop :=
  ∀ (s : State) (by_ : Requester) (v : Word) (n : Fin 5) (i : Fin 8) (hot : Byte) (rail : Rail),
    let d := found s
    let q := asked (.core n) d
    let w := d.fc.wd[n]
    let key (b : Bool) : Dev := q.wdU n fun x => { x with key := b }
    let ctl := d.b (.wd n .ctl) WD_CTL.EN
    (Up s →
      (∀ t0, d.fc.tollAt = some t0 → Calm s t0 →
        let ok := fcHigh d = false ∧ d.b (.fc .fsum) FSUM.LOCKDOWN = false ∧ d.sys.refOk = true ∧
          (d.b (.fc .tollctl) TOLLCTL.FEEDEN = true → d.fc.fed = true)
        (ok → Does .tollToggle s fun t => t.now = max d.now t0 ∧ t.b (.fc .tollstat) TOLLSTAT.PIN = !d.b (.fc .tollstat) TOLLSTAT.PIN ∧
          t.fc.tollAt = some (max d.now t0 + 50 * tuUs) ∧ t.fc.fed = false) ∧
        (¬ ok → Does .tollToggle s fun t => t.fc.tollAt = none ∧ t.b (.fc .tollstat) TOLLSTAT.PIN = d.b (.fc .tollstat) TOLLSTAT.PIN)) ∧
      (d.fc.tollAt = none → exec .tollToggle s = after s d) ∧
      (Asks by_ s (.fc .tollfeed) → Does (.tollfeed by_ v) s fun t => t.fc.fed = true) ∧
      (Asks by_ s (.wd n .ctl) → ctl = false → d.fc.locked = false → Does (.watchdogEnable by_ n v) s fun t =>
        t.b (.wd n .ctl) WD_CTL.EN = true ∧ t.fc.wd[n].from_ = some d.now ∧ t.fc.wd[n].warned = false) ∧
      (ctl = true → Asks by_ s (.wd n .ctl) → exec (.watchdogEnable by_ n v) s = after s (asked by_ d)) ∧
      (Asks by_ s (.wd n .feed) →
        (by_ ≠ .core n → exec (.watchdogFeed by_ n v) s =
          after s (((asked by_ d).flag (.wd n .stat) WD_STAT.BADKEY).wdU n fun x => { x with key := false })) ∧
        (by_ = .core n → w.key = false → v = 0x5A5A → exec (.watchdogFeed (.core n) n v) s = after s (key true)) ∧
        (by_ = .core n → w.key = false → v ≠ 0x5A5A → exec (.watchdogFeed (.core n) n v) s = after s (q.flag (.wd n .stat) WD_STAT.BADKEY)) ∧
        (∀ t0, by_ = .core n → w.key = true → v = 0xA5A5 → ctl = true → w.from_ = some t0 → d.fc.locked = false →
          (d.f (.wd n .tmo) WD_TMO.WMIN ≤ (d.now - t0) / tuAon → Does (.watchdogFeed (.core n) n v) s fun t =>
            t.fc.wd[n].from_ = some d.now ∧ t.fc.wd[n].key = false ∧ t.core = d.core) ∧
          ((d.now - t0) / tuAon < d.f (.wd n .tmo) WD_TMO.WMIN → Does (.watchdogFeed (.core n) n v) s fun t =>
            t.b (.wd n .stat) WD_STAT.EXP = true ∧ t.core[n] = { resetAt := d.now } ∧ 424 + n.val ∈ t.fc.fresh))) ∧
      (∀ t0, w.from_ = some t0 → ctl = true →
        (w.warned = false → Calm s (t0 + d.f (.wd n .tmo) WD_TMO.TIMEOUT / 2 * tuAon) → Does (.watchdogWarn n) s fun t => t.b (.wd n .stat) WD_STAT.WARN = true ∧ t.fc.wd[n].warned = true ∧
          t.now = max d.now (t0 + d.f (.wd n .tmo) WD_TMO.TIMEOUT / 2 * tuAon)) ∧
        (let at_ := max d.now (t0 + max 1 (d.f (.wd n .tmo) WD_TMO.TIMEOUT) * tuAon)
         Calm s at_ → Does (.watchdogExpiry n) s fun t => t.now = at_ ∧ t.b (.wd n .stat) WD_STAT.EXP = true ∧ t.core[n] = { resetAt := at_ } ∧
          (t.f (.sys .rstcause) RSTCAUSE.WDRST).testBit n.val = true ∧ 424 + n.val ∈ t.fc.fresh)) ∧
      (d.fc.rest = true → d.b (.fl .flstat) FLSTAT.BUSY = false → d.fc.locked = false → Does .lockdownComplete s fun t =>
        t.b (.fc .fsum) FSUM.LOCKDOWN = true ∧ t.fc.locked = true ∧ ∀ c : Fin 5, t.core[c].haltRq = true) ∧
      (d.fc.rest = false → exec .lockdownComplete s = after s d)) ∧
    (hot = 0 → exec (.thermalWarning hot) s =
      after s (if d.b (.th .thstat) THSTAT.WARN then d.setF (.th .thstat) THSTAT.HOT 0 else d)) ∧
    (hot ≠ 0 → Does (.thermalWarning hot) s fun t => t.b (.th .thstat) THSTAT.WARN = true ∧ t.f (.th .thstat) THSTAT.HOT = hot.toNat ∧
      (d.b (.th .thstat) THSTAT.WARN = false → 472 ∈ t.fc.level ∧ (∃ x ∈ t.fab.raised, x.val = 503))) ∧
    (Does .thermalWarningClear s fun t => t.b (.th .thstat) THSTAT.WARN = false ∧ 472 ∉ t.fc.level) ∧
    (let up := gridUp (fcPeriod d) 0 d.now
     let cycle := if up ≤ d.fc.cycle then d.fc.cycle + fcPeriod d else up
     473 ∉ d.fc.level → fcLast d 473 = none → (s.sys.rst = none → overdue (d.at cycle) = false) → Does .thermalShutdown s fun t => t.b (.th .thstat) THSTAT.SHUT = true ∧ 473 ∈ t.fc.level ∧
      t.b (.fc (.fclstat 11)) FCLSTAT.OPEN = true ∧ t.f (.fc (.fclstat 11)) FCLSTAT.ELEVEL = 5 ∧ t.f (.shg .shgate) SHGATE.EN = 0 ∧
      ∀ m : Fin 96, t.b (.shl m .hold) SHL_HOLD.HELD = true) ∧
    (let out := rail ≠ .good
     let line (t : Dev) : Prop := 480 + i.val ∈ t.fc.level ↔ out
     (i.val < 4 → exec (.supplyThresholdCross i rail) s = after s (d.line (480 + i.val) out)) ∧
     (∀ k : Fin 4, i.val = 4 + k.val → Does (.supplyThresholdCross i rail) s fun t => t.sys.vio[k] = rail ∧
      ((d.f (.sys .iostat) IOSTAT.PRESENT).testBit k.val = true → line t) ∧
      ((d.f (.sys .iostat) IOSTAT.PRESENT).testBit k.val = false → t.fc = d.fc))) ∧
    (Does .referenceLost s fun t => t.sys.refOk = false ∧ 405 ∈ t.fc.level) ∧
    (Does .referenceReturn s fun t => t.sys.refOk = true ∧ 405 ∉ t.fc.level)

/-- Link ports, enumeration and routing (R364, R368, R370, R373, R375-R379): a port trains, goes down or loses alignment, errors of a
window, ENUM, ENUM_DONE, LSTAT and LOCKDOWN, and where a packet frame goes, whose header is checked where ABORT ends it as well (R394),
on a unit whose ports and interpreter have nothing queued. Where the spec leaves a choice it rests on the readings of log entries 118,
119, 120, 124, 125, 170, 172, 183. -/
def Obligations.LinkFrames : Prop :=
  ∀ (s : State) (by_ : Requester) (p q : Fin 2) (align inv : Fin 4) (skew dst src kind crc : Byte) (partner ring ovr aborted : Bool)
    (errs n addr port cls time len : Nat) (flags : Byte) (sum : BitVec 16) (bytes : List Byte), Up s → p ≠ q → s.hst.enum = none →
    s.hst.cmds = [] → s.hst.late = [] → (∀ x : Fin 2, s.lnk.port[x].txq = []) →
    let d := s.toDev
    let crcOf (f : Frame) : BitVec 16 := BitVec.ofNat 16 (crc16 f.syms)
    let enum : Instr := .enum 0 n (flags, crcOf (.enum n flags.toNat))
    let done : Instr := .enumDone p n ring ovr (crcOf (.enumDone n ring ovr))
    let lstat (x : Nat) : Instr := .lstat p addr port x (crcOf (.lstat addr port x))
    let notice : Instr := .lockdownFrame p addr cls time (crcOf (.lockdown addr cls time))
    let on := d.b (.lnk .lnkctl) LNKCTL.EN = true ∧ d.b (.lnkp p .ctl) LNKP_CTL.EN = true
    let up (x : Fin 2) : Prop := lnkTrained d x = true
    let idle (x : Fin 2) : Prop := up x ∧ d.lnk.port[x].busy ≤ d.now
    let sends (i : Instr) (x : Fin 2) (f : Frame) : Prop := Does i s fun t => t.hst.out = d.hst.out ++ [.frame x f]
    let own (a : Nat) : Prop := a = lnkAddr d ∧ lnkV d = true
    let st (t : Dev) (f : Fld) : Bool := t.b (.lnk .lnkstat) f
    let down (t : Dev) : Prop := lnkTrained t p = false ∧ t.b (.lnkp p .stat) LNKP_STAT.DVALID = false ∧
      t.b (.lnkp p .stat) LNKP_STAT.DOWNF = true ∧ st t LNKSTAT.DOWNF = true ∧ t.b (.sys (.ready 2)) (if p = 0 then READY2.UP else READY2.DOWN) = false ∧
      456 + p.val ∈ t.fc.level ∧ t.lnk.port[p].txq = [] ∧ t.b (.lnk .lnkaddr) LNKADDR.BRK = true ∧ st t LNKSTAT.BREAKF = true ∧
      t.f (.lnk .lnkaddr) LNKADDR.BRKA = lnkLinkOf d (lnkAddr d) p.val % 64 ∧ lnkTrained t q = lnkTrained d q
    (on → ¬ up p → Does (.portTrained p inv skew) s fun t => lnkTrained t p = true ∧ t.f (.lnkp p .stat) LNKP_STAT.ALIGN = 3 ∧
      t.f (.lnkp p .stat) LNKP_STAT.INV = inv.val ∧ t.f (.lnkp p .stat) LNKP_STAT.SKEW = min 8 skew.toNat ∧ st t LNKSTAT.UPF = true ∧
      t.b (.sys (.ready 2)) (if p = 0 then READY2.UP else READY2.DOWN) = true ∧ 456 + p.val ∉ t.fc.level ∧ t.lnk.port[p].left = 16) ∧
    (up p → exec (.portTrained p inv skew) s = after s d) ∧
    (up p → Does (.portDown p) s down) ∧
    (¬ up p → exec (.portDown p) s = after s d) ∧
    (on → align ≠ 3 → up p → Does (.laneAlignment p align inv skew partner) s fun t =>
      down t ∧ t.f (.lnkp p .stat) LNKP_STAT.ALIGN = align.val) ∧
    (on → align = 3 → Does (.laneAlignment p align inv skew partner) s fun t => t.f (.lnkp p .stat) LNKP_STAT.ALIGN = 3 ∧
      t.b (.lnkp p .stat) LNKP_STAT.PARTRDY = partner ∧ lnkTrained t p = lnkTrained d p) ∧
    (¬ on → exec (.laneAlignment p align inv skew partner) s = after s d) ∧
    (let worse := up p ∧ d.f (.lnkp p .ctl) LNKP_CTL.ERRTH < errs
     (worse → Does (.linkErrorWindow p errs) s fun t => down t ∧ t.b (.lnkp p .stat) LNKP_STAT.ERRTHF = true ∧ 458 ∈ t.fc.fresh ∧
      t.f (.lnkp p .cnt) LNKP_CNT.SYMERR = min 65535 (d.f (.lnkp p .cnt) LNKP_CNT.SYMERR + errs)) ∧
     (¬ worse → exec (.linkErrorWindow p errs) s = after s (d.bumpBy (.lnkp p .cnt) LNKP_CNT.SYMERR errs))) ∧
    (up 0 → lnkHead d = false →
      (n ≤ 63 → up 1 → Does enum s fun t => lnkAddr t = n ∧ lnkV t = true ∧ lnkBusy t = true ∧
        t.b (.sys (.ready 2)) READY2.ENUM = false) ∧
      (n ≤ 63 → idle 1 → sends enum 1 (.enum (n + 1) flags.toNat)) ∧
      (n ≤ 63 → ¬ up 1 → Does enum s fun t => lnkAddr t = n ∧ lnkV t = true ∧ lnkBusy t = false ∧ lnkCount t = n + 1 ∧
        t.b (.sys (.ready 2)) READY2.ENUM = true) ∧
      (n ≤ 63 → idle 0 → ¬ up 1 → sends enum 0 (.enumDone (n + 1) false false)) ∧
      (63 < n → Does enum s fun t => lnkV t = false ∧ lnkAddr t = lnkAddr d ∧ st t LNKSTAT.ENUMERR = true ∧ 461 ∈ t.fc.fresh)) ∧
    (up 0 → lnkHead d = true →
      (lnkBusy d = true → 1 ≤ n → n ≤ 64 → Does enum s fun t => lnkRing t = true ∧ lnkCount t = n) ∧
      (lnkBusy d = false ∨ n = 0 ∨ 64 < n → Does enum s fun t => st t LNKSTAT.DUPHEAD = true ∧ st t LNKSTAT.ENUMERR = true ∧ 461 ∈ t.fc.fresh)) ∧
    (up 1 → exec (.enum 1 n (flags, crcOf (.enum n flags.toNat))) s = after s d) ∧
    (up p → n < 128 → Does done s fun t => lnkCount t = n ∧ lnkRing t = ring ∧ lnkBusy t = false ∧
      t.b (.sys (.ready 2)) READY2.ENUM = true) ∧
    (up p → lnkHead d = false → idle 0 → sends done 0 (.enumDone n ring ovr)) ∧
    (up p → ¬ own addr → Does (lstat 0) s fun t => t.b (.lnk .lnkaddr) LNKADDR.BRK = true ∧ st t LNKSTAT.BREAKF = true ∧
      t.f (.lnk .lnkaddr) LNKADDR.BRKA = (if port = 1 then addr else if addr = 0 then lnkCount d - 1 else addr - 1) % 64) ∧
    (up p → ¬ own addr → idle q → sends (lstat 0) q (.lstat addr port 0)) ∧
    (up p → own addr → exec (lstat n) s = after s d) ∧
    (up p → ¬ own addr → Does notice s fun t => st t LNKSTAT.LDNRX = true ∧ 460 ∈ t.fc.fresh ∧
      t.get (.lnk .lnkldn) = ((0 : Word) |> LNKLDN.V.put 1 |> LNKLDN.CLASS.put cls |> LNKLDN.SRC.put addr)) ∧
    (up p → ¬ own addr → idle q → sends notice q (.lockdown addr cls time)) ∧
    (up p → own addr → exec notice s = after s d) ∧
    (∀ i ∈ [(Instr.enum p n (flags, sum), Frame.enum n flags.toNat), (.enumDone p n ring ovr sum, .enumDone n ring ovr),
        (.lstat p addr port n sum, .lstat addr port n), (.lockdownFrame p addr cls time sum, .lockdown addr cls time)],
      (up p → sum ≠ crcOf i.2 → exec i.1 s = after s (d.bump (.lnkp p .cnt) LNKP_CNT.TCRC)) ∧
      (¬ up p → exec i.1 s = after s d)) ∧
    (Asks by_ s (.lnk .lnktcmd) →
      (lnkHead d = true → lnkBusy d = false → idle 1 → Does (.enumStart by_) s fun t => lnkBusy t = true ∧
        t.b (.sys (.ready 2)) READY2.ENUM = false ∧
        t.hst.out = d.hst.out ++ [.frame 1 (.enum 1 0)]) ∧
      (lnkHead d = false ∨ lnkBusy d = true → exec (.enumStart by_) s = after s (asked by_ d))) ∧
    (let good := crc8 [dst, src, kind] = crc.toNat
     let frame : Instr := .packetFrame p dst src kind crc bytes false
     let f : Frame := .packet dst.toNat src.toNat kind.toNat bytes false
     let settled := lnkV d = true ∧ lnkBusy d = false
     let a := d.f (.lnk .lnkaddr) LNKADDR.BRKA
     let brk := lnkRing d = true ∧ d.b (.lnk .lnkaddr) LNKADDR.BRK = true
     let k := lnkAddr d
     (¬ up p → exec frame s = after s d) ∧
     (∀ cut ∈ [(none, none, none, none), (some dst, none, none, none), (some dst, some src, none, none), (some dst, some src, some kind, none)],
      up p → exec (.packetFrame p cut.1 cut.2.1 cut.2.2.1 cut.2.2.2 [] aborted) s =
      after s (d.bump (.lnk .lnkcnt) (if aborted then LNKCNT.ABORT_CNT else LNKCNT.FMTERR))) ∧
     (up p → ¬ good → exec frame s = after s (d.bump (.lnk .lnkcnt) LNKCNT.FMTERR)) ∧
     (up p → good → settled → dst.toNat < 64 → dst.toNat ≠ k →
      (lnkCount d ≤ dst.toNat → exec frame s = after s (d.bump (.lnk .lnkcnt) LNKCNT.NOROUTE)) ∧
      (dst.toNat < lnkCount d → k < dst.toNat →
        (brk → k ≤ a → a < dst.toNat → idle 0 → sends frame 0 f) ∧
        (¬ (brk ∧ k ≤ a ∧ a < dst.toNat) → idle 1 → sends frame 1 f)) ∧
      (dst.toNat < lnkCount d → dst.toNat < k →
        (brk → dst.toNat ≤ a → a < k → idle 1 → sends frame 1 f) ∧
        (¬ (brk ∧ dst.toNat ≤ a ∧ a < k) → idle 0 → sends frame 0 f))) ∧
     (up p → good → settled → dst.toNat = k → kind = 0 → hdrCheck bytes = .good len → bytes.length = 12 + len → packetErr bytes len = none →
      Does frame s fun t => ∃ c, t.hst.cmds = [c] ∧ c.hdr.iface = .link ∧ c.hdr.src = src.toNat ∧ c.raw = bytes ∧ c.err = none) ∧
     (up p → good → settled → dst.toNat = k → kind = 0 → hdrCheck bytes = .bad → Does (.packetFrame p dst src kind crc bytes aborted) s fun t =>
      t.hst.cmds = [] ∧ t.b (.hif .hstat) HSTAT.HCRC = true ∧ 464 ∈ t.fc.fresh) ∧
     (up p → good → settled → dst.toNat = k → kind = 1 → d.b (.hif .hifcfg) HIFCFG.CHAINIF = true → d.hst.spiQ.length < 4 →
      Does frame s fun t => t.hst.spiQ = d.hst.spiQ ++ [bytes]) ∧
     (up p → good → settled → dst.toNat = k → kind = 1 → Calm s (d.now + 20 * tuUs) → Does (.packetPadTimeout p dst src kind crc bytes) s fun t =>
      t.now = d.now + 20 * tuUs ∧ t.hst.spiQ = d.hst.spiQ ∧
      t.f (.lnk .lnkcnt) LNKCNT.ABORT_CNT = min 255 (d.f (.lnk .lnkcnt) LNKCNT.ABORT_CNT + 1)))

/-- Device and chain time on the link (R380-R385, R390): time frames received by a head and by a tracking or starting unit, sent, and
missed; delay exchanges from the request to the delays they give; a frame of a TYPE that is not listed (R366); and the read of device
time; where nothing falls due to the shroud before their instant. Where the spec leaves a choice it rests on the readings of log
entries 118, 121, 122, 170, 171, 178, 184. -/
def Obligations.LinkTime : Prop :=
  ∀ (s : State) (by_ : Requester) (p q : Fin 2) (t0 tx t2 t3 hops : Nat) (v back : Bool) (seq : Byte) (sum : BitVec 16) (odd : Byte × List Byte),
    Up s → p ≠ q → Calm s t0 → s.hst.enum = none → s.hst.cmds = [] → s.hst.late = [] → (∀ x : Fin 2, s.lnk.port[x].txq = []) →
    let d := s.toDev
    let up (x : Fin 2) : Prop := lnkTrained d x = true
    let l := d.lnk.port[p]
    let state := d.f (.lnk .lnktstat) LNKTSTAT.STATE
    let e : Int := (tx : Int) + d.f (.lnkp p .dly) LNKP_DLY.IN - d.devTime t0
    let crcOf (f : Frame) : BitVec 16 := BitVec.ofNat 16 (crc16 f.syms)
    let frame : Instr := .timeFrame p t0 tx v back hops (seq, crcOf (.time tx v back hops seq.toNat))
    let dreq : Instr := .dreq p t0 (crcOf .dreq, none)
    let drsp : Instr := .drsp p t0 t2 t3 (crcOf (.drsp t2 t3))
    let step := 24 * max 1 (d.f (.lnk .lnktcfg) LNKTCFG.STEPTHR)
    let rate := clampI (-1073742) 1073742 (d.lnk.rate + truncDiv (e * 2 ^ 32) (16 * lnkSync d * 38400))
    (∀ i ∈ [(Instr.timeFrame p t0 tx v back hops (seq, sum), Frame.time tx v back hops seq.toNat), (.dreq p t0 (sum, none), .dreq),
        (.drsp p t0 t2 t3 sum, .drsp t2 t3)],
      (¬ up p → exec i.1 s = after s (d.at t0)) ∧
      (up p → sum ≠ crcOf i.2 → exec i.1 s = after s ((d.at t0).bump (.lnkp p .cnt) LNKP_CNT.TCRC))) ∧
    (up p → exec (.dreq p t0 (sum, some odd)) s = after s ((d.at t0).bump (.lnkp p .cnt) LNKP_CNT.TCRC)) ∧
    (up p → d.lnk.openE = false → lnkHead d = true →
      (lnkWhole d = true → p = 0 → exec frame s = after s ((d.at t0).put (.lnk .lnkringerr) (sat31 e))) ∧
      (lnkWhole d = false ∨ p = 1 → exec frame s = after s (d.at t0))) ∧
    (up p → d.lnk.openE = false → lnkHead d = false →
      (v = false ∨ back = true ∨ 62 < hops → exec frame s = after s (d.at t0)) ∧
      (v = true → back = false → hops ≤ 62 → d.lnk.port[q].rx = none → d.b (.lnk .lnkctl) LNKCTL.TEN = true →
        Does frame s (fun t => t.get (.lnk .lnkterr) = sat31 e ∧ t.f (.lnk .lnktstat) LNKTSTAT.SRCP = p.val ∧
          t.f (.lnk .lnktstat) LNKTSTAT.HOPS = hops + 1 ∧ t.now = max d.now t0) ∧
        (state = 1 → d.b (.lnkp p .stat) LNKP_STAT.DVALID = true → Does frame s fun t =>
          t.f (.lnk .lnktstat) LNKTSTAT.STATE = 2 ∧ t.devTime t.now = d.devTime t.now + e) ∧
        (state = 2 → e.natAbs ≤ step → Does frame s fun t => t.f (.lnk .lnktstat) LNKTSTAT.STATE = 2 ∧ t.lnk.rate = rate ∧
          t.get (.lnk .lnkrate) = wInt rate) ∧
        (state = 2 → step < e.natAbs → Does frame s fun t => t.f (.lnk .lnktstat) LNKTSTAT.STATE = 1 ∧ t.ctv = false))) ∧
    (state < 2 → exec .timeFrameSend s = after s d) ∧
    let next := max d.now (d.lnk.sentAt + max 1 (d.f (.lnk .lnktcfg) LNKTCFG.SYNCINT) * tuUs)
    (2 ≤ state → Calm s next → Does .timeFrameSend s fun t => t.lnk.seq = (d.lnk.seq + 1) % 256 ∧ t.now = next ∧ t.lnk.sentAt = next) ∧
    (2 ≤ state → Calm s next → up p → l.busy ≤ next → ¬ up q → Does .timeFrameSend s fun t => t.hst.out = d.hst.out ++
      [.frame p (.time (d.stamp next) d.ctv (decide (state = 2) && p == Fin.ofNat 2 (d.f (.lnk .lnktstat) LNKTSTAT.SRCP))
        (d.f (.lnk .lnktstat) LNKTSTAT.HOPS) d.lnk.seq)]) ∧
    (let lost := max (d.lnk.port[(0 : Fin 2)].rx.elim 0 (·.at_)) (d.lnk.port[(1 : Fin 2)].rx.elim 0 (·.at_)) + lnkHold d
     lnkHead d = false → state = 2 → Calm s lost → Does .chainTimeTimeout s fun t => t.f (.lnk .lnktstat) LNKTSTAT.STATE = 1 ∧
      t.ctv = false ∧ t.now = max d.now lost) ∧
    (lnkHead d = true ∨ state ≠ 2 → exec .chainTimeTimeout s = after s d) ∧
    (up p → l.busy ≤ max d.now t0 → Does dreq s fun t => t.now = max d.now t0 ∧
      t.hst.out = d.hst.out ++ [.frame p (.drsp (d.stamp t0) (d.stamp (max d.now t0)))]) ∧
    (up p → (∀ e, (exLive t0 l.exch).head? = some e → e.2 = none) → exec drsp s = after s (d.at t0)) ∧
    (∀ a b rest, up p → exLive t0 l.exch = (a, some b) :: rest →
      let dels := ((d.devTime t0 - b - ((t3 : Int) - t2)) * 8 :: l.dels).take 16
      let sum := dels.foldl (· + ·) 0
      let asym := sextN 16 (d.f (.lnkp p .asym) LNKP_ASYM.ASYM)
      Does drsp s fun t => t.lnk.port[p].exch = rest ∧ t.lnk.port[p].dels = dels ∧ t.lnk.port[p].done_ = min 16 (l.done_ + 1) ∧
        (15 ≤ l.dels.length → t.f (.lnkp p .dly) LNKP_DLY.OUT = (rndAway (sum + 128 * asym) 256 % 65536).toNat ∧
          t.f (.lnkp p .dly) LNKP_DLY.IN = (rndAway (sum - 128 * asym) 256 % 65536).toNat ∧
          (15 ≤ l.done_ → t.b (.lnkp p .stat) LNKP_STAT.DVALID = true)) ∧
        (l.dels.length < 15 → t.get (.lnkp p .dly) = d.get (.lnkp p .dly))) ∧
    let turn := max d.now l.nextEx
    (up p → Calm s turn → Does (.delayExchange p) s fun t => t.lnk.port[p].left = l.left - 1 ∧ t.now = turn ∧
      t.lnk.port[p].exch.length = l.exch.length + 1 ∧ t.lnk.port[p].nextEx =
        turn + (if 1 < l.left then 2 else max 1 (d.f (.lnkp p .ctl) LNKP_CTL.DMINT) * 1000) * tuUs) ∧
    (up p → Calm s turn → l.busy ≤ turn → (∀ e ∈ l.exch, e.2 ≠ none) → Does (.delayExchange p) s fun t =>
      t.lnk.port[p].exch = l.exch ++ [(turn, some (d.stamp turn))] ∧ t.hst.out = d.hst.out ++ [.frame p .dreq]) ∧
    (¬ up p → exec (.delayExchange p) s = after s d) ∧
    ((∀ e, l.exch.head? = some e → e.2 = none) → exec (.delayExchangeTimeout p) s = after s d) ∧
    (∀ a b rest, l.exch = (a, some b) :: rest → Calm s (a + 20 * tuUs) → Does (.delayExchangeTimeout p) s fun t => t.lnk.port[p].exch = rest ∧ t.now = max d.now (a + 20 * tuUs)) ∧
    (Asks by_ s (.lnk .lnktcmd) → up p → Does (.delayMeasureStart by_) s fun t => t.lnk.port[p].left = 16 ∧ t.lnk.port[p].nextEx = d.now) ∧
    (Asks by_ s (.lnk .lnktimel) → hasAsked d by_ (.lnk .lnktimel) = false → Does (.lnktimelRead by_) s fun t =>
      t.sys.rdData = some (lo32 (d.stamp d.now)) ∧ t.get (.lnk .lnktimeh) = hi32 (d.stamp d.now))

/-- The capture engine (R413, R414, R416, R417, R419-R422): a ring set enabled, refused and disabled, a partial line flushed and dropped,
and the start, stop and snapshot tasks; where nothing falls due to the shroud before their instant. Where the spec leaves a choice it
rests on the readings of log entries 138, 139, 140, 141, 175. -/
def Obligations.Capture : Prop :=
  ∀ (s : State) (by_ : Requester) (r : Fin 16) (ch : Fin 256) (v : Word), Up s →
    let d := s.toDev
    let c := d.cap[r]
    let st (t : Dev) (f : Fld) : Bool := t.b (.capr r .stat) f
    let cf (x : Fin 16) (f : Fld) : Bool := d.b (.capr x .ctl) f
    let record (on : Nat) : List Word :=
      [w32 (2 ^ 31 + 6 * 2 ^ 26 + b2n d.ctv * 2 ^ 25 + on), 0, lo32 (d.stamp d.now), hi32 (d.stamp d.now)]
    (Asks by_ s (.capr r .ctl) →
      let q := asked by_ d
      let e := q.wr (.capr r .ctl) (CAPR_CTL.EN.put 0 v)
      let n := e.f (.capr r .ndesc) CAPR_NDESC.N
      let base := 16 * e.f (.capr r .dbase) CAPR_DBASE.ADDR
      let descs := (capDescs base n e).1
      let waits := (List.range n).any fun k => memWaits e (base + 16 * k)
      let fits := 1 ≤ n ∧ n ≤ 64 ∧ (CAPR_CTL.SNEN.bit v = true → capSnapOk e r = true)
      (cf r CAPR_CTL.EN = false →
        (fits → waits = true → exec (.captureEnable by_ r v) s = after s (e.capU r fun x => { x with enW := true })) ∧
        (∀ l, fits → waits = false → descs = some l → Does (.captureEnable by_ r v) s fun t => t.b (.capr r .ctl) CAPR_CTL.EN = true ∧
          st t CAPR_STAT.ARMED = true ∧ t.get (.capr r .wline) = 0 ∧ t.get (.capr r .rline) = 0 ∧ t.cap[r].descs = l ∧
          (CAPR_CTL.STEN.bit v = true → st t CAPR_STAT.RUN = st d CAPR_STAT.RUN ∧ t.cap[r].line.words = []) ∧
          (CAPR_CTL.STEN.bit v = false → st d CAPR_STAT.RUN = false → st t CAPR_STAT.RUN = true ∧ t.cap[r].line.words = record 1)) ∧
        (¬ fits ∨ (waits = false ∧ descs = none) → Does (.captureEnable by_ r v) s fun t => t.b (.capr r .ctl) CAPR_CTL.EN = false ∧
          st t CAPR_STAT.BADDESC = true ∧ 470 ∈ t.fc.fresh ∧ t.cap = d.cap) ∧
        exec (.captureDisable by_ r v) s = after s (e.capU r fun x => { x with enW := false })) ∧
      (cf r CAPR_CTL.EN = true →
        exec (.captureEnable by_ r v) s = after s (q.wr (.capr r .ctl) (CAPR_CTL.EN.put 1 v)) ∧
        Does (.captureDisable by_ r v) s fun t => t.b (.capr r .ctl) CAPR_CTL.EN = false ∧ st t CAPR_STAT.RUN = false ∧
          st t CAPR_STAT.ARMED = false ∧ (st d CAPR_STAT.RUN = true → t.cap[r].line.words = []))) ∧
    (let lines := (c.descs.map fun x => x.len / 64).sum
     let used := (d.get (.capr r .wline) - d.get (.capr r .rline)).toNat
     let l := (d.get (.capr r .wline)).toNat
     let at_ := max d.now (c.since + max 1 (d.f (.capr r .cfg) CAPR_CFG.FLUSHUS) * tuUs)
     let words := (if c.line.hasLoss then capLossWords c ++ c.line.words.drop 4 else c.line.words) ++ List.replicate (16 - c.line.words.length) 0
     Calm s at_ →
     (c.line.words = [] → exec (.captureFlush r) s = after s d) ∧
     (c.line.words ≠ [] → c.line.hasLoss = true ∨ c.drops = 0 → c.ringOpen = false → c.staged = [] → d.hst.perst = false → used < lines → capStaged d < 1024 → capMayIssue d r = true → d.b (.hif .pciestat) PCIESTAT.L0 = true →
      ∀ a irq, capAddr c.descs (64 * (l % lines)) = some (a, irq) → Does (.captureFlush r) s fun t => t.now = at_ ∧
        t.cap[r].line = {} ∧ t.get (.capr r .wline) = BitVec.ofNat 32 (l + 1) ∧
        t.f (.capr r .use) CAPR_USE.IN_USE = d.f (.capr r .use) CAPR_USE.IN_USE + 1 ∧ t.sys.tags[69] = d.sys.tags[69] + 1 ∧
        (irq = true → st t CAPR_STAT.DFILL = true) ∧
        (∃ x, t.cap[r].sent = c.sent ++ [x] ∧ x.recs = c.line.recs) ∧ ∃ rest, t.hst.out = d.hst.out ++ .hostWrite a words :: rest) ∧
     (c.line.words ≠ [] → c.ringOpen = false → c.staged = [] → lines ≤ used ∨ d.hst.perst = true → Does (.captureFlush r) s fun t =>
      t.now = at_ ∧ t.cap[r].line = {} ∧
      st t CAPR_STAT.LOSS = true ∧ t.hst.out = d.hst.out ∧ (c.dropping = false → 469 ∈ t.fc.fresh) ∧
      t.f (.capr r .lost) CAPR_LOST.COUNT = min (2 ^ 32 - 1) (d.f (.capr r .lost) CAPR_LOST.COUNT + (capGone c.snapLost c.line.recs).length))) ∧
    (let listed (k : TaskKind) := fabTaskAt d k ch
     (listed .capStart = none → exec (.captureStartTask ch) s = after s d) ∧
     (listed .capStop = none → exec (.captureStopTask ch) s = after s d) ∧
     (listed .capSnap = none → exec (.captureSnapshotTask ch) s = after s d) ∧
     (∀ e, listed .capStart = some e → Calm s e → Does (.captureStartTask ch) s fun t => t.fab.tasks = d.fab.tasks.erase (.capStart, ch, e) ∧
      t.now = max d.now e ∧ ∀ x : Fin 16, (t.b (.capr x .stat) CAPR_STAT.RUN = true ↔ d.b (.capr x .stat) CAPR_STAT.RUN = true ∨ (cf x CAPR_CTL.EN = true ∧
        cf x CAPR_CTL.STEN = true ∧ d.b (.capr x .stat) CAPR_STAT.ARMED = true ∧ d.f (.capr x .ctl) CAPR_CTL.STCH = ch.val))) ∧
     (∀ e, listed .capStop = some e → Calm s e → Does (.captureStopTask ch) s fun t => t.now = max d.now e ∧ ∀ x : Fin 16, (t.b (.capr x .stat) CAPR_STAT.RUN = true ↔
      d.b (.capr x .stat) CAPR_STAT.RUN = true ∧ ¬ (cf x CAPR_CTL.SPEN = true ∧ d.f (.capr x .ctl) CAPR_CTL.SPCH = ch.val))) ∧
     (let base := 4 * d.f (.capr r .snap) CAPR_SNAP.ADDR
      let ready (x : Fin 16) := cf x CAPR_CTL.SNEN = true ∧ d.b (.capr x .stat) CAPR_STAT.RUN = true ∧ d.f (.capr x .ctl) CAPR_CTL.SNCH = ch.val
      ∀ e, listed .capSnap = some e → Calm s e → ready r → (∀ x, ready x → x = r) →
        (c.snap ≠ none → Does (.captureSnapshotTask ch) s fun t => st t CAPR_STAT.SNAPDROP = true ∧ t.cap = d.cap) ∧
        (c.snap = none → c.line.words = [] → c.drops = 0 → d.f (.capr r .snlen) CAPR_SNLEN.N = 1 → inSram base = true → dataWaits d base = false →
          capMayIssue d r = true →
          let x := (memRead reqDma base d).1
          Does (.captureSnapshotTask ch) s fun t => t.cap[r].snap = none ∧
            t.cap[r].line.words = [w32 (2 ^ 31 + 4 * 2 ^ 26 + b2n d.ctv * 2 ^ 25 + b2n x.bad.isSome * 2 ^ 24 + 1), w32 base,
              lo32 (d.stamp (max d.now e)), hi32 (d.stamp (max d.now e)), x.data, 0, 0, 0])))

/-- Two-party keys (R428-R434, R441): an entry taken, replaced and refused, the nonce, the two parties' confirmations with each way a stage
ends, and that a plain write leaves a key-held field as it was; a core that is in reset, halted, locked up or parked, or S in lockdown,
cannot confirm (R434). Where the spec leaves a choice it rests on the readings of log entries 143, 144, 145. -/
def Obligations.TwoPartyKeys : Prop :=
  ∀ (s : State) (by_ : Requester) (v w : Word) (r : Reg) (h : Fin 70) (c : Fin 16) (j : Fin 8) (k : Nat), Up s →
    let d := s.toDev
    let q := asked by_ d
    let b := reqCode by_
    let n := d.tk TK_STAT.COUNT
    let a := 4 * TK_SADDR.ADDR.get (d.get (.sec .tk_saddr))
    let opened := tkOpen d = true
    let known := d.tkB TK_STAT.NBUSY = false
    let same := v.toNat % 65536 = d.f (.sec .tk_nonce) TK_NONCE.NONCE
    let bootKey := tkBootKey d = true
    let mute := ∃ m : Fin 5, by_ = .core m ∧ (d.core[m].run = .held ∨ d.core[m].run = .halted ∨ d.core[m].run = .locked ∨ d.core[m].parked = true ∨
      (m = 4 ∧ d.b (.fc .fsum) FSUM.LOCKDOWN = true))
    let still (x t : Dev) : Prop := ∀ y, (∀ z, y ≠ .sec z) → t.get y = x.get y
    let ended (x t : Dev) (result line : Nat) : Prop := tkOpen t = false ∧ t.tk TK_STAT.RESULT = result ∧ t.tk TK_STAT.COUNT = 0 ∧
      t.tkB TK_STAT.FAILF = true ∧ line ∈ t.fc.fresh ∧ still x t ∧
      t.f (.sec .tk_cnt) TK_CNT.FAIL_CNT = min 255 (d.f (.sec .tk_cnt) TK_CNT.FAIL_CNT + 1)
    let rejects (f : Fld) : Dev := (q.flag (.sec .tk_stat) f).bump (.sec .tk_cnt) TK_CNT.REJ_CNT
    let wrej : Dev := (q.flag (.sec .tk_stat) TK_STAT.WREJ).pulse 415
    let lapsed := opened ∧ d.sec.firstAt.getD d.sec.entryAt + 25000 * tuRef ≤ d.now
    (¬ opened → exec .tkExpiry s = after s d) ∧
    (opened → Calm s (d.sec.firstAt.getD d.sec.entryAt + 25000 * tuRef) → Does .tkExpiry s fun t => ended d t 2 409 ∧ t.now = max d.now (d.sec.firstAt.getD d.sec.entryAt + 25000 * tuRef)) ∧
    (lapsed → Does .nonceReady s fun t => ended d t 2 409) ∧
    (¬ lapsed → Asks by_ s (.sec .tk_stage) →
      let stage := exec (.tkStageWrite by_ v) s
      let mine := opened → d.tk TK_STAT.OPENER = b ∧ d.tkB TK_STAT.SEALED = false
      let taken (at_ : Fin 8) (count : Nat) : Prop := Does (.tkStageWrite by_ v) s fun t => tkOpen t = true ∧ t.tk TK_STAT.COUNT = count ∧
        t.tk TK_STAT.OPENER = b ∧ t.tkB TK_STAT.NBUSY = true ∧ t.b (.sec .tk_nonce) TK_NONCE.VALID = false ∧
        t.get (.sec (.tk_entv at_)) = v ∧ 4 * TK_ENTA.ADDR.get (t.get (.sec (.tk_enta at_))) = a ∧ still q t
      (d.sec.odd = true ∨ tkListed a v = false → stage = after s (rejects TK_STAT.SREJ)) ∧
      (d.sec.odd = false → tkListed a v = true →
        (¬ mine → stage = after s (rejects TK_STAT.BUSYREJ)) ∧
        (mine → (∀ x : Fin 8, x.val < n → (tkEntry d x).1 ≠ a) →
          (∀ at_ : Fin 8, at_.val = n → taken at_ (n + 1)) ∧ (8 ≤ n → stage = after s (rejects TK_STAT.BUSYREJ))) ∧
        (mine → j.val < n → (tkEntry d j).1 = a → (∀ x : Fin 8, x < j → (tkEntry d x).1 ≠ a) → taken j n))) ∧
    (¬ lapsed → known → exec .nonceReady s = after s d) ∧
    (¬ lapsed → ¬ known → d.sec.waitA = none → d.sec.waitB = none → Does .nonceReady s fun t => t.tkB TK_STAT.NBUSY = false ∧
      t.get (.sec .tk_nonce) = ((0 : Word) |> TK_NONCE.VALID.put 1 |> TK_NONCE.NONCE.put (crc16 (bytesLE 4 d.sec.rnd.toNat ++
        ((tkEntries d).map fun x => bytesLE 4 x.1 ++ bytesLE 4 x.2.toNat).flatten)))) ∧
    (¬ lapsed → ∀ party ∈ [true, false],
      let i : Instr := if party then .tkCommitA by_ v else .tkCommitB by_ v
      let other := d.tkB (if party then TK_STAT.BDONE else TK_STAT.ADONE) = true ∨ (party = true ∧ bootKey)
      let right := b = if party then 4 else tkPartyB d
      Asks by_ s (.sec (if party then .tk_commit_a else .tk_commit_b)) →
        ((party = false ∧ bootKey) ∨ mute → exec i s = after s q) ∧
        (¬ mute → ¬ right → (party = false → ¬ bootKey) → exec i s = after s ((rejects TK_STAT.WRONGPARTY).pulse 411)) ∧
        (¬ mute → right → (party = false → ¬ bootKey) →
          (¬ opened → exec i s = after s (rejects TK_STAT.NOSTAGE)) ∧
          (opened → known → ¬ same → Does i s fun t => ended q t 3 410) ∧
          (opened → known → same → ¬ other → Does i s fun t => tkOpen t = true ∧ t.tkB TK_STAT.SEALED = true ∧
            t.tkB (if party then TK_STAT.ADONE else TK_STAT.BDONE) = true ∧ still q t) ∧
          (opened → known → same → other → tkFail d = none → (∀ x ∈ tkEntries d, ∃ m : Fin 70, x.1 = Reg.addr (.sys (.tagbud m)) ∨ x.1 = Reg.addr (.sec .tkcfg)) →
            Does i s fun t => tkOpen t = false ∧ t.tk TK_STAT.RESULT = 1 ∧
            t.tkB TK_STAT.DONEF = true ∧ t.f (.sec .tk_cnt) TK_CNT.COMMIT_CNT = min 65535 (d.f (.sec .tk_cnt) TK_CNT.COMMIT_CNT + 1) ∧
            (∀ y ∈ [Reg.sys (.tagbud h), .sec .tkcfg], tkEntries d = [(y.addr, w)] → t.get y = w)) ∧
          (opened → known → same → other → tkFail d = some k → Does i s fun t => ended q t 4 412 ∧ t.tk TK_STAT.FAILJ = k % 16) ∧
          (opened → ¬ known → (if party then d.sec.waitA else d.sec.waitB) = none → Does i s fun t => tkOpen t = true ∧
            t.tkB TK_STAT.SEALED = true ∧ (if party then t.sec.waitA else t.sec.waitB) = some v))) ∧
    (¬ lapsed → Asks by_ s (.sec .tk_clear) →
      let may := b = 4 ∨ b = tkPartyB d ∨ (opened ∧ b = d.tk TK_STAT.OPENER)
      (may → ¬ opened → exec (.tkClear by_ v) s = after s q) ∧
      (may → opened → Does (.tkClear by_ v) s fun t => tkOpen t = false ∧ t.tk TK_STAT.RESULT = 5 ∧ t.tkB TK_STAT.FAILF = true) ∧
      (¬ may → exec (.tkClear by_ v) s = after s wrej)) ∧
    (r ∈ [Reg.sys (.tagbud h), .fc (.flevel c)] → Asks by_ s r → Does (.registerWrite by_ (BitVec.ofNat 32 r.addr) v) s fun t =>
      ∀ y, t.get y = q.get y)

/-- The verifier and the random numbers (R437, R440, R443): a verification started and refused, its result for firmware, and a read of RNG
by S, which gives a free value, and by another requester. Where the spec leaves a choice it rests on the readings of log entries 146,
148. -/
def Obligations.VerifierAndRandom : Prop :=
  ∀ (s : State) (by_ : Requester) (bank : Bool) (ok : Bool × Bool), Up s → s.hst.cmds = [] → s.hst.late = [] →
    let d := s.toDev
    let wrej : Dev := ((asked by_ d).flag (.sec .tk_stat) TK_STAT.WREJ).pulse 415
    (Asks by_ s (.sec .verctl) →
      (by_ ≠ .core 4 → exec (.verifyStart by_ bank) s = after s wrej) ∧
      (by_ = .core 4 → d.sec.ver ≠ none → exec (.verifyStart (.core 4) bank) s = after s (asked by_ d)) ∧
      (by_ = .core 4 → d.sec.ver = none → Does (.verifyStart (.core 4) bank) s fun t => t.b (.sec .verstat) VERSTAT.BUSY = true ∧
        t.b (.sec .verstat) VERSTAT.BANK = bank ∧ ∃ x, t.sec.ver = some x ∧ x.bank = bank ∧ x.for_ = .firmware)) ∧
    (d.sec.ver = none → exec (.verificationEnd ok) s = after s d) ∧
    (d.sec.ver = some { bank := bank, for_ := .firmware } → d.core[(4 : Fin 5)].run = .run → d.b (.sys (.ready 0)) READY0.FLASH = true →
      Does (.verificationEnd ok) s fun t => t.sec.ver = none ∧
        (∃ x ∈ verify d bank false false, t.get (.sec .verstat) = ((0 : Word) |> VERSTAT.RESULT.put x |> VERSTAT.BANK.put (b2n bank))) ∧
        (∀ l, flSee d (if bank then 0x00700000 else 0x00100000) 1 = .ok l → t.get (.sec .verseq) = wordAt l 8)) ∧
    (Asks by_ s (.sec .rng) → hasAsked d by_ (.sec .rng) = false →
      (by_ = .core 4 → Does (.rngRead by_) s fun t => t.sys.rdData = some (Config.freeValue d.free) ∧ t.free = d.free + 1 ∧
        ∀ y, (∀ m, y ≠ .sys (.taguse m)) → t.get y = d.get y) ∧
      (by_ ≠ .core 4 → Does (.rngRead by_) s fun t => t.sys.rdData = some 0 ∧ t.b (.sec .tk_stat) TK_STAT.WREJ = true ∧ 415 ∈ t.fc.fresh))

/-- A step takes the command at the front of the queue and runs it with the rest; on an empty queue one tick of 625 ps passes, which is the
model's own choice (log entry 1). No command stops the machine, which is the model's own choice (log entry 7): every command answers a
next state, with the queue as it was. -/
def Obligations.StepTakesFront : Prop :=
  (∀ (i : Instr) (s : State), step { s with pending := i :: s.pending } = exec i s ∧
     (s.pending = [] → Up s → Calm s (s.now + 120) → (∀ p : Fin 2, s.lnk.port[p].txq = []) → s.hst.late = [] → s.hst.cmds = [] →
       s.hst.posted = [] → (∀ r : Fin 16, s.cap[r].wbPend = false ∧ s.cap[r].snap = none) → step s = after s { s.toDev with now := s.now + 120 })) ∧
  (∀ (i : Instr) (s : State), ∃ t, exec i s = .next t ∧ t.pending = s.pending)

/-- While a device reset is held, a command that is no event of the board changes nothing (R343, R348). Where the spec leaves a choice it
rests on the readings of log entry 114. -/
def Obligations.HeldResetStopsCommands : Prop :=
  ∀ (i : Instr) (s : State), s.sys.rst.isSome = true → board i = false → exec i s = after s s.toDev

/-- After every step the interrupt controller follows its sources (R201). Where the spec leaves a choice it rests on the readings of log
entry 3. -/
def Obligations.SourcesFollowed : Prop :=
  ∀ s t : State, Followed s.toDev → step s = .next t → Followed t.toDev

/-- A step keeps the canonical form of the memory: strictly rising addresses, and no entry equal to what an unlisted address reads as
(R310, R312). -/
def Obligations.MemoryStaysCanonical : Prop :=
  ∀ s t : State, s.mem.wf = true → step s = .next t → t.mem.wf = true

/-- No step turns both switches of a leg on: where none has both on, none has after it (R19, R66, R235). -/
def Obligations.NeverBothSwitches : Prop :=
  ∀ s t : State, (∀ n : Fin 96, ¬ (s.leg[n].hi.on = true ∧ s.leg[n].lo.on = true)) → step s = .next t →
    ∀ n : Fin 96, ¬ (t.leg[n].hi.on = true ∧ t.leg[n].lo.on = true)

/-- What reset leaves (R347, R348, R362): the register file empty of anything but reset values, RSTCAUSE naming the power-on reset, CORERUN
with the S bit, every core held with a PSW of 8 and cleared registers, the clamps of each loop engine's banks at the values of R153,
which the scrub of R317 then clears, the queue empty, and the sources followed. Where the spec leaves a choice it rests on the readings
of log entries 111, 112. -/
def Obligations.ResetState : Prop :=
  let s := State.reset
  s.pending = [] ∧ Followed s.toDev ∧ (∀ r : Reg, s.get r = r.reset) ∧ s.get (.sys .rstcause) = 1 ∧ s.get (.sys .corerun) = 0x10 ∧
    s.sys.rst = none ∧
    (∀ c : Fin 5, s.core[c].run = .held ∧ s.core[c].psw = 8 ∧ s.core[c].mh = 0 ∧ s.core[c].ml = 0 ∧ s.core[c].dq = 0 ∧ s.core[c].dm = 0 ∧ s.core[c].fpsr = 0 ∧ s.core[c].fpxpc = 0 ∧ ∀ x : Fin 16, s.core[c].w[x] = 0) ∧
    (∀ n : Fin 96, s.leg[n].hi.on = false ∧ s.leg[n].lo.on = false) ∧
    (∀ r : Reg, RegFile.get s.regs r = r.reset) ∧ s.mem.wf = true ∧
    (∀ n : Fin 64, ∀ x ∈ [(0x20, 0xC0000000), (0x24, 0x3FFFFFFF), (0x60, 0xC0000000), (0x64, 0x3FFFFFFF)],
      eccDecode (memGet s.toDev (leAddr n x.1)) = .clean ∧ eccData (memGet s.toDev (leAddr n x.1)) = BitVec.ofNat 32 x.2)

/-- The register map (R12): every register is 32 bits wide, lies on a 4-byte boundary of the device region and is found at its address, and
no two lie at the same. -/
def Obligations.RegisterMap : Prop :=
  ∀ (r : Reg) (d : Dev), ∃ v : BitVec 32, d.get r = v ∧ 0x40000000 ≤ r.addr ∧ r.addr ≤ 0x4FFFFFFF ∧ r.addr % 4 = 0 ∧
    Reg.ofAddr r.addr = some r ∧ ∀ q : Reg, q.addr = r.addr → q = r

/-- The plain write (R13, R14): it changes exactly the bits whose access code lets it, a TK field never. -/
def Obligations.PlainWrite : Prop :=
  ∀ (r : Reg) (d : Dev) (v : Word) (k : Nat), k < 32 →
    let bit (w : Word) : Bool := w.getLsbD k
    let new := bit ((d.wr r v).get r)
    (bit r.access.rw = true → new = bit v) ∧
    (bit r.access.w1c = true → new = (bit (d.get r) && !bit v)) ∧
    (bit r.access.w1s = true → new = (bit (d.get r) || bit v)) ∧
    (bit (r.access.rw ||| r.access.w1c ||| r.access.w1s) = false → new = bit (d.get r)) ∧
    (bit r.access.tk = true → new = bit (d.get r)) ∧
    (∀ q, q ≠ r → (d.wr r v).get q = d.get q)

/-- The rule of the tag budgets (R45): the write by which the two parties' commit would complete fails where the budgets it leaves would
sum to more than 4,096, or where it would set the budget of S below 16; every budget is then as it was. -/
def Obligations.BudgetRule : Prop :=
  ∀ (s : State) (c : Fin 5) (party : Bool) (v : Word),
    let d := s.toDev
    let i : Instr := if party then .tkCommitA (.core c) v else .tkCommitB (.core c) v
    let staged (h : Fin 70) : Option Word := ((tkEntries d).find? fun x => x.1 == Reg.addr (.sys (.tagbud h))).map (·.2)
    let budget (h : Fin 70) : Nat := TAGBUD.BUDGET.get ((staged h).getD (d.get (.sys (.tagbud h))))
    let budgets (t : Dev) : Prop := ∀ h, t.get (.sys (.tagbud h)) = d.get (.sys (.tagbud h))
    let lapsed := d.sec.firstAt.getD d.sec.entryAt + 25000 * tuRef ≤ d.now
    Asks (.core c) s (.sec (if party then .tk_commit_a else .tk_commit_b)) → tkOpen d = true → ¬ lapsed → d.tkB TK_STAT.NBUSY = false →
    v.toNat % 65536 = d.f (.sec .tk_nonce) TK_NONCE.NONCE → c.val = (if party then 4 else tkPartyB d) →
    d.tkB (if party then TK_STAT.BDONE else TK_STAT.ADONE) = true → (party = false → tkBootKey d = false) →
    d.core[c].run ≠ .held → d.core[c].run ≠ .halted → d.core[c].run ≠ .locked → d.core[c].parked = false →
    (c = 4 → d.b (.fc .fsum) FSUM.LOCKDOWN = false) →
    ((∃ h, staged h ≠ none) ∧ 4096 < ((List.finRange 70).map budget).sum) ∨ (staged 4 ≠ none ∧ budget 4 < 16) →
    Does i s fun t => tkOpen t = false ∧ t.tk TK_STAT.RESULT = 4 ∧ budgets t
end

