-- ==== Sys2Proof/Laws/Bits.lean ====
section
/-!
SUPPORT. Fields of a word: what a field reads as after it, or another, is replaced.
-/
set_option Elab.async false
namespace Sys2Proof

/-- A field that lies in a word. -/
def Fld.ok (f : Fld) : Bool := decide (f.lo ≤ f.hi ∧ f.hi < 32)

theorem Fld.getLsbD_mask (f : Fld) (i : Nat) :
    f.mask.getLsbD i = (decide (i < 32) && (decide (f.lo ≤ i) && decide (i < f.lo + f.width))) := by
  simp only [Fld.mask, BitVec.getLsbD_shiftLeft, BitVec.getLsbD_ofNat, Nat.testBit_two_pow_sub_one]
  by_cases hi : i < 32
  · by_cases hl : f.lo ≤ i
    · have h1 : i - f.lo < 32 := by omega
      have h2 : ¬i < f.lo := by omega
      have h3 : (i - f.lo < f.width) = (i < f.lo + f.width) := by simp only [eq_iff_iff]; omega
      simp only [hi, hl, h1, h2, h3, decide_true, decide_false, Bool.not_false, Bool.true_and]
    · have h2 : i < f.lo := by omega
      simp only [hl, h2, decide_true, decide_false, Bool.not_true, Bool.and_false, Bool.false_and]
  · simp only [hi, decide_false, Bool.false_and]

theorem Fld.getLsbD_put (f : Fld) (v : Nat) (w : Word) (i : Nat) :
    (f.put v w).getLsbD i =
      (decide (i < 32) && if f.lo ≤ i ∧ i < f.lo + f.width then v.testBit (i - f.lo) else w.getLsbD i) := by
  simp only [Fld.put, BitVec.getLsbD_or, BitVec.getLsbD_and, BitVec.getLsbD_not, Fld.getLsbD_mask, BitVec.getLsbD_shiftLeft,
    BitVec.getLsbD_ofNat]
  by_cases hi : i < 32
  · by_cases h : f.lo ≤ i ∧ i < f.lo + f.width
    · have h1 : i - f.lo < 32 := by omega
      have h2 : ¬i < f.lo := by omega
      simp only [hi, h.1, h.2, h1, h2, and_self, if_true, decide_true, decide_false, Bool.not_true, Bool.not_false,
        Bool.and_false, Bool.false_or, Bool.true_and, Bool.and_true]
    · have h1 : (decide (f.lo ≤ i) && decide (i < f.lo + f.width)) = false := by
        simp only [Bool.and_eq_false_iff, decide_eq_false_iff_not]
        omega
      simp only [hi, h, h1, if_false, decide_true, Bool.and_false, Bool.not_false, Bool.or_false, Bool.true_and, Bool.and_true]
  · have h0 : w.getLsbD i = false := BitVec.getLsbD_of_ge _ _ (Nat.le_of_not_lt hi)
    simp only [hi, h0, decide_false, Bool.false_and, Bool.or_false]

theorem Fld.testBit_get (f : Fld) (w : Word) (i : Nat) :
    (f.get w).testBit i = (decide (i < f.width) && w.getLsbD (f.lo + i)) := by
  simp [Fld.get, Nat.testBit_mod_two_pow, Nat.testBit_div_two_pow, BitVec.testBit_toNat, Nat.add_comm]

/-- A field reads as what it was replaced by. -/
theorem Fld.get_put {f : Fld} (h : f.ok = true) (v : Nat) (w : Word) : f.get (f.put v w) = v % 2 ^ f.width := by
  apply Nat.eq_of_testBit_eq
  intro i
  rw [Fld.testBit_get, Nat.testBit_mod_two_pow, Fld.getLsbD_put]
  simp only [Fld.ok, decide_eq_true_eq] at h
  by_cases hi : i < f.width
  · have : f.lo + i < 32 := by simp only [Fld.width] at hi; omega
    simp [hi, this]
  · simp [hi]

/-- The lowest bit of a field that was replaced. -/
theorem Fld.bit_put {f : Fld} (h : f.ok = true) (v : Nat) (w : Word) : f.bit (f.put v w) = v.testBit 0 := by
  simp only [Fld.ok, decide_eq_true_eq] at h
  have h1 : f.lo < 32 := by omega
  have h2 : f.lo < f.lo + f.width := by simp only [Fld.width]; omega
  simp only [Fld.bit, Fld.getLsbD_put, h1, h2, Nat.le_refl, and_self, if_true, decide_true, Bool.true_and, Nat.sub_self]

/-- Two fields with no bit in common. -/
def Fld.apart (f g : Fld) : Bool := decide (f.hi < g.lo ∨ g.hi < f.lo)

/-- A field keeps its value when one apart from it is replaced. -/
theorem Fld.get_put_apart {f g : Fld} (hf : f.ok = true) (hg : g.ok = true) (h : f.apart g = true) (v : Nat) (w : Word) :
    f.get (g.put v w) = f.get w := by
  simp only [Fld.ok, Fld.apart, decide_eq_true_eq] at hf hg h
  apply Nat.eq_of_testBit_eq
  intro i
  rw [Fld.testBit_get, Fld.testBit_get, Fld.getLsbD_put]
  by_cases hi : i < f.width
  · have h1 : f.lo + i < 32 := by simp only [Fld.width] at hi; omega
    have h2 : ¬(g.lo ≤ f.lo + i ∧ f.lo + i < g.lo + g.width) := by simp only [Fld.width] at hi ⊢; omega
    simp [hi, h1, h2]
  · simp [hi]

theorem Fld.bit_put_apart {f g : Fld} (hf : f.ok = true) (hg : g.ok = true) (h : f.apart g = true) (v : Nat) (w : Word) :
    f.bit (g.put v w) = f.bit w := by
  simp only [Fld.ok, Fld.apart, decide_eq_true_eq] at hf hg h
  have h1 : f.lo < 32 := by omega
  have h2 : ¬(g.lo ≤ f.lo ∧ f.lo < g.lo + g.width) := by simp only [Fld.width]; omega
  simp only [Fld.bit, Fld.getLsbD_put, h1, h2, if_false, decide_true, Bool.true_and]

end Sys2Proof
end

