-- ==== Sys2Proof/Laws/State.lean ====
section
/-!
SUPPORT. What each named update of the device leaves as it was: one lemma for each update and part.
-/
set_option Elab.async false
namespace Sys2Proof.Machine
open Sys2Proof

@[simp] theorem Dev.leU_now (d : Dev) (n : Fin 64) (g : LeSt → LeSt) : (d.leU n g).now = d.now := rfl
@[simp] theorem Dev.leU_free (d : Dev) (n : Fin 64) (g : LeSt → LeSt) : (d.leU n g).free = d.free := rfl
@[simp] theorem Dev.leU_regs (d : Dev) (n : Fin 64) (g : LeSt → LeSt) : (d.leU n g).regs = d.regs := rfl
@[simp] theorem Dev.leU_sys (d : Dev) (n : Fin 64) (g : LeSt → LeSt) : (d.leU n g).sys = d.sys := rfl
@[simp] theorem Dev.leU_leg (d : Dev) (n : Fin 64) (g : LeSt → LeSt) : (d.leU n g).leg = d.leg := rfl
@[simp] theorem Dev.leU_tb (d : Dev) (n : Fin 64) (g : LeSt → LeSt) : (d.leU n g).tb = d.tb := rfl
@[simp] theorem Dev.leU_adc (d : Dev) (n : Fin 64) (g : LeSt → LeSt) : (d.leU n g).adc = d.adc := rfl
@[simp] theorem Dev.leU_cmp (d : Dev) (n : Fin 64) (g : LeSt → LeSt) : (d.leU n g).cmp = d.cmp := rfl
@[simp] theorem Dev.leU_pos (d : Dev) (n : Fin 64) (g : LeSt → LeSt) : (d.leU n g).pos = d.pos := rfl
@[simp] theorem Dev.leU_cap (d : Dev) (n : Fin 64) (g : LeSt → LeSt) : (d.leU n g).cap = d.cap := rfl
@[simp] theorem Dev.leU_mem (d : Dev) (n : Fin 64) (g : LeSt → LeSt) : (d.leU n g).mem = d.mem := rfl
@[simp] theorem Dev.leU_core (d : Dev) (n : Fin 64) (g : LeSt → LeSt) : (d.leU n g).core = d.core := rfl
@[simp] theorem Dev.leU_fab (d : Dev) (n : Fin 64) (g : LeSt → LeSt) : (d.leU n g).fab = d.fab := rfl
@[simp] theorem Dev.leU_ic (d : Dev) (n : Fin 64) (g : LeSt → LeSt) : (d.leU n g).ic = d.ic := rfl
@[simp] theorem Dev.leU_fc (d : Dev) (n : Fin 64) (g : LeSt → LeSt) : (d.leU n g).fc = d.fc := rfl
@[simp] theorem Dev.leU_lnk (d : Dev) (n : Fin 64) (g : LeSt → LeSt) : (d.leU n g).lnk = d.lnk := rfl
@[simp] theorem Dev.leU_fl (d : Dev) (n : Fin 64) (g : LeSt → LeSt) : (d.leU n g).fl = d.fl := rfl
@[simp] theorem Dev.leU_sec (d : Dev) (n : Fin 64) (g : LeSt → LeSt) : (d.leU n g).sec = d.sec := rfl
@[simp] theorem Dev.leU_hst (d : Dev) (n : Fin 64) (g : LeSt → LeSt) : (d.leU n g).hst = d.hst := rfl
@[simp] theorem Dev.leU_jtag (d : Dev) (n : Fin 64) (g : LeSt → LeSt) : (d.leU n g).jtag = d.jtag := rfl
@[simp] theorem Dev.wdU_now (d : Dev) (n : Fin 5) (g : WdSt → WdSt) : (d.wdU n g).now = d.now := rfl
@[simp] theorem Dev.wdU_free (d : Dev) (n : Fin 5) (g : WdSt → WdSt) : (d.wdU n g).free = d.free := rfl
@[simp] theorem Dev.wdU_regs (d : Dev) (n : Fin 5) (g : WdSt → WdSt) : (d.wdU n g).regs = d.regs := rfl
@[simp] theorem Dev.wdU_sys (d : Dev) (n : Fin 5) (g : WdSt → WdSt) : (d.wdU n g).sys = d.sys := rfl
@[simp] theorem Dev.wdU_leg (d : Dev) (n : Fin 5) (g : WdSt → WdSt) : (d.wdU n g).leg = d.leg := rfl
@[simp] theorem Dev.wdU_tb (d : Dev) (n : Fin 5) (g : WdSt → WdSt) : (d.wdU n g).tb = d.tb := rfl
@[simp] theorem Dev.wdU_adc (d : Dev) (n : Fin 5) (g : WdSt → WdSt) : (d.wdU n g).adc = d.adc := rfl
@[simp] theorem Dev.wdU_le (d : Dev) (n : Fin 5) (g : WdSt → WdSt) : (d.wdU n g).le = d.le := rfl
@[simp] theorem Dev.wdU_cmp (d : Dev) (n : Fin 5) (g : WdSt → WdSt) : (d.wdU n g).cmp = d.cmp := rfl
@[simp] theorem Dev.wdU_pos (d : Dev) (n : Fin 5) (g : WdSt → WdSt) : (d.wdU n g).pos = d.pos := rfl
@[simp] theorem Dev.wdU_cap (d : Dev) (n : Fin 5) (g : WdSt → WdSt) : (d.wdU n g).cap = d.cap := rfl
@[simp] theorem Dev.wdU_mem (d : Dev) (n : Fin 5) (g : WdSt → WdSt) : (d.wdU n g).mem = d.mem := rfl
@[simp] theorem Dev.wdU_core (d : Dev) (n : Fin 5) (g : WdSt → WdSt) : (d.wdU n g).core = d.core := rfl
@[simp] theorem Dev.wdU_fab (d : Dev) (n : Fin 5) (g : WdSt → WdSt) : (d.wdU n g).fab = d.fab := rfl
@[simp] theorem Dev.wdU_ic (d : Dev) (n : Fin 5) (g : WdSt → WdSt) : (d.wdU n g).ic = d.ic := rfl
@[simp] theorem Dev.wdU_lnk (d : Dev) (n : Fin 5) (g : WdSt → WdSt) : (d.wdU n g).lnk = d.lnk := rfl
@[simp] theorem Dev.wdU_fl (d : Dev) (n : Fin 5) (g : WdSt → WdSt) : (d.wdU n g).fl = d.fl := rfl
@[simp] theorem Dev.wdU_sec (d : Dev) (n : Fin 5) (g : WdSt → WdSt) : (d.wdU n g).sec = d.sec := rfl
@[simp] theorem Dev.wdU_hst (d : Dev) (n : Fin 5) (g : WdSt → WdSt) : (d.wdU n g).hst = d.hst := rfl
@[simp] theorem Dev.wdU_jtag (d : Dev) (n : Fin 5) (g : WdSt → WdSt) : (d.wdU n g).jtag = d.jtag := rfl
@[simp] theorem Dev.cmpU_now (d : Dev) (n : Fin 64) (g : CmpSt → CmpSt) : (d.cmpU n g).now = d.now := rfl
@[simp] theorem Dev.cmpU_free (d : Dev) (n : Fin 64) (g : CmpSt → CmpSt) : (d.cmpU n g).free = d.free := rfl
@[simp] theorem Dev.cmpU_regs (d : Dev) (n : Fin 64) (g : CmpSt → CmpSt) : (d.cmpU n g).regs = d.regs := rfl
@[simp] theorem Dev.cmpU_sys (d : Dev) (n : Fin 64) (g : CmpSt → CmpSt) : (d.cmpU n g).sys = d.sys := rfl
@[simp] theorem Dev.cmpU_leg (d : Dev) (n : Fin 64) (g : CmpSt → CmpSt) : (d.cmpU n g).leg = d.leg := rfl
@[simp] theorem Dev.cmpU_tb (d : Dev) (n : Fin 64) (g : CmpSt → CmpSt) : (d.cmpU n g).tb = d.tb := rfl
@[simp] theorem Dev.cmpU_adc (d : Dev) (n : Fin 64) (g : CmpSt → CmpSt) : (d.cmpU n g).adc = d.adc := rfl
@[simp] theorem Dev.cmpU_le (d : Dev) (n : Fin 64) (g : CmpSt → CmpSt) : (d.cmpU n g).le = d.le := rfl
@[simp] theorem Dev.cmpU_pos (d : Dev) (n : Fin 64) (g : CmpSt → CmpSt) : (d.cmpU n g).pos = d.pos := rfl
@[simp] theorem Dev.cmpU_cap (d : Dev) (n : Fin 64) (g : CmpSt → CmpSt) : (d.cmpU n g).cap = d.cap := rfl
@[simp] theorem Dev.cmpU_mem (d : Dev) (n : Fin 64) (g : CmpSt → CmpSt) : (d.cmpU n g).mem = d.mem := rfl
@[simp] theorem Dev.cmpU_core (d : Dev) (n : Fin 64) (g : CmpSt → CmpSt) : (d.cmpU n g).core = d.core := rfl
@[simp] theorem Dev.cmpU_fab (d : Dev) (n : Fin 64) (g : CmpSt → CmpSt) : (d.cmpU n g).fab = d.fab := rfl
@[simp] theorem Dev.cmpU_ic (d : Dev) (n : Fin 64) (g : CmpSt → CmpSt) : (d.cmpU n g).ic = d.ic := rfl
@[simp] theorem Dev.cmpU_fc (d : Dev) (n : Fin 64) (g : CmpSt → CmpSt) : (d.cmpU n g).fc = d.fc := rfl
@[simp] theorem Dev.cmpU_lnk (d : Dev) (n : Fin 64) (g : CmpSt → CmpSt) : (d.cmpU n g).lnk = d.lnk := rfl
@[simp] theorem Dev.cmpU_fl (d : Dev) (n : Fin 64) (g : CmpSt → CmpSt) : (d.cmpU n g).fl = d.fl := rfl
@[simp] theorem Dev.cmpU_sec (d : Dev) (n : Fin 64) (g : CmpSt → CmpSt) : (d.cmpU n g).sec = d.sec := rfl
@[simp] theorem Dev.cmpU_hst (d : Dev) (n : Fin 64) (g : CmpSt → CmpSt) : (d.cmpU n g).hst = d.hst := rfl
@[simp] theorem Dev.cmpU_jtag (d : Dev) (n : Fin 64) (g : CmpSt → CmpSt) : (d.cmpU n g).jtag = d.jtag := rfl
@[simp] theorem Dev.capU_now (d : Dev) (r : Fin 16) (g : CapSt → CapSt) : (d.capU r g).now = d.now := rfl
@[simp] theorem Dev.capU_free (d : Dev) (r : Fin 16) (g : CapSt → CapSt) : (d.capU r g).free = d.free := rfl
@[simp] theorem Dev.capU_regs (d : Dev) (r : Fin 16) (g : CapSt → CapSt) : (d.capU r g).regs = d.regs := rfl
@[simp] theorem Dev.capU_sys (d : Dev) (r : Fin 16) (g : CapSt → CapSt) : (d.capU r g).sys = d.sys := rfl
@[simp] theorem Dev.capU_leg (d : Dev) (r : Fin 16) (g : CapSt → CapSt) : (d.capU r g).leg = d.leg := rfl
@[simp] theorem Dev.capU_tb (d : Dev) (r : Fin 16) (g : CapSt → CapSt) : (d.capU r g).tb = d.tb := rfl
@[simp] theorem Dev.capU_adc (d : Dev) (r : Fin 16) (g : CapSt → CapSt) : (d.capU r g).adc = d.adc := rfl
@[simp] theorem Dev.capU_le (d : Dev) (r : Fin 16) (g : CapSt → CapSt) : (d.capU r g).le = d.le := rfl
@[simp] theorem Dev.capU_cmp (d : Dev) (r : Fin 16) (g : CapSt → CapSt) : (d.capU r g).cmp = d.cmp := rfl
@[simp] theorem Dev.capU_pos (d : Dev) (r : Fin 16) (g : CapSt → CapSt) : (d.capU r g).pos = d.pos := rfl
@[simp] theorem Dev.capU_mem (d : Dev) (r : Fin 16) (g : CapSt → CapSt) : (d.capU r g).mem = d.mem := rfl
@[simp] theorem Dev.capU_core (d : Dev) (r : Fin 16) (g : CapSt → CapSt) : (d.capU r g).core = d.core := rfl
@[simp] theorem Dev.capU_fab (d : Dev) (r : Fin 16) (g : CapSt → CapSt) : (d.capU r g).fab = d.fab := rfl
@[simp] theorem Dev.capU_ic (d : Dev) (r : Fin 16) (g : CapSt → CapSt) : (d.capU r g).ic = d.ic := rfl
@[simp] theorem Dev.capU_fc (d : Dev) (r : Fin 16) (g : CapSt → CapSt) : (d.capU r g).fc = d.fc := rfl
@[simp] theorem Dev.capU_lnk (d : Dev) (r : Fin 16) (g : CapSt → CapSt) : (d.capU r g).lnk = d.lnk := rfl
@[simp] theorem Dev.capU_fl (d : Dev) (r : Fin 16) (g : CapSt → CapSt) : (d.capU r g).fl = d.fl := rfl
@[simp] theorem Dev.capU_sec (d : Dev) (r : Fin 16) (g : CapSt → CapSt) : (d.capU r g).sec = d.sec := rfl
@[simp] theorem Dev.capU_hst (d : Dev) (r : Fin 16) (g : CapSt → CapSt) : (d.capU r g).hst = d.hst := rfl
@[simp] theorem Dev.capU_jtag (d : Dev) (r : Fin 16) (g : CapSt → CapSt) : (d.capU r g).jtag = d.jtag := rfl
@[simp] theorem Dev.send_now (d : Dev) (o : Outbound) : (d.send o).now = d.now := rfl
@[simp] theorem Dev.send_free (d : Dev) (o : Outbound) : (d.send o).free = d.free := rfl
@[simp] theorem Dev.send_regs (d : Dev) (o : Outbound) : (d.send o).regs = d.regs := rfl
@[simp] theorem Dev.send_sys (d : Dev) (o : Outbound) : (d.send o).sys = d.sys := rfl
@[simp] theorem Dev.send_leg (d : Dev) (o : Outbound) : (d.send o).leg = d.leg := rfl
@[simp] theorem Dev.send_tb (d : Dev) (o : Outbound) : (d.send o).tb = d.tb := rfl
@[simp] theorem Dev.send_adc (d : Dev) (o : Outbound) : (d.send o).adc = d.adc := rfl
@[simp] theorem Dev.send_le (d : Dev) (o : Outbound) : (d.send o).le = d.le := rfl
@[simp] theorem Dev.send_cmp (d : Dev) (o : Outbound) : (d.send o).cmp = d.cmp := rfl
@[simp] theorem Dev.send_pos (d : Dev) (o : Outbound) : (d.send o).pos = d.pos := rfl
@[simp] theorem Dev.send_cap (d : Dev) (o : Outbound) : (d.send o).cap = d.cap := rfl
@[simp] theorem Dev.send_mem (d : Dev) (o : Outbound) : (d.send o).mem = d.mem := rfl
@[simp] theorem Dev.send_core (d : Dev) (o : Outbound) : (d.send o).core = d.core := rfl
@[simp] theorem Dev.send_fab (d : Dev) (o : Outbound) : (d.send o).fab = d.fab := rfl
@[simp] theorem Dev.send_ic (d : Dev) (o : Outbound) : (d.send o).ic = d.ic := rfl
@[simp] theorem Dev.send_fc (d : Dev) (o : Outbound) : (d.send o).fc = d.fc := rfl
@[simp] theorem Dev.send_lnk (d : Dev) (o : Outbound) : (d.send o).lnk = d.lnk := rfl
@[simp] theorem Dev.send_fl (d : Dev) (o : Outbound) : (d.send o).fl = d.fl := rfl
@[simp] theorem Dev.send_sec (d : Dev) (o : Outbound) : (d.send o).sec = d.sec := rfl
@[simp] theorem Dev.send_jtag (d : Dev) (o : Outbound) : (d.send o).jtag = d.jtag := rfl
@[simp] theorem Dev.tagTake_now (d : Dev) (h : Fin 70) (n : Nat) : (d.tagTake h n).now = d.now := by
  rfl
@[simp] theorem Dev.tagTake_free (d : Dev) (h : Fin 70) (n : Nat) : (d.tagTake h n).free = d.free := by
  rfl
@[simp] theorem Dev.tagTake_leg (d : Dev) (h : Fin 70) (n : Nat) : (d.tagTake h n).leg = d.leg := by
  rfl
@[simp] theorem Dev.tagTake_tb (d : Dev) (h : Fin 70) (n : Nat) : (d.tagTake h n).tb = d.tb := by
  rfl
@[simp] theorem Dev.tagTake_adc (d : Dev) (h : Fin 70) (n : Nat) : (d.tagTake h n).adc = d.adc := by
  rfl
@[simp] theorem Dev.tagTake_le (d : Dev) (h : Fin 70) (n : Nat) : (d.tagTake h n).le = d.le := by
  rfl
@[simp] theorem Dev.tagTake_cmp (d : Dev) (h : Fin 70) (n : Nat) : (d.tagTake h n).cmp = d.cmp := by
  rfl
@[simp] theorem Dev.tagTake_pos (d : Dev) (h : Fin 70) (n : Nat) : (d.tagTake h n).pos = d.pos := by
  rfl
@[simp] theorem Dev.tagTake_cap (d : Dev) (h : Fin 70) (n : Nat) : (d.tagTake h n).cap = d.cap := by
  rfl
@[simp] theorem Dev.tagTake_mem (d : Dev) (h : Fin 70) (n : Nat) : (d.tagTake h n).mem = d.mem := by
  rfl
@[simp] theorem Dev.tagTake_core (d : Dev) (h : Fin 70) (n : Nat) : (d.tagTake h n).core = d.core := by
  rfl
@[simp] theorem Dev.tagTake_fab (d : Dev) (h : Fin 70) (n : Nat) : (d.tagTake h n).fab = d.fab := by
  rfl
@[simp] theorem Dev.tagTake_ic (d : Dev) (h : Fin 70) (n : Nat) : (d.tagTake h n).ic = d.ic := by
  rfl
@[simp] theorem Dev.tagTake_fc (d : Dev) (h : Fin 70) (n : Nat) : (d.tagTake h n).fc = d.fc := by
  rfl
@[simp] theorem Dev.tagTake_lnk (d : Dev) (h : Fin 70) (n : Nat) : (d.tagTake h n).lnk = d.lnk := by
  rfl
@[simp] theorem Dev.tagTake_fl (d : Dev) (h : Fin 70) (n : Nat) : (d.tagTake h n).fl = d.fl := by
  rfl
@[simp] theorem Dev.tagTake_sec (d : Dev) (h : Fin 70) (n : Nat) : (d.tagTake h n).sec = d.sec := by
  rfl
@[simp] theorem Dev.tagTake_hst (d : Dev) (h : Fin 70) (n : Nat) : (d.tagTake h n).hst = d.hst := by
  rfl
@[simp] theorem Dev.tagTake_jtag (d : Dev) (h : Fin 70) (n : Nat) : (d.tagTake h n).jtag = d.jtag := by
  rfl
@[simp] theorem Dev.tagBack_now (d : Dev) (h : Fin 70) (n : Nat) : (d.tagBack h n).now = d.now := rfl
@[simp] theorem Dev.tagBack_free (d : Dev) (h : Fin 70) (n : Nat) : (d.tagBack h n).free = d.free := rfl
@[simp] theorem Dev.tagBack_regs (d : Dev) (h : Fin 70) (n : Nat) : (d.tagBack h n).regs = d.regs := rfl
@[simp] theorem Dev.tagBack_leg (d : Dev) (h : Fin 70) (n : Nat) : (d.tagBack h n).leg = d.leg := rfl
@[simp] theorem Dev.tagBack_tb (d : Dev) (h : Fin 70) (n : Nat) : (d.tagBack h n).tb = d.tb := rfl
@[simp] theorem Dev.tagBack_adc (d : Dev) (h : Fin 70) (n : Nat) : (d.tagBack h n).adc = d.adc := rfl
@[simp] theorem Dev.tagBack_le (d : Dev) (h : Fin 70) (n : Nat) : (d.tagBack h n).le = d.le := rfl
@[simp] theorem Dev.tagBack_cmp (d : Dev) (h : Fin 70) (n : Nat) : (d.tagBack h n).cmp = d.cmp := rfl
@[simp] theorem Dev.tagBack_pos (d : Dev) (h : Fin 70) (n : Nat) : (d.tagBack h n).pos = d.pos := rfl
@[simp] theorem Dev.tagBack_cap (d : Dev) (h : Fin 70) (n : Nat) : (d.tagBack h n).cap = d.cap := rfl
@[simp] theorem Dev.tagBack_mem (d : Dev) (h : Fin 70) (n : Nat) : (d.tagBack h n).mem = d.mem := rfl
@[simp] theorem Dev.tagBack_core (d : Dev) (h : Fin 70) (n : Nat) : (d.tagBack h n).core = d.core := rfl
@[simp] theorem Dev.tagBack_fab (d : Dev) (h : Fin 70) (n : Nat) : (d.tagBack h n).fab = d.fab := rfl
@[simp] theorem Dev.tagBack_ic (d : Dev) (h : Fin 70) (n : Nat) : (d.tagBack h n).ic = d.ic := rfl
@[simp] theorem Dev.tagBack_fc (d : Dev) (h : Fin 70) (n : Nat) : (d.tagBack h n).fc = d.fc := rfl
@[simp] theorem Dev.tagBack_lnk (d : Dev) (h : Fin 70) (n : Nat) : (d.tagBack h n).lnk = d.lnk := rfl
@[simp] theorem Dev.tagBack_fl (d : Dev) (h : Fin 70) (n : Nat) : (d.tagBack h n).fl = d.fl := rfl
@[simp] theorem Dev.tagBack_sec (d : Dev) (h : Fin 70) (n : Nat) : (d.tagBack h n).sec = d.sec := rfl
@[simp] theorem Dev.tagBack_hst (d : Dev) (h : Fin 70) (n : Nat) : (d.tagBack h n).hst = d.hst := rfl
@[simp] theorem Dev.tagBack_jtag (d : Dev) (h : Fin 70) (n : Nat) : (d.tagBack h n).jtag = d.jtag := rfl
@[simp] theorem Dev.chanU_now (d : Dev) (c : Fin 256) (g : ChanSt → ChanSt) : (d.chanU c g).now = d.now := rfl
@[simp] theorem Dev.chanU_free (d : Dev) (c : Fin 256) (g : ChanSt → ChanSt) : (d.chanU c g).free = d.free := rfl
@[simp] theorem Dev.chanU_regs (d : Dev) (c : Fin 256) (g : ChanSt → ChanSt) : (d.chanU c g).regs = d.regs := rfl
@[simp] theorem Dev.chanU_sys (d : Dev) (c : Fin 256) (g : ChanSt → ChanSt) : (d.chanU c g).sys = d.sys := rfl
@[simp] theorem Dev.chanU_leg (d : Dev) (c : Fin 256) (g : ChanSt → ChanSt) : (d.chanU c g).leg = d.leg := rfl
@[simp] theorem Dev.chanU_tb (d : Dev) (c : Fin 256) (g : ChanSt → ChanSt) : (d.chanU c g).tb = d.tb := rfl
@[simp] theorem Dev.chanU_adc (d : Dev) (c : Fin 256) (g : ChanSt → ChanSt) : (d.chanU c g).adc = d.adc := rfl
@[simp] theorem Dev.chanU_le (d : Dev) (c : Fin 256) (g : ChanSt → ChanSt) : (d.chanU c g).le = d.le := rfl
@[simp] theorem Dev.chanU_cmp (d : Dev) (c : Fin 256) (g : ChanSt → ChanSt) : (d.chanU c g).cmp = d.cmp := rfl
@[simp] theorem Dev.chanU_pos (d : Dev) (c : Fin 256) (g : ChanSt → ChanSt) : (d.chanU c g).pos = d.pos := rfl
@[simp] theorem Dev.chanU_cap (d : Dev) (c : Fin 256) (g : ChanSt → ChanSt) : (d.chanU c g).cap = d.cap := rfl
@[simp] theorem Dev.chanU_mem (d : Dev) (c : Fin 256) (g : ChanSt → ChanSt) : (d.chanU c g).mem = d.mem := rfl
@[simp] theorem Dev.chanU_core (d : Dev) (c : Fin 256) (g : ChanSt → ChanSt) : (d.chanU c g).core = d.core := rfl
@[simp] theorem Dev.chanU_ic (d : Dev) (c : Fin 256) (g : ChanSt → ChanSt) : (d.chanU c g).ic = d.ic := rfl
@[simp] theorem Dev.chanU_fc (d : Dev) (c : Fin 256) (g : ChanSt → ChanSt) : (d.chanU c g).fc = d.fc := rfl
@[simp] theorem Dev.chanU_lnk (d : Dev) (c : Fin 256) (g : ChanSt → ChanSt) : (d.chanU c g).lnk = d.lnk := rfl
@[simp] theorem Dev.chanU_fl (d : Dev) (c : Fin 256) (g : ChanSt → ChanSt) : (d.chanU c g).fl = d.fl := rfl
@[simp] theorem Dev.chanU_sec (d : Dev) (c : Fin 256) (g : ChanSt → ChanSt) : (d.chanU c g).sec = d.sec := rfl
@[simp] theorem Dev.chanU_hst (d : Dev) (c : Fin 256) (g : ChanSt → ChanSt) : (d.chanU c g).hst = d.hst := rfl
@[simp] theorem Dev.chanU_jtag (d : Dev) (c : Fin 256) (g : ChanSt → ChanSt) : (d.chanU c g).jtag = d.jtag := rfl
@[simp] theorem Dev.secU_now (d : Dev) (g : SecSt → SecSt) : (d.secU g).now = d.now := rfl
@[simp] theorem Dev.secU_free (d : Dev) (g : SecSt → SecSt) : (d.secU g).free = d.free := rfl
@[simp] theorem Dev.secU_regs (d : Dev) (g : SecSt → SecSt) : (d.secU g).regs = d.regs := rfl
@[simp] theorem Dev.secU_sys (d : Dev) (g : SecSt → SecSt) : (d.secU g).sys = d.sys := rfl
@[simp] theorem Dev.secU_leg (d : Dev) (g : SecSt → SecSt) : (d.secU g).leg = d.leg := rfl
@[simp] theorem Dev.secU_tb (d : Dev) (g : SecSt → SecSt) : (d.secU g).tb = d.tb := rfl
@[simp] theorem Dev.secU_adc (d : Dev) (g : SecSt → SecSt) : (d.secU g).adc = d.adc := rfl
@[simp] theorem Dev.secU_le (d : Dev) (g : SecSt → SecSt) : (d.secU g).le = d.le := rfl
@[simp] theorem Dev.secU_cmp (d : Dev) (g : SecSt → SecSt) : (d.secU g).cmp = d.cmp := rfl
@[simp] theorem Dev.secU_pos (d : Dev) (g : SecSt → SecSt) : (d.secU g).pos = d.pos := rfl
@[simp] theorem Dev.secU_cap (d : Dev) (g : SecSt → SecSt) : (d.secU g).cap = d.cap := rfl
@[simp] theorem Dev.secU_mem (d : Dev) (g : SecSt → SecSt) : (d.secU g).mem = d.mem := rfl
@[simp] theorem Dev.secU_core (d : Dev) (g : SecSt → SecSt) : (d.secU g).core = d.core := rfl
@[simp] theorem Dev.secU_fab (d : Dev) (g : SecSt → SecSt) : (d.secU g).fab = d.fab := rfl
@[simp] theorem Dev.secU_ic (d : Dev) (g : SecSt → SecSt) : (d.secU g).ic = d.ic := rfl
@[simp] theorem Dev.secU_fc (d : Dev) (g : SecSt → SecSt) : (d.secU g).fc = d.fc := rfl
@[simp] theorem Dev.secU_lnk (d : Dev) (g : SecSt → SecSt) : (d.secU g).lnk = d.lnk := rfl
@[simp] theorem Dev.secU_fl (d : Dev) (g : SecSt → SecSt) : (d.secU g).fl = d.fl := rfl
@[simp] theorem Dev.secU_hst (d : Dev) (g : SecSt → SecSt) : (d.secU g).hst = d.hst := rfl
@[simp] theorem Dev.secU_jtag (d : Dev) (g : SecSt → SecSt) : (d.secU g).jtag = d.jtag := rfl
@[simp] theorem Dev.fcU_now (d : Dev) (g : FcSt → FcSt) : (d.fcU g).now = d.now := rfl
@[simp] theorem Dev.fcU_free (d : Dev) (g : FcSt → FcSt) : (d.fcU g).free = d.free := rfl
@[simp] theorem Dev.fcU_regs (d : Dev) (g : FcSt → FcSt) : (d.fcU g).regs = d.regs := rfl
@[simp] theorem Dev.fcU_sys (d : Dev) (g : FcSt → FcSt) : (d.fcU g).sys = d.sys := rfl
@[simp] theorem Dev.fcU_leg (d : Dev) (g : FcSt → FcSt) : (d.fcU g).leg = d.leg := rfl
@[simp] theorem Dev.fcU_tb (d : Dev) (g : FcSt → FcSt) : (d.fcU g).tb = d.tb := rfl
@[simp] theorem Dev.fcU_adc (d : Dev) (g : FcSt → FcSt) : (d.fcU g).adc = d.adc := rfl
@[simp] theorem Dev.fcU_le (d : Dev) (g : FcSt → FcSt) : (d.fcU g).le = d.le := rfl
@[simp] theorem Dev.fcU_cmp (d : Dev) (g : FcSt → FcSt) : (d.fcU g).cmp = d.cmp := rfl
@[simp] theorem Dev.fcU_pos (d : Dev) (g : FcSt → FcSt) : (d.fcU g).pos = d.pos := rfl
@[simp] theorem Dev.fcU_cap (d : Dev) (g : FcSt → FcSt) : (d.fcU g).cap = d.cap := rfl
@[simp] theorem Dev.fcU_mem (d : Dev) (g : FcSt → FcSt) : (d.fcU g).mem = d.mem := rfl
@[simp] theorem Dev.fcU_core (d : Dev) (g : FcSt → FcSt) : (d.fcU g).core = d.core := rfl
@[simp] theorem Dev.fcU_fab (d : Dev) (g : FcSt → FcSt) : (d.fcU g).fab = d.fab := rfl
@[simp] theorem Dev.fcU_ic (d : Dev) (g : FcSt → FcSt) : (d.fcU g).ic = d.ic := rfl
@[simp] theorem Dev.fcU_lnk (d : Dev) (g : FcSt → FcSt) : (d.fcU g).lnk = d.lnk := rfl
@[simp] theorem Dev.fcU_fl (d : Dev) (g : FcSt → FcSt) : (d.fcU g).fl = d.fl := rfl
@[simp] theorem Dev.fcU_sec (d : Dev) (g : FcSt → FcSt) : (d.fcU g).sec = d.sec := rfl
@[simp] theorem Dev.fcU_hst (d : Dev) (g : FcSt → FcSt) : (d.fcU g).hst = d.hst := rfl
@[simp] theorem Dev.fcU_jtag (d : Dev) (g : FcSt → FcSt) : (d.fcU g).jtag = d.jtag := rfl
@[simp] theorem Dev.srcU_now (d : Dev) (s : Nat) (g : SrcSt → SrcSt) : (d.srcU s g).now = d.now := rfl
@[simp] theorem Dev.srcU_free (d : Dev) (s : Nat) (g : SrcSt → SrcSt) : (d.srcU s g).free = d.free := rfl
@[simp] theorem Dev.srcU_regs (d : Dev) (s : Nat) (g : SrcSt → SrcSt) : (d.srcU s g).regs = d.regs := rfl
@[simp] theorem Dev.srcU_sys (d : Dev) (s : Nat) (g : SrcSt → SrcSt) : (d.srcU s g).sys = d.sys := rfl
@[simp] theorem Dev.srcU_leg (d : Dev) (s : Nat) (g : SrcSt → SrcSt) : (d.srcU s g).leg = d.leg := rfl
@[simp] theorem Dev.srcU_tb (d : Dev) (s : Nat) (g : SrcSt → SrcSt) : (d.srcU s g).tb = d.tb := rfl
@[simp] theorem Dev.srcU_adc (d : Dev) (s : Nat) (g : SrcSt → SrcSt) : (d.srcU s g).adc = d.adc := rfl
@[simp] theorem Dev.srcU_le (d : Dev) (s : Nat) (g : SrcSt → SrcSt) : (d.srcU s g).le = d.le := rfl
@[simp] theorem Dev.srcU_cmp (d : Dev) (s : Nat) (g : SrcSt → SrcSt) : (d.srcU s g).cmp = d.cmp := rfl
@[simp] theorem Dev.srcU_pos (d : Dev) (s : Nat) (g : SrcSt → SrcSt) : (d.srcU s g).pos = d.pos := rfl
@[simp] theorem Dev.srcU_cap (d : Dev) (s : Nat) (g : SrcSt → SrcSt) : (d.srcU s g).cap = d.cap := rfl
@[simp] theorem Dev.srcU_mem (d : Dev) (s : Nat) (g : SrcSt → SrcSt) : (d.srcU s g).mem = d.mem := rfl
@[simp] theorem Dev.srcU_core (d : Dev) (s : Nat) (g : SrcSt → SrcSt) : (d.srcU s g).core = d.core := rfl
@[simp] theorem Dev.srcU_fab (d : Dev) (s : Nat) (g : SrcSt → SrcSt) : (d.srcU s g).fab = d.fab := rfl
@[simp] theorem Dev.srcU_fc (d : Dev) (s : Nat) (g : SrcSt → SrcSt) : (d.srcU s g).fc = d.fc := rfl
@[simp] theorem Dev.srcU_lnk (d : Dev) (s : Nat) (g : SrcSt → SrcSt) : (d.srcU s g).lnk = d.lnk := rfl
@[simp] theorem Dev.srcU_fl (d : Dev) (s : Nat) (g : SrcSt → SrcSt) : (d.srcU s g).fl = d.fl := rfl
@[simp] theorem Dev.srcU_sec (d : Dev) (s : Nat) (g : SrcSt → SrcSt) : (d.srcU s g).sec = d.sec := rfl
@[simp] theorem Dev.srcU_hst (d : Dev) (s : Nat) (g : SrcSt → SrcSt) : (d.srcU s g).hst = d.hst := rfl
@[simp] theorem Dev.srcU_jtag (d : Dev) (s : Nat) (g : SrcSt → SrcSt) : (d.srcU s g).jtag = d.jtag := rfl
@[simp] theorem Dev.tgtU_now (d : Dev) (c : Fin 5) (g : TgtSt → TgtSt) : (d.tgtU c g).now = d.now := rfl
@[simp] theorem Dev.tgtU_free (d : Dev) (c : Fin 5) (g : TgtSt → TgtSt) : (d.tgtU c g).free = d.free := rfl
@[simp] theorem Dev.tgtU_regs (d : Dev) (c : Fin 5) (g : TgtSt → TgtSt) : (d.tgtU c g).regs = d.regs := rfl
@[simp] theorem Dev.tgtU_sys (d : Dev) (c : Fin 5) (g : TgtSt → TgtSt) : (d.tgtU c g).sys = d.sys := rfl
@[simp] theorem Dev.tgtU_leg (d : Dev) (c : Fin 5) (g : TgtSt → TgtSt) : (d.tgtU c g).leg = d.leg := rfl
@[simp] theorem Dev.tgtU_tb (d : Dev) (c : Fin 5) (g : TgtSt → TgtSt) : (d.tgtU c g).tb = d.tb := rfl
@[simp] theorem Dev.tgtU_adc (d : Dev) (c : Fin 5) (g : TgtSt → TgtSt) : (d.tgtU c g).adc = d.adc := rfl
@[simp] theorem Dev.tgtU_le (d : Dev) (c : Fin 5) (g : TgtSt → TgtSt) : (d.tgtU c g).le = d.le := rfl
@[simp] theorem Dev.tgtU_cmp (d : Dev) (c : Fin 5) (g : TgtSt → TgtSt) : (d.tgtU c g).cmp = d.cmp := rfl
@[simp] theorem Dev.tgtU_pos (d : Dev) (c : Fin 5) (g : TgtSt → TgtSt) : (d.tgtU c g).pos = d.pos := rfl
@[simp] theorem Dev.tgtU_cap (d : Dev) (c : Fin 5) (g : TgtSt → TgtSt) : (d.tgtU c g).cap = d.cap := rfl
@[simp] theorem Dev.tgtU_mem (d : Dev) (c : Fin 5) (g : TgtSt → TgtSt) : (d.tgtU c g).mem = d.mem := rfl
@[simp] theorem Dev.tgtU_core (d : Dev) (c : Fin 5) (g : TgtSt → TgtSt) : (d.tgtU c g).core = d.core := rfl
@[simp] theorem Dev.tgtU_fab (d : Dev) (c : Fin 5) (g : TgtSt → TgtSt) : (d.tgtU c g).fab = d.fab := rfl
@[simp] theorem Dev.tgtU_fc (d : Dev) (c : Fin 5) (g : TgtSt → TgtSt) : (d.tgtU c g).fc = d.fc := rfl
@[simp] theorem Dev.tgtU_lnk (d : Dev) (c : Fin 5) (g : TgtSt → TgtSt) : (d.tgtU c g).lnk = d.lnk := rfl
@[simp] theorem Dev.tgtU_fl (d : Dev) (c : Fin 5) (g : TgtSt → TgtSt) : (d.tgtU c g).fl = d.fl := rfl
@[simp] theorem Dev.tgtU_sec (d : Dev) (c : Fin 5) (g : TgtSt → TgtSt) : (d.tgtU c g).sec = d.sec := rfl
@[simp] theorem Dev.tgtU_hst (d : Dev) (c : Fin 5) (g : TgtSt → TgtSt) : (d.tgtU c g).hst = d.hst := rfl
@[simp] theorem Dev.tgtU_jtag (d : Dev) (c : Fin 5) (g : TgtSt → TgtSt) : (d.tgtU c g).jtag = d.jtag := rfl
@[simp] theorem Dev.put_now (d : Dev) (r : Reg) (v : Word) : (d.put r v).now = d.now := rfl
@[simp] theorem Dev.put_free (d : Dev) (r : Reg) (v : Word) : (d.put r v).free = d.free := rfl
@[simp] theorem Dev.put_sys (d : Dev) (r : Reg) (v : Word) : (d.put r v).sys = d.sys := rfl
@[simp] theorem Dev.put_leg (d : Dev) (r : Reg) (v : Word) : (d.put r v).leg = d.leg := rfl
@[simp] theorem Dev.put_tb (d : Dev) (r : Reg) (v : Word) : (d.put r v).tb = d.tb := rfl
@[simp] theorem Dev.put_adc (d : Dev) (r : Reg) (v : Word) : (d.put r v).adc = d.adc := rfl
@[simp] theorem Dev.put_le (d : Dev) (r : Reg) (v : Word) : (d.put r v).le = d.le := rfl
@[simp] theorem Dev.put_cmp (d : Dev) (r : Reg) (v : Word) : (d.put r v).cmp = d.cmp := rfl
@[simp] theorem Dev.put_pos (d : Dev) (r : Reg) (v : Word) : (d.put r v).pos = d.pos := rfl
@[simp] theorem Dev.put_cap (d : Dev) (r : Reg) (v : Word) : (d.put r v).cap = d.cap := rfl
@[simp] theorem Dev.put_mem (d : Dev) (r : Reg) (v : Word) : (d.put r v).mem = d.mem := rfl
@[simp] theorem Dev.put_core (d : Dev) (r : Reg) (v : Word) : (d.put r v).core = d.core := rfl
@[simp] theorem Dev.put_fab (d : Dev) (r : Reg) (v : Word) : (d.put r v).fab = d.fab := rfl
@[simp] theorem Dev.put_ic (d : Dev) (r : Reg) (v : Word) : (d.put r v).ic = d.ic := rfl
@[simp] theorem Dev.put_fc (d : Dev) (r : Reg) (v : Word) : (d.put r v).fc = d.fc := rfl
@[simp] theorem Dev.put_lnk (d : Dev) (r : Reg) (v : Word) : (d.put r v).lnk = d.lnk := rfl
@[simp] theorem Dev.put_fl (d : Dev) (r : Reg) (v : Word) : (d.put r v).fl = d.fl := rfl
@[simp] theorem Dev.put_sec (d : Dev) (r : Reg) (v : Word) : (d.put r v).sec = d.sec := rfl
@[simp] theorem Dev.put_hst (d : Dev) (r : Reg) (v : Word) : (d.put r v).hst = d.hst := rfl
@[simp] theorem Dev.put_jtag (d : Dev) (r : Reg) (v : Word) : (d.put r v).jtag = d.jtag := rfl
@[simp] theorem Dev.setF_now (d : Dev) (r : Reg) (f : Fld) (v : Nat) : (d.setF r f v).now = d.now := rfl
@[simp] theorem Dev.setF_free (d : Dev) (r : Reg) (f : Fld) (v : Nat) : (d.setF r f v).free = d.free := rfl
@[simp] theorem Dev.setF_sys (d : Dev) (r : Reg) (f : Fld) (v : Nat) : (d.setF r f v).sys = d.sys := rfl
@[simp] theorem Dev.setF_leg (d : Dev) (r : Reg) (f : Fld) (v : Nat) : (d.setF r f v).leg = d.leg := rfl
@[simp] theorem Dev.setF_tb (d : Dev) (r : Reg) (f : Fld) (v : Nat) : (d.setF r f v).tb = d.tb := rfl
@[simp] theorem Dev.setF_adc (d : Dev) (r : Reg) (f : Fld) (v : Nat) : (d.setF r f v).adc = d.adc := rfl
@[simp] theorem Dev.setF_le (d : Dev) (r : Reg) (f : Fld) (v : Nat) : (d.setF r f v).le = d.le := rfl
@[simp] theorem Dev.setF_cmp (d : Dev) (r : Reg) (f : Fld) (v : Nat) : (d.setF r f v).cmp = d.cmp := rfl
@[simp] theorem Dev.setF_pos (d : Dev) (r : Reg) (f : Fld) (v : Nat) : (d.setF r f v).pos = d.pos := rfl
@[simp] theorem Dev.setF_cap (d : Dev) (r : Reg) (f : Fld) (v : Nat) : (d.setF r f v).cap = d.cap := rfl
@[simp] theorem Dev.setF_mem (d : Dev) (r : Reg) (f : Fld) (v : Nat) : (d.setF r f v).mem = d.mem := rfl
@[simp] theorem Dev.setF_core (d : Dev) (r : Reg) (f : Fld) (v : Nat) : (d.setF r f v).core = d.core := rfl
@[simp] theorem Dev.setF_fab (d : Dev) (r : Reg) (f : Fld) (v : Nat) : (d.setF r f v).fab = d.fab := rfl
@[simp] theorem Dev.setF_ic (d : Dev) (r : Reg) (f : Fld) (v : Nat) : (d.setF r f v).ic = d.ic := rfl
@[simp] theorem Dev.setF_fc (d : Dev) (r : Reg) (f : Fld) (v : Nat) : (d.setF r f v).fc = d.fc := rfl
@[simp] theorem Dev.setF_lnk (d : Dev) (r : Reg) (f : Fld) (v : Nat) : (d.setF r f v).lnk = d.lnk := rfl
@[simp] theorem Dev.setF_fl (d : Dev) (r : Reg) (f : Fld) (v : Nat) : (d.setF r f v).fl = d.fl := rfl
@[simp] theorem Dev.setF_sec (d : Dev) (r : Reg) (f : Fld) (v : Nat) : (d.setF r f v).sec = d.sec := rfl
@[simp] theorem Dev.setF_hst (d : Dev) (r : Reg) (f : Fld) (v : Nat) : (d.setF r f v).hst = d.hst := rfl
@[simp] theorem Dev.setF_jtag (d : Dev) (r : Reg) (f : Fld) (v : Nat) : (d.setF r f v).jtag = d.jtag := rfl
@[simp] theorem Dev.setB_now (d : Dev) (r : Reg) (f : Fld) (b : Bool) : (d.setB r f b).now = d.now := rfl
@[simp] theorem Dev.setB_free (d : Dev) (r : Reg) (f : Fld) (b : Bool) : (d.setB r f b).free = d.free := rfl
@[simp] theorem Dev.setB_sys (d : Dev) (r : Reg) (f : Fld) (b : Bool) : (d.setB r f b).sys = d.sys := rfl
@[simp] theorem Dev.setB_leg (d : Dev) (r : Reg) (f : Fld) (b : Bool) : (d.setB r f b).leg = d.leg := rfl
@[simp] theorem Dev.setB_tb (d : Dev) (r : Reg) (f : Fld) (b : Bool) : (d.setB r f b).tb = d.tb := rfl
@[simp] theorem Dev.setB_adc (d : Dev) (r : Reg) (f : Fld) (b : Bool) : (d.setB r f b).adc = d.adc := rfl
@[simp] theorem Dev.setB_le (d : Dev) (r : Reg) (f : Fld) (b : Bool) : (d.setB r f b).le = d.le := rfl
@[simp] theorem Dev.setB_cmp (d : Dev) (r : Reg) (f : Fld) (b : Bool) : (d.setB r f b).cmp = d.cmp := rfl
@[simp] theorem Dev.setB_pos (d : Dev) (r : Reg) (f : Fld) (b : Bool) : (d.setB r f b).pos = d.pos := rfl
@[simp] theorem Dev.setB_cap (d : Dev) (r : Reg) (f : Fld) (b : Bool) : (d.setB r f b).cap = d.cap := rfl
@[simp] theorem Dev.setB_mem (d : Dev) (r : Reg) (f : Fld) (b : Bool) : (d.setB r f b).mem = d.mem := rfl
@[simp] theorem Dev.setB_core (d : Dev) (r : Reg) (f : Fld) (b : Bool) : (d.setB r f b).core = d.core := rfl
@[simp] theorem Dev.setB_fab (d : Dev) (r : Reg) (f : Fld) (b : Bool) : (d.setB r f b).fab = d.fab := rfl
@[simp] theorem Dev.setB_ic (d : Dev) (r : Reg) (f : Fld) (b : Bool) : (d.setB r f b).ic = d.ic := rfl
@[simp] theorem Dev.setB_fc (d : Dev) (r : Reg) (f : Fld) (b : Bool) : (d.setB r f b).fc = d.fc := rfl
@[simp] theorem Dev.setB_lnk (d : Dev) (r : Reg) (f : Fld) (b : Bool) : (d.setB r f b).lnk = d.lnk := rfl
@[simp] theorem Dev.setB_fl (d : Dev) (r : Reg) (f : Fld) (b : Bool) : (d.setB r f b).fl = d.fl := rfl
@[simp] theorem Dev.setB_sec (d : Dev) (r : Reg) (f : Fld) (b : Bool) : (d.setB r f b).sec = d.sec := rfl
@[simp] theorem Dev.setB_hst (d : Dev) (r : Reg) (f : Fld) (b : Bool) : (d.setB r f b).hst = d.hst := rfl
@[simp] theorem Dev.setB_jtag (d : Dev) (r : Reg) (f : Fld) (b : Bool) : (d.setB r f b).jtag = d.jtag := rfl
@[simp] theorem Dev.flag_now (d : Dev) (r : Reg) (f : Fld) : (d.flag r f).now = d.now := rfl
@[simp] theorem Dev.flag_free (d : Dev) (r : Reg) (f : Fld) : (d.flag r f).free = d.free := rfl
@[simp] theorem Dev.flag_sys (d : Dev) (r : Reg) (f : Fld) : (d.flag r f).sys = d.sys := rfl
@[simp] theorem Dev.flag_leg (d : Dev) (r : Reg) (f : Fld) : (d.flag r f).leg = d.leg := rfl
@[simp] theorem Dev.flag_tb (d : Dev) (r : Reg) (f : Fld) : (d.flag r f).tb = d.tb := rfl
@[simp] theorem Dev.flag_adc (d : Dev) (r : Reg) (f : Fld) : (d.flag r f).adc = d.adc := rfl
@[simp] theorem Dev.flag_le (d : Dev) (r : Reg) (f : Fld) : (d.flag r f).le = d.le := rfl
@[simp] theorem Dev.flag_cmp (d : Dev) (r : Reg) (f : Fld) : (d.flag r f).cmp = d.cmp := rfl
@[simp] theorem Dev.flag_pos (d : Dev) (r : Reg) (f : Fld) : (d.flag r f).pos = d.pos := rfl
@[simp] theorem Dev.flag_cap (d : Dev) (r : Reg) (f : Fld) : (d.flag r f).cap = d.cap := rfl
@[simp] theorem Dev.flag_mem (d : Dev) (r : Reg) (f : Fld) : (d.flag r f).mem = d.mem := rfl
@[simp] theorem Dev.flag_core (d : Dev) (r : Reg) (f : Fld) : (d.flag r f).core = d.core := rfl
@[simp] theorem Dev.flag_fab (d : Dev) (r : Reg) (f : Fld) : (d.flag r f).fab = d.fab := rfl
@[simp] theorem Dev.flag_ic (d : Dev) (r : Reg) (f : Fld) : (d.flag r f).ic = d.ic := rfl
@[simp] theorem Dev.flag_fc (d : Dev) (r : Reg) (f : Fld) : (d.flag r f).fc = d.fc := rfl
@[simp] theorem Dev.flag_lnk (d : Dev) (r : Reg) (f : Fld) : (d.flag r f).lnk = d.lnk := rfl
@[simp] theorem Dev.flag_fl (d : Dev) (r : Reg) (f : Fld) : (d.flag r f).fl = d.fl := rfl
@[simp] theorem Dev.flag_sec (d : Dev) (r : Reg) (f : Fld) : (d.flag r f).sec = d.sec := rfl
@[simp] theorem Dev.flag_hst (d : Dev) (r : Reg) (f : Fld) : (d.flag r f).hst = d.hst := rfl
@[simp] theorem Dev.flag_jtag (d : Dev) (r : Reg) (f : Fld) : (d.flag r f).jtag = d.jtag := rfl
@[simp] theorem Dev.flagIf_now (d : Dev) (c : Bool) (r : Reg) (f : Fld) : (d.flagIf c r f).now = d.now := by
  unfold Dev.flagIf; split <;> rfl
@[simp] theorem Dev.flagIf_free (d : Dev) (c : Bool) (r : Reg) (f : Fld) : (d.flagIf c r f).free = d.free := by
  unfold Dev.flagIf; split <;> rfl
@[simp] theorem Dev.flagIf_sys (d : Dev) (c : Bool) (r : Reg) (f : Fld) : (d.flagIf c r f).sys = d.sys := by
  unfold Dev.flagIf; split <;> rfl
@[simp] theorem Dev.flagIf_leg (d : Dev) (c : Bool) (r : Reg) (f : Fld) : (d.flagIf c r f).leg = d.leg := by
  unfold Dev.flagIf; split <;> rfl
@[simp] theorem Dev.flagIf_tb (d : Dev) (c : Bool) (r : Reg) (f : Fld) : (d.flagIf c r f).tb = d.tb := by
  unfold Dev.flagIf; split <;> rfl
@[simp] theorem Dev.flagIf_adc (d : Dev) (c : Bool) (r : Reg) (f : Fld) : (d.flagIf c r f).adc = d.adc := by
  unfold Dev.flagIf; split <;> rfl
@[simp] theorem Dev.flagIf_le (d : Dev) (c : Bool) (r : Reg) (f : Fld) : (d.flagIf c r f).le = d.le := by
  unfold Dev.flagIf; split <;> rfl
@[simp] theorem Dev.flagIf_cmp (d : Dev) (c : Bool) (r : Reg) (f : Fld) : (d.flagIf c r f).cmp = d.cmp := by
  unfold Dev.flagIf; split <;> rfl
@[simp] theorem Dev.flagIf_pos (d : Dev) (c : Bool) (r : Reg) (f : Fld) : (d.flagIf c r f).pos = d.pos := by
  unfold Dev.flagIf; split <;> rfl
@[simp] theorem Dev.flagIf_cap (d : Dev) (c : Bool) (r : Reg) (f : Fld) : (d.flagIf c r f).cap = d.cap := by
  unfold Dev.flagIf; split <;> rfl
@[simp] theorem Dev.flagIf_mem (d : Dev) (c : Bool) (r : Reg) (f : Fld) : (d.flagIf c r f).mem = d.mem := by
  unfold Dev.flagIf; split <;> rfl
@[simp] theorem Dev.flagIf_core (d : Dev) (c : Bool) (r : Reg) (f : Fld) : (d.flagIf c r f).core = d.core := by
  unfold Dev.flagIf; split <;> rfl
@[simp] theorem Dev.flagIf_fab (d : Dev) (c : Bool) (r : Reg) (f : Fld) : (d.flagIf c r f).fab = d.fab := by
  unfold Dev.flagIf; split <;> rfl
@[simp] theorem Dev.flagIf_ic (d : Dev) (c : Bool) (r : Reg) (f : Fld) : (d.flagIf c r f).ic = d.ic := by
  unfold Dev.flagIf; split <;> rfl
@[simp] theorem Dev.flagIf_fc (d : Dev) (c : Bool) (r : Reg) (f : Fld) : (d.flagIf c r f).fc = d.fc := by
  unfold Dev.flagIf; split <;> rfl
@[simp] theorem Dev.flagIf_lnk (d : Dev) (c : Bool) (r : Reg) (f : Fld) : (d.flagIf c r f).lnk = d.lnk := by
  unfold Dev.flagIf; split <;> rfl
@[simp] theorem Dev.flagIf_fl (d : Dev) (c : Bool) (r : Reg) (f : Fld) : (d.flagIf c r f).fl = d.fl := by
  unfold Dev.flagIf; split <;> rfl
@[simp] theorem Dev.flagIf_sec (d : Dev) (c : Bool) (r : Reg) (f : Fld) : (d.flagIf c r f).sec = d.sec := by
  unfold Dev.flagIf; split <;> rfl
@[simp] theorem Dev.flagIf_hst (d : Dev) (c : Bool) (r : Reg) (f : Fld) : (d.flagIf c r f).hst = d.hst := by
  unfold Dev.flagIf; split <;> rfl
@[simp] theorem Dev.flagIf_jtag (d : Dev) (c : Bool) (r : Reg) (f : Fld) : (d.flagIf c r f).jtag = d.jtag := by
  unfold Dev.flagIf; split <;> rfl
@[simp] theorem Dev.bumpBy_now (d : Dev) (r : Reg) (f : Fld) (n : Nat) : (d.bumpBy r f n).now = d.now := rfl
@[simp] theorem Dev.bumpBy_free (d : Dev) (r : Reg) (f : Fld) (n : Nat) : (d.bumpBy r f n).free = d.free := rfl
@[simp] theorem Dev.bumpBy_sys (d : Dev) (r : Reg) (f : Fld) (n : Nat) : (d.bumpBy r f n).sys = d.sys := rfl
@[simp] theorem Dev.bumpBy_leg (d : Dev) (r : Reg) (f : Fld) (n : Nat) : (d.bumpBy r f n).leg = d.leg := rfl
@[simp] theorem Dev.bumpBy_tb (d : Dev) (r : Reg) (f : Fld) (n : Nat) : (d.bumpBy r f n).tb = d.tb := rfl
@[simp] theorem Dev.bumpBy_adc (d : Dev) (r : Reg) (f : Fld) (n : Nat) : (d.bumpBy r f n).adc = d.adc := rfl
@[simp] theorem Dev.bumpBy_le (d : Dev) (r : Reg) (f : Fld) (n : Nat) : (d.bumpBy r f n).le = d.le := rfl
@[simp] theorem Dev.bumpBy_cmp (d : Dev) (r : Reg) (f : Fld) (n : Nat) : (d.bumpBy r f n).cmp = d.cmp := rfl
@[simp] theorem Dev.bumpBy_pos (d : Dev) (r : Reg) (f : Fld) (n : Nat) : (d.bumpBy r f n).pos = d.pos := rfl
@[simp] theorem Dev.bumpBy_cap (d : Dev) (r : Reg) (f : Fld) (n : Nat) : (d.bumpBy r f n).cap = d.cap := rfl
@[simp] theorem Dev.bumpBy_mem (d : Dev) (r : Reg) (f : Fld) (n : Nat) : (d.bumpBy r f n).mem = d.mem := rfl
@[simp] theorem Dev.bumpBy_core (d : Dev) (r : Reg) (f : Fld) (n : Nat) : (d.bumpBy r f n).core = d.core := rfl
@[simp] theorem Dev.bumpBy_fab (d : Dev) (r : Reg) (f : Fld) (n : Nat) : (d.bumpBy r f n).fab = d.fab := rfl
@[simp] theorem Dev.bumpBy_ic (d : Dev) (r : Reg) (f : Fld) (n : Nat) : (d.bumpBy r f n).ic = d.ic := rfl
@[simp] theorem Dev.bumpBy_fc (d : Dev) (r : Reg) (f : Fld) (n : Nat) : (d.bumpBy r f n).fc = d.fc := rfl
@[simp] theorem Dev.bumpBy_lnk (d : Dev) (r : Reg) (f : Fld) (n : Nat) : (d.bumpBy r f n).lnk = d.lnk := rfl
@[simp] theorem Dev.bumpBy_fl (d : Dev) (r : Reg) (f : Fld) (n : Nat) : (d.bumpBy r f n).fl = d.fl := rfl
@[simp] theorem Dev.bumpBy_sec (d : Dev) (r : Reg) (f : Fld) (n : Nat) : (d.bumpBy r f n).sec = d.sec := rfl
@[simp] theorem Dev.bumpBy_hst (d : Dev) (r : Reg) (f : Fld) (n : Nat) : (d.bumpBy r f n).hst = d.hst := rfl
@[simp] theorem Dev.bumpBy_jtag (d : Dev) (r : Reg) (f : Fld) (n : Nat) : (d.bumpBy r f n).jtag = d.jtag := rfl
@[simp] theorem Dev.bump_now (d : Dev) (r : Reg) (f : Fld) : (d.bump r f).now = d.now := rfl
@[simp] theorem Dev.bump_free (d : Dev) (r : Reg) (f : Fld) : (d.bump r f).free = d.free := rfl
@[simp] theorem Dev.bump_sys (d : Dev) (r : Reg) (f : Fld) : (d.bump r f).sys = d.sys := rfl
@[simp] theorem Dev.bump_leg (d : Dev) (r : Reg) (f : Fld) : (d.bump r f).leg = d.leg := rfl
@[simp] theorem Dev.bump_tb (d : Dev) (r : Reg) (f : Fld) : (d.bump r f).tb = d.tb := rfl
@[simp] theorem Dev.bump_adc (d : Dev) (r : Reg) (f : Fld) : (d.bump r f).adc = d.adc := rfl
@[simp] theorem Dev.bump_le (d : Dev) (r : Reg) (f : Fld) : (d.bump r f).le = d.le := rfl
@[simp] theorem Dev.bump_cmp (d : Dev) (r : Reg) (f : Fld) : (d.bump r f).cmp = d.cmp := rfl
@[simp] theorem Dev.bump_pos (d : Dev) (r : Reg) (f : Fld) : (d.bump r f).pos = d.pos := rfl
@[simp] theorem Dev.bump_cap (d : Dev) (r : Reg) (f : Fld) : (d.bump r f).cap = d.cap := rfl
@[simp] theorem Dev.bump_mem (d : Dev) (r : Reg) (f : Fld) : (d.bump r f).mem = d.mem := rfl
@[simp] theorem Dev.bump_core (d : Dev) (r : Reg) (f : Fld) : (d.bump r f).core = d.core := rfl
@[simp] theorem Dev.bump_fab (d : Dev) (r : Reg) (f : Fld) : (d.bump r f).fab = d.fab := rfl
@[simp] theorem Dev.bump_ic (d : Dev) (r : Reg) (f : Fld) : (d.bump r f).ic = d.ic := rfl
@[simp] theorem Dev.bump_fc (d : Dev) (r : Reg) (f : Fld) : (d.bump r f).fc = d.fc := rfl
@[simp] theorem Dev.bump_lnk (d : Dev) (r : Reg) (f : Fld) : (d.bump r f).lnk = d.lnk := rfl
@[simp] theorem Dev.bump_fl (d : Dev) (r : Reg) (f : Fld) : (d.bump r f).fl = d.fl := rfl
@[simp] theorem Dev.bump_sec (d : Dev) (r : Reg) (f : Fld) : (d.bump r f).sec = d.sec := rfl
@[simp] theorem Dev.bump_hst (d : Dev) (r : Reg) (f : Fld) : (d.bump r f).hst = d.hst := rfl
@[simp] theorem Dev.bump_jtag (d : Dev) (r : Reg) (f : Fld) : (d.bump r f).jtag = d.jtag := rfl
@[simp] theorem Dev.setBit_now (d : Dev) (r : Reg) (i : Nat) (b : Bool) : (d.setBit r i b).now = d.now := rfl
@[simp] theorem Dev.setBit_free (d : Dev) (r : Reg) (i : Nat) (b : Bool) : (d.setBit r i b).free = d.free := rfl
@[simp] theorem Dev.setBit_sys (d : Dev) (r : Reg) (i : Nat) (b : Bool) : (d.setBit r i b).sys = d.sys := rfl
@[simp] theorem Dev.setBit_leg (d : Dev) (r : Reg) (i : Nat) (b : Bool) : (d.setBit r i b).leg = d.leg := rfl
@[simp] theorem Dev.setBit_tb (d : Dev) (r : Reg) (i : Nat) (b : Bool) : (d.setBit r i b).tb = d.tb := rfl
@[simp] theorem Dev.setBit_adc (d : Dev) (r : Reg) (i : Nat) (b : Bool) : (d.setBit r i b).adc = d.adc := rfl
@[simp] theorem Dev.setBit_le (d : Dev) (r : Reg) (i : Nat) (b : Bool) : (d.setBit r i b).le = d.le := rfl
@[simp] theorem Dev.setBit_cmp (d : Dev) (r : Reg) (i : Nat) (b : Bool) : (d.setBit r i b).cmp = d.cmp := rfl
@[simp] theorem Dev.setBit_pos (d : Dev) (r : Reg) (i : Nat) (b : Bool) : (d.setBit r i b).pos = d.pos := rfl
@[simp] theorem Dev.setBit_cap (d : Dev) (r : Reg) (i : Nat) (b : Bool) : (d.setBit r i b).cap = d.cap := rfl
@[simp] theorem Dev.setBit_mem (d : Dev) (r : Reg) (i : Nat) (b : Bool) : (d.setBit r i b).mem = d.mem := rfl
@[simp] theorem Dev.setBit_core (d : Dev) (r : Reg) (i : Nat) (b : Bool) : (d.setBit r i b).core = d.core := rfl
@[simp] theorem Dev.setBit_fab (d : Dev) (r : Reg) (i : Nat) (b : Bool) : (d.setBit r i b).fab = d.fab := rfl
@[simp] theorem Dev.setBit_ic (d : Dev) (r : Reg) (i : Nat) (b : Bool) : (d.setBit r i b).ic = d.ic := rfl
@[simp] theorem Dev.setBit_fc (d : Dev) (r : Reg) (i : Nat) (b : Bool) : (d.setBit r i b).fc = d.fc := rfl
@[simp] theorem Dev.setBit_lnk (d : Dev) (r : Reg) (i : Nat) (b : Bool) : (d.setBit r i b).lnk = d.lnk := rfl
@[simp] theorem Dev.setBit_fl (d : Dev) (r : Reg) (i : Nat) (b : Bool) : (d.setBit r i b).fl = d.fl := rfl
@[simp] theorem Dev.setBit_sec (d : Dev) (r : Reg) (i : Nat) (b : Bool) : (d.setBit r i b).sec = d.sec := rfl
@[simp] theorem Dev.setBit_hst (d : Dev) (r : Reg) (i : Nat) (b : Bool) : (d.setBit r i b).hst = d.hst := rfl
@[simp] theorem Dev.setBit_jtag (d : Dev) (r : Reg) (i : Nat) (b : Bool) : (d.setBit r i b).jtag = d.jtag := rfl
@[simp] theorem Dev.wr_now (d : Dev) (r : Reg) (v : Word) : (d.wr r v).now = d.now := rfl
@[simp] theorem Dev.wr_free (d : Dev) (r : Reg) (v : Word) : (d.wr r v).free = d.free := rfl
@[simp] theorem Dev.wr_sys (d : Dev) (r : Reg) (v : Word) : (d.wr r v).sys = d.sys := rfl
@[simp] theorem Dev.wr_leg (d : Dev) (r : Reg) (v : Word) : (d.wr r v).leg = d.leg := rfl
@[simp] theorem Dev.wr_tb (d : Dev) (r : Reg) (v : Word) : (d.wr r v).tb = d.tb := rfl
@[simp] theorem Dev.wr_adc (d : Dev) (r : Reg) (v : Word) : (d.wr r v).adc = d.adc := rfl
@[simp] theorem Dev.wr_le (d : Dev) (r : Reg) (v : Word) : (d.wr r v).le = d.le := rfl
@[simp] theorem Dev.wr_cmp (d : Dev) (r : Reg) (v : Word) : (d.wr r v).cmp = d.cmp := rfl
@[simp] theorem Dev.wr_pos (d : Dev) (r : Reg) (v : Word) : (d.wr r v).pos = d.pos := rfl
@[simp] theorem Dev.wr_cap (d : Dev) (r : Reg) (v : Word) : (d.wr r v).cap = d.cap := rfl
@[simp] theorem Dev.wr_mem (d : Dev) (r : Reg) (v : Word) : (d.wr r v).mem = d.mem := rfl
@[simp] theorem Dev.wr_core (d : Dev) (r : Reg) (v : Word) : (d.wr r v).core = d.core := rfl
@[simp] theorem Dev.wr_fab (d : Dev) (r : Reg) (v : Word) : (d.wr r v).fab = d.fab := rfl
@[simp] theorem Dev.wr_ic (d : Dev) (r : Reg) (v : Word) : (d.wr r v).ic = d.ic := rfl
@[simp] theorem Dev.wr_fc (d : Dev) (r : Reg) (v : Word) : (d.wr r v).fc = d.fc := rfl
@[simp] theorem Dev.wr_lnk (d : Dev) (r : Reg) (v : Word) : (d.wr r v).lnk = d.lnk := rfl
@[simp] theorem Dev.wr_fl (d : Dev) (r : Reg) (v : Word) : (d.wr r v).fl = d.fl := rfl
@[simp] theorem Dev.wr_sec (d : Dev) (r : Reg) (v : Word) : (d.wr r v).sec = d.sec := rfl
@[simp] theorem Dev.wr_hst (d : Dev) (r : Reg) (v : Word) : (d.wr r v).hst = d.hst := rfl
@[simp] theorem Dev.wr_jtag (d : Dev) (r : Reg) (v : Word) : (d.wr r v).jtag = d.jtag := rfl
@[simp] theorem Dev.clearRC_now (d : Dev) (r : Reg) : (d.clearRC r).now = d.now := rfl
@[simp] theorem Dev.clearRC_free (d : Dev) (r : Reg) : (d.clearRC r).free = d.free := rfl
@[simp] theorem Dev.clearRC_sys (d : Dev) (r : Reg) : (d.clearRC r).sys = d.sys := rfl
@[simp] theorem Dev.clearRC_leg (d : Dev) (r : Reg) : (d.clearRC r).leg = d.leg := rfl
@[simp] theorem Dev.clearRC_tb (d : Dev) (r : Reg) : (d.clearRC r).tb = d.tb := rfl
@[simp] theorem Dev.clearRC_adc (d : Dev) (r : Reg) : (d.clearRC r).adc = d.adc := rfl
@[simp] theorem Dev.clearRC_le (d : Dev) (r : Reg) : (d.clearRC r).le = d.le := rfl
@[simp] theorem Dev.clearRC_cmp (d : Dev) (r : Reg) : (d.clearRC r).cmp = d.cmp := rfl
@[simp] theorem Dev.clearRC_pos (d : Dev) (r : Reg) : (d.clearRC r).pos = d.pos := rfl
@[simp] theorem Dev.clearRC_cap (d : Dev) (r : Reg) : (d.clearRC r).cap = d.cap := rfl
@[simp] theorem Dev.clearRC_mem (d : Dev) (r : Reg) : (d.clearRC r).mem = d.mem := rfl
@[simp] theorem Dev.clearRC_core (d : Dev) (r : Reg) : (d.clearRC r).core = d.core := rfl
@[simp] theorem Dev.clearRC_fab (d : Dev) (r : Reg) : (d.clearRC r).fab = d.fab := rfl
@[simp] theorem Dev.clearRC_ic (d : Dev) (r : Reg) : (d.clearRC r).ic = d.ic := rfl
@[simp] theorem Dev.clearRC_fc (d : Dev) (r : Reg) : (d.clearRC r).fc = d.fc := rfl
@[simp] theorem Dev.clearRC_lnk (d : Dev) (r : Reg) : (d.clearRC r).lnk = d.lnk := rfl
@[simp] theorem Dev.clearRC_fl (d : Dev) (r : Reg) : (d.clearRC r).fl = d.fl := rfl
@[simp] theorem Dev.clearRC_sec (d : Dev) (r : Reg) : (d.clearRC r).sec = d.sec := rfl
@[simp] theorem Dev.clearRC_hst (d : Dev) (r : Reg) : (d.clearRC r).hst = d.hst := rfl
@[simp] theorem Dev.clearRC_jtag (d : Dev) (r : Reg) : (d.clearRC r).jtag = d.jtag := rfl
@[simp] theorem Dev.at_free (d : Dev) (t : Nat) : (d.at t).free = d.free := rfl
@[simp] theorem Dev.at_regs (d : Dev) (t : Nat) : (d.at t).regs = d.regs := rfl
@[simp] theorem Dev.at_sys (d : Dev) (t : Nat) : (d.at t).sys = d.sys := rfl
@[simp] theorem Dev.at_leg (d : Dev) (t : Nat) : (d.at t).leg = d.leg := rfl
@[simp] theorem Dev.at_tb (d : Dev) (t : Nat) : (d.at t).tb = d.tb := rfl
@[simp] theorem Dev.at_adc (d : Dev) (t : Nat) : (d.at t).adc = d.adc := rfl
@[simp] theorem Dev.at_le (d : Dev) (t : Nat) : (d.at t).le = d.le := rfl
@[simp] theorem Dev.at_cmp (d : Dev) (t : Nat) : (d.at t).cmp = d.cmp := rfl
@[simp] theorem Dev.at_pos (d : Dev) (t : Nat) : (d.at t).pos = d.pos := rfl
@[simp] theorem Dev.at_cap (d : Dev) (t : Nat) : (d.at t).cap = d.cap := rfl
@[simp] theorem Dev.at_mem (d : Dev) (t : Nat) : (d.at t).mem = d.mem := rfl
@[simp] theorem Dev.at_core (d : Dev) (t : Nat) : (d.at t).core = d.core := rfl
@[simp] theorem Dev.at_fab (d : Dev) (t : Nat) : (d.at t).fab = d.fab := rfl
@[simp] theorem Dev.at_ic (d : Dev) (t : Nat) : (d.at t).ic = d.ic := rfl
@[simp] theorem Dev.at_fc (d : Dev) (t : Nat) : (d.at t).fc = d.fc := rfl
@[simp] theorem Dev.at_lnk (d : Dev) (t : Nat) : (d.at t).lnk = d.lnk := rfl
@[simp] theorem Dev.at_fl (d : Dev) (t : Nat) : (d.at t).fl = d.fl := rfl
@[simp] theorem Dev.at_sec (d : Dev) (t : Nat) : (d.at t).sec = d.sec := rfl
@[simp] theorem Dev.at_hst (d : Dev) (t : Nat) : (d.at t).hst = d.hst := rfl
@[simp] theorem Dev.at_jtag (d : Dev) (t : Nat) : (d.at t).jtag = d.jtag := rfl
@[simp] theorem Dev.bumpFree_now (d : Dev) : (d.bumpFree ).now = d.now := rfl
@[simp] theorem Dev.bumpFree_regs (d : Dev) : (d.bumpFree ).regs = d.regs := rfl
@[simp] theorem Dev.bumpFree_sys (d : Dev) : (d.bumpFree ).sys = d.sys := rfl
@[simp] theorem Dev.bumpFree_leg (d : Dev) : (d.bumpFree ).leg = d.leg := rfl
@[simp] theorem Dev.bumpFree_tb (d : Dev) : (d.bumpFree ).tb = d.tb := rfl
@[simp] theorem Dev.bumpFree_adc (d : Dev) : (d.bumpFree ).adc = d.adc := rfl
@[simp] theorem Dev.bumpFree_le (d : Dev) : (d.bumpFree ).le = d.le := rfl
@[simp] theorem Dev.bumpFree_cmp (d : Dev) : (d.bumpFree ).cmp = d.cmp := rfl
@[simp] theorem Dev.bumpFree_pos (d : Dev) : (d.bumpFree ).pos = d.pos := rfl
@[simp] theorem Dev.bumpFree_cap (d : Dev) : (d.bumpFree ).cap = d.cap := rfl
@[simp] theorem Dev.bumpFree_mem (d : Dev) : (d.bumpFree ).mem = d.mem := rfl
@[simp] theorem Dev.bumpFree_core (d : Dev) : (d.bumpFree ).core = d.core := rfl
@[simp] theorem Dev.bumpFree_fab (d : Dev) : (d.bumpFree ).fab = d.fab := rfl
@[simp] theorem Dev.bumpFree_ic (d : Dev) : (d.bumpFree ).ic = d.ic := rfl
@[simp] theorem Dev.bumpFree_fc (d : Dev) : (d.bumpFree ).fc = d.fc := rfl
@[simp] theorem Dev.bumpFree_lnk (d : Dev) : (d.bumpFree ).lnk = d.lnk := rfl
@[simp] theorem Dev.bumpFree_fl (d : Dev) : (d.bumpFree ).fl = d.fl := rfl
@[simp] theorem Dev.bumpFree_sec (d : Dev) : (d.bumpFree ).sec = d.sec := rfl
@[simp] theorem Dev.bumpFree_hst (d : Dev) : (d.bumpFree ).hst = d.hst := rfl
@[simp] theorem Dev.bumpFree_jtag (d : Dev) : (d.bumpFree ).jtag = d.jtag := rfl
@[simp] theorem Dev.raise_now (d : Dev) (p : Nat) : (d.raise p).now = d.now := by
  unfold Dev.raise; split <;> rfl
@[simp] theorem Dev.raise_free (d : Dev) (p : Nat) : (d.raise p).free = d.free := by
  unfold Dev.raise; split <;> rfl
@[simp] theorem Dev.raise_regs (d : Dev) (p : Nat) : (d.raise p).regs = d.regs := by
  unfold Dev.raise; split <;> rfl
@[simp] theorem Dev.raise_sys (d : Dev) (p : Nat) : (d.raise p).sys = d.sys := by
  unfold Dev.raise; split <;> rfl
@[simp] theorem Dev.raise_leg (d : Dev) (p : Nat) : (d.raise p).leg = d.leg := by
  unfold Dev.raise; split <;> rfl
@[simp] theorem Dev.raise_tb (d : Dev) (p : Nat) : (d.raise p).tb = d.tb := by
  unfold Dev.raise; split <;> rfl
@[simp] theorem Dev.raise_adc (d : Dev) (p : Nat) : (d.raise p).adc = d.adc := by
  unfold Dev.raise; split <;> rfl
@[simp] theorem Dev.raise_le (d : Dev) (p : Nat) : (d.raise p).le = d.le := by
  unfold Dev.raise; split <;> rfl
@[simp] theorem Dev.raise_cmp (d : Dev) (p : Nat) : (d.raise p).cmp = d.cmp := by
  unfold Dev.raise; split <;> rfl
@[simp] theorem Dev.raise_pos (d : Dev) (p : Nat) : (d.raise p).pos = d.pos := by
  unfold Dev.raise; split <;> rfl
@[simp] theorem Dev.raise_cap (d : Dev) (p : Nat) : (d.raise p).cap = d.cap := by
  unfold Dev.raise; split <;> rfl
@[simp] theorem Dev.raise_mem (d : Dev) (p : Nat) : (d.raise p).mem = d.mem := by
  unfold Dev.raise; split <;> rfl
@[simp] theorem Dev.raise_core (d : Dev) (p : Nat) : (d.raise p).core = d.core := by
  unfold Dev.raise; split <;> rfl
@[simp] theorem Dev.raise_ic (d : Dev) (p : Nat) : (d.raise p).ic = d.ic := by
  unfold Dev.raise; split <;> rfl
@[simp] theorem Dev.raise_fc (d : Dev) (p : Nat) : (d.raise p).fc = d.fc := by
  unfold Dev.raise; split <;> rfl
@[simp] theorem Dev.raise_lnk (d : Dev) (p : Nat) : (d.raise p).lnk = d.lnk := by
  unfold Dev.raise; split <;> rfl
@[simp] theorem Dev.raise_fl (d : Dev) (p : Nat) : (d.raise p).fl = d.fl := by
  unfold Dev.raise; split <;> rfl
@[simp] theorem Dev.raise_sec (d : Dev) (p : Nat) : (d.raise p).sec = d.sec := by
  unfold Dev.raise; split <;> rfl
@[simp] theorem Dev.raise_hst (d : Dev) (p : Nat) : (d.raise p).hst = d.hst := by
  unfold Dev.raise; split <;> rfl
@[simp] theorem Dev.raise_jtag (d : Dev) (p : Nat) : (d.raise p).jtag = d.jtag := by
  unfold Dev.raise; split <;> rfl
@[simp] theorem Dev.raiseIf_now (d : Dev) (c : Bool) (p : Nat) : (d.raiseIf c p).now = d.now := by
  unfold Dev.raiseIf; split <;> simp
@[simp] theorem Dev.raiseIf_free (d : Dev) (c : Bool) (p : Nat) : (d.raiseIf c p).free = d.free := by
  unfold Dev.raiseIf; split <;> simp
@[simp] theorem Dev.raiseIf_regs (d : Dev) (c : Bool) (p : Nat) : (d.raiseIf c p).regs = d.regs := by
  unfold Dev.raiseIf; split <;> simp
@[simp] theorem Dev.raiseIf_sys (d : Dev) (c : Bool) (p : Nat) : (d.raiseIf c p).sys = d.sys := by
  unfold Dev.raiseIf; split <;> simp
@[simp] theorem Dev.raiseIf_leg (d : Dev) (c : Bool) (p : Nat) : (d.raiseIf c p).leg = d.leg := by
  unfold Dev.raiseIf; split <;> simp
@[simp] theorem Dev.raiseIf_tb (d : Dev) (c : Bool) (p : Nat) : (d.raiseIf c p).tb = d.tb := by
  unfold Dev.raiseIf; split <;> simp
@[simp] theorem Dev.raiseIf_adc (d : Dev) (c : Bool) (p : Nat) : (d.raiseIf c p).adc = d.adc := by
  unfold Dev.raiseIf; split <;> simp
@[simp] theorem Dev.raiseIf_le (d : Dev) (c : Bool) (p : Nat) : (d.raiseIf c p).le = d.le := by
  unfold Dev.raiseIf; split <;> simp
@[simp] theorem Dev.raiseIf_cmp (d : Dev) (c : Bool) (p : Nat) : (d.raiseIf c p).cmp = d.cmp := by
  unfold Dev.raiseIf; split <;> simp
@[simp] theorem Dev.raiseIf_pos (d : Dev) (c : Bool) (p : Nat) : (d.raiseIf c p).pos = d.pos := by
  unfold Dev.raiseIf; split <;> simp
@[simp] theorem Dev.raiseIf_cap (d : Dev) (c : Bool) (p : Nat) : (d.raiseIf c p).cap = d.cap := by
  unfold Dev.raiseIf; split <;> simp
@[simp] theorem Dev.raiseIf_mem (d : Dev) (c : Bool) (p : Nat) : (d.raiseIf c p).mem = d.mem := by
  unfold Dev.raiseIf; split <;> simp
@[simp] theorem Dev.raiseIf_core (d : Dev) (c : Bool) (p : Nat) : (d.raiseIf c p).core = d.core := by
  unfold Dev.raiseIf; split <;> simp
@[simp] theorem Dev.raiseIf_ic (d : Dev) (c : Bool) (p : Nat) : (d.raiseIf c p).ic = d.ic := by
  unfold Dev.raiseIf; split <;> simp
@[simp] theorem Dev.raiseIf_fc (d : Dev) (c : Bool) (p : Nat) : (d.raiseIf c p).fc = d.fc := by
  unfold Dev.raiseIf; split <;> simp
@[simp] theorem Dev.raiseIf_lnk (d : Dev) (c : Bool) (p : Nat) : (d.raiseIf c p).lnk = d.lnk := by
  unfold Dev.raiseIf; split <;> simp
@[simp] theorem Dev.raiseIf_fl (d : Dev) (c : Bool) (p : Nat) : (d.raiseIf c p).fl = d.fl := by
  unfold Dev.raiseIf; split <;> simp
@[simp] theorem Dev.raiseIf_sec (d : Dev) (c : Bool) (p : Nat) : (d.raiseIf c p).sec = d.sec := by
  unfold Dev.raiseIf; split <;> simp
@[simp] theorem Dev.raiseIf_hst (d : Dev) (c : Bool) (p : Nat) : (d.raiseIf c p).hst = d.hst := by
  unfold Dev.raiseIf; split <;> simp
@[simp] theorem Dev.raiseIf_jtag (d : Dev) (c : Bool) (p : Nat) : (d.raiseIf c p).jtag = d.jtag := by
  unfold Dev.raiseIf; split <;> simp
@[simp] theorem Dev.pulse_now (d : Dev) (l : Nat) : (d.pulse l).now = d.now := rfl
@[simp] theorem Dev.pulse_free (d : Dev) (l : Nat) : (d.pulse l).free = d.free := rfl
@[simp] theorem Dev.pulse_regs (d : Dev) (l : Nat) : (d.pulse l).regs = d.regs := rfl
@[simp] theorem Dev.pulse_sys (d : Dev) (l : Nat) : (d.pulse l).sys = d.sys := rfl
@[simp] theorem Dev.pulse_leg (d : Dev) (l : Nat) : (d.pulse l).leg = d.leg := rfl
@[simp] theorem Dev.pulse_tb (d : Dev) (l : Nat) : (d.pulse l).tb = d.tb := rfl
@[simp] theorem Dev.pulse_adc (d : Dev) (l : Nat) : (d.pulse l).adc = d.adc := rfl
@[simp] theorem Dev.pulse_le (d : Dev) (l : Nat) : (d.pulse l).le = d.le := rfl
@[simp] theorem Dev.pulse_cmp (d : Dev) (l : Nat) : (d.pulse l).cmp = d.cmp := rfl
@[simp] theorem Dev.pulse_pos (d : Dev) (l : Nat) : (d.pulse l).pos = d.pos := rfl
@[simp] theorem Dev.pulse_cap (d : Dev) (l : Nat) : (d.pulse l).cap = d.cap := rfl
@[simp] theorem Dev.pulse_mem (d : Dev) (l : Nat) : (d.pulse l).mem = d.mem := rfl
@[simp] theorem Dev.pulse_core (d : Dev) (l : Nat) : (d.pulse l).core = d.core := rfl
@[simp] theorem Dev.pulse_fab (d : Dev) (l : Nat) : (d.pulse l).fab = d.fab := rfl
@[simp] theorem Dev.pulse_ic (d : Dev) (l : Nat) : (d.pulse l).ic = d.ic := rfl
@[simp] theorem Dev.pulse_lnk (d : Dev) (l : Nat) : (d.pulse l).lnk = d.lnk := rfl
@[simp] theorem Dev.pulse_fl (d : Dev) (l : Nat) : (d.pulse l).fl = d.fl := rfl
@[simp] theorem Dev.pulse_sec (d : Dev) (l : Nat) : (d.pulse l).sec = d.sec := rfl
@[simp] theorem Dev.pulse_hst (d : Dev) (l : Nat) : (d.pulse l).hst = d.hst := rfl
@[simp] theorem Dev.pulse_jtag (d : Dev) (l : Nat) : (d.pulse l).jtag = d.jtag := rfl
@[simp] theorem Dev.lineOn_now (d : Dev) (l : Nat) : (d.lineOn l).now = d.now := by
  unfold Dev.lineOn; split <;> rfl
@[simp] theorem Dev.lineOn_free (d : Dev) (l : Nat) : (d.lineOn l).free = d.free := by
  unfold Dev.lineOn; split <;> rfl
@[simp] theorem Dev.lineOn_regs (d : Dev) (l : Nat) : (d.lineOn l).regs = d.regs := by
  unfold Dev.lineOn; split <;> rfl
@[simp] theorem Dev.lineOn_sys (d : Dev) (l : Nat) : (d.lineOn l).sys = d.sys := by
  unfold Dev.lineOn; split <;> rfl
@[simp] theorem Dev.lineOn_leg (d : Dev) (l : Nat) : (d.lineOn l).leg = d.leg := by
  unfold Dev.lineOn; split <;> rfl
@[simp] theorem Dev.lineOn_tb (d : Dev) (l : Nat) : (d.lineOn l).tb = d.tb := by
  unfold Dev.lineOn; split <;> rfl
@[simp] theorem Dev.lineOn_adc (d : Dev) (l : Nat) : (d.lineOn l).adc = d.adc := by
  unfold Dev.lineOn; split <;> rfl
@[simp] theorem Dev.lineOn_le (d : Dev) (l : Nat) : (d.lineOn l).le = d.le := by
  unfold Dev.lineOn; split <;> rfl
@[simp] theorem Dev.lineOn_cmp (d : Dev) (l : Nat) : (d.lineOn l).cmp = d.cmp := by
  unfold Dev.lineOn; split <;> rfl
@[simp] theorem Dev.lineOn_pos (d : Dev) (l : Nat) : (d.lineOn l).pos = d.pos := by
  unfold Dev.lineOn; split <;> rfl
@[simp] theorem Dev.lineOn_cap (d : Dev) (l : Nat) : (d.lineOn l).cap = d.cap := by
  unfold Dev.lineOn; split <;> rfl
@[simp] theorem Dev.lineOn_mem (d : Dev) (l : Nat) : (d.lineOn l).mem = d.mem := by
  unfold Dev.lineOn; split <;> rfl
@[simp] theorem Dev.lineOn_core (d : Dev) (l : Nat) : (d.lineOn l).core = d.core := by
  unfold Dev.lineOn; split <;> rfl
@[simp] theorem Dev.lineOn_fab (d : Dev) (l : Nat) : (d.lineOn l).fab = d.fab := by
  unfold Dev.lineOn; split <;> rfl
@[simp] theorem Dev.lineOn_ic (d : Dev) (l : Nat) : (d.lineOn l).ic = d.ic := by
  unfold Dev.lineOn; split <;> rfl
@[simp] theorem Dev.lineOn_lnk (d : Dev) (l : Nat) : (d.lineOn l).lnk = d.lnk := by
  unfold Dev.lineOn; split <;> rfl
@[simp] theorem Dev.lineOn_fl (d : Dev) (l : Nat) : (d.lineOn l).fl = d.fl := by
  unfold Dev.lineOn; split <;> rfl
@[simp] theorem Dev.lineOn_sec (d : Dev) (l : Nat) : (d.lineOn l).sec = d.sec := by
  unfold Dev.lineOn; split <;> rfl
@[simp] theorem Dev.lineOn_hst (d : Dev) (l : Nat) : (d.lineOn l).hst = d.hst := by
  unfold Dev.lineOn; split <;> rfl
@[simp] theorem Dev.lineOn_jtag (d : Dev) (l : Nat) : (d.lineOn l).jtag = d.jtag := by
  unfold Dev.lineOn; split <;> rfl
@[simp] theorem Dev.lineOff_now (d : Dev) (l : Nat) : (d.lineOff l).now = d.now := rfl
@[simp] theorem Dev.lineOff_free (d : Dev) (l : Nat) : (d.lineOff l).free = d.free := rfl
@[simp] theorem Dev.lineOff_regs (d : Dev) (l : Nat) : (d.lineOff l).regs = d.regs := rfl
@[simp] theorem Dev.lineOff_sys (d : Dev) (l : Nat) : (d.lineOff l).sys = d.sys := rfl
@[simp] theorem Dev.lineOff_leg (d : Dev) (l : Nat) : (d.lineOff l).leg = d.leg := rfl
@[simp] theorem Dev.lineOff_tb (d : Dev) (l : Nat) : (d.lineOff l).tb = d.tb := rfl
@[simp] theorem Dev.lineOff_adc (d : Dev) (l : Nat) : (d.lineOff l).adc = d.adc := rfl
@[simp] theorem Dev.lineOff_le (d : Dev) (l : Nat) : (d.lineOff l).le = d.le := rfl
@[simp] theorem Dev.lineOff_cmp (d : Dev) (l : Nat) : (d.lineOff l).cmp = d.cmp := rfl
@[simp] theorem Dev.lineOff_pos (d : Dev) (l : Nat) : (d.lineOff l).pos = d.pos := rfl
@[simp] theorem Dev.lineOff_cap (d : Dev) (l : Nat) : (d.lineOff l).cap = d.cap := rfl
@[simp] theorem Dev.lineOff_mem (d : Dev) (l : Nat) : (d.lineOff l).mem = d.mem := rfl
@[simp] theorem Dev.lineOff_core (d : Dev) (l : Nat) : (d.lineOff l).core = d.core := rfl
@[simp] theorem Dev.lineOff_fab (d : Dev) (l : Nat) : (d.lineOff l).fab = d.fab := rfl
@[simp] theorem Dev.lineOff_ic (d : Dev) (l : Nat) : (d.lineOff l).ic = d.ic := rfl
@[simp] theorem Dev.lineOff_lnk (d : Dev) (l : Nat) : (d.lineOff l).lnk = d.lnk := rfl
@[simp] theorem Dev.lineOff_fl (d : Dev) (l : Nat) : (d.lineOff l).fl = d.fl := rfl
@[simp] theorem Dev.lineOff_sec (d : Dev) (l : Nat) : (d.lineOff l).sec = d.sec := rfl
@[simp] theorem Dev.lineOff_hst (d : Dev) (l : Nat) : (d.lineOff l).hst = d.hst := rfl
@[simp] theorem Dev.lineOff_jtag (d : Dev) (l : Nat) : (d.lineOff l).jtag = d.jtag := rfl
@[simp] theorem Dev.line_now (d : Dev) (l : Nat) (on : Bool) : (d.line l on).now = d.now := by
  unfold Dev.line; split <;> simp
@[simp] theorem Dev.line_free (d : Dev) (l : Nat) (on : Bool) : (d.line l on).free = d.free := by
  unfold Dev.line; split <;> simp
@[simp] theorem Dev.line_regs (d : Dev) (l : Nat) (on : Bool) : (d.line l on).regs = d.regs := by
  unfold Dev.line; split <;> simp
@[simp] theorem Dev.line_sys (d : Dev) (l : Nat) (on : Bool) : (d.line l on).sys = d.sys := by
  unfold Dev.line; split <;> simp
@[simp] theorem Dev.line_leg (d : Dev) (l : Nat) (on : Bool) : (d.line l on).leg = d.leg := by
  unfold Dev.line; split <;> simp
@[simp] theorem Dev.line_tb (d : Dev) (l : Nat) (on : Bool) : (d.line l on).tb = d.tb := by
  unfold Dev.line; split <;> simp
@[simp] theorem Dev.line_adc (d : Dev) (l : Nat) (on : Bool) : (d.line l on).adc = d.adc := by
  unfold Dev.line; split <;> simp
@[simp] theorem Dev.line_le (d : Dev) (l : Nat) (on : Bool) : (d.line l on).le = d.le := by
  unfold Dev.line; split <;> simp
@[simp] theorem Dev.line_cmp (d : Dev) (l : Nat) (on : Bool) : (d.line l on).cmp = d.cmp := by
  unfold Dev.line; split <;> simp
@[simp] theorem Dev.line_pos (d : Dev) (l : Nat) (on : Bool) : (d.line l on).pos = d.pos := by
  unfold Dev.line; split <;> simp
@[simp] theorem Dev.line_cap (d : Dev) (l : Nat) (on : Bool) : (d.line l on).cap = d.cap := by
  unfold Dev.line; split <;> simp
@[simp] theorem Dev.line_mem (d : Dev) (l : Nat) (on : Bool) : (d.line l on).mem = d.mem := by
  unfold Dev.line; split <;> simp
@[simp] theorem Dev.line_core (d : Dev) (l : Nat) (on : Bool) : (d.line l on).core = d.core := by
  unfold Dev.line; split <;> simp
@[simp] theorem Dev.line_fab (d : Dev) (l : Nat) (on : Bool) : (d.line l on).fab = d.fab := by
  unfold Dev.line; split <;> simp
@[simp] theorem Dev.line_ic (d : Dev) (l : Nat) (on : Bool) : (d.line l on).ic = d.ic := by
  unfold Dev.line; split <;> simp
@[simp] theorem Dev.line_lnk (d : Dev) (l : Nat) (on : Bool) : (d.line l on).lnk = d.lnk := by
  unfold Dev.line; split <;> simp
@[simp] theorem Dev.line_fl (d : Dev) (l : Nat) (on : Bool) : (d.line l on).fl = d.fl := by
  unfold Dev.line; split <;> simp
@[simp] theorem Dev.line_sec (d : Dev) (l : Nat) (on : Bool) : (d.line l on).sec = d.sec := by
  unfold Dev.line; split <;> simp
@[simp] theorem Dev.line_hst (d : Dev) (l : Nat) (on : Bool) : (d.line l on).hst = d.hst := by
  unfold Dev.line; split <;> simp
@[simp] theorem Dev.line_jtag (d : Dev) (l : Nat) (on : Bool) : (d.line l on).jtag = d.jtag := by
  unfold Dev.line; split <;> simp
@[simp] theorem Dev.legU_now (d : Dev) (n : Fin 96) (g : LegSt → LegSt) : (d.legU n g).now = d.now := rfl
@[simp] theorem Dev.legU_free (d : Dev) (n : Fin 96) (g : LegSt → LegSt) : (d.legU n g).free = d.free := rfl
@[simp] theorem Dev.legU_regs (d : Dev) (n : Fin 96) (g : LegSt → LegSt) : (d.legU n g).regs = d.regs := rfl
@[simp] theorem Dev.legU_sys (d : Dev) (n : Fin 96) (g : LegSt → LegSt) : (d.legU n g).sys = d.sys := rfl
@[simp] theorem Dev.legU_tb (d : Dev) (n : Fin 96) (g : LegSt → LegSt) : (d.legU n g).tb = d.tb := rfl
@[simp] theorem Dev.legU_adc (d : Dev) (n : Fin 96) (g : LegSt → LegSt) : (d.legU n g).adc = d.adc := rfl
@[simp] theorem Dev.legU_le (d : Dev) (n : Fin 96) (g : LegSt → LegSt) : (d.legU n g).le = d.le := rfl
@[simp] theorem Dev.legU_cmp (d : Dev) (n : Fin 96) (g : LegSt → LegSt) : (d.legU n g).cmp = d.cmp := rfl
@[simp] theorem Dev.legU_pos (d : Dev) (n : Fin 96) (g : LegSt → LegSt) : (d.legU n g).pos = d.pos := rfl
@[simp] theorem Dev.legU_cap (d : Dev) (n : Fin 96) (g : LegSt → LegSt) : (d.legU n g).cap = d.cap := rfl
@[simp] theorem Dev.legU_mem (d : Dev) (n : Fin 96) (g : LegSt → LegSt) : (d.legU n g).mem = d.mem := rfl
@[simp] theorem Dev.legU_core (d : Dev) (n : Fin 96) (g : LegSt → LegSt) : (d.legU n g).core = d.core := rfl
@[simp] theorem Dev.legU_fab (d : Dev) (n : Fin 96) (g : LegSt → LegSt) : (d.legU n g).fab = d.fab := rfl
@[simp] theorem Dev.legU_ic (d : Dev) (n : Fin 96) (g : LegSt → LegSt) : (d.legU n g).ic = d.ic := rfl
@[simp] theorem Dev.legU_fc (d : Dev) (n : Fin 96) (g : LegSt → LegSt) : (d.legU n g).fc = d.fc := rfl
@[simp] theorem Dev.legU_lnk (d : Dev) (n : Fin 96) (g : LegSt → LegSt) : (d.legU n g).lnk = d.lnk := rfl
@[simp] theorem Dev.legU_fl (d : Dev) (n : Fin 96) (g : LegSt → LegSt) : (d.legU n g).fl = d.fl := rfl
@[simp] theorem Dev.legU_sec (d : Dev) (n : Fin 96) (g : LegSt → LegSt) : (d.legU n g).sec = d.sec := rfl
@[simp] theorem Dev.legU_hst (d : Dev) (n : Fin 96) (g : LegSt → LegSt) : (d.legU n g).hst = d.hst := rfl
@[simp] theorem Dev.legU_jtag (d : Dev) (n : Fin 96) (g : LegSt → LegSt) : (d.legU n g).jtag = d.jtag := rfl
@[simp] theorem Dev.tbU_now (d : Dev) (n : Fin 32) (g : TbSt → TbSt) : (d.tbU n g).now = d.now := rfl
@[simp] theorem Dev.tbU_free (d : Dev) (n : Fin 32) (g : TbSt → TbSt) : (d.tbU n g).free = d.free := rfl
@[simp] theorem Dev.tbU_regs (d : Dev) (n : Fin 32) (g : TbSt → TbSt) : (d.tbU n g).regs = d.regs := rfl
@[simp] theorem Dev.tbU_sys (d : Dev) (n : Fin 32) (g : TbSt → TbSt) : (d.tbU n g).sys = d.sys := rfl
@[simp] theorem Dev.tbU_leg (d : Dev) (n : Fin 32) (g : TbSt → TbSt) : (d.tbU n g).leg = d.leg := rfl
@[simp] theorem Dev.tbU_adc (d : Dev) (n : Fin 32) (g : TbSt → TbSt) : (d.tbU n g).adc = d.adc := rfl
@[simp] theorem Dev.tbU_le (d : Dev) (n : Fin 32) (g : TbSt → TbSt) : (d.tbU n g).le = d.le := rfl
@[simp] theorem Dev.tbU_cmp (d : Dev) (n : Fin 32) (g : TbSt → TbSt) : (d.tbU n g).cmp = d.cmp := rfl
@[simp] theorem Dev.tbU_pos (d : Dev) (n : Fin 32) (g : TbSt → TbSt) : (d.tbU n g).pos = d.pos := rfl
@[simp] theorem Dev.tbU_cap (d : Dev) (n : Fin 32) (g : TbSt → TbSt) : (d.tbU n g).cap = d.cap := rfl
@[simp] theorem Dev.tbU_mem (d : Dev) (n : Fin 32) (g : TbSt → TbSt) : (d.tbU n g).mem = d.mem := rfl
@[simp] theorem Dev.tbU_core (d : Dev) (n : Fin 32) (g : TbSt → TbSt) : (d.tbU n g).core = d.core := rfl
@[simp] theorem Dev.tbU_fab (d : Dev) (n : Fin 32) (g : TbSt → TbSt) : (d.tbU n g).fab = d.fab := rfl
@[simp] theorem Dev.tbU_ic (d : Dev) (n : Fin 32) (g : TbSt → TbSt) : (d.tbU n g).ic = d.ic := rfl
@[simp] theorem Dev.tbU_fc (d : Dev) (n : Fin 32) (g : TbSt → TbSt) : (d.tbU n g).fc = d.fc := rfl
@[simp] theorem Dev.tbU_lnk (d : Dev) (n : Fin 32) (g : TbSt → TbSt) : (d.tbU n g).lnk = d.lnk := rfl
@[simp] theorem Dev.tbU_fl (d : Dev) (n : Fin 32) (g : TbSt → TbSt) : (d.tbU n g).fl = d.fl := rfl
@[simp] theorem Dev.tbU_sec (d : Dev) (n : Fin 32) (g : TbSt → TbSt) : (d.tbU n g).sec = d.sec := rfl
@[simp] theorem Dev.tbU_hst (d : Dev) (n : Fin 32) (g : TbSt → TbSt) : (d.tbU n g).hst = d.hst := rfl
@[simp] theorem Dev.tbU_jtag (d : Dev) (n : Fin 32) (g : TbSt → TbSt) : (d.tbU n g).jtag = d.jtag := rfl
@[simp] theorem Dev.hstU_now (d : Dev) (g : HstSt → HstSt) : (d.hstU g).now = d.now := rfl
@[simp] theorem Dev.hstU_free (d : Dev) (g : HstSt → HstSt) : (d.hstU g).free = d.free := rfl
@[simp] theorem Dev.hstU_regs (d : Dev) (g : HstSt → HstSt) : (d.hstU g).regs = d.regs := rfl
@[simp] theorem Dev.hstU_sys (d : Dev) (g : HstSt → HstSt) : (d.hstU g).sys = d.sys := rfl
@[simp] theorem Dev.hstU_leg (d : Dev) (g : HstSt → HstSt) : (d.hstU g).leg = d.leg := rfl
@[simp] theorem Dev.hstU_tb (d : Dev) (g : HstSt → HstSt) : (d.hstU g).tb = d.tb := rfl
@[simp] theorem Dev.hstU_adc (d : Dev) (g : HstSt → HstSt) : (d.hstU g).adc = d.adc := rfl
@[simp] theorem Dev.hstU_le (d : Dev) (g : HstSt → HstSt) : (d.hstU g).le = d.le := rfl
@[simp] theorem Dev.hstU_cmp (d : Dev) (g : HstSt → HstSt) : (d.hstU g).cmp = d.cmp := rfl
@[simp] theorem Dev.hstU_pos (d : Dev) (g : HstSt → HstSt) : (d.hstU g).pos = d.pos := rfl
@[simp] theorem Dev.hstU_cap (d : Dev) (g : HstSt → HstSt) : (d.hstU g).cap = d.cap := rfl
@[simp] theorem Dev.hstU_mem (d : Dev) (g : HstSt → HstSt) : (d.hstU g).mem = d.mem := rfl
@[simp] theorem Dev.hstU_core (d : Dev) (g : HstSt → HstSt) : (d.hstU g).core = d.core := rfl
@[simp] theorem Dev.hstU_fab (d : Dev) (g : HstSt → HstSt) : (d.hstU g).fab = d.fab := rfl
@[simp] theorem Dev.hstU_ic (d : Dev) (g : HstSt → HstSt) : (d.hstU g).ic = d.ic := rfl
@[simp] theorem Dev.hstU_fc (d : Dev) (g : HstSt → HstSt) : (d.hstU g).fc = d.fc := rfl
@[simp] theorem Dev.hstU_lnk (d : Dev) (g : HstSt → HstSt) : (d.hstU g).lnk = d.lnk := rfl
@[simp] theorem Dev.hstU_fl (d : Dev) (g : HstSt → HstSt) : (d.hstU g).fl = d.fl := rfl
@[simp] theorem Dev.hstU_sec (d : Dev) (g : HstSt → HstSt) : (d.hstU g).sec = d.sec := rfl
@[simp] theorem Dev.hstU_jtag (d : Dev) (g : HstSt → HstSt) : (d.hstU g).jtag = d.jtag := rfl
@[simp] theorem Dev.posU_now (d : Dev) (n : Fin 8) (g : PosSt → PosSt) : (d.posU n g).now = d.now := rfl
@[simp] theorem Dev.posU_free (d : Dev) (n : Fin 8) (g : PosSt → PosSt) : (d.posU n g).free = d.free := rfl
@[simp] theorem Dev.posU_regs (d : Dev) (n : Fin 8) (g : PosSt → PosSt) : (d.posU n g).regs = d.regs := rfl
@[simp] theorem Dev.posU_sys (d : Dev) (n : Fin 8) (g : PosSt → PosSt) : (d.posU n g).sys = d.sys := rfl
@[simp] theorem Dev.posU_leg (d : Dev) (n : Fin 8) (g : PosSt → PosSt) : (d.posU n g).leg = d.leg := rfl
@[simp] theorem Dev.posU_tb (d : Dev) (n : Fin 8) (g : PosSt → PosSt) : (d.posU n g).tb = d.tb := rfl
@[simp] theorem Dev.posU_adc (d : Dev) (n : Fin 8) (g : PosSt → PosSt) : (d.posU n g).adc = d.adc := rfl
@[simp] theorem Dev.posU_le (d : Dev) (n : Fin 8) (g : PosSt → PosSt) : (d.posU n g).le = d.le := rfl
@[simp] theorem Dev.posU_cmp (d : Dev) (n : Fin 8) (g : PosSt → PosSt) : (d.posU n g).cmp = d.cmp := rfl
@[simp] theorem Dev.posU_cap (d : Dev) (n : Fin 8) (g : PosSt → PosSt) : (d.posU n g).cap = d.cap := rfl
@[simp] theorem Dev.posU_mem (d : Dev) (n : Fin 8) (g : PosSt → PosSt) : (d.posU n g).mem = d.mem := rfl
@[simp] theorem Dev.posU_core (d : Dev) (n : Fin 8) (g : PosSt → PosSt) : (d.posU n g).core = d.core := rfl
@[simp] theorem Dev.posU_fab (d : Dev) (n : Fin 8) (g : PosSt → PosSt) : (d.posU n g).fab = d.fab := rfl
@[simp] theorem Dev.posU_ic (d : Dev) (n : Fin 8) (g : PosSt → PosSt) : (d.posU n g).ic = d.ic := rfl
@[simp] theorem Dev.posU_fc (d : Dev) (n : Fin 8) (g : PosSt → PosSt) : (d.posU n g).fc = d.fc := rfl
@[simp] theorem Dev.posU_lnk (d : Dev) (n : Fin 8) (g : PosSt → PosSt) : (d.posU n g).lnk = d.lnk := rfl
@[simp] theorem Dev.posU_fl (d : Dev) (n : Fin 8) (g : PosSt → PosSt) : (d.posU n g).fl = d.fl := rfl
@[simp] theorem Dev.posU_sec (d : Dev) (n : Fin 8) (g : PosSt → PosSt) : (d.posU n g).sec = d.sec := rfl
@[simp] theorem Dev.posU_hst (d : Dev) (n : Fin 8) (g : PosSt → PosSt) : (d.posU n g).hst = d.hst := rfl
@[simp] theorem Dev.posU_jtag (d : Dev) (n : Fin 8) (g : PosSt → PosSt) : (d.posU n g).jtag = d.jtag := rfl
@[simp] theorem Dev.coreU_now (d : Dev) (c : Fin 5) (g : CoreSt → CoreSt) : (d.coreU c g).now = d.now := rfl
@[simp] theorem Dev.coreU_free (d : Dev) (c : Fin 5) (g : CoreSt → CoreSt) : (d.coreU c g).free = d.free := rfl
@[simp] theorem Dev.coreU_regs (d : Dev) (c : Fin 5) (g : CoreSt → CoreSt) : (d.coreU c g).regs = d.regs := rfl
@[simp] theorem Dev.coreU_sys (d : Dev) (c : Fin 5) (g : CoreSt → CoreSt) : (d.coreU c g).sys = d.sys := rfl
@[simp] theorem Dev.coreU_leg (d : Dev) (c : Fin 5) (g : CoreSt → CoreSt) : (d.coreU c g).leg = d.leg := rfl
@[simp] theorem Dev.coreU_tb (d : Dev) (c : Fin 5) (g : CoreSt → CoreSt) : (d.coreU c g).tb = d.tb := rfl
@[simp] theorem Dev.coreU_adc (d : Dev) (c : Fin 5) (g : CoreSt → CoreSt) : (d.coreU c g).adc = d.adc := rfl
@[simp] theorem Dev.coreU_le (d : Dev) (c : Fin 5) (g : CoreSt → CoreSt) : (d.coreU c g).le = d.le := rfl
@[simp] theorem Dev.coreU_cmp (d : Dev) (c : Fin 5) (g : CoreSt → CoreSt) : (d.coreU c g).cmp = d.cmp := rfl
@[simp] theorem Dev.coreU_pos (d : Dev) (c : Fin 5) (g : CoreSt → CoreSt) : (d.coreU c g).pos = d.pos := rfl
@[simp] theorem Dev.coreU_cap (d : Dev) (c : Fin 5) (g : CoreSt → CoreSt) : (d.coreU c g).cap = d.cap := rfl
@[simp] theorem Dev.coreU_mem (d : Dev) (c : Fin 5) (g : CoreSt → CoreSt) : (d.coreU c g).mem = d.mem := rfl
@[simp] theorem Dev.coreU_fab (d : Dev) (c : Fin 5) (g : CoreSt → CoreSt) : (d.coreU c g).fab = d.fab := rfl
@[simp] theorem Dev.coreU_ic (d : Dev) (c : Fin 5) (g : CoreSt → CoreSt) : (d.coreU c g).ic = d.ic := rfl
@[simp] theorem Dev.coreU_fc (d : Dev) (c : Fin 5) (g : CoreSt → CoreSt) : (d.coreU c g).fc = d.fc := rfl
@[simp] theorem Dev.coreU_lnk (d : Dev) (c : Fin 5) (g : CoreSt → CoreSt) : (d.coreU c g).lnk = d.lnk := rfl
@[simp] theorem Dev.coreU_fl (d : Dev) (c : Fin 5) (g : CoreSt → CoreSt) : (d.coreU c g).fl = d.fl := rfl
@[simp] theorem Dev.coreU_sec (d : Dev) (c : Fin 5) (g : CoreSt → CoreSt) : (d.coreU c g).sec = d.sec := rfl
@[simp] theorem Dev.coreU_hst (d : Dev) (c : Fin 5) (g : CoreSt → CoreSt) : (d.coreU c g).hst = d.hst := rfl
@[simp] theorem Dev.coreU_jtag (d : Dev) (c : Fin 5) (g : CoreSt → CoreSt) : (d.coreU c g).jtag = d.jtag := rfl
@[simp] theorem Dev.setW_now (d : Dev) (c : Fin 5) (r : Fin 16) (v : Word) : (d.setW c r v).now = d.now := rfl
@[simp] theorem Dev.setW_free (d : Dev) (c : Fin 5) (r : Fin 16) (v : Word) : (d.setW c r v).free = d.free := rfl
@[simp] theorem Dev.setW_regs (d : Dev) (c : Fin 5) (r : Fin 16) (v : Word) : (d.setW c r v).regs = d.regs := rfl
@[simp] theorem Dev.setW_sys (d : Dev) (c : Fin 5) (r : Fin 16) (v : Word) : (d.setW c r v).sys = d.sys := rfl
@[simp] theorem Dev.setW_leg (d : Dev) (c : Fin 5) (r : Fin 16) (v : Word) : (d.setW c r v).leg = d.leg := rfl
@[simp] theorem Dev.setW_tb (d : Dev) (c : Fin 5) (r : Fin 16) (v : Word) : (d.setW c r v).tb = d.tb := rfl
@[simp] theorem Dev.setW_adc (d : Dev) (c : Fin 5) (r : Fin 16) (v : Word) : (d.setW c r v).adc = d.adc := rfl
@[simp] theorem Dev.setW_le (d : Dev) (c : Fin 5) (r : Fin 16) (v : Word) : (d.setW c r v).le = d.le := rfl
@[simp] theorem Dev.setW_cmp (d : Dev) (c : Fin 5) (r : Fin 16) (v : Word) : (d.setW c r v).cmp = d.cmp := rfl
@[simp] theorem Dev.setW_pos (d : Dev) (c : Fin 5) (r : Fin 16) (v : Word) : (d.setW c r v).pos = d.pos := rfl
@[simp] theorem Dev.setW_cap (d : Dev) (c : Fin 5) (r : Fin 16) (v : Word) : (d.setW c r v).cap = d.cap := rfl
@[simp] theorem Dev.setW_mem (d : Dev) (c : Fin 5) (r : Fin 16) (v : Word) : (d.setW c r v).mem = d.mem := rfl
@[simp] theorem Dev.setW_fab (d : Dev) (c : Fin 5) (r : Fin 16) (v : Word) : (d.setW c r v).fab = d.fab := rfl
@[simp] theorem Dev.setW_ic (d : Dev) (c : Fin 5) (r : Fin 16) (v : Word) : (d.setW c r v).ic = d.ic := rfl
@[simp] theorem Dev.setW_fc (d : Dev) (c : Fin 5) (r : Fin 16) (v : Word) : (d.setW c r v).fc = d.fc := rfl
@[simp] theorem Dev.setW_lnk (d : Dev) (c : Fin 5) (r : Fin 16) (v : Word) : (d.setW c r v).lnk = d.lnk := rfl
@[simp] theorem Dev.setW_fl (d : Dev) (c : Fin 5) (r : Fin 16) (v : Word) : (d.setW c r v).fl = d.fl := rfl
@[simp] theorem Dev.setW_sec (d : Dev) (c : Fin 5) (r : Fin 16) (v : Word) : (d.setW c r v).sec = d.sec := rfl
@[simp] theorem Dev.setW_hst (d : Dev) (c : Fin 5) (r : Fin 16) (v : Word) : (d.setW c r v).hst = d.hst := rfl
@[simp] theorem Dev.setW_jtag (d : Dev) (c : Fin 5) (r : Fin 16) (v : Word) : (d.setW c r v).jtag = d.jtag := rfl
@[simp] theorem Dev.setFr_now (d : Dev) (c : Fin 5) (r : Fin 8) (v : Word) : (d.setFr c r v).now = d.now := rfl
@[simp] theorem Dev.setFr_free (d : Dev) (c : Fin 5) (r : Fin 8) (v : Word) : (d.setFr c r v).free = d.free := rfl
@[simp] theorem Dev.setFr_regs (d : Dev) (c : Fin 5) (r : Fin 8) (v : Word) : (d.setFr c r v).regs = d.regs := rfl
@[simp] theorem Dev.setFr_sys (d : Dev) (c : Fin 5) (r : Fin 8) (v : Word) : (d.setFr c r v).sys = d.sys := rfl
@[simp] theorem Dev.setFr_leg (d : Dev) (c : Fin 5) (r : Fin 8) (v : Word) : (d.setFr c r v).leg = d.leg := rfl
@[simp] theorem Dev.setFr_tb (d : Dev) (c : Fin 5) (r : Fin 8) (v : Word) : (d.setFr c r v).tb = d.tb := rfl
@[simp] theorem Dev.setFr_adc (d : Dev) (c : Fin 5) (r : Fin 8) (v : Word) : (d.setFr c r v).adc = d.adc := rfl
@[simp] theorem Dev.setFr_le (d : Dev) (c : Fin 5) (r : Fin 8) (v : Word) : (d.setFr c r v).le = d.le := rfl
@[simp] theorem Dev.setFr_cmp (d : Dev) (c : Fin 5) (r : Fin 8) (v : Word) : (d.setFr c r v).cmp = d.cmp := rfl
@[simp] theorem Dev.setFr_pos (d : Dev) (c : Fin 5) (r : Fin 8) (v : Word) : (d.setFr c r v).pos = d.pos := rfl
@[simp] theorem Dev.setFr_cap (d : Dev) (c : Fin 5) (r : Fin 8) (v : Word) : (d.setFr c r v).cap = d.cap := rfl
@[simp] theorem Dev.setFr_mem (d : Dev) (c : Fin 5) (r : Fin 8) (v : Word) : (d.setFr c r v).mem = d.mem := rfl
@[simp] theorem Dev.setFr_fab (d : Dev) (c : Fin 5) (r : Fin 8) (v : Word) : (d.setFr c r v).fab = d.fab := rfl
@[simp] theorem Dev.setFr_ic (d : Dev) (c : Fin 5) (r : Fin 8) (v : Word) : (d.setFr c r v).ic = d.ic := rfl
@[simp] theorem Dev.setFr_fc (d : Dev) (c : Fin 5) (r : Fin 8) (v : Word) : (d.setFr c r v).fc = d.fc := rfl
@[simp] theorem Dev.setFr_lnk (d : Dev) (c : Fin 5) (r : Fin 8) (v : Word) : (d.setFr c r v).lnk = d.lnk := rfl
@[simp] theorem Dev.setFr_fl (d : Dev) (c : Fin 5) (r : Fin 8) (v : Word) : (d.setFr c r v).fl = d.fl := rfl
@[simp] theorem Dev.setFr_sec (d : Dev) (c : Fin 5) (r : Fin 8) (v : Word) : (d.setFr c r v).sec = d.sec := rfl
@[simp] theorem Dev.setFr_hst (d : Dev) (c : Fin 5) (r : Fin 8) (v : Word) : (d.setFr c r v).hst = d.hst := rfl
@[simp] theorem Dev.setFr_jtag (d : Dev) (c : Fin 5) (r : Fin 8) (v : Word) : (d.setFr c r v).jtag = d.jtag := rfl
@[simp] theorem Dev.setPsw_now (d : Dev) (c : Fin 5) (v : Word) : (d.setPsw c v).now = d.now := rfl
@[simp] theorem Dev.setPsw_free (d : Dev) (c : Fin 5) (v : Word) : (d.setPsw c v).free = d.free := rfl
@[simp] theorem Dev.setPsw_regs (d : Dev) (c : Fin 5) (v : Word) : (d.setPsw c v).regs = d.regs := rfl
@[simp] theorem Dev.setPsw_sys (d : Dev) (c : Fin 5) (v : Word) : (d.setPsw c v).sys = d.sys := rfl
@[simp] theorem Dev.setPsw_leg (d : Dev) (c : Fin 5) (v : Word) : (d.setPsw c v).leg = d.leg := rfl
@[simp] theorem Dev.setPsw_tb (d : Dev) (c : Fin 5) (v : Word) : (d.setPsw c v).tb = d.tb := rfl
@[simp] theorem Dev.setPsw_adc (d : Dev) (c : Fin 5) (v : Word) : (d.setPsw c v).adc = d.adc := rfl
@[simp] theorem Dev.setPsw_le (d : Dev) (c : Fin 5) (v : Word) : (d.setPsw c v).le = d.le := rfl
@[simp] theorem Dev.setPsw_cmp (d : Dev) (c : Fin 5) (v : Word) : (d.setPsw c v).cmp = d.cmp := rfl
@[simp] theorem Dev.setPsw_pos (d : Dev) (c : Fin 5) (v : Word) : (d.setPsw c v).pos = d.pos := rfl
@[simp] theorem Dev.setPsw_cap (d : Dev) (c : Fin 5) (v : Word) : (d.setPsw c v).cap = d.cap := rfl
@[simp] theorem Dev.setPsw_mem (d : Dev) (c : Fin 5) (v : Word) : (d.setPsw c v).mem = d.mem := rfl
@[simp] theorem Dev.setPsw_fab (d : Dev) (c : Fin 5) (v : Word) : (d.setPsw c v).fab = d.fab := rfl
@[simp] theorem Dev.setPsw_ic (d : Dev) (c : Fin 5) (v : Word) : (d.setPsw c v).ic = d.ic := rfl
@[simp] theorem Dev.setPsw_fc (d : Dev) (c : Fin 5) (v : Word) : (d.setPsw c v).fc = d.fc := rfl
@[simp] theorem Dev.setPsw_lnk (d : Dev) (c : Fin 5) (v : Word) : (d.setPsw c v).lnk = d.lnk := rfl
@[simp] theorem Dev.setPsw_fl (d : Dev) (c : Fin 5) (v : Word) : (d.setPsw c v).fl = d.fl := rfl
@[simp] theorem Dev.setPsw_sec (d : Dev) (c : Fin 5) (v : Word) : (d.setPsw c v).sec = d.sec := rfl
@[simp] theorem Dev.setPsw_hst (d : Dev) (c : Fin 5) (v : Word) : (d.setPsw c v).hst = d.hst := rfl
@[simp] theorem Dev.setPsw_jtag (d : Dev) (c : Fin 5) (v : Word) : (d.setPsw c v).jtag = d.jtag := rfl
@[simp] theorem Dev.tagPulse_now (d : Dev) (h : Fin 70) (n : Nat) : (d.tagPulse h n).now = d.now := by
  simp [Dev.tagPulse]
@[simp] theorem Dev.tagPulse_free (d : Dev) (h : Fin 70) (n : Nat) : (d.tagPulse h n).free = d.free := by
  simp [Dev.tagPulse]
@[simp] theorem Dev.tagPulse_leg (d : Dev) (h : Fin 70) (n : Nat) : (d.tagPulse h n).leg = d.leg := by
  simp [Dev.tagPulse]
@[simp] theorem Dev.tagPulse_tb (d : Dev) (h : Fin 70) (n : Nat) : (d.tagPulse h n).tb = d.tb := by
  simp [Dev.tagPulse]
@[simp] theorem Dev.tagPulse_adc (d : Dev) (h : Fin 70) (n : Nat) : (d.tagPulse h n).adc = d.adc := by
  simp [Dev.tagPulse]
@[simp] theorem Dev.tagPulse_le (d : Dev) (h : Fin 70) (n : Nat) : (d.tagPulse h n).le = d.le := by
  simp [Dev.tagPulse]
@[simp] theorem Dev.tagPulse_cmp (d : Dev) (h : Fin 70) (n : Nat) : (d.tagPulse h n).cmp = d.cmp := by
  simp [Dev.tagPulse]
@[simp] theorem Dev.tagPulse_pos (d : Dev) (h : Fin 70) (n : Nat) : (d.tagPulse h n).pos = d.pos := by
  simp [Dev.tagPulse]
@[simp] theorem Dev.tagPulse_cap (d : Dev) (h : Fin 70) (n : Nat) : (d.tagPulse h n).cap = d.cap := by
  simp [Dev.tagPulse]
@[simp] theorem Dev.tagPulse_mem (d : Dev) (h : Fin 70) (n : Nat) : (d.tagPulse h n).mem = d.mem := by
  simp [Dev.tagPulse]
@[simp] theorem Dev.tagPulse_core (d : Dev) (h : Fin 70) (n : Nat) : (d.tagPulse h n).core = d.core := by
  simp [Dev.tagPulse]
@[simp] theorem Dev.tagPulse_fab (d : Dev) (h : Fin 70) (n : Nat) : (d.tagPulse h n).fab = d.fab := by
  simp [Dev.tagPulse]
@[simp] theorem Dev.tagPulse_ic (d : Dev) (h : Fin 70) (n : Nat) : (d.tagPulse h n).ic = d.ic := by
  simp [Dev.tagPulse]
@[simp] theorem Dev.tagPulse_fc (d : Dev) (h : Fin 70) (n : Nat) : (d.tagPulse h n).fc = d.fc := by
  simp [Dev.tagPulse]
@[simp] theorem Dev.tagPulse_lnk (d : Dev) (h : Fin 70) (n : Nat) : (d.tagPulse h n).lnk = d.lnk := by
  simp [Dev.tagPulse]
@[simp] theorem Dev.tagPulse_fl (d : Dev) (h : Fin 70) (n : Nat) : (d.tagPulse h n).fl = d.fl := by
  simp [Dev.tagPulse]
@[simp] theorem Dev.tagPulse_sec (d : Dev) (h : Fin 70) (n : Nat) : (d.tagPulse h n).sec = d.sec := by
  simp [Dev.tagPulse]
@[simp] theorem Dev.tagPulse_hst (d : Dev) (h : Fin 70) (n : Nat) : (d.tagPulse h n).hst = d.hst := by
  simp [Dev.tagPulse]
@[simp] theorem Dev.tagPulse_jtag (d : Dev) (h : Fin 70) (n : Nat) : (d.tagPulse h n).jtag = d.jtag := by
  simp [Dev.tagPulse]
@[simp] theorem Dev.adcU_now (d : Dev) (n : Fin 32) (g : AdcSt → AdcSt) : (d.adcU n g).now = d.now := rfl
@[simp] theorem Dev.adcU_free (d : Dev) (n : Fin 32) (g : AdcSt → AdcSt) : (d.adcU n g).free = d.free := rfl
@[simp] theorem Dev.adcU_regs (d : Dev) (n : Fin 32) (g : AdcSt → AdcSt) : (d.adcU n g).regs = d.regs := rfl
@[simp] theorem Dev.adcU_sys (d : Dev) (n : Fin 32) (g : AdcSt → AdcSt) : (d.adcU n g).sys = d.sys := rfl
@[simp] theorem Dev.adcU_leg (d : Dev) (n : Fin 32) (g : AdcSt → AdcSt) : (d.adcU n g).leg = d.leg := rfl
@[simp] theorem Dev.adcU_tb (d : Dev) (n : Fin 32) (g : AdcSt → AdcSt) : (d.adcU n g).tb = d.tb := rfl
@[simp] theorem Dev.adcU_le (d : Dev) (n : Fin 32) (g : AdcSt → AdcSt) : (d.adcU n g).le = d.le := rfl
@[simp] theorem Dev.adcU_cmp (d : Dev) (n : Fin 32) (g : AdcSt → AdcSt) : (d.adcU n g).cmp = d.cmp := rfl
@[simp] theorem Dev.adcU_pos (d : Dev) (n : Fin 32) (g : AdcSt → AdcSt) : (d.adcU n g).pos = d.pos := rfl
@[simp] theorem Dev.adcU_cap (d : Dev) (n : Fin 32) (g : AdcSt → AdcSt) : (d.adcU n g).cap = d.cap := rfl
@[simp] theorem Dev.adcU_mem (d : Dev) (n : Fin 32) (g : AdcSt → AdcSt) : (d.adcU n g).mem = d.mem := rfl
@[simp] theorem Dev.adcU_core (d : Dev) (n : Fin 32) (g : AdcSt → AdcSt) : (d.adcU n g).core = d.core := rfl
@[simp] theorem Dev.adcU_fab (d : Dev) (n : Fin 32) (g : AdcSt → AdcSt) : (d.adcU n g).fab = d.fab := rfl
@[simp] theorem Dev.adcU_ic (d : Dev) (n : Fin 32) (g : AdcSt → AdcSt) : (d.adcU n g).ic = d.ic := rfl
@[simp] theorem Dev.adcU_fc (d : Dev) (n : Fin 32) (g : AdcSt → AdcSt) : (d.adcU n g).fc = d.fc := rfl
@[simp] theorem Dev.adcU_lnk (d : Dev) (n : Fin 32) (g : AdcSt → AdcSt) : (d.adcU n g).lnk = d.lnk := rfl
@[simp] theorem Dev.adcU_fl (d : Dev) (n : Fin 32) (g : AdcSt → AdcSt) : (d.adcU n g).fl = d.fl := rfl
@[simp] theorem Dev.adcU_sec (d : Dev) (n : Fin 32) (g : AdcSt → AdcSt) : (d.adcU n g).sec = d.sec := rfl
@[simp] theorem Dev.adcU_hst (d : Dev) (n : Fin 32) (g : AdcSt → AdcSt) : (d.adcU n g).hst = d.hst := rfl
@[simp] theorem Dev.adcU_jtag (d : Dev) (n : Fin 32) (g : AdcSt → AdcSt) : (d.adcU n g).jtag = d.jtag := rfl
@[simp] theorem Dev.lnkU_now (d : Dev) (g : LnkSt → LnkSt) : (d.lnkU g).now = d.now := rfl
@[simp] theorem Dev.lnkU_free (d : Dev) (g : LnkSt → LnkSt) : (d.lnkU g).free = d.free := rfl
@[simp] theorem Dev.lnkU_regs (d : Dev) (g : LnkSt → LnkSt) : (d.lnkU g).regs = d.regs := rfl
@[simp] theorem Dev.lnkU_sys (d : Dev) (g : LnkSt → LnkSt) : (d.lnkU g).sys = d.sys := rfl
@[simp] theorem Dev.lnkU_leg (d : Dev) (g : LnkSt → LnkSt) : (d.lnkU g).leg = d.leg := rfl
@[simp] theorem Dev.lnkU_tb (d : Dev) (g : LnkSt → LnkSt) : (d.lnkU g).tb = d.tb := rfl
@[simp] theorem Dev.lnkU_adc (d : Dev) (g : LnkSt → LnkSt) : (d.lnkU g).adc = d.adc := rfl
@[simp] theorem Dev.lnkU_le (d : Dev) (g : LnkSt → LnkSt) : (d.lnkU g).le = d.le := rfl
@[simp] theorem Dev.lnkU_cmp (d : Dev) (g : LnkSt → LnkSt) : (d.lnkU g).cmp = d.cmp := rfl
@[simp] theorem Dev.lnkU_pos (d : Dev) (g : LnkSt → LnkSt) : (d.lnkU g).pos = d.pos := rfl
@[simp] theorem Dev.lnkU_cap (d : Dev) (g : LnkSt → LnkSt) : (d.lnkU g).cap = d.cap := rfl
@[simp] theorem Dev.lnkU_mem (d : Dev) (g : LnkSt → LnkSt) : (d.lnkU g).mem = d.mem := rfl
@[simp] theorem Dev.lnkU_core (d : Dev) (g : LnkSt → LnkSt) : (d.lnkU g).core = d.core := rfl
@[simp] theorem Dev.lnkU_fab (d : Dev) (g : LnkSt → LnkSt) : (d.lnkU g).fab = d.fab := rfl
@[simp] theorem Dev.lnkU_ic (d : Dev) (g : LnkSt → LnkSt) : (d.lnkU g).ic = d.ic := rfl
@[simp] theorem Dev.lnkU_fc (d : Dev) (g : LnkSt → LnkSt) : (d.lnkU g).fc = d.fc := rfl
@[simp] theorem Dev.lnkU_fl (d : Dev) (g : LnkSt → LnkSt) : (d.lnkU g).fl = d.fl := rfl
@[simp] theorem Dev.lnkU_sec (d : Dev) (g : LnkSt → LnkSt) : (d.lnkU g).sec = d.sec := rfl
@[simp] theorem Dev.lnkU_hst (d : Dev) (g : LnkSt → LnkSt) : (d.lnkU g).hst = d.hst := rfl
@[simp] theorem Dev.lnkU_jtag (d : Dev) (g : LnkSt → LnkSt) : (d.lnkU g).jtag = d.jtag := rfl
@[simp] theorem Dev.portU_now (d : Dev) (p : Fin 2) (g : PortSt → PortSt) : (d.portU p g).now = d.now := rfl
@[simp] theorem Dev.portU_free (d : Dev) (p : Fin 2) (g : PortSt → PortSt) : (d.portU p g).free = d.free := rfl
@[simp] theorem Dev.portU_regs (d : Dev) (p : Fin 2) (g : PortSt → PortSt) : (d.portU p g).regs = d.regs := rfl
@[simp] theorem Dev.portU_sys (d : Dev) (p : Fin 2) (g : PortSt → PortSt) : (d.portU p g).sys = d.sys := rfl
@[simp] theorem Dev.portU_leg (d : Dev) (p : Fin 2) (g : PortSt → PortSt) : (d.portU p g).leg = d.leg := rfl
@[simp] theorem Dev.portU_tb (d : Dev) (p : Fin 2) (g : PortSt → PortSt) : (d.portU p g).tb = d.tb := rfl
@[simp] theorem Dev.portU_adc (d : Dev) (p : Fin 2) (g : PortSt → PortSt) : (d.portU p g).adc = d.adc := rfl
@[simp] theorem Dev.portU_le (d : Dev) (p : Fin 2) (g : PortSt → PortSt) : (d.portU p g).le = d.le := rfl
@[simp] theorem Dev.portU_cmp (d : Dev) (p : Fin 2) (g : PortSt → PortSt) : (d.portU p g).cmp = d.cmp := rfl
@[simp] theorem Dev.portU_pos (d : Dev) (p : Fin 2) (g : PortSt → PortSt) : (d.portU p g).pos = d.pos := rfl
@[simp] theorem Dev.portU_cap (d : Dev) (p : Fin 2) (g : PortSt → PortSt) : (d.portU p g).cap = d.cap := rfl
@[simp] theorem Dev.portU_mem (d : Dev) (p : Fin 2) (g : PortSt → PortSt) : (d.portU p g).mem = d.mem := rfl
@[simp] theorem Dev.portU_core (d : Dev) (p : Fin 2) (g : PortSt → PortSt) : (d.portU p g).core = d.core := rfl
@[simp] theorem Dev.portU_fab (d : Dev) (p : Fin 2) (g : PortSt → PortSt) : (d.portU p g).fab = d.fab := rfl
@[simp] theorem Dev.portU_ic (d : Dev) (p : Fin 2) (g : PortSt → PortSt) : (d.portU p g).ic = d.ic := rfl
@[simp] theorem Dev.portU_fc (d : Dev) (p : Fin 2) (g : PortSt → PortSt) : (d.portU p g).fc = d.fc := rfl
@[simp] theorem Dev.portU_fl (d : Dev) (p : Fin 2) (g : PortSt → PortSt) : (d.portU p g).fl = d.fl := rfl
@[simp] theorem Dev.portU_sec (d : Dev) (p : Fin 2) (g : PortSt → PortSt) : (d.portU p g).sec = d.sec := rfl
@[simp] theorem Dev.portU_hst (d : Dev) (p : Fin 2) (g : PortSt → PortSt) : (d.portU p g).hst = d.hst := rfl
@[simp] theorem Dev.portU_jtag (d : Dev) (p : Fin 2) (g : PortSt → PortSt) : (d.portU p g).jtag = d.jtag := rfl
@[simp] theorem Dev.flU_now (d : Dev) (g : FlashSt → FlashSt) : (d.flU g).now = d.now := rfl
@[simp] theorem Dev.flU_free (d : Dev) (g : FlashSt → FlashSt) : (d.flU g).free = d.free := rfl
@[simp] theorem Dev.flU_regs (d : Dev) (g : FlashSt → FlashSt) : (d.flU g).regs = d.regs := rfl
@[simp] theorem Dev.flU_sys (d : Dev) (g : FlashSt → FlashSt) : (d.flU g).sys = d.sys := rfl
@[simp] theorem Dev.flU_leg (d : Dev) (g : FlashSt → FlashSt) : (d.flU g).leg = d.leg := rfl
@[simp] theorem Dev.flU_tb (d : Dev) (g : FlashSt → FlashSt) : (d.flU g).tb = d.tb := rfl
@[simp] theorem Dev.flU_adc (d : Dev) (g : FlashSt → FlashSt) : (d.flU g).adc = d.adc := rfl
@[simp] theorem Dev.flU_le (d : Dev) (g : FlashSt → FlashSt) : (d.flU g).le = d.le := rfl
@[simp] theorem Dev.flU_cmp (d : Dev) (g : FlashSt → FlashSt) : (d.flU g).cmp = d.cmp := rfl
@[simp] theorem Dev.flU_pos (d : Dev) (g : FlashSt → FlashSt) : (d.flU g).pos = d.pos := rfl
@[simp] theorem Dev.flU_cap (d : Dev) (g : FlashSt → FlashSt) : (d.flU g).cap = d.cap := rfl
@[simp] theorem Dev.flU_mem (d : Dev) (g : FlashSt → FlashSt) : (d.flU g).mem = d.mem := rfl
@[simp] theorem Dev.flU_core (d : Dev) (g : FlashSt → FlashSt) : (d.flU g).core = d.core := rfl
@[simp] theorem Dev.flU_fab (d : Dev) (g : FlashSt → FlashSt) : (d.flU g).fab = d.fab := rfl
@[simp] theorem Dev.flU_ic (d : Dev) (g : FlashSt → FlashSt) : (d.flU g).ic = d.ic := rfl
@[simp] theorem Dev.flU_fc (d : Dev) (g : FlashSt → FlashSt) : (d.flU g).fc = d.fc := rfl
@[simp] theorem Dev.flU_lnk (d : Dev) (g : FlashSt → FlashSt) : (d.flU g).lnk = d.lnk := rfl
@[simp] theorem Dev.flU_sec (d : Dev) (g : FlashSt → FlashSt) : (d.flU g).sec = d.sec := rfl
@[simp] theorem Dev.flU_hst (d : Dev) (g : FlashSt → FlashSt) : (d.flU g).hst = d.hst := rfl
@[simp] theorem Dev.flU_jtag (d : Dev) (g : FlashSt → FlashSt) : (d.flU g).jtag = d.jtag := rfl

end Sys2Proof.Machine
end

