-- ==== Sys2Proof/Laws/Store.lean ====
section
/-!
SUPPORT. Sparse stores: a read after a write, and the canonical form that every write keeps; the same for the register file and
for the words of SRAM and loop engine memory.
-/
set_option Elab.async false
namespace Sys2Proof.Machine
open Sys2Proof

section Store
variable {κ α : Type} [DecidableEq κ] [DecidableEq α] (ord : κ → Nat) (dflt : κ → α)

theorem Store.get_del_same (k : κ) (m : List (κ × α)) : Store.get dflt k (Store.del k m) = dflt k := by
  induction m with
  | nil => rfl
  | cons p t ih =>
    simp only [Store.del]
    split
    · exact ih
    · next h => simp only [Store.get, h, if_false, ih]

theorem Store.get_del_ne {k j : κ} (h : j ≠ k) (m : List (κ × α)) : Store.get dflt j (Store.del k m) = Store.get dflt j m := by
  induction m with
  | nil => rfl
  | cons p t ih =>
    simp only [Store.del]
    split
    · next hk =>
      have : p.1 ≠ j := fun e => h (e ▸ hk)
      simp only [ih, Store.get, this, if_false]
    · simp only [Store.get, ih]

theorem Store.get_ins_same (k : κ) (v : α) (m : List (κ × α)) (hm : Store.get dflt k m = dflt k)
    (hk : ∀ p ∈ m, p.1 ≠ k) : Store.get dflt k (Store.ins ord k v m) = v := by
  induction m with
  | nil => simp [Store.ins, Store.get]
  | cons p t ih =>
    have hp : p.1 ≠ k := hk p (by simp)
    simp only [Store.ins]
    split
    · simp only [Store.get, hp, if_false] at hm ⊢
      exact ih hm fun q hq => hk q (by simp [hq])
    · simp [Store.get]

theorem Store.get_ins_ne {k j : κ} (h : j ≠ k) (v : α) (m : List (κ × α)) :
    Store.get dflt j (Store.ins ord k v m) = Store.get dflt j m := by
  induction m with
  | nil => simp [Store.ins, Store.get, h.symm]
  | cons p t ih =>
    simp only [Store.ins]
    split
    · simp only [Store.get, ih]
    · simp only [Store.get, h.symm, if_false]

theorem Store.not_mem_del (k : κ) (m : List (κ × α)) : ∀ p ∈ Store.del k m, p.1 ≠ k := by
  induction m with
  | nil => simp [Store.del]
  | cons q t ih =>
    simp only [Store.del]
    split
    · exact ih
    · next h =>
      intro p hp
      simp only [List.mem_cons] at hp
      rcases hp with rfl | hp
      · exact h
      · exact ih p hp

/-- A read after a write of the same key. -/
theorem Store.get_set_same (k : κ) (v : α) (m : List (κ × α)) : Store.get dflt k (Store.set ord dflt k v m) = v := by
  unfold Store.set
  split
  · next h => rw [Store.get_del_same, h]
  · exact Store.get_ins_same ord dflt k v _ (Store.get_del_same dflt k m) (Store.not_mem_del k m)

/-- A write leaves every other key alone. -/
theorem Store.get_set_ne {k j : κ} (h : j ≠ k) (v : α) (m : List (κ × α)) :
    Store.get dflt j (Store.set ord dflt k v m) = Store.get dflt j m := by
  unfold Store.set
  split
  · exact Store.get_del_ne dflt h m
  · rw [Store.get_ins_ne ord dflt h, Store.get_del_ne dflt h]

theorem Store.mem_del {k : κ} {m : List (κ × α)} {p : κ × α} (h : p ∈ Store.del k m) : p ∈ m := by
  induction m with
  | nil => simp [Store.del] at h
  | cons q t ih =>
    simp only [Store.del] at h
    split at h
    · exact List.mem_cons_of_mem _ (ih h)
    · simp only [List.mem_cons] at h ⊢
      exact h.imp_right ih

theorem Store.mem_ins {k : κ} {v : α} {m : List (κ × α)} {p : κ × α} (h : p ∈ Store.ins ord k v m) : p = (k, v) ∨ p ∈ m := by
  induction m with
  | nil => simpa [Store.ins] using h
  | cons q t ih =>
    simp only [Store.ins] at h
    split at h
    · simp only [List.mem_cons] at h ⊢
      rcases h with h | h
      · exact .inr (.inl h)
      · exact (ih h).imp_right .inr
    · simpa [List.mem_cons] using h

theorem Store.wf_cons (p : κ × α) (t : List (κ × α)) :
    Store.wf ord dflt (p :: t) = true ↔
      p.2 ≠ dflt p.1 ∧ (∀ q ∈ t, ord p.1 < ord q.1) ∧ Store.wf ord dflt t = true := by
  simp [Store.wf, and_assoc]

theorem Store.wf_del (k : κ) (m : List (κ × α)) (h : Store.wf ord dflt m = true) :
    Store.wf ord dflt (Store.del k m) = true := by
  induction m with
  | nil => rfl
  | cons p t ih =>
    rw [Store.wf_cons] at h
    simp only [Store.del]
    split
    · exact ih h.2.2
    · rw [Store.wf_cons]
      exact ⟨h.1, fun q hq => h.2.1 q (Store.mem_del hq), ih h.2.2⟩

theorem Store.wf_ins (inj : ∀ a b, ord a = ord b → a = b) (k : κ) (v : α) (hv : v ≠ dflt k) (m : List (κ × α))
    (hk : ∀ p ∈ m, p.1 ≠ k) (h : Store.wf ord dflt m = true) : Store.wf ord dflt (Store.ins ord k v m) = true := by
  induction m with
  | nil => simp [Store.ins, Store.wf, hv]
  | cons p t ih =>
    have hp := (Store.wf_cons ord dflt p t).1 h
    simp only [Store.ins]
    split
    · next hlt =>
      rw [Store.wf_cons]
      refine ⟨hp.1, fun q hq => ?_, ih (fun q hq => hk q (by simp [hq])) hp.2.2⟩
      rcases Store.mem_ins ord hq with rfl | hq
      · exact hlt
      · exact hp.2.1 q hq
    · next hge =>
      rw [Store.wf_cons]
      have hne : ord k ≠ ord p.1 := fun e => hk p (by simp) (inj _ _ e).symm
      have hlt : ord k < ord p.1 := by omega
      refine ⟨hv, fun q hq => ?_, h⟩
      simp only [List.mem_cons] at hq
      rcases hq with rfl | hq
      · exact hlt
      · exact Nat.lt_trans hlt (hp.2.1 q hq)

/-- A write keeps the canonical form, where no two keys have one order. -/
theorem Store.wf_set (inj : ∀ a b, ord a = ord b → a = b) (k : κ) (v : α) (m : List (κ × α))
    (h : Store.wf ord dflt m = true) : Store.wf ord dflt (Store.set ord dflt k v m) = true := by
  unfold Store.set
  split
  · exact Store.wf_del ord dflt k m h
  · next hv => exact Store.wf_ins ord dflt inj k v hv _ (Store.not_mem_del k m) (Store.wf_del ord dflt k m h)

end Store

/-! ### The register file -/

@[simp] theorem Dev.get_put_same (d : Dev) (r : Reg) (v : Word) : (d.put r v).get r = v :=
  Store.get_set_same Reg.addr Reg.reset r v d.regs

theorem Dev.get_put_ne (d : Dev) {r q : Reg} (h : q ≠ r) (v : Word) : (d.put r v).get q = d.get q :=
  Store.get_set_ne Reg.addr Reg.reset h v d.regs

theorem Dev.get_put (d : Dev) (r q : Reg) (v : Word) : (d.put r v).get q = if q = r then v else d.get q := by
  split
  · next h => rw [h, Dev.get_put_same]
  · next h => exact Dev.get_put_ne d h v

/-- Registers are read from the register file alone. -/
theorem Dev.get_congr {d e : Dev} (h : d.regs = e.regs) (r : Reg) : d.get r = e.get r := by
  unfold Dev.get
  rw [h]

/-! ### SRAM and loop engine memory -/

/-- A word that is written reads back. -/
theorem memGet_memPut_same (a : Nat) (v : Ecc) (d : Dev) : memGet (memPut a v d) a = v := by
  unfold memGet memPut
  split
  · exact Store.get_set_same id lemDflt _ v d.mem.lem
  · exact Store.get_set_same id sramDflt _ v d.mem.sram

/-- Every memory operation keeps the canonical form. -/
theorem memPut_wf (a : Nat) (v : Ecc) (d : Dev) (h : d.mem.wf = true) : (memPut a v d).mem.wf = true := by
  simp only [MemSt.wf, Bool.and_eq_true] at h ⊢
  unfold memPut
  split
  · exact ⟨h.1, Store.wf_set id lemDflt (fun _ _ e => e) _ v _ h.2⟩
  · exact ⟨Store.wf_set id sramDflt (fun _ _ e => e) _ v _ h.1, h.2⟩

end Sys2Proof.Machine
end

