-- ==== Sys2Proof/Laws/Act.lean ====
section
/-!
SUPPORT. What every command does around its own effect: the answer of `act`, what following the interrupt sources leaves alone, the
register accesses that do not wait, and the fields of a register after it is written.
-/
set_option Elab.async false
namespace Sys2Proof.Machine
open Sys2Proof

/-! ### Following the sources touches the controller alone -/

@[simp] theorem settle_now (d : Dev) : (settle d).now = d.now := by unfold settle; split <;> rfl
@[simp] theorem settle_free (d : Dev) : (settle d).free = d.free := by unfold settle; split <;> rfl
@[simp] theorem settle_regs (d : Dev) : (settle d).regs = d.regs := by unfold settle; split <;> rfl
@[simp] theorem settle_sys (d : Dev) : (settle d).sys = d.sys := by unfold settle; split <;> rfl
@[simp] theorem settle_leg (d : Dev) : (settle d).leg = d.leg := by unfold settle; split <;> rfl
@[simp] theorem settle_tb (d : Dev) : (settle d).tb = d.tb := by unfold settle; split <;> rfl
@[simp] theorem settle_adc (d : Dev) : (settle d).adc = d.adc := by unfold settle; split <;> rfl
@[simp] theorem settle_le (d : Dev) : (settle d).le = d.le := by unfold settle; split <;> rfl
@[simp] theorem settle_cmp (d : Dev) : (settle d).cmp = d.cmp := by unfold settle; split <;> rfl
@[simp] theorem settle_pos (d : Dev) : (settle d).pos = d.pos := by unfold settle; split <;> rfl
@[simp] theorem settle_cap (d : Dev) : (settle d).cap = d.cap := by unfold settle; split <;> rfl
@[simp] theorem settle_mem (d : Dev) : (settle d).mem = d.mem := by unfold settle; split <;> rfl
@[simp] theorem settle_core (d : Dev) : (settle d).core = d.core := by unfold settle; split <;> rfl
@[simp] theorem settle_fab (d : Dev) : (settle d).fab = d.fab := by unfold settle; split <;> rfl
@[simp] theorem settle_fc (d : Dev) : (settle d).fc = d.fc := by unfold settle; split <;> rfl
@[simp] theorem settle_lnk (d : Dev) : (settle d).lnk = d.lnk := by unfold settle; split <;> rfl
@[simp] theorem settle_fl (d : Dev) : (settle d).fl = d.fl := by unfold settle; split <;> rfl
@[simp] theorem settle_sec (d : Dev) : (settle d).sec = d.sec := by unfold settle; split <;> rfl
@[simp] theorem settle_hst (d : Dev) : (settle d).hst = d.hst := by unfold settle; split <;> rfl
@[simp] theorem settle_jtag (d : Dev) : (settle d).jtag = d.jtag := by unfold settle; split <;> rfl

/-! ### The answer of a command -/

/-- With nothing passed over, there is nothing to catch up. -/
theorem catchUp_eq {d : Dev} (h : overdue d = false) : catchUp d = d := by simp [catchUp, h]

/-- A device that is up has nothing overdue at an instant that is not later. -/
theorem Up.calm {s : State} (h : Up s) {t : Nat} (ht : t ≤ s.now) : Calm s t := by
  simpa [Calm, Dev.at, Nat.max_eq_left ht] using h.2

/-- An effect that passes over nothing the shroud has to do acts as it is. -/
theorem timely_eq {f : Dev → Dev} {d : Dev} (h : overdue (d.at (f d).now) = false) : timely f d = f d := by simp [timely, h]

/-- On a device that is up, a command that passes over nothing acts and the controller follows. -/
theorem act_calm {s : State} (h : Up s) {f : Dev → Dev} (hc : Calm s (f s.toDev).now) :
    act f s = .next { s with toDev := settle (f s.toDev) } := by
  simp [act, h.1, catchUp_eq h.2, timely_eq hc]

/-- The same for one that takes no time. -/
theorem act_free {s : State} (h : Up s) {f : Dev → Dev} (hn : (f s.toDev).now = s.now) :
    act f s = .next { s with toDev := settle (f s.toDev) } := act_calm h (h.calm (Nat.le_of_eq hn))

/-- Of the device, a command sees what is left once what is due has been done (R19). -/
theorem act_caught {s t : State} (hs : s.sys.rst = none) (ht : t.sys.rst = none) (hd : catchUp s.toDev = catchUp t.toDev)
    (hp : s.pending = t.pending) (f : Dev → Dev) : act f s = act f t := by
  simp [act, hs, ht, hd, hp]

/-- A held reset lets no command act (R343). -/
theorem act_held {s : State} (h : s.sys.rst.isSome = true) (f : Dev → Dev) :
    act f s = .next { s with toDev := settle s.toDev } := by
  simp [act, h]

/-- A board event acts always: a held reset lets it act as it is, and a device that is up as long as it passes over nothing. -/
theorem actBoard_held {s : State} (h : s.sys.rst.isSome = true) (f : Dev → Dev) :
    actBoard f s = .next { s with toDev := settle (f s.toDev) } := by simp [actBoard, h]
theorem actBoard_free {s : State} (h : Up s) {f : Dev → Dev} (hc : Calm s (f s.toDev).now) :
    actBoard f s = .next { s with toDev := settle (f s.toDev) } := by
  simp [actBoard, h.1, catchUp_eq h.2, timely_eq hc]

/-- An event of the board that takes no time acts on the device as it finds it. -/
theorem actBoard_found {s : State} {f : Dev → Dev} (hn : ∀ d, (f d).now = d.now) : actBoard f s = after s (f (found s)) := by
  unfold actBoard found after timely
  split <;> simp [hn]

/-- An access whose requester has a tag left for it is made with that tag taken. -/
theorem asks_eq {by_ : Requester} {d : Dev} (h : tagsFull d (reqHolder by_) = false) (f : Dev → Dev) : asks by_ f d = f (asked by_ d) := by
  simp [asks, asked, h]

/-- A write that does not wait: the register's clock runs, and so do those of all its bits. -/
theorem writeReg_now {d : Dev} {r : Reg} (h : regWaits d r = false) {v : Word} (hm : v &&& heldMask d r = 0) (by_ : Requester) :
    writeReg by_ r v d = writeNow by_ r v d := by
  simp [writeReg, writePart, h, hm]

/-- The registers whose bits have clocks of their own. -/
theorem heldMask_zero {d : Dev} {r : Reg} (h1 : ∀ k, r ≠ .tbg (.legcommit k)) (h2 : r ≠ .adcg .adcgstart) (h3 : r ≠ .adcg .adcgstop) :
    heldMask d r = 0 := by
  unfold heldMask
  split
  · next k => exact absurd rfl (h1 k)
  · exact absurd rfl h2
  · exact absurd rfl h3
  · rfl

/-! ### The register file -/

theorem RegFile.get_set (f : RegFile) (r q : Reg) (v : Word) : (f.set r v).get q = if q = r then v else f.get q := by
  split
  · next h => rw [h]; exact Store.get_set_same Reg.addr Reg.reset r v f
  · next h => exact Store.get_set_ne Reg.addr Reg.reset h v f

theorem Dev.f_put (d : Dev) (r q : Reg) (v : Word) (g : Fld) : (d.put r v).f q g = if q = r then g.get v else d.f q g := by
  simp only [Dev.f, Dev.get_put]
  split <;> rfl

theorem Dev.b_put (d : Dev) (r q : Reg) (v : Word) (g : Fld) : (d.put r v).b q g = if q = r then g.bit v else d.b q g := by
  simp only [Dev.b, Dev.get_put]
  split <;> rfl

/-- A field that was stored. -/
theorem Dev.f_setF (d : Dev) (r : Reg) {g : Fld} (h : g.ok = true) (v : Nat) : (d.setF r g v).f r g = v % 2 ^ g.width := by
  simp [Dev.setF, Dev.f_put, Fld.get_put h]

/-- A flag that was stored. -/
theorem Dev.b_setB (d : Dev) (r : Reg) {g : Fld} (h : g.ok = true) (b : Bool) : (d.setB r g b).b r g = b := by
  cases b <;> simp [Dev.setB, Dev.setF, Dev.b_put, Fld.bit_put h, b2n]

theorem Dev.b_flag (d : Dev) (r : Reg) {g : Fld} (h : g.ok = true) : (d.flag r g).b r g = true := Dev.b_setB d r h true

/-- Another field of the register, and every field of another register. -/
theorem Dev.b_setB_apart (d : Dev) (r : Reg) {g k : Fld} (hk : k.ok = true) (hg : g.ok = true) (h : k.apart g = true) (b : Bool) :
    (d.setB r g b).b r k = d.b r k := by
  simp [Dev.setB, Dev.setF, Dev.b_put, Fld.bit_put_apart hk hg h, Dev.b]

theorem Dev.get_setF_ne (d : Dev) {r q : Reg} (h : q ≠ r) (g : Fld) (v : Nat) : (d.setF r g v).get q = d.get q :=
  Dev.get_put_ne d h _

end Sys2Proof.Machine
end

