-- ==== Sys2Proof/Laws/Time.lean ====
section
/-!
SUPPORT. What takes no time: reads of the arrays, table walks, the fetch and the entry of an exception leave the instant as it is, so that
nothing the shroud has to do falls due while an instruction runs.
-/
set_option Elab.async false
namespace Sys2Proof.Machine
open Sys2Proof

/-! ### The arrays -/

theorem memPut_now (a : Nat) (v : Ecc) (d : Dev) : (memPut a v d).now = d.now := by unfold memPut; split <;> rfl

theorem memCe_now (q : MemReq) (a : Nat) (p : Bool) (s : Nat) (d : Dev) : (memCe q a p s d).now = d.now := by simp [memCe]

theorem memUe_now (q : MemReq) (a cause : Nat) (p : Bool) (s : Nat) (d : Dev) : (memUe q a cause p s d).now = d.now := by
  unfold memUe
  split <;> split <;> split <;> simp

theorem memRead_now (q : MemReq) (a : Nat) (d : Dev) : (memRead q a d).2.now = d.now := by
  unfold memRead
  dsimp only
  split <;> simp [memPut_now, memCe_now, memUe_now]

theorem romRead_now (q : MemReq) (a : Nat) (d : Dev) : (romRead q a d).2.now = d.now := by
  unfold romRead
  repeat' split
  all_goals simp [memUe_now]

theorem flCe_now (a : Nat) (d : Dev) : (flCe a d).now = d.now := by simp [flCe]

theorem flRead_now (q : MemReq) (a : Nat) (d : Dev) : (flRead q a d).2.now = d.now := by
  unfold flRead
  repeat' split
  all_goals simp [memUe_now, flCe_now]

theorem arrayRead_now (q : MemReq) (a : Nat) (d : Dev) : (arrayRead q a d).2.now = d.now := by
  unfold arrayRead
  split <;> simp [memRead_now, romRead_now, flRead_now]

theorem arrayReadN_now (q : MemReq) (a n : Nat) (d : Dev) : (arrayReadN q a n d).2.now = d.now := by
  induction n generalizing a d with
  | zero => rfl
  | succ n ih => simp [arrayReadN, ih, arrayRead_now]

theorem readDesc_now (q : MemReq) (a : Nat) (d : Dev) : (readDesc q a d).2.now = d.now := by
  unfold readDesc
  split <;> simp [arrayReadN_now, flRead_now]

/-! ### The core -/

theorem walk_now (c : Fin 5) (lv : Nat) (isCs : Bool) (sel : BitVec 16) (d : Dev) : (walk c lv isCs sel d).2.now = d.now := by
  unfold walk
  dsimp only
  split; · rfl
  split; · rfl
  split; · rfl
  split <;> try rfl
  split; · rfl
  have h := readDesc_now (reqWalk c) ((d.f (.sys (.dtbase c)) DTBASE.BASE * 8192 + 16 * (sel.toNat % 2 ^ 13)) % 2 ^ 32)
    (d.tagPulse (coreHolder c) 1)
  simp only [Dev.tagPulse_now] at h
  split; · exact h
  split <;> exact h

theorem fetch_now (c : Fin 5) (s : SegSt) (off len : Nat) (d : Dev) : (fetch c s off len d).2.now = d.now := by
  unfold fetch
  split; · rfl
  split; · rfl
  split; · rfl
  dsimp only
  split; · rfl
  split; · rfl
  split; · rfl
  split <;> exact arrayReadN_now ..

theorem fetchInstr_now (c : Fin 5) (len : Nat) (d : Dev) : (fetchInstr c len d).2.now = d.now := by
  unfold fetchInstr
  split
  · rfl
  · exact fetch_now ..

theorem lockup_now (c : Fin 5) (kind entry detail lv : Nat) (sel : BitVec 16) (pc : Nat) (d : Dev) :
    (lockup c kind entry detail lv sel pc d).now = d.now := by simp [lockup]

/-- What is done for each of a list takes no time where it takes none for one. -/
theorem Dev.each_now {α : Type} (l : List α) {f : α → Dev → Dev} (h : ∀ a d, (f a d).now = d.now) (d : Dev) :
    (d.each l f).now = d.now := by
  induction l generalizing d with
  | nil => rfl
  | cons a l ih => exact (ih _).trans (h a d)

theorem icBreak_now (c : Fin 5) (cause : Nat) (d : Dev) : (icBreak c cause d).now = d.now := by simp [icBreak]

theorem icCheck_now (c : Fin 5) (bad : Bool) (d : Dev) : (icCheck c bad d).2.now = d.now := by unfold icCheck; split <;> rfl

theorem icCloseWin_now (c : Fin 5) (d : Dev) : (icCloseWin c d).now = d.now := by
  unfold icCloseWin
  repeat' split
  all_goals rfl

theorem icModEvent_now (c : Fin 5) (d : Dev) : (icModEvent c d).now = d.now := by
  unfold icModEvent
  dsimp only
  split
  · rfl
  · rfl
  · exact (icCloseWin_now ..).trans rfl

theorem icBecome_now (s : Nat) (r : Bool) (d : Dev) : (icBecome s r d).now = d.now := by
  unfold icBecome
  dsimp only
  split
  · exact (icModEvent_now ..).trans rfl
  · rfl

theorem icFollow_now (s : Nat) (d : Dev) : (icFollow s d).now = d.now := by
  unfold icFollow
  dsimp only
  split
  · split
    · exact icBecome_now ..
    · rfl
  · split <;> rfl

theorem icEnable_now (k : Fin 12) (v : Word) (d : Dev) : (icEnable k v d).now = d.now :=
  (Dev.each_now _ (fun _ _ => icFollow_now ..) _).trans rfl

theorem icResample_now (s : Nat) (d : Dev) : (icResample s d).now = d.now := by
  unfold icResample
  dsimp only
  split
  · split
    · rfl
    · refine (icBecome_now ..).trans ?_
      split <;> rfl
  · split <;> rfl

theorem icEoi_now (c : Fin 5) (s : Nat) (d : Dev) : (icEoi c s d).now = d.now := by
  unfold icEoi
  split
  · exact icBreak_now ..
  · next e rest _ =>
    have h := icCheck_now c (e.src != s) d
    dsimp only
    split
    · rw [icBreak_now, h]
    · split
      · rw [icBreak_now, h]
      · split
        · rw [icResample_now, Dev.tgtU_now, h]
        · rw [Dev.tgtU_now, h]

theorem icReturn_now (c : Fin 5) (l : Nat) (d : Dev) : (icReturn c l d).now = d.now := by
  unfold icReturn
  dsimp only
  rw [apply_ite Dev.now, icBreak_now, apply_ite Dev.now, icBreak_now]
  simp only [icCheck_now, ite_self]

/-- The state an entry leaves, where it does not wait. -/
theorem enterLevel_now {c : Fin 5} {k nl ret aofs seg detail : Nat} {d e : Dev}
    (h : enterLevel c k nl ret aofs seg detail d = .entered e ∨ enterLevel c k nl ret aofs seg detail d = .locked e) : e.now = d.now := by
  unfold enterLevel at h
  dsimp only at h
  split at h
  · simp at h
  · next hw =>
    have hn := congrArg (fun x => x.2.now) hw
    rw [walk_now] at hn
    simp only [reduceCtorEq, EntryRes.locked.injEq, false_or] at h
    rw [← h, lockup_now, ← hn]; rfl
  · next s d2 hw =>
    have hn := congrArg (fun x => x.2.now) hw
    rw [walk_now] at hn
    split at h
    · simp at h
    all_goals
      next hf =>
      have hm := congrArg (fun x => x.2.now) hf
      rw [fetch_now] at hm
      simp only [reduceCtorEq, EntryRes.locked.injEq, EntryRes.entered.injEq, false_or, or_false] at h
      rw [← h]
      first
      | exact (lockup_now ..).trans (hm.symm.trans hn.symm)
      | (unfold countEntry; split <;> exact hm.symm.trans hn.symm)

theorem park_now (c : Fin 5) (a b : Word) (d : Dev) : (park c a b d).now = d.now := by simp [park]

theorem romFault_now (c : Fin 5) (cause : Nat) (d : Dev) : (romFault c cause d).now = d.now := by
  unfold romFault
  dsimp only [romOffset]
  split
  · exact (lockup_now ..).trans rfl
  · split
    · rfl
    · next h => exact (enterLevel_now (.inr h)).trans rfl
    · next h => exact (park_now ..).trans ((enterLevel_now (.inl h)).trans rfl)

theorem pswLoad_now (p : Word) (d : Dev) : (pswLoad p d).2.now = d.now := by
  unfold pswLoad
  dsimp only
  split <;> rfl

theorem retlDone_now (c : Fin 5) (l : Fin 8) (s : SegSt) (d : Dev) : (retlDone c l s d).now = d.now := by
  unfold retlDone
  dsimp only
  split
  · split
    · rw [icBreak_now, Dev.bumpFree_now, Dev.coreU_now, pswLoad_now]
    · rw [Dev.bumpFree_now, Dev.coreU_now, pswLoad_now]
  · rw [icReturn_now, Dev.coreU_now, pswLoad_now]

theorem romInterrupt_now {c : Fin 5} {k : Nat} {d e : Dev} (h : romInterrupt c k d = some e) : e.now = d.now := by
  unfold romInterrupt at h
  dsimp only at h
  generalize hs : ICACT.SRC.get (iccRead d c .icact) = s at h
  generalize h1 : (if s < 384 then icWrite (.icenclr (icWord s)) (w32 (2 ^ (s % 32))) d
      else d.setB (.icc c .iccfg) ICCFG.EN false) = x at h
  generalize h2 : icEoi c s x = y at h
  have hx : x.now = d.now := by
    rw [← h1]
    split
    · exact icEnable_now ..
    · rfl
  have hy : y.now = d.now := by rw [← h2, icEoi_now, hx]
  have hw := walk_now c (PSW.LEVEL.get y.core[c].savepsw[Fin.ofNat 8 k]) true (BitVec.ofNat 16 y.core[c].saveseg[Fin.ofNat 8 k].toNat) y
  split at h
  · rw [← Option.some.inj h]
  · split at h
    · rw [← Option.some.inj h, hy]
    · unfold retlWalk at h
      split at h
      · cases h
      · next hr => rw [hr] at hw; rw [← Option.some.inj h, romFault_now, hw, hy]
      · next hr => rw [hr] at hw; rw [← Option.some.inj h, retlDone_now, hw, hy]

/-- The entry of an exception takes no time. -/
theorem except_now (c : Fin 5) (k pc ret aofs seg detail : Nat) (d : Dev) : (except c k pc ret aofs seg detail d).now = d.now := by
  unfold except
  split
  · exact lockup_now ..
  · unfold enter
    split
    · rfl
    · next h => exact enterLevel_now (.inr h)
    · next x h =>
      have hx : x.now = d.now := enterLevel_now (.inl h)
      split
      · exact hx
      · split
        · cases hr : romInterrupt c k x with
          | none => rfl
          | some e => exact (romInterrupt_now hr).trans hx
        · exact (park_now ..).trans hx

end Sys2Proof.Machine
end

