-- ==== Sys2Proof/Laws/Core.lean ====
section
/-!
SUPPORT. What the execution of an instruction comes to: the answer where its body ends, raises an exception or waits, and the
updates of a core's registers.
-/
set_option Elab.async false
namespace Sys2Proof

/-- A field replaced by itself. -/
theorem Fld.put_get {f : Fld} (h : f.ok = true) (w : Word) : f.put (f.get w) w = w := by
  apply BitVec.eq_of_getLsbD_eq
  intro i hi
  rw [Fld.getLsbD_put]
  simp only [hi, decide_true, Bool.true_and]
  split
  · next h1 =>
    have h2 : i - f.lo < f.width := by omega
    have h3 : f.lo + (i - f.lo) = i := by omega
    simp only [Fld.testBit_get, h2, h3, decide_true, Bool.true_and]
  · rfl

/-- A one-bit field replaced by itself. -/
theorem Fld.put_bit {f : Fld} (hw : f.hi = f.lo) (w : Word) : f.put (Machine.b2n (f.bit w)) w = w := by
  apply BitVec.eq_of_getLsbD_eq
  intro i hi
  rw [Fld.getLsbD_put]
  simp only [hi, decide_true, Bool.true_and]
  split
  · next h1 =>
    simp only [Fld.width, hw] at h1
    have : i = f.lo := by omega
    subst this
    have : (f.bit w) = w.getLsbD f.lo := rfl
    cases hb : f.bit w <;> simp [Machine.b2n, ← this, hb]
  · rfl

end Sys2Proof

namespace Sys2Proof.Machine
open Sys2Proof

/-! ### Updates of a core -/

theorem Dev.coreU_coreU (d : Dev) (c : Fin 5) (f g : CoreSt → CoreSt) :
    (d.coreU c f).coreU c g = d.coreU c fun x => g (f x) := by
  simp [Dev.coreU]

theorem Dev.coreU_congr {d : Dev} {c : Fin 5} {f g : CoreSt → CoreSt} (h : f d.core[c] = g d.core[c]) :
    d.coreU c f = d.coreU c g := by
  simp only [Dev.coreU, h]

@[simp] theorem Dev.coreU_core_same (d : Dev) (c : Fin 5) (f : CoreSt → CoreSt) : (d.coreU c f).core[c] = f d.core[c] := by
  simp [Dev.coreU]

theorem Dev.coreU_core_ne (d : Dev) {c k : Fin 5} (h : k ≠ c) (f : CoreSt → CoreSt) : (d.coreU c f).core[k] = d.core[k] := by
  have : c.val ≠ k.val := fun e => h (Fin.ext e.symm)
  simp [Dev.coreU, Vector.getElem_set, this]

@[simp] theorem Dev.setW_coreU (d : Dev) (c : Fin 5) (a : Fin 16) (v : Word) : d.setW c a v = d.coreU c fun x => x.setW a v := rfl

@[simp] theorem Dev.setPsw_coreU (d : Dev) (c : Fin 5) (v : Word) : d.setPsw c v = d.coreU c fun x => { x with psw := v } := rfl

@[simp] theorem Dev.setFr_coreU (d : Dev) (c : Fin 5) (a : Fin 8) (v : Word) :
    d.setFr c a v = d.coreU c fun x => { x with f := x.f.set a v } := rfl

@[simp] theorem aluPut_coreU (c : Fin 5) (a : Fin 16) (o : AluOut) (d : Dev) :
    aluPut c a o d = d.coreU c fun x => { x.setW a o.res with psw := o.psw x.psw } := by
  simp [aluPut, Dev.coreU_coreU, Dev.coreU, CoreSt.setW]

@[simp] theorem aluFlags_coreU (c : Fin 5) (o : AluOut) (d : Dev) :
    aluFlags c o d = d.coreU c fun x => { x with psw := o.psw x.psw } := by
  simp [aluFlags, Dev.coreU]

/-! ### The run of an instruction -/

/-- A core with no load in progress. -/
theorem noLoads_eq {x : CoreSt} (h1 : x.ldWait = []) (h2 : x.ldBack = []) : x.noLoads = x := by
  cases x; simp only at h1 h2; subst h1 h2; rfl

/-- The effect of an instruction that a core executes. -/
theorem coreRunTags_eq {s : State} {c : Fin 5} {len tags : Nat} {d : Dev} (h : Issues s c len d) (body : Dev → CoreRes) :
    coreRunTags tags c true len body s.toDev =
      match body (issuedTags tags c len d) with
      | .ok e => e
      | .exc k aofs seg detail e => except c k s.core[c].pc.toNat
          (if k = 13 then s.core[c].pc.toNat + len else s.core[c].pc.toNat) aofs seg detail { e with core := e.core.set c s.core[c] }
      | .stall e => { e with core := e.core.set c (s.core[c].keepLoads e.core[c]) } := by
  obtain ⟨-, h2, hw, hk, h3, h4⟩ := h
  unfold issuedTags coreRunTags
  rw [h2, h4]
  simp only [Bool.not_true, Bool.false_eq_true, if_false, h3, hw, List.isEmpty_nil, Bool.false_and, if_true, noLoads_eq hw hk]
  all_goals rfl

theorem coreRunTags_ok {s : State} {c : Fin 5} {len tags : Nat} {d : Dev} (h : Issues s c len d) {body : Dev → CoreRes} {e : Dev}
    (hb : body (issuedTags tags c len d) = .ok e) (hc : Calm s e.now) :
    act (coreRunTags tags c true len body) s = .next { s with toDev := settle e } := by
  have he := coreRunTags_eq h (tags := tags) body
  rw [hb] at he
  rw [act_calm h.1 (by rw [he]; exact hc), he]

theorem coreRunTags_exc {s : State} {c : Fin 5} {len tags : Nat} {d : Dev} (h : Issues s c len d) {body : Dev → CoreRes} {e : Dev}
    {k aofs seg detail : Nat} (hb : body (issuedTags tags c len d) = .exc k aofs seg detail e) (hc : Calm s e.now) :
    act (coreRunTags tags c true len body) s = .next { s with toDev := settle (except c k s.core[c].pc.toNat
      (if k = 13 then s.core[c].pc.toNat + len else s.core[c].pc.toNat) aofs seg detail
      { e with core := e.core.set c s.core[c] }) } := by
  have he := coreRunTags_eq h (tags := tags) body
  rw [hb] at he
  rw [act_calm h.1 (by rw [he, except_now]; exact hc), he]

/-- An instruction whose body ends leaves what its body leaves. -/
theorem coreRun_ok {s : State} {c : Fin 5} {len : Nat} {d : Dev} (h : Issues s c len d) {body : Dev → CoreRes} {e : Dev}
    (hb : body (issued c len d) = .ok e) (hc : Calm s e.now) :
    act (coreRun c true len body) s = .next { s with toDev := settle e } := coreRunTags_ok h hb hc

theorem coreRunPlain_ok {s : State} {c : Fin 5} {len : Nat} {d : Dev} (h : Issues s c len d) {body : Dev → CoreRes} {e : Dev}
    (hb : body (issuedPlain c len d) = .ok e) (hc : Calm s e.now) :
    act (coreRunPlain c true len body) s = .next { s with toDev := settle e } := coreRunTags_ok h hb hc

/-- An instruction that raises an exception enters its handler with the core as it was. -/
theorem coreRun_exc {s : State} {c : Fin 5} {len : Nat} {d : Dev} (h : Issues s c len d) {body : Dev → CoreRes} {e : Dev}
    {k aofs seg detail : Nat} (hb : body (issued c len d) = .exc k aofs seg detail e) (hc : Calm s e.now) :
    act (coreRun c true len body) s = .next { s with toDev := settle (except c k s.core[c].pc.toNat
      (if k = 13 then s.core[c].pc.toNat + len else s.core[c].pc.toNat) aofs seg detail
      { e with core := e.core.set c s.core[c] }) } := coreRunTags_exc h hb hc

/-- The fetch of an instruction takes no time. -/
theorem Issues.now {s : State} {c : Fin 5} {len : Nat} {d : Dev} (h : Issues s c len d) : d.now = s.now := by
  have := fetchInstr_now c len s.toDev
  rwa [h.2.2.2.2.2] at this

@[simp] theorem issuedTags_now (tags : Nat) (c : Fin 5) (len : Nat) (d : Dev) : (issuedTags tags c len d).now = d.now := by
  simp [issuedTags]

/-- An effect on the device as the instruction finds it that takes no time passes over nothing. -/
theorem Issues.calm {s : State} {c : Fin 5} {len : Nat} {d e : Dev} (h : Issues s c len d) (he : e.now = d.now) : Calm s e.now :=
  h.1.calm (Nat.le_of_eq (he.trans h.now))

/-- An instruction of one byte with neither a result nor an access. -/
theorem plainRun_ok {s : State} {c : Fin 5} {p : Pre} {d : Dev} (hl : legalPre c p false .no = true) (h : Issues s c (p.len + 1) d)
    (body : Dev → Dev) (hc : Calm s (body (issuedPlain c (p.len + 1) d)).now) :
    act (plainRun c p body) s = .next { s with toDev := settle (body (issuedPlain c (p.len + 1) d)) } := by
  unfold plainRun
  rw [hl]
  exact coreRunPlain_ok h rfl hc

/-- An instruction with no memory operand. -/
theorem regRun_ok {s : State} {c : Fin 5} {p : Pre} {ok : Bool} {u : WidthUse} {len : Nat} {d : Dev}
    (hl : legalPre c p false u = true) (hk : ok = true) (h : Issues s c (p.len + len) d) (body : Dev → Dev)
    (hc : Calm s (body (issued c (p.len + len) d)).now) :
    act (regRun c p ok u len body) s = .next { s with toDev := settle (body (issued c (p.len + len) d)) } := by
  unfold regRun
  rw [hl, hk]
  exact coreRun_ok h rfl hc

/-- An instruction of R263 whose operand is read. -/
theorem aluRun_ok {s : State} {c : Fin 5} {p : Pre} {a : Fin 16} {b : AluB} {u : WidthUse} {y : Word} {d e e' : Dev}
    (hl : legalPre c p (aluMem b) u = true) (h : Issues s c (p.len + aluLen p.width b) d)
    (hy : aluY c p b (issued c (p.len + aluLen p.width b) d) = .ok y e) {f : Word → Word → AluOut}
    {fin : AluOut → Dev → CoreRes} (hf : fin (f (e.w c a) y) e = .ok e') (hc : Calm s e'.now) :
    act (aluRun c p a b u f fin) s = .next { s with toDev := settle e' } := by
  unfold aluRun
  rw [hl]
  exact coreRun_ok h (by rw [hy]; exact hf) hc

/-- The top bit of a result. -/
theorem topBit_eq (w : Width) (r : Nat) : topBit w r = r.testBit (w.bits - 1) := by
  simp only [topBit, bitN, Nat.testBit_eq_decide_div_mod_eq]
  rfl

/-- The difference of two numbers at a width. -/
theorem sub_mod_width (x y n : Nat) :
    (x % 2 ^ n + 2 ^ n + 2 ^ n - y % 2 ^ n) % 2 ^ n = (x % 2 ^ n + 2 ^ n - y % 2 ^ n) % 2 ^ n := by
  have h := Nat.mod_lt y (Nat.two_pow_pos n)
  have e : x % 2 ^ n + 2 ^ n + 2 ^ n - y % 2 ^ n = (x % 2 ^ n + 2 ^ n - y % 2 ^ n) + 2 ^ n := by omega
  rw [e, Nat.add_mod_right]

end Sys2Proof.Machine
end

