-- ==== Sys2Proof/Laws/Rows.lean ====
section
/-!
SUPPORT. The form every command has: what is no event of the board acts on the device through `act`, so a held device reset stops it, and
every command answers a next state in which the interrupt controller has followed its sources.
-/
set_option Elab.async false
namespace Sys2Proof.Machine
open Sys2Proof

/-- `act` itself is of the form the next theorem states. -/
theorem act_form (f : Dev → Dev) : ∃ g, ∀ s, act f s = act g s := ⟨f, fun _ => rfl⟩

/-- A command that is no event of the board acts through `act`, in every state with the same effect on the device it finds. -/
theorem exec_acts (i : Instr) (hb : board i = false) : ∃ f, ∀ s, exec i s = act f s := by
  cases i
  case legRunWrite a b c => exact ⟨_, fun s => execLegRunWrite.eq_1 a b c s⟩
  case legForceWrite a b c d => exact ⟨_, fun s => execLegForceWrite.eq_1 a b c d s⟩
  case pllLoss a => exact ⟨_, fun s => execPllLoss.eq_1 a s⟩
  case pllLock a => exact ⟨_, fun s => execPllLock.eq_1 a s⟩
  case taguseRead a b => exact ⟨_, fun s => execTaguseRead.eq_1 a b s⟩
  case adcCalibrationEnd a b c => exact ⟨_, fun s => execAdcCalibrationEnd.eq_1 a b c s⟩
  case leMemoryWrite a b c d => exact ⟨_, fun s => execLeMemoryWrite.eq_1 a b c d s⟩
  case productWrite a => exact ⟨_, fun s => execProductWrite.eq_1 a s⟩
  case divideComplete a => exact ⟨_, fun s => execDivideComplete.eq_1 a s⟩
  case interruptEntry a => exact ⟨_, fun s => execInterruptEntry.eq_1 a s⟩
  case fpExceptionEntry a => exact ⟨_, fun s => execFpExceptionEntry.eq_1 a s⟩
  case flashOperationEnd a b => exact ⟨_, fun s => execFlashOperationEnd.eq_1 a b s⟩
  case enumerateTimeout => exact ⟨_, fun s => execEnumerateTimeout.eq_1 s⟩
  case fwrpl a b => exact ⟨_, fun s => execFwrpl.eq_1 a b s⟩
  case firmwareTimeout => exact ⟨_, fun s => execFirmwareTimeout.eq_1 s⟩
  case spiRplFrame a => exact ⟨_, fun s => execSpiRplFrame.eq_1 a s⟩
  case verificationEnd a => exact ⟨_, fun s => execVerificationEnd.eq_1 a s⟩
  case coreHalt c => exact ⟨_, fun s => execCoreHalt.eq_1 c s⟩
  case sramScrubDone => exact ⟨_, fun s => execSramScrubDone.eq_1 s⟩
  case remapCopyDone => exact ⟨_, fun s => execRemapCopyDone.eq_1 s⟩
  all_goals first | exact Bool.noConfusion (show true = false from hb) | exact act_form _

theorem exec_act (i : Instr) (s : State) (hb : board i = false) : ∃ f, exec i s = act f s :=
  let ⟨f, h⟩ := exec_acts i hb
  ⟨f, h s⟩

/-- Every command answers a next state in which only the device has changed and the controller has followed its sources. -/
theorem exec_settles (i : Instr) (s : State) : ∃ d, exec i s = .next { s with toDev := settle d } := by
  cases i <;> exact ⟨_, rfl⟩

end Sys2Proof.Machine
end

