-- ==== Sys2Proof/Tests/Slice0.lean ====
section
/-!
SUPPORT. Tests: states that meet the hypotheses of the statements, the checks of WellFormed, and a few steps on small states.  Expected
values come from the rules named beside them.
-/
set_option Elab.async false
namespace Sys2Proof.Tests
open Sys2Proof Sys2Proof.Machine

/-! ## Small states -/

/-- A device some time after reset: its clocks run and every readiness bit is set. -/
def ready : Dev :=
  let d := State.reset.toDev
  { d with now := 1000000000, sys := { d.sys with pllA := true, pllB := true, refOk := true } }.put (.sys (.ready 0)) 0xFFFFFFFF
/-- Registers put into a device, and a state of a device with an empty queue. -/
def puts (l : List (Reg × Word)) (d : Dev) : Dev := l.foldl (fun d p => d.put p.1 p.2) d
def st (d : Dev) : State := { State.reset with toDev := d }
def dev (l : List (Reg × Word)) : State := st (puts l ready)

/-- A segment that covers the start of SRAM; core 0 running inside its loop buffer, and changed by g. -/
def sramSeg : SegSt := { sel := 8, desc := some { base := 0x20000000, limit := 0xFFFF, x := true, w := true, r := true } }
def cored (g : CoreSt → CoreSt) : State :=
  st { ready with core := ready.core.set 0 (g { run := .run, buf := some (0, 65536), seg := Vector.replicate 6 sramSeg }) }
def c0 : State := cored id
theorem up_c0 : Up c0 := ⟨rfl, by decide +kernel⟩
/-- What an instruction of n bytes needs to issue, where the fetch changes nothing. -/
theorem issues_of {s : State} {n : Nat} (u : Up s) (r : coreRuns s.toDev 0 = true := by rfl) (w : s.core[(0 : Fin 5)].ldWait = [] := by rfl)
    (b : s.core[(0 : Fin 5)].ldBack = [] := by rfl) (f : s.core[(0 : Fin 5)].fpDue = false := by rfl)
    (h : fetchInstr 0 n s.toDev = (.ok, s.toDev) := by rfl) : Issues s 0 n s.toDev := ⟨u, r, w, b, f, h⟩

/-- An access that succeeds with a value and a device of which p holds; a walk that finds such a segment; an entry that is made. -/
def okAnd {α : Type} (x : Acc α) (p : α → Dev → Bool) : Bool := match x with | .ok v d => p v d | _ => false
def segAnd (x : WalkRes × Dev) (p : SegSt → Dev → Bool) : Bool := match x.1 with | .ok t => p t x.2 | _ => false
def isIn (x : EntryRes) : Bool := match x with | .entered _ => true | _ => false
def free {α : Type} (_ : α) (_ : Dev) : Bool := true
/-- A device whose instant lets nothing that is due in s pass. -/
def calm {α : Type} (s : State) (_ : α) (d : Dev) : Bool := !overdue (s.toDev.at d.now)
theorem ok_of {α : Type} {x : Acc α} {p : α → Dev → Bool} (h : okAnd x p = true) : ∃ v d, x = .ok v d ∧ p v d = true := by
  cases x with
  | ok v d => exact ⟨v, d, rfl, h⟩
  | exc => cases h
  | stall => cases h
theorem calm_of {α : Type} {s : State} {x : Acc α} (h : okAnd x (calm s) = true) : ∃ v d, x = .ok v d ∧ Calm s d.now := by
  obtain ⟨v, d, e, c⟩ := ok_of h
  exact ⟨v, d, e, by simpa [calm, Calm] using c⟩
theorem seg_of {x : WalkRes × Dev} {p : SegSt → Dev → Bool} (h : segAnd x p = true) : ∃ t d, x = (.ok t, d) ∧ p t d = true := by
  obtain ⟨r, d⟩ := x
  cases r with
  | ok t => exact ⟨t, d, rfl, h⟩
  | fault => cases h
  | stall => cases h
theorem in_of {x : EntryRes} (h : isIn x = true) : ∃ d, x = .entered d := by
  cases x with
  | entered d => exact ⟨d, rfl⟩
  | locked => cases h
  | stall => cases h

/-! ## Cores -/

theorem witness_IntegerArithmetic : Issues c0 0 3 c0.toDev ∧ Issues c0 0 6 c0.toDev ∧
    (∃ y e, aluY 0 {} (.mem8 1 8) (issued 0 3 c0.toDev) = .ok y e ∧ free y e = true) ∧
    (∃ y e, aluY 0 {} (.imm 5) (issued 0 6 c0.toDev) = .ok y e ∧ free y e = true) ∧
    legalPre 0 {} (aluMem (.mem8 1 8)) .yes = true ∧ legalPre 0 { width := .b8 } (aluMem (.reg 1)) .yes = true :=
  ⟨issues_of up_c0, issues_of up_c0, ok_of (by decide +kernel), ok_of (by decide +kernel), rfl, rfl⟩
theorem witness_CheckedAndSaturating : legalPre 0 {} (aluMem (.reg 1)) .no = true ∧ Issues c0 0 2 c0.toDev ∧
    (∃ y e, aluY 0 {} (.reg 1) (issued 0 2 c0.toDev) = .ok y e ∧ free y e = true) :=
  ⟨rfl, issues_of up_c0, ok_of (by decide +kernel)⟩
theorem witness_Shifts : legalPre 0 { width := .b16 } false .yes = true ∧ Issues c0 0 4 c0.toDev ∧ (31 : Byte).toNat < 32 :=
  ⟨rfl, issues_of up_c0, by decide⟩
theorem witness_OneOperand : Issues c0 0 2 c0.toDev ∧ Issues c0 0 3 c0.toDev ∧ Issues c0 0 4 c0.toDev ∧
    (legalPre 0 {} false .yes && legalPre 0 {} false .no && legalPre 0 { width := .b8 } false .required) = true ∧
    condOf 0xE = some .nov ∧ condOf 0xF = none := ⟨issues_of up_c0, issues_of up_c0, issues_of up_c0, rfl, rfl, rfl⟩
theorem witness_BitFields : legalPre 0 {} false .no = true ∧ Issues c0 0 4 c0.toDev ∧ Issues c0 0 3 c0.toDev ∧
    ((0x7FF : BitVec 16).toNat < 2 ^ 11 ∧ (0x3FF : BitVec 16).toNat < 2 ^ 10) := ⟨rfl, issues_of up_c0, issues_of up_c0, by decide⟩
theorem witness_Loads : Issues c0 0 2 c0.toDev ∧ Issues c0 0 3 c0.toDev ∧
    (legalPre 0 {} true .yes && legalPre 0 {} true .no && legalPre 0 { width := .b16 } true .required) = true ∧
    (∃ v f, load 0 (dataSeg {} (memBase (.post 1))) (reqLoad 0) false (memOff 0 (.post 1) (issued 0 2 c0.toDev)) 4 (issued 0 2 c0.toDev) =
      .ok v f ∧ free v f = true) ∧
    (∃ v f, load 0 .ds (reqLoad 0) false (memOff 0 (.ind 1) (issued 0 3 c0.toDev)) 2 (issued 0 3 c0.toDev) = .ok v f ∧ free v f = true) :=
  ⟨issues_of up_c0, issues_of up_c0, rfl, ok_of (by decide +kernel), ok_of (by decide +kernel)⟩
theorem witness_Stores : Issues c0 0 3 c0.toDev ∧ Issues c0 0 2 c0.toDev ∧ Issues c0 0 8 c0.toDev ∧
    (∃ u f, store 0 (dataSeg {} (memBase (.disp8 1 8))) (memOff 0 (.disp8 1 8) (issued 0 3 c0.toDev)) 4 7 (issued 0 3 c0.toDev) = .ok u f ∧
      Calm c0 f.now) ∧
    (∃ u f, store 0 .ds (memOff 0 (.post 1) (issued 0 2 c0.toDev)) 4 7 ((issued 0 2 c0.toDev).coreU 0 fun x => x.setW 1 (x.w[1] + 4)) =
      .ok u f ∧ Calm c0 f.now) ∧
    (∃ u f, store 0 (dataSeg {} 1) (dispOff 8 4) 4 7 (issued 0 8 c0.toDev) = .ok u f ∧ Calm c0 f.now) :=
  ⟨issues_of up_c0, issues_of up_c0, issues_of up_c0, calm_of (by decide +kernel), calm_of (by decide +kernel), calm_of (by decide +kernel)⟩
theorem witness_ExchangeAndStack : Issues c0 0 3 c0.toDev ∧ Issues c0 0 2 c0.toDev ∧
    (∃ v f, load 0 .ds (reqXchg 0) true 8 4 (issued 0 3 c0.toDev) = .ok v f ∧
      okAnd (store 0 .ds 8 4 7 (f.coreU 0 fun x => x.setW 2 (BitVec.ofNat 32 v))) (calm c0) = true) ∧
    (∃ u f, store 0 .ss 0xFFFC 4 7 ((issued 0 2 c0.toDev).coreU 0 fun x => x.setW 15 0xFFFFFFFC) = .ok u f ∧ Calm c0 f.now) ∧
    (∃ v f, load 0 .ss (reqLoad 0) false 0 4 (issued 0 2 c0.toDev) = .ok v f ∧ free v f = true) :=
  ⟨issues_of up_c0, issues_of up_c0, ok_of (p := fun v f => okAnd (store 0 .ds 8 4 7 (f.coreU 0 fun x => x.setW 2 (BitVec.ofNat 32 v))) (calm c0))
    (by decide +kernel), calm_of (by decide +kernel), ok_of (by decide +kernel)⟩
/-- Core 0 with a product and a quotient on their way, and inside a product window k instructions old. -/
def cProd : State := cored fun x => { x with prod := some 7, divn := some (3, 1), haltRq := true }
theorem up_cProd : Up cProd := ⟨rfl, by decide +kernel⟩
def cWin (k : Nat) : State := cored fun x => { x with win := some { prev := 1, new := 2, since := k } }
theorem up_cWin (k : Nat) (h : overdue (cWin k).toDev = false) : Up (cWin k) := ⟨rfl, h⟩
theorem witness_Multiplier : legalPre 0 {} false .no = true ∧ Issues c0 0 2 c0.toDev ∧ Issues c0 0 1 c0.toDev ∧ c0.core[(0 : Fin 5)].win = none ∧
    Issues (cWin 2) 0 2 (cWin 2).toDev ∧ Issues (cWin 3) 0 3 (cWin 3).toDev ∧
    ((cWin 2).core[(0 : Fin 5)].win.map (·.since), (cWin 3).core[(0 : Fin 5)].win.map (·.since)) = (some 2, some 3) ∧
    Up cProd ∧ cProd.core[(0 : Fin 5)].prod = some 7 :=
  ⟨rfl, issues_of up_c0, issues_of up_c0, rfl, issues_of (up_cWin 2 (by decide +kernel)), issues_of (up_cWin 3 (by decide +kernel)), rfl, up_cProd, rfl⟩
theorem witness_Divider : legalPre 0 {} false .no = true ∧ Issues c0 0 2 c0.toDev ∧ Up cProd ∧
    cProd.core[(0 : Fin 5)].divn = some (3, 1) := ⟨rfl, issues_of up_c0, up_cProd, rfl⟩
/-- A descriptor table at the start of SRAM whose entry 1 is a code segment open to every core and level. -/
def cTab : State :=
  let d := (c0.toDev.setF (.sys (.dtbase 0)) DTBASE.BASE 0x10000).setF (.sys (.dtbase 0)) DTBASE.LAST 1
  st (memWrite 0x20000010 0x20000000 (memWrite 0x20000014 0xFFFF (memWrite 0x20000018 0x9F08000E d)))
theorem up_cTab : Up cTab := ⟨rfl, by decide +kernel⟩
theorem witness_SpecialRegisters : legalPre 0 {} false .no = true ∧ Issues cTab 0 3 cTab.toDev ∧ Issues cTab 0 2 cTab.toDev ∧
    (∃ t f, walk 0 8 false 1 (issued 0 2 cTab.toDev) = (.ok t, f) ∧ free t f = true) ∧
    ((walk 0 8 false 2 (issued 0 2 cTab.toDev)).1 = .fault 0x11 ∧ (issued 0 2 cTab.toDev).level 0 = 8) :=
  ⟨rfl, issues_of up_cTab, issues_of up_cTab, seg_of (by decide +kernel), by decide +kernel⟩
theorem witness_Jumps : legalPre 0 {} false .no = true ∧ Issues c0 0 4 c0.toDev ∧ Issues c0 0 3 c0.toDev ∧ Issues c0 0 2 c0.toDev :=
  ⟨rfl, issues_of up_c0, issues_of up_c0, issues_of up_c0⟩
theorem witness_CallsAndReturns : legalPre 0 {} false .no = true ∧ Issues cTab 0 5 cTab.toDev ∧ Issues cTab 0 3 cTab.toDev ∧ Issues cTab 0 1 cTab.toDev ∧
    (∃ u f, push 0 3 (issued 0 3 cTab.toDev) = .ok u f ∧ Calm cTab f.now) ∧
    (∃ v f, pop 0 (issued 0 1 cTab.toDev) = .ok v f ∧
      okAnd (pop 0 f) (fun u g => segAnd (walk 0 (issued 0 1 cTab.toDev |>.level 0) true (u.extractLsb' 0 16) g) free) = true) ∧
    (∃ u f, pushFar 0 8 5 (issued 0 5 cTab.toDev) = .ok u f ∧ free u f = true) ∧
    (∃ t f, walk 0 8 true 1 (issued 0 5 cTab.toDev) = (.ok t, f) ∧
      okAnd (pushFar 0 8 5 (f.coreU 0 fun x => { x with seg := x.seg.set 0 t, pc := 0, buf := none })) (calm cTab) = true) ∧
    (walk 0 8 true 2 (issuedPlain 0 5 cTab.toDev)).1 = .fault 0x11 :=
  ⟨rfl, issues_of up_cTab, issues_of up_cTab, issues_of up_cTab, calm_of (by decide +kernel),
    ok_of (p := fun _ f => okAnd (pop 0 f) fun u g => segAnd (walk 0 _ true (u.extractLsb' 0 16) g) free) (by decide +kernel),
    ok_of (by decide +kernel),
    seg_of (p := fun t f => okAnd (pushFar 0 8 5 (f.coreU 0 fun x => { x with seg := x.seg.set 0 t, pc := 0, buf := none })) (calm cTab)) (by decide +kernel),
    by decide +kernel⟩
def cLev : State := cored fun x => { x with psw := 3 }
theorem up_cLev : Up cLev := ⟨rfl, by decide +kernel⟩
theorem witness_SystemInstructions : legalPre 0 {} false .no = true ∧ Issues cLev 0 1 cLev.toDev ∧ Issues cLev 0 2 cLev.toDev ∧
    cLev.sys.waits = [] ∧ cLev.mem.rawQ = [] ∧
    (∃ t f, retlWalk 0 3 (issuedPlain 0 1 cLev.toDev) = (.ok t, f) ∧ decide (PSW.LEVEL.get f.core[(0 : Fin 5)].savepsw[(3 : Fin 8)] ≤ 8) = true) ∧
    Issues c0 0 1 c0.toDev ∧ ((issuedPlain 0 1 cLev.toDev).level 0 = 3 ∧ 8 ≤ (issuedPlain 0 1 c0.toDev).level 0) :=
  ⟨rfl, issues_of up_cLev, issues_of up_cLev, rfl, rfl,
    seg_of (p := fun _ f => decide (PSW.LEVEL.get f.core[(0 : Fin 5)].savepsw[(3 : Fin 8)] ≤ 8)) (by decide +kernel), issues_of up_c0, by decide +kernel⟩
theorem witness_FloatingArithmetic : legalPre 0 {} false .no = true ∧ Issues c0 0 2 c0.toDev ∧ (fIsNan 0x7F800001 = true ∧
    fVal 0x3F800000 = .fin false 8388608 (-23) ∧ fVal 0x80000001 = .fin true 1 (-149)) := ⟨rfl, issues_of up_c0, by decide +kernel⟩
theorem witness_FloatingMoves : legalPre 0 {} false .no = true ∧ Issues c0 0 2 c0.toDev ∧ (fIsNan 0xFFC00000 = true ∧
    fVal 0x80000000 = .fin true 0 (-149)) := ⟨rfl, issues_of up_c0, by decide +kernel⟩
/-- Finite words of values 1, -1 and 0, so that each condition on the sum, the difference, the product, the quotient and the root is met. -/
theorem witness_CorrectRounding :
    let M (w : Word) : Nat := w.toNat % 2 ^ 23
    let E (w : Word) : Nat := w.toNat / 2 ^ 23 % 256
    let V (w : Word) : ℝ := (if w.msb then -1 else 1) *
      if E w = 0 then (M w : ℝ) * 2 ^ (-149 : ℤ) else ((2 ^ 23 + M w : Nat) : ℝ) * 2 ^ ((E w : ℤ) - 150)
    E 0x3F800000 ≠ 255 ∧ E 0xBF800000 ≠ 255 ∧ E 0 ≠ 255 ∧ V 0x3F800000 = 1 ∧ V 0xBF800000 = -1 ∧ V 0 = 0 ∧
      (-(2 ^ 24 : Int) ≤ -16777216 ∧ (16777216 : Int) ≤ 2 ^ 24) := by
  intro M E V
  have e1 : E 0x3F800000 = 127 := by decide
  have e2 : E 0xBF800000 = 127 := by decide
  have e3 : E 0 = 0 := by decide
  have m : M 0x3F800000 = 0 ∧ M 0xBF800000 = 0 ∧ M 0 = 0 := by decide
  have b : (0x3F800000 : Word).msb = false ∧ (0xBF800000 : Word).msb = true := by decide
  refine ⟨by omega, by omega, by omega, ?_, ?_, ?_, by decide⟩
  · simp only [V, e1, m.1, b.1]; norm_num
  · simp only [V, e2, m.2.1, b.2]; norm_num
  · simp only [V, e3, m.2.2]; norm_num
theorem witness_IllegalForms : Issues c0 0 1 c0.toDev ∧ Issues c0 0 6 c0.toDev ∧
    (legalPre 0 { width := .b8 } false .no || legalPre 0 { ct := true } false .no) = false ∧ (0x3D ≤ (0x3D : Byte).toNat ∧ (0x3F : Byte).toNat ≤ 0x3F ∧
    (0x4F : Byte).toNat = 0x4F ∧ 0x98 ≤ (0xDF : Byte).toNat ∧ (0xDF : Byte).toNat ≤ 0xDF ∧ (0x22 : Byte).toNat ∉ [0x00, 0x01, 0x02, 0x20, 0x21]) :=
  ⟨issues_of up_c0, issues_of up_c0, rfl, by decide⟩
theorem witness_LevelEntry : (∃ f, enterLevel 0 12 0 0 0 0 0 c0.toDev = .entered f) ∧ (cored fun x => { x with psw := 0 }).toDev.level 0 = 0 :=
  ⟨in_of (by decide +kernel), by decide +kernel⟩
/-- The sources of an interrupt controller: source n as x says, every other one queued. -/
def quiet (n : Fin 384) (x : SrcSt) : Vector SrcSt 384 := (Vector.replicate 384 { serve := .queued }).set n x
theorem quiet_other {d : Dev} {n : Fin 384} {x : SrcSt} (h : d.ic.src = quiet n x) {s : Nat} (hs : s < 384) (hn : s ≠ n) :
    icSrc d s = { serve := .queued } := by
  have e : (Fin.ofNat 384 s).val = s := Nat.mod_eq_of_lt hs
  have ne : ¬ n.val = (Fin.ofNat 384 s).val := fun q => hn (q.trans e).symm
  unfold icSrc; rw [h]; unfold quiet
  rw [Fin.getElem_fin, Vector.getElem_set, if_neg ne, Vector.getElem_replicate]
theorem quiet_cand {d : Dev} {n : Fin 384} {x : SrcSt} (h : d.ic.src = quiet n x) (c : Fin 5) :
    icCand d c = if icPending d n && icTarget d n == c && (!(icSrc d n).open_ || Config.freeBool (d.free + n)) then [(n.val, icLevel d n)]
      else [] := by
  have one : (List.range 384).filter (· == n.val) = [n.val] := by
    rw [List.filter_beq, List.count_eq_one_of_mem List.nodup_range (List.mem_range.2 n.2)]; rfl
  have all : icCand d c = (((List.range 384).filter (· == n.val)).filter fun s =>
      icPending d s && icTarget d s == c && (!(icSrc d s).open_ || Config.freeBool (d.free + s))).map fun s => (s, icLevel d s) := by
    rw [List.filter_filter, icCand]
    congr 1
    refine List.filter_congr fun s hs => ?_
    by_cases e : s = n.val
    · simp [e]
    · simp [e, icPending, quiet_other h (List.mem_range.1 hs) e]
  rw [all, one]
  cases hb : (icPending d n && icTarget d n == c && (!(icSrc d n).open_ || Config.freeBool (d.free + n))) <;>
    simp only [List.filter_cons, hb, List.filter_nil] <;> rfl
theorem quiet_followed {d : Dev} {n : Fin 384} {x : SrcSt} (h : d.ic.src = quiet n x) (hn : (icSrc d n).pendAt.isSome = icPending d n) :
    Followed d := by
  intro _ s hs
  by_cases e : s = n.val
  · rw [e]; exact hn
  · simp [icPending, quiet_other h hs e]
/-- Software interrupt 0 enabled and set, routed to core 0 at level 2, every other source queued; a floating-point exception pending;
a vector segment. -/
def cEvt : State :=
  let d := (cored fun x => { x with fpsr := 0x80000000 }).toDev
  let e := (d.setF (.sys (.dtbase 0)) DTBASE.BASE 0x10000).setF (.sys (.dtbase 0)) DTBASE.LAST 1
  let f := memWrite 0x20000010 0x20000000 (memWrite 0x20000014 0xFFFF (memWrite 0x20000018 0x9F08000E e))
  let g := puts [(.core 0 .vecsel, 1), (.ic .iswset, 1), (.ic (.icen 11), 0xFFFFFFFF), (.icc 0 .iccfg, ICCFG.EN.put 1 0),
    (.ic (.icsrc 376), ICSRC.LEVEL.put 2 0)] f
  st { g with ic := { g.ic with src := quiet 376 {} } }
theorem witness_CoreEvents : icRequest cEvt.toDev 0 = some (376, 2) ∧
    (∃ f, enterLevel 0 2 2 0 0 0 0 (icAccept 0 376 2 cEvt.toDev) = .entered f) ∧
    (∃ f, enterLevel 0 12 0 0 0 0 0 (cEvt.toDev.coreU 0 fun y => { y with fpsr := FPSR.TP.put 0 y.fpsr, fpDue := false }) = .entered f) ∧
    Up cProd ∧ cProd.core[(0 : Fin 5)].haltRq = true ∧ cProd.core[(0 : Fin 5)].ldWait = [] ∧ storesWait cProd.toDev 0 = false ∧
    (let x := cEvt.core[(0 : Fin 5)]
     Up cEvt ∧ x.run = .run ∧ x.haltRq = false ∧ x.parked = false ∧ x.ldWait = [] ∧ x.fpDue = false ∧ FPSR.TP.bit x.fpsr = true ∧
       cEvt.toDev.level 0 ≠ 0 ∧ vecSel cEvt.toDev 0 ≠ 0 ∧ tagsFull cEvt.toDev (coreHolder 0) = false ∧
       Asks (.core 0) cEvt (.core 0 .vecsel) ∧ Asks .host cEvt (.core 0 .vecsel)) :=
  ⟨by rw [icRequest, quiet_cand (n := 376) rfl]; decide +kernel, in_of (by decide +kernel), in_of (by decide +kernel), up_cProd, rfl, rfl,
    by decide +kernel, by unfold Asks Open Up; decide +kernel⟩

/-! ## Memory, flash and resets -/

theorem witness_ErrorCodes : (0 : Nat) < 39 ∧ (38 : Nat) < 39 ∧ (136 : Nat) < 137 ∧
    flEnc 5 ^^^ BitVec.ofNat 137 (2 ^ 136) ≠ BitVec.allOnes 137 ∧
    (flEnc 5 ^^^ BitVec.ofNat 137 (2 ^ 136)) ^^^ BitVec.ofNat 137 1 ≠ BitVec.allOnes 137 := by decide +kernel
def mSt : State := st ((puts [(.sys .memtaddr, 0x20000004), (.sys .memctl, MEMCTL.PATEN.put 1 0)] ready) |> memPut 0x20000004 1 |>
  memPut 0x20000008 3 |> memPut 0x2000000C (eccPoison 9))
theorem witness_WordsReadBack : (inSram 0x203FFFFC || inLem 0x203FFFFC) = true ∧ (inSram 0x30003FFC || inLem 0x30003FFC) = true ∧
    mSt.mem.wf = true ∧ sramCell mSt.toDev 0x20000000 ≠ sramCell mSt.toDev 0x203FFFFC := by decide +kernel
theorem witness_MemoryErrors : eccDecode (memGet mSt.toDev 0x20000000) = .clean ∧ eccDecode (memGet mSt.toDev 0x20000004) = .fixed 0 ∧
    eccDecode (memGet mSt.toDev 0x20000008) = .bad ∧ eccDecode (memGet mSt.toDev 0x2000000C) = .poison ∧
    (reqDma).flag = some MEMSTAT.UE ∧ (reqDma).line = some 434 := by decide +kernel
def mBusy : State := st ({ puts [(.sys (.remap 1 2), (0 : Word) |> REMAP.V.put 1 |> REMAP.LINE.put 7)] ready with
  mem := { ready.mem with copies := [(2, 3, 9)] } })
theorem witness_MemoryCommands : (∀ l, ((1 : Fin 8), (0 : Fin 16), l) ∉ mBusy.mem.copies) ∧
    Asks .host mSt (.sys .memtcmd) ∧ Asks (.core 0) mSt (.sys .memtcmd) ∧ inSram (mSt.get (.sys .memtaddr)).toNat = true ∧
    Asks .host mBusy (.sys (.remap 1 0)) ∧
    (mBusy.b (.sys (.remap 1 0)) REMAP.V = false ∧ REMAP.V.bit ((0 : Word) |> REMAP.V.put 1 |> REMAP.LINE.put 8) = true) ∧
    (∀ k : Fin 16, mBusy.f (.sys (.remap 1 k)) REMAP.LINE ≠ 8) ∧
    (mBusy.b (.sys (.remap 1 2)) REMAP.V = true ∧ mBusy.f (.sys (.remap 1 2)) REMAP.LINE = 7) := by
  refine ⟨fun l h => by simp [mBusy, st] at h, ?_⟩
  unfold Asks Open Up; decide +kernel
def mRaw : State := dev [(.sys (.ready 0), READY0.FLASH.put 1 0)]
theorem witness_MemoryEngines : Up mRaw ∧ mRaw.b (.sys (.ready 0)) READY0.SRAM = false ∧ mRaw.b (.sys (.ready 0)) READY0.FLASH = true ∧
    mRaw.mem.rawQ = [] ∧ (∀ r : Fin 16, (mRaw.cap[r]).enW = false) ∧ Up mSt ∧ mSt.b (.sys .memctl) MEMCTL.PATEN = true ∧
    memWaits mSt.toDev (patrolAddr (mSt.f (.sys .mempatrol) MEMPATROL.LINE) 0) = false ∧
    Calm mSt (mSt.mem.patAt + max 1 (mSt.f (.sys .memctl) MEMCTL.INTERVAL) * 100 * tuNs) ∧ Up mBusy ∧
    mBusy.mem.copies = [(2, 3, 9)] ∧ (9 : Nat) < 2 ^ 13 ∧ (∀ k : Fin 16, mBusy.b (.sys (.remap 2 k)) REMAP.V = false) ∧
    mBusy.b (.sys (.ready 0)) READY0.SRAM = true := by unfold Calm Up; decide +kernel
/-- The flash engine unclaimed with an address a; claimed by core 1; busy; its word and its sector erased or protected. -/
def fAt (a : Word) : State := dev [(.fl .fladdr, a), (.fl .flwp, 0)]
def fFree : State := fAt 0x00100000
def fHeld : State := dev [(.fl .flclaim, FLCLAIM.OWNER.put 1 0)]
def fBusy : State := dev [(.fl .flstat, FLSTAT.BUSY.put 1 0)]
def fWp : State := dev [(.fl .fladdr, 0x00CFFFF0), (.fl .flwp, FLWP.BANKB.put 0xFFF 0)]
/-- What the table of R331 reads of the address: its array, the protection of its sector, whether its word reads erased. -/
theorem witness_FlashCommands : Asks .host fFree (.fl .flclaim) ∧ Asks (.core 1) fHeld (.fl .flclaim) ∧ Asks .host fHeld (.fl .flclaim) ∧
    Asks .host fFree (.fl .flcmd) ∧ fFree.f (.fl .flclaim) FLCLAIM.OWNER = 7 ∧
    Asks .host fHeld (.fl .flcmd) ∧ fHeld.f (.fl .flclaim) FLCLAIM.OWNER = 1 ∧ reqCode (.core 1) = 1 ∧ reqCode .host ≠ 1 ∧
    Asks .host fBusy (.fl .flcmd) ∧ fBusy.b (.fl .flstat) FLSTAT.BUSY = true ∧
    fFree.b (.fl .flstat) FLSTAT.BUSY = false ∧ fFree.b (.fl .flstat) FLSTAT.NOCMD = false ∧ fFree.b (.sys (.ready 0)) READY0.FLASH = true ∧
    (flOpen fFree.toDev 0x00100000 = false ∧ flGet fFree.toDev 0x00100000 = BitVec.allOnes 137) ∧
    (fWp.f (.fl .flwp) FLWP.BANKB).testBit ((0x00CFFFF0 - 0x700000) / 0x80000) = true ∧ Asks .host fWp (.fl .flcmd) ∧
    Asks .host (fAt 0x000FFFFF) (.fl .flcmd) ∧ Asks .host (fAt 0x00E03000) (.fl .flcmd) ∧ Asks .host (fAt 0x00E00000) (.fl .flcmd) ∧
    Asks (.core 4) (fAt 0x00E0F000) (.fl .flcmd) ∧ reqCode (.core 4) = 4 := by
  unfold Asks Open Up; decide +kernel
def fOp (k : FlKind) (stop : Bool) : State :=
  st { ready with fl := { op := some { kind := k, addr := 0x00108000, data := 5, margin := 0, count := 2, by_ := 4 }, stop := stop } }
theorem witness_FlashResults : Up (fOp .program false) ∧ (fOp .program false).hst.chunk = none ∧ (fOp .program false).hst.cmds = [] ∧
    (fOp .program false).hst.late = [] ∧
    ((fOp .program false).fl.op.map fun o => o.kind) = some .program ∧ (fOp .program false).fl.stop = false ∧
    ((fOp .erase true).fl.op.map fun o => o.kind) = some .erase ∧ (fOp .erase true).fl.stop = true ∧ flSector 0x00108000 ≠ 384 ∧
    Up (fOp .program true) ∧ ((fOp .program true).fl.op.map fun o => o.kind) = some .program ∧
    Up (fOp .verify true) ∧ ((fOp .verify true).fl.op.map fun o => o.kind) = some .verify ∧
    Up (fOp .evalcal true) ∧ ((fOp .evalcal true).fl.op.map fun o => o.kind) = some .evalcal ∧
    ((fOp .verify false).fl.op.map fun o => o.kind) = some .verify ∧ (∀ k < 2, flOpen (fOp .verify false).toDev (0x00108000 + 16 * k) = false) ∧
    ((fOp .evalcal false).fl.op.map fun o => o.kind) = some .evalcal ∧
    Up State.reset ∧ State.reset.b (.sys (.ready 0)) READY0.FLASH = false ∧ (dev []).sys.por = State.reset.sys.por := by unfold Up; decide +kernel
def rst (k : RstKind) : State := st { ready with sys := { ready.sys with rst := some (k, 1000000000) } }
theorem not_por (t : Nat) : (found (dev [])).sys.rst ≠ some (.por, t) := by
  have e : (found (dev [])).sys.rst = none := by decide +kernel
  rw [e]; exact nofun
theorem witness_DeviceResets : (∀ t, (found (dev [])).sys.rst ≠ some (.por, t)) ∧ (found (rst .por)).sys.rst = some (.por, 1000000000) ∧
    (found (rst .soft)).sys.rst = some (.soft, 1000000000) ∧ Asks .host (dev []) (.sys .rstctl) ∧ Asks (.core 4) (dev []) (.sys .rstctl) ∧
    Asks (.core 0) (dev []) (.sys .rstctl) ∧ Asks .host (dev []) (.sys .corerun) ∧ Asks (.core 0) (dev []) (.sys .corerun) ∧
    RSTCTL.KEY.get (0x5A000010 : Word) = 0x5A ∧ RSTCTL.CORERST.get (0x5A000010 : Word) = 16 ∧ RSTCTL.CORERST.get (0x5A00000F : Word) = 15 :=
  ⟨not_por, by unfold Asks Open Up; decide +kernel⟩
/-- S and H0 held in reset with H0 released, before and after the boot ROM is done; and S in the boot ROM with blank banks. -/
def bHeld (done : Nat) : State :=
  dev [(.sys .corerun, CORERUN.H.put 1 0x10), (.sys .bootstat, (0 : Word) |> BOOTSTAT.DONE.put done |> BOOTSTAT.IMG.put 1)]
def bRom : State := st { ready with core := ready.core.set 4 { run := .run } }
theorem witness_StartUp : Up State.reset ∧ State.reset.b (.sys (.ready 0)) READY0.SHROUD = false ∧
    State.reset.b (.sys (.ready 0)) READY0.ANALOG = false ∧ Up (bHeld 0) ∧ coreMayStart (bHeld 0).toDev 0 = true ∧
    (bHeld 0).b (.sys .bootstat) BOOTSTAT.DONE = false ∧ Up (bHeld 1) ∧ coreMayStart (bHeld 1).toDev 0 = true ∧
    Calm (bHeld 0) ((bHeld 0).core[(0 : Fin 5)].resetAt + tuUs) ∧ Calm (bHeld 1) ((bHeld 1).core[(0 : Fin 5)].resetAt + tuUs) ∧
    Calm (bHeld 1) ((bHeld 1).core[(4 : Fin 5)].resetAt + tuUs) ∧
    (bHeld 1).b (.sys .bootstat) BOOTSTAT.DONE = true ∧ coreMayStart (bHeld 1).toDev 4 = true ∧
    (bHeld 1).f (.sys .bootstat) BOOTSTAT.IMG < 2 ∧ Up bRom ∧ bootDue bRom.toDev = true ∧
    (bootVerify (candOrder (bootBadHeader true (bootBadHeader false bRom.toDev))) (bootBadHeader true (bootBadHeader false bRom.toDev))).1 = none := by
  unfold Calm Up; decide +kernel
theorem witness_StartUp_entry :
    let d := (bHeld 1).toDev
    let e := coreLeavesReset 0 (wdRestart 0 (d.at (d.core[(0 : Fin 5)].resetAt + tuUs)))
    ∃ t f, walk 0 8 true (BitVec.ofNat 16 (e.f (.sys (.bootent 0)) BOOTENT.SEL)) e = (.ok t, f) ∧ free t f = true := seg_of (by decide +kernel)
/-- An image of R436 with SEQ 5 and a body of 16 zero bytes, signed with the private key 1, and the hash of its key for key slot 0. -/
def image : List (BitVec 128) :=
  [0x100000000500000001314B4D55, 0x0, 0x0, 0x0,
   0x0, 0x0, 0x28D26CD575C89E97D59D71F7FF084737, 0xBB37EC28AB2A63253B7A31ECF73C6D6F,
   0xF240A463E5E6BCF847422CE1F2D1176B, 0x96C298D84539A1F4A033EB2D817D0377, 0x169E0F7C4AEBE78E9B7F1AFEE242E34F, 0xF551BF376840B6CBCE5E316B5733CE2B,
   0xC31AB5040338528A7E4F038D187BF27C, 0x78996647FC480BA6351BF277E26989C0, 0x89566B8331431DED9986A38246233387, 0xC12F85BCBDC49BFEA434AEAFBADAEC87,
   0x0]
def keyHash : List (BitVec 128) := [0x803EBBB0C638C7AE362223EF7DDB75D8, 0x9F0DB5CBF5EED6FE24DFF4D80F5D2F14]
/-- S in the boot ROM with that image in bank A, its key in key slot 0 and bank B blank. -/
def bImage : State :=
  let at_ (a : Nat) (l : List (BitVec 128)) : List (Nat × FlWord) := l.mapIdx fun k w => (a / 16 + k, flEnc w)
  st { bRom.toDev with fl := { bRom.fl with words := at_ (bankBase false) image ++ at_ otpBase keyHash } }
/-- The boot ROM finds bank A's candidate alone, and the verifier passes it. -/
theorem witness_StartUp_image :
    let e := bootBadHeader true (bootBadHeader false bImage.toDev)
    Up bImage ∧ bootDue bImage.toDev = true ∧ candOrder e = [false] ∧ (bootVerify (candOrder e) e).1 = some false ∧
      ((bankHeader (bootVerify (candOrder e) e).2 false).map fun h => h.map fun h => (h.seq, h.bodyLen)) = some (some (5, 16)) := by
  unfold Up; decide +kernel
/-- EXTEST meets a gate driver that is enabled; a bank that has latched; a supply that is low and one that is away. -/
def jGate : State := dev [(.shg .shgate, SHGATE.EN.put 8 0)]
def jHeld : State := st { ready with jtag := { ready.jtag with trst := true } }
def jRail (r : Rail) : State := st { ready with sys := { ready.sys with vio := Vector.replicate 4 r } }
theorem witness_PackageAndJtag : (∀ t, (found (dev [])).sys.rst ≠ some (.por, t)) ∧ (found (rst .por)).sys.rst = some (.por, 1000000000) ∧
    ((found (dev [])).f (.sys .iostat) IOSTAT.PRESENT).testBit 3 = false ∧
    ((found (dev [(.sys .iostat, IOSTAT.PRESENT.put 8 0)])).f (.sys .iostat) IOSTAT.PRESENT).testBit 3 = true ∧
    (∀ r ∈ [Rail.good, .low, .absent], (found (jRail r)).sys.vio[(3 : Fin 4)] = r ∧
      ((found (jRail r)).f (.sys .iostat) IOSTAT.PRESENT).testBit 3 = false) ∧
    (found (dev [])).jtag.trst = false ∧ (found jHeld).jtag.trst = true ∧
    (∀ g < 4, gatePin (found (dev [])) g = false) ∧ (found jGate).jtag.trst = false ∧ gatePin (found jGate) 3 = true :=
  ⟨not_por, by decide +kernel⟩

/-! ## Host interface -/

def hdr (op : Nat) : CmdHdr := { iface := .spi, op := op, tag := 7, flags := 0, bcast := false, src := 0 }
def cmd (op : Nat) (payload : List Byte) : Cmd := { hdr := hdr op, payload := payload, raw := [], at_ := 0 }
def word4 (v : Nat) : List Byte := bytesLE 4 v
def host (l : List (Reg × Word)) (f : HstSt → HstSt) : State := let d := puts l ready; st { d with hst := f d.hst }
def sends (l : List (Reg × Word)) (c : Cmd) : State := host l fun h => { h with cmds := [c] }
def hRead : State := sends [] (cmd 2 (word4 0x203FFFFC))
def hEnable : State := sends [] (cmd 3 (word4 (Reg.addr (.capr 15 .ctl)) ++ word4 (CAPR_CTL.EN.put 1 0).toNat))
theorem witness_AccessCommands : Up hRead ∧ hstSeen hRead.toDev = [cmd 2 (word4 0x203FFFFC)] ∧ hRead.hst.late = [] ∧
    (cmd 2 []).err = none ∧ hstRoom hRead.toDev .spi = true ∧ hRead.hst.posted = [] ∧
    tagsFull hRead.toDev 69 = false ∧ hostWaits hRead.toDev 0x203FFFFC = false ∧ (0x203FFFFC < 0x20400000 ∧ ¬ 0x60000000 < 0x50000000) ∧
    (∀ k < 256, hostWriteWaits hRead.toDev (0x20000000 + 4 * k) = false) ∧ (∀ k < 256, hostWaits hRead.toDev (0x20000000 + 4 * k) = false) ∧
    (wordAt (cmd 4 (word4 0x20000000 ++ word4 1024)).payload 4).toNat = 4 * 256 ∧
    (cmd 5 (word4 0x20000000 ++ (List.replicate 255 (word4 1)).flatten)).payload.length = 4 + 4 * 255 ∧
    (0x7F : Nat) < 0x80 ∧ (cmd 1 []).payload.length = 0 ∧
    -- an enable that is refused
    (Up hEnable ∧ Reg.ofAddr (wordAt (cmd 3 (word4 (Reg.addr (.capr 15 .ctl)))).payload 0).toNat = some (.capr 15 .ctl) ∧ hEnable.b (.capr 15 .ctl) CAPR_CTL.EN = false ∧
      hostWriteWaits hEnable.toDev (Reg.addr (.capr 15 .ctl)) = false ∧
      (let x := hostWrite (Reg.addr (.capr 15 .ctl)) (CAPR_CTL.EN.put 1 0) ({ hEnable.toDev with hst := { hEnable.hst with cmds := [] } } : Dev)
       x.b (.capr 15 .ctl) CAPR_CTL.EN = false ∧ x.cap[(15 : Fin 16)].enW = false)) := by unfold Up; decide +kernel
def hChunk : State := sends [] (cmd 0x10 (word4 1 ++ word4 0x5F8000 ++ List.replicate 16 (5 : Byte)))
def hHead : State := sends [(.lnk .lnkstat, LNKSTAT.HEAD.put 1 0), (.lnkp 1 .stat, LNKP_STAT.TRAINED.put 1 0)] (cmd 8 [])
def hSnap : State := sends [(.capr 15 .stat, CAPR_STAT.RUN.put 1 0)] (cmd 0xA (word4 0x8000))
def hCal : State := sends [] (cmd 0xB (word4 0x80000000))
def sRuns (s : State) : State := st { s.toDev with core := s.core.set 4 { run := .run } }
def hKey : State := sRuns (sends [] (cmd 0x18 (word4 (Reg.addr (.sys (.tagbud 3))) ++ word4 (TAGBUD.BUDGET.put 5 0).toNat)))
def hCommit : State := sRuns (sends [] (cmd 0x11 (word4 1)))
def hFw (en pend : Nat) : State := sends [(.hif .hifcfg, HIFCFG.FWEN.put en 0), (.hif .fwstat, FWSTAT.PEND.put pend 0)] (cmd 0xFE [])
theorem witness_OperationCommands : Up hHead ∧ hstSeen hHead.toDev = [cmd 8 []] ∧ hHead.hst.late = [] ∧ hHead.core[(4 : Fin 5)].parked = false ∧
    hCal.sys.pllA = true ∧ lnkHead hHead.toDev = true ∧ lnkBusy hHead.toDev = false ∧ hHead.hst.enum = none ∧
    lnkTrained hHead.toDev 1 = true ∧ lnkHead hChunk.toDev = false ∧ Up hSnap ∧ hSnap.b (.capr 15 .stat) CAPR_STAT.RUN = true ∧
    Up hCal ∧ hCal.hst.cal = none ∧ adcMode hCal.toDev 31 = 0 ∧ hCal.b (.adc 31 .stat) ADC_STAT.CALBUSY = false ∧ Up hChunk ∧
    hChunk.hst.chunk = none ∧ flOwner hChunk.toDev = 7 ∧ hChunk.b (.sys .bootstat) BOOTSTAT.DONE = false ∧
    hChunk.b (.fl .flstat) FLSTAT.BUSY = false ∧ flProtected hChunk.toDev (flSector (bankBase true + 0x5F8000)) = false ∧
    hstRoom hChunk.toDev .spi = true ∧ (0x5F8000 + 16 : Nat) ≤ 0x600000 ∧ Up hCommit ∧ hCommit.hst.commit = none ∧ hCommit.sec.ver = none ∧
    hCommit.core[(4 : Fin 5)].run = .run ∧ hChunk.core[(4 : Fin 5)].run = .held := by unfold Up; decide +kernel
theorem witness_OperationCommands_keys :
    (tkStage 5 (Reg.addr (.sys (.tagbud 3))) (TAGBUD.BUDGET.put 5 0) hKey.toDev).1 = .taken ∧
    (tkStage 5 (Reg.addr (.sys .sysctl)) 0 hKey.toDev).1 = .refused ∧
    (tkStage 5 (Reg.addr (.sys (.tagbud 3))) (TAGBUD.BUDGET.put 5 0)
      (({ hKey.toDev with now := 5 } : Dev).put (.sec .tk_stat) ((0 : Word) |> TK_STAT.OPEN.put 1 |> TK_STAT.SEALED.put 1))).1 = .busy ∧
    (hFw 0 0).b (.hif .hifcfg) HIFCFG.FWEN = false ∧ (hFw 1 1).b (.hif .fwstat) FWSTAT.PEND = true ∧
    (hFw 1 0).b (.hif .fwstat) FWSTAT.PEND = false := by decide +kernel
def lAddr (a : Nat) : Dev := (ready.put (.lnk .lnkaddr) ((0 : Word) |> LNKADDR.V.put 1 |> LNKADDR.COUNT.put 64 |> LNKADDR.ADDR.put a))
/-- Packets of no payload: good, of a set reserved flag, of a bad payload check. -/
def packetOf (flags : Byte) (sum : List Byte) : List Byte :=
  let h : List Byte := [1, 7, 0, flags, 0, 0]
  h ++ bytesLE 2 (crc16 h) ++ sum
def packet : List Byte := packetOf 0 (bytesLE 4 (crc32c []))
def hQueue (n : Nat) : Dev := { ready with hst := { ready.hst with cmds := List.replicate n (cmd 1 []) } }
theorem witness_Replies : (List.replicate 1024 (0 : Byte)).length ≤ 1024 ∧ ((hdr 1).bcast = false ∧ (hdr 1).flags.testBit 0 = false) ∧
    hstRoom ready .pcie = true ∧ hstRoom ready .spi = true ∧ ready.hst.pcie = [] ∧
    hstRoom { ready with hst := { ready.hst with spiQ := [[1], [2], [3], [4]] } } .spi = false ∧
    (hstSeen (hQueue 3)).tail.length = 2 ∧ hstRoom (hQueue 3) .spi = true ∧ hstSeen (hQueue 0) = [] ∧
    packetErr packet 0 = none ∧ packetErr (packetOf 8 (bytesLE 4 (crc32c []))) 0 = some 0x14 ∧ packetErr (packetOf 0 [1, 1, 1, 1]) 0 = some 0x10 ∧
    pktRoute ready .pcie 0 0 = .here ∧ pktRoute ready .pcie 0x7E 0 = .noRoute ∧ pktRoute (lAddr 63) .pcie 0x7F 0 = .both ∧
    pktRoute (lAddr 63) .pcie 0 0 = .forward ∧
    lnkV ready = false ∧ lnkV (lAddr 63) = true ∧ (63 : Nat) < lnkCount (lAddr 63) ∧ lnkAddr (lAddr 63) = 63 ∧ (0 : Nat) ≠ lnkAddr (lAddr 63) ∧
    lnkCount (ready.put (.lnk .lnkaddr) ((0 : Word) |> LNKADDR.V.put 1 |> LNKADDR.COUNT.put 1)) ≤ 0x3F := by decide +kernel
def hBell (l : List Byte) : State := dev [(.hif .hifcfg, HIFCFG.PCIEEN.put 1 0), (.hif (.hmbcmd 0), wordAt l 0), (.hif (.hmbcmd 1), wordAt l 4),
  (.hif (.hmbcmd 2), wordAt l 8)]
/-- Headers with their check: of a payload of 4 bytes whose reply a broadcast asks for, and of a payload of 1,025 bytes. -/
def hdrShort : List Byte := [1, 7, 0, 2, 4, 0] ++ bytesLE 2 (crc16 [1, 7, 0, 2, 4, 0])
def hdrLong : List Byte := [1, 7, 0, 0, 1, 4] ++ bytesLE 2 (crc16 [1, 7, 0, 0, 1, 4])
def hWait : State :=
  host [] fun h => { h with fw := some (hdr 0x80, 5), enum := some (hdr 8, 5), recAt := some (5, .spi, [1]), pcie := [[1], [2]] }
def hLate : State := st { hWait.toDev with now := 2000000000 }
def hFresh : State := host [] fun h => { h with fw := some (hdr 0x80, 1000000000) }
theorem witness_MailboxAndFirmware : Up hWait ∧ hWait.hst.cmds = [] ∧ hWait.hst.late = [] ∧ Asks (.core 1) hWait (.hif .fwrpl) ∧
    hWait.hst.fw = some (hdr 0x80, 5) ∧ Up hLate ∧ fwExpired hLate.toDev = true ∧ Asks (.core 1) hLate (.hif .fwrpl) ∧ hLate.hst.fw = some (hdr 0x80, 5) ∧ fwExpired hFresh.toDev = false ∧ Asks (.core 1) hFresh (.hif .fwrpl) ∧
    hFresh.hst.fw = some (hdr 0x80, 1000000000) ∧ (FWRPL.DLEN.get (1024 : Word) ≤ 1024 ∧ 1024 < FWRPL.DLEN.get (1025 : Word)) ∧
    Calm hWait (5 + max 1 (hWait.f (.hif .hifcfg) HIFCFG.FWTMO) * 1000 * tuUs) ∧ Calm hWait (5 + 10000 * tuUs) ∧ Calm hWait 5 ∧
    (dev []).hst.fw = none ∧ hWait.hst.enum = some (hdr 8, 5) ∧ hWait.hst.recAt = some (5, .spi, [1]) ∧ (dev []).hst.recAt = none ∧
    Asks .host hWait (.hif .hdbell) ∧ Asks .host hWait (.hif .hrack) ∧ hWait.hst.pcie = [1] :: [[2]] ∧ (dev []).hst.pcie = [] ∧
    (dev [(.hif .hifcfg, 0)]).b (.hif .hifcfg) HIFCFG.PCIEEN = false := by unfold Calm Asks Open Up; decide +kernel
theorem witness_MailboxAndFirmware_doorbell :
    let b (l : List Byte) (n : Nat) := hmbBytes (hBell l).toDev n
    let good (l : List Byte) (n : Nat) : Prop := crc16 ((b l n).take 6) = ofLE (((b l n).drop 6).take 2)
    Asks .host (hBell packet) (.hif .hdbell) ∧ (hBell packet).b (.hif .hifcfg) HIFCFG.PCIEEN = true ∧
    good packet 12 ∧ 12 + ofLE (((b packet 12).drop 4).take 2) ≤ 12 ∧ good hdrShort 8 ∧ 8 < 12 + ofLE (((b hdrShort 8).drop 4).take 2) ∧
    good hdrLong 8 ∧ 1024 < ofLE (((b hdrLong 8).drop 4).take 2) ∧ ¬ good [] 8 := by unfold Asks Open Up; decide +kernel
def hSpi (g : SpiSt) : State := host [(.hif .hifcfg, HIFCFG.SPIEN.put 1 0)] fun h => { h with spi := g, spiQ := [[1, 2]] }
theorem witness_SpiTarget : Up (hSpi {}) ∧ (hSpi {}).hst.late = [] ∧ (hSpi {}).hst.cmds = [] ∧ (hSpi {}).b (.hif .hifcfg) HIFCFG.SPIEN = true ∧
    (dev [(.hif .hifcfg, 0)]).b (.hif .hifcfg) HIFCFG.SPIEN = false ∧
    (hSpi {}).hst.spi.low = false ∧ (hSpi {}).hst.spiQ = [1, 2] :: [] ∧ (dev []).hst.spiQ = [] ∧
    (let b := hdrShort
     (hstHdr .spi 0 b).flags.testBit 1 = true ∧ crc16 (b.take 6) = ofLE ((b.drop 6).take 2) ∧ b.length = 8 ∧
       ofLE ((b.drop 4).take 2) ≤ 1024 ∧ b.length < 12 + ofLE ((b.drop 4).take 2)) ∧
    (let b := hdrLong
     crc16 (b.take 6) = ofLE ((b.drop 6).take 2) ∧ b.length = 8 ∧ 1024 < ofLE ((b.drop 4).take 2)) ∧
    (let b := packet
     crc16 (b.take 6) = ofLE ((b.drop 6).take 2) ∧ b.length = 12 + ofLE ((b.drop 4).take 2)) ∧
    crc16 ((List.replicate 8 (0 : Byte)).take 6) ≠ ofLE (((List.replicate 8 (0 : Byte)).drop 6).take 2) ∧
    (∀ g ∈ [({ low := true } : SpiSt), { low := true, buf := [5] }, { low := true, buf := hdrShort }, { low := true, drop := true },
        { low := true, skip := 9 }],
      Up (hSpi g) ∧ (hSpi g).hst.spi = g ∧ (hSpi g).hst.spiQ.length < 4 ∧ Calm (hSpi g) (g.at_ + 20 * tuUs) ∧
        (hSpi g).b (.hif .hien) HIEN.TRUNC = false) := by unfold Calm Up; decide +kernel
/-- The link up, with core 2's load of the window waiting for its completion; a read that has timed out; the link down, seen before. -/
def hUp (dead : Bool) : State := st { puts [(.hif .pciestat, PCIESTAT.L0.put 1 0), (.hif .hifcfg, HIFCFG.PCIEEN.put 1 0)] ready with
  hst := { ready.hst with reads := [{ core := 2, addr := 0x80000000, at_ := 5, dead := dead }] }, core := ready.core.set 2 { ldWait := [0x80000000] } }
def hDown : State := dev [(.hif .pciestat, PCIESTAT.SEEN.put 1 0), (.hif .hifcfg, HIFCFG.PCIEEN.put 1 0)]
theorem witness_PcieEndpoint :
    let a := hUp false
    Up a ∧ a.toDev.l0 = true ∧ a.get (.hif .hien) = 0 ∧ tagsFull a.toDev 69 = false ∧ a.hst.posted = [] ∧
    (0x0FFFFFFC / 4 * 4 + 4 * 1 ≤ a.hst.cfg.bar0 ∧ 0x203FFFFC / 4 * 4 + 4 * 1 ≤ a.hst.cfg.bar2) ∧
    (∀ p ∈ [(0x203FFFFC, Region.sram), (0x40000000, .device), (0x30000000, .lem), (0, .rom), (0x100000, .flash), (0xE00000, .info),
        (0x3FFFFFFC, .unmapped), (0x80000000, .window)], regionOf p.1 = p.2) ∧
    hostWaits a.toDev 0x203FFFFC = false ∧ hostWriteWaits a.toDev 0x203FFFFC = false ∧
    Up hDown ∧ hDown.toDev.l0 = false ∧ hDown.hst.perst = false ∧ hDown.b (.hif .hifcfg) HIFCFG.PCIEEN = true ∧
    hDown.b (.hif .pciestat) PCIESTAT.SEEN = true ∧ (dev []).toDev.l0 = false ∧ (dev []).b (.hif .pciestat) PCIESTAT.SEEN = false ∧
    (∀ x : Bool, (hUp x).hst.reads.find? (fun y => y.core == 2) = some { core := 2, addr := 0x80000000, at_ := 5, dead := x } ∧ Up (hUp x)) ∧
    a.core[(2 : Fin 5)].ldWait = [0x80000000] ∧ Calm a (5 + 50 * tuUs) ∧ a.hst.perst = false ∧ a.b (.hif .hifcfg) HIFCFG.PCIEEN = true ∧
    a.hst.cmds = [] ∧ a.hst.late = [] := by unfold Calm Up; decide +kernel

/-! ## Clocks, power stage, loops -/

/-- No switch is on, no dead-time runs and no comparator can trip: nothing falls due to the shroud. -/
def idleShroud (d : Dev) : Bool :=
  ((fins 96).all fun n => d.leg[n].pend.isNone && !d.leg[n].hi.on && !d.leg[n].lo.on) &&
    (fins 64).all fun m => !d.b (.shtm m .cfg) SHTM_CFG.EN && d.cmp[m].cond.isNone
theorem not_of {b : Bool} (h : (!b) = true) : b = false := by cases b <;> trivial
theorem calm_idle {s : State} (h : idleShroud s.toDev = true) (t : Nat) : Calm s t := by
  unfold idleShroud at h
  simp only [Bool.and_eq_true, List.all_eq_true] at h
  unfold Calm overdue
  rw [Bool.or_eq_false_iff]
  constructor <;> rw [List.any_eq_false]
  · intro n hn
    obtain ⟨⟨p, hi⟩, lo⟩ := h.1 n hn
    have q : (s.toDev.at t).leg[n].pend = none := Option.isNone_iff_eq_none.1 p
    have qh : ((s.toDev.at t).leg[n].sw .h).on = false := not_of hi
    have ql : ((s.toDev.at t).leg[n].sw .l).on = false := not_of lo
    simp only [legLate, legDue, q, qh, ql, Bool.false_and, Bool.or_false]
    exact nofun
  · intro m hm
    obtain ⟨en, co⟩ := h.2 m hm
    have c : (s.toDev.at t).cmp[m].cond = none := Option.isNone_iff_eq_none.1 co
    have e : (s.toDev.at t).b (.shtm m .cfg) SHTM_CFG.EN = false := not_of en
    simp only [tripStale, tripLate, tripDue, tripCond, c, e, Bool.false_and, Option.isSome_none, bne_self_eq_false, Bool.or_false]
    exact nofun
theorem calmTo_idle {s : State} (h : idleShroud s.toDev = true) (t : Nat) : CalmTo s t := fun u _ => calm_idle h u
/-- A device with registers put into it and then changed by g. -/
def made (l : List (Reg × Word)) (g : Dev → Dev) : State := st (g (puts l ready))
def waitAcc (r : Reg) (v : Option Word) : WaitAcc := { by_ := .core 2, addr := w32 r.addr, val := v, since := 5 }
/-- PLL A is lost with a read of a converter's register waiting for it; and a read waiting for a domain that runs. -/
def kPace (r : Reg) (v : Option Word) (pa : Bool) : State := made [(.sys .sysstat, (0 : Word) |> SYSSTAT.PACED.put 1 |> SYSSTAT.PACE_BUSY.put 1)] fun d =>
  { d with sys := { d.sys with waits := [waitAcc r v], lossPend := true, pllA := pa, tags := Vector.replicate 70 1 },
           core := d.core.set 2 { ldWait := [r.addr] } }
/-- A device whose PLL A is lost, PLL B being locked. -/
def kGate (l : List (Reg × Word)) : State := made l fun d => { d with sys := { d.sys with pllA := false } }
def kFull : State := made [] fun d => { d with sys := { d.sys with tags := Vector.replicate 70 4096 } }
def kSent : State := made [] fun d => { d with cap := d.cap.set 15 { d.cap[15] with sent := [{}] } }
theorem witness_ClocksAndPacing : Up (dev []) ∧ Asks .host (dev []) (.sys .sysctl) ∧ (Reg.addr (.sys .sysctl)) % 4 = 0 ∧ Reg.ofAddr 0x4FFFFFFC = none ∧
    Reg.ofAddr (w32 (Reg.addr (.sys .sysctl))).toNat = some (.sys .sysctl) ∧ Up kFull ∧ tagsFull kFull.toDev (reqHolder .host) = true ∧
    Calm (dev []) (writeNow .host (.sys .sysctl) 1 (asked .host (dev []).toDev)).now ∧
    (kPace (.sys .sysctl) (some 1) true).sys.lossPend = true ∧ (kPace (.sys .sysctl) (some 1) true).b (.sys .sysstat) SYSSTAT.PACED = true ∧
    (kPace (.sys .sysctl) (some 1) true).b (.sys .sysstat) SYSSTAT.PACE_BUSY = true ∧
    (kPace (.sys .sysctl) (some 1) true).f (.sys (.tempo 11)) TEMPO.VALUE < 64 ∧
    (dev []).b (.sys .sysstat) SYSSTAT.PACED = false ∧ Asks .host (dev []) (.sys .pace_slip) ∧
    hasAsked (dev []).toDev .host (.sys .pace_slip) = false ∧ Asks (.core 0) (dev []) (.sys (.taguse 69)) ∧
    hasAsked (dev []).toDev (.core 0) (.sys (.taguse 69)) = false ∧ (dev []).inUse 69 + 1 < 2 ^ 12 ∧
    (dev []).sys.pllA = true ∧ (kGate []).sys.pllA = false ∧
    (kPace (.sys .sysctl) none true).sys.waits.find? (wakeReady (kPace (.sys .sysctl) none true).toDev) = some (waitAcc (.sys .sysctl) none) ∧
    (let a := kPace (.sys .sysctl) (some 1) true
     a.sys.waits.find? (wakeReady a.toDev) = some (waitAcc (.sys .sysctl) (some 1)) ∧ (1 : Word) &&& heldMask a.toDev (.sys .sysctl) = 0 ∧
       Calm a (writeNow (.core 2) (.sys .sysctl) 1 { a.toDev with sys := { a.sys with waits := [] } }).now) ∧
    (let a := kPace (.adc 3 .ctl) none false
     a.sys.waits.find? (fun x => !wakeReady a.toDev x) = some (waitAcc (.adc 3 .ctl) none) ∧ Calm a (5 + 100 * tuUs) ∧
       (waitAcc (.adc 3 .ctl) none).addr.toNat ∈ a.core[(2 : Fin 5)].ldWait ∧ regWaits a.toDev (.adc 3 .ctl) = true) ∧
    (dev []).hst.perst = false ∧ (st { ready with hst := { ready.hst with perst := true } }).hst.perst = true ∧
    regWaits (kGate []).toDev (.tbg (.legcommit 2)) = false ∧
    (0x80000000 : Word) &&& heldMask (kGate []).toDev (.tbg (.legcommit 2)) = 0x80000000 ∧
    (let a := kGate [(.tb 0 .ctl, TB_CTL.PLLSEL.put 1 0), (.leg 95 .ctl, LEG_CTL.TB.put 1 0)]
     (1 : Word) &&& heldMask a.toDev (.tbg (.legcommit 2)) = 0 ∧
       (0x80000001 : Word) &&& heldMask a.toDev (.tbg (.legcommit 2)) = 0x80000000) ∧
    (∀ m : Fin 12, 64 ≤ (dev ((fins 12).map fun m => (.sys (.tempo (Fin.ofNat 16 m.val)), TEMPO.VALUE.put 64 0))).f (.sys (.tempo (Fin.ofNat 16 m.val))) TEMPO.VALUE) ∧
    (dev []).hst.posted = [] ∧ (∀ k : Fin 16, (dev []).cap[k].snap = none ∧ (dev []).cap[k].staged = [] ∧ kSent.cap[k].snap = none ∧ kSent.cap[k].staged = []) ∧
    Up kSent ∧ kSent.hst.posted = [] ∧ kSent.cap[(15 : Fin 16)].sent ≠ [] ∧ Up (kPace (.sys .sysctl) none true) ∧
    0 < tagsLoose (kPace (.sys .sysctl) none true).toDev 69 := by
  unfold Calm Asks Open Up; decide +kernel

def tbOn (b : Fin 32) : List (Reg × Word) := [(.tb b .ctl, TB_CTL.EN.put 1 0), (.tb b .stat, TB_STAT.RUNNING.put 1 0)]
/-- Timebase 31 armed for SYNC, following timebase 0, which runs. -/
def kFollow (mode : Nat) : State :=
  made (tbOn 0 ++ [(.tb 31 .ctl, (0 : Word) |> TB_CTL.EN.put 1 |> TB_CTL.SYNCSRC.put mode), (.lnk .lnkstat, LNKSTAT.CTV.put 1 0)]) fun d =>
    let e := (d.tbU 0 fun t => { t with start := 1000000000 }).tbU 31 fun t => { t with arm := .sync 5 }
    { e with lnk := { e.lnk with runs := true, rate := 1073742 } }
def kTask : State := made [(.tb 31 .ctl, (0 : Word) |> TB_CTL.EN.put 1 |> TB_CTL.STEN.put 1 |> TB_CTL.STCH.put 255)] fun d =>
  ({ d with fab := { d.fab with tasks := [(.tbStart, 255, 5)] } }).tbU 31 fun t => { t with arm := .task }
/-- The same held since an instant before timebase 0's first period. -/
theorem witness_Timebases : (∀ t, CalmTo (dev []) t) ∧ (∀ t, CalmTo (dev (tbOn 0)) t) ∧ (∀ t, CalmTo (kFollow 2) t) ∧ (∀ t, CalmTo kTask t) :=
  ⟨calmTo_idle (by decide +kernel), calmTo_idle (by decide +kernel), calmTo_idle (by decide +kernel), calmTo_idle (by decide +kernel)⟩
/-- PLL B is lost. -/
def kNoB : State := made [] fun d => { d with sys := { d.sys with pllB := false } }
theorem witness_Timebases_states : Up (dev []) ∧ Asks .host (dev []) (.tb 31 .ctl) ∧ (dev []).tbRun 31 = false ∧ (dev []).b (.tb 31 .ctl) TB_CTL.EN = false ∧
    (dev []).sys.pllA = true ∧ (dev []).sys.pllB = true ∧ kNoB.sys.pllB = false ∧ Asks .host kNoB (.tb 31 .ctl) ∧
    Asks .host (dev (tbOn 0)) (.tb 0 .ctl) ∧ (dev (tbOn 0)).tbRun 0 = true ∧
    (dev (tbOn 0)).b (.tb 0 .ctl) TB_CTL.EN = true ∧ (0x80000000 : Word).getLsbD 31 = true ∧ Asks .host (dev []) (.tbg .tbgstart) ∧
    Asks .host (dev []) (.tbg .tbgstop) ∧ Up kTask ∧ fabTaskAt kTask.toDev .tbStart 255 = some 5 ∧ fabTaskAt kTask.toDev .tbStart 254 = none ∧
    kTask.tb[(31 : Fin 32)].arm = .task ∧ kTask.b (.tb 31 .ctl) TB_CTL.EN = true ∧
    kTask.b (.tb 31 .ctl) TB_CTL.STEN = true ∧ kTask.f (.tb 31 .ctl) TB_CTL.STCH = 255 ∧ kTask.f (.tb 31 .ctl) TB_CTL.SYNCSRC = 0 := by
  unfold Asks Open Up; decide +kernel
theorem witness_Timebases_periods :
    (let a := kFollow 1
     Up a ∧ a.tb[(31 : Fin 32)].arm = .sync 5 ∧ a.tbRun 31 = false ∧ a.f (.tb 31 .ctl) TB_CTL.SYNCSRC = 1 ∧ a.tbRun 0 = true ∧
       a.f (.tb 0 .ctl) TB_CTL.SYNCSRC ≠ 1 ∧ a.f (.tb 31 .ctl) TB_CTL.LEADER = 0 ∧ 5 ≤ tickUp false (a.tb[(0 : Fin 32)].start) ∧
       Calm a (tickUp false (a.tb[(0 : Fin 32)].start))) ∧
    (let a := kFollow 2
     Up a ∧ a.f (.tb 31 .ctl) TB_CTL.SYNCSRC = 2 ∧ a.ctv = true ∧ a.lnk.runs = true ∧ a.lnk.baseAt ≤ a.now ∧ -1073742 ≤ a.lnk.rate ∧
       a.lnk.rate ≤ 1073742 ∧ a.b (.tb 31 .ctl) TB_CTL.EN = true) ∧
    (let a := dev (tbOn 0 ++ [(.tb 0 (.evcmp 3), TB_EVCMP.EN.put 1 0)])
     Up a ∧ a.tb[(0 : Fin 32)].stopRq = false ∧ a.tb[(0 : Fin 32)].evDone[(3 : Fin 4)] = false ∧ a.tb[(0 : Fin 32)].loaded = false ∧
       a.tb[(0 : Fin 32)].undef = false ∧ a.b (.tb 0 (.evcmp 3)) TB_EVCMP.EN = true ∧ a.f (.tb 0 .ctl) TB_CTL.SYNCSRC = 0 ∧ idleShroud a.toDev = true) ∧
    (made (tbOn 0) fun d => d.tbU 0 fun t => { t with stopRq := true }).tb[(0 : Fin 32)].stopRq = true := by
  unfold Calm Up; decide +kernel

/-- Leg 95 running on timebase 0, changed by g. -/
def kLeg (l : List (Reg × Word)) (g : LegSt → LegSt) : State :=
  made (tbOn 0 ++ [(.leg 95 .stat, LEG_STAT.STATE.put 1 0)] ++ l) fun d =>
    ((d.tbU 0 fun t => { t with start := d.now }).legU 95 g) |> fun e => { e with fab := { e.fab with tasks := [(.forceOff, 255, 5)] } }
theorem witness_Legs : ∀ t, CalmTo (kLeg [] id) t := calmTo_idle (by decide +kernel)
/-- A leg with both its edges ahead; one whose dead-time is counted; one whose other switch is on; one late in its period. -/
theorem witness_Legs_states :
    let a := kLeg [] fun x => { x with curA := 1000004800, curB := 1000009600 }
    let b := kLeg [] fun x => { x with pend := some (.h, 1000000000), pendFrom := 1000000000 }
    let c := kLeg [] fun x => { x with pend := some (.h, 1000000000), pendFrom := 1000000000, lo := { on := true, onAt := 1000000000 } }
    let h := kLeg [] fun x => { x with hi := { on := true, onAt := 1000000000 }, cmd := true, curB := 1000009600 }
    let old := st (a.toDev.tbU 0 fun t => { t with start := 0 })
    let x := a.leg[(95 : Fin 96)]
    let due (s : State) : Nat := max (s.leg[(95 : Fin 96)].pendFrom) (1000000000 +
      clampN (s.f (.shl 95 .dt) SHL_DT.DTMIN) (s.f (.shl 95 .dt) SHL_DT.DTMAX) (legDt s.toDev 95 .h).1 * tuFine)
    Up a ∧ Up b ∧ Up c ∧ Up h ∧ Up old ∧ legDue a.toDev 95 = none ∧ fabTaskAt a.toDev .forceOff 255 = some 5 ∧
    a.now < a.tb[(0 : Fin 32)].start + a.tb[(0 : Fin 32)].len * tuTick ∧
    old.tb[(0 : Fin 32)].start + old.tb[(0 : Fin 32)].len * tuTick ≤ tickUp false old.now ∧ old.tbRun 0 = true ∧
    (0x80000000 : Word) &&& heldMask (kGate []).toDev (.tbg (.legcommit 2)) = 0x80000000 ∧ (0x80000000 : Word) &&& heldMask a.toDev (.tbg (.legcommit 2)) = 0 ∧
    a.tbRun (a.legTb 95) = true ∧ a.f (.leg 95 .stat) LEG_STAT.STATE = 1 ∧
    (x.full = false ∧ x.curA ≠ x.curB ∧ x.wait = false ∧ x.spentA = false ∧ x.cmd = false ∧ x.pend = none ∧ x.hi.on = false ∧ x.lo.on = false ∧
      Calm a x.curA ∧ a.now ≤ x.curA ∧ tickUp (tbB a.toDev (a.legTb 95)) a.now ≤ x.curA) ∧
    (h.leg[(95 : Fin 96)].cmd = true ∧ h.leg[(95 : Fin 96)].spentB = false ∧ h.leg[(95 : Fin 96)].hi.on = true ∧
      h.leg[(95 : Fin 96)].curB < 1000000000 + (legLimit h.toDev 95 .h).1 * tuTick ∧ Calm h h.leg[(95 : Fin 96)].curB ∧
      Calm h (1000000000 + (legLimit h.toDev 95 .h).1 * tuTick)) ∧
    (b.leg[(95 : Fin 96)].pend = some (.h, 1000000000) ∧ (legLimit b.toDev 95 .h).1 * tuTick ≠ 0 ∧ (b.leg[(95 : Fin 96)].sw .l).on = false ∧
      (b.leg[(95 : Fin 96)].sw .l).offAt = none ∧ (b.leg[(95 : Fin 96)].sw .h).on = false ∧ Calm b (due b)) ∧
    ((c.leg[(95 : Fin 96)].sw .l).on = true ∧ c.leg[(95 : Fin 96)].pend = some (.h, 1000000000) ∧ Calm c (due c)) ∧
    idleShroud (dev []).toDev = true := by
  unfold Calm Up; decide +kernel
theorem witness_Legs_writes :
    let a := kLeg [] fun x => { x with curA := 1000004800, curB := 1000009600 }
    Asks .host a (.leg 95 .ctl) ∧ a.b (.leg 95 .ctl) LEG_CTL.STAGE = false ∧ Asks .host (dev []) (.leg 95 .ctl) ∧ (dev []).tbRun 0 = false ∧
    (kLeg [(.leg 95 .ctl, LEG_CTL.STAGE.put 1 0)] id).b (.leg 95 .ctl) LEG_CTL.STAGE = true ∧ a.b (.shl 95 .hold) SHL_HOLD.HELD = false ∧
    a.b (.leg 95 .stat) LEG_STAT.FOFF = false ∧ legOwned a.toDev 95 .cmpa = false ∧
    legOwned (kLeg [(.leg 95 .stat, LEG_STAT.LEOWN.put 7 0)] id).toDev 95 .phase = true ∧ Asks .host a (.leg 95 .cmpa) ∧
    a.b (.leg 95 .ctl) LEG_CTL.PROF = false ∧ a.f (.leg 95 .stat) LEG_STAT.UPDN < 4 ∧
    (made [] fun d => d.legU 95 fun x => { x with stA := some 7 }).leg[(95 : Fin 96)].stA = some 7 ∧ Asks .host a (.tbg (.legcommit 2)) ∧
    (kLeg [(.leg 95 .ctl, (0 : Word) |> LEG_CTL.FOEN.put 1 |> LEG_CTL.FOCH.put 255)] id).b (.leg 95 .ctl) LEG_CTL.FOEN = true ∧
    (kLeg [(.leg 95 .stat, LEG_STAT.FOFF.put 1 0)] id).b (.leg 95 .stat) LEG_STAT.FOFF = true ∧ Asks .host a (.leg 95 .stat) := by
  unfold Asks Open Up; decide +kernel

def conv : AdcConv := { entry := 0, seq := 0, raw := 65535, at_ := 5, ts := 7, tv := false, last := true, skip := false, openV := false }
def kAdc (l : List (Reg × Word)) (g : AdcSt → AdcSt) : State := made (tbOn 0 ++ l) fun d =>
  { d with adc := d.adc.set 31 (g d.adc[31]), fab := { d.fab with tasks := [(.adcStart, 9, 5), (.adcTrig, 9, 5)] } }
def aCtl (m en : Nat) : List (Reg × Word) :=
  [(.adc 31 .ctl, (0 : Word) |> ADC_CTL.MODE.put m |> ADC_CTL.EN.put en |> ADC_CTL.STEN.put 1 |> ADC_CTL.STCH.put 9),
    (.adc 31 .trig, ADC_TRIG.TCH.put 9 0)]
def aRun (r : AdcRun) : State := kAdc (aCtl 1 1) fun x => { x with run := r }
theorem witness_Converters :
    let a := kAdc [] id
    Up a ∧ Asks .host a (.adc 31 .ctl) ∧ a.f (.adc 31 .ctl) ADC_CTL.EN = 0 ∧ a.b (.adc 31 .stat) ADC_STAT.RUNNING = false ∧
    a.b (.adc 31 .stat) ADC_STAT.BUSY = false ∧ a.b (.adc 31 .stat) ADC_STAT.CALBUSY = false ∧
    (kAdc [(.adc 31 .stat, ADC_STAT.CALBUSY.put 1 0)] id).b (.adc 31 .stat) ADC_STAT.CALBUSY = true ∧ a.adc[(31 : Fin 32)].run = .idle ∧
    Up (aRun (.cont 5 0 none)) ∧ (aRun (.cont 5 0 none)).adc[(31 : Fin 32)].run = .cont 5 0 none ∧
    (aRun (.cont 5 0 none)).f (.adc 31 .ctl) ADC_CTL.EN = 1 ∧ Asks .host (aRun (.cont 5 0 none)) (.adc 31 .ctl) ∧
    Calm (aRun (.cont 5 0 none)) (5 + 4 * tuAc) ∧
    (let w := kAdc [(.adc 31 .stat, ADC_STAT.RUNNING.put 1 0)] fun x => { x with run := .cont 5 1 (some 7) }
     Asks .host w (.adc 31 .ctl) ∧ w.b (.adc 31 .stat) ADC_STAT.RUNNING = true ∧ w.adc[(31 : Fin 32)].run = .cont 5 1 (some 7)) ∧
    Asks .host a (.adcg .adcgstart) ∧ Asks .host a (.adcg .adcgstop) ∧ Asks .host a (.adcg .adccalstart) ∧
    fabTaskAt a.toDev .adcStart 9 = some 5 ∧ a.sys.pllA = true ∧ (kGate []).sys.pllA = false ∧ Asks .host (kGate []) (.adcg .adcgstart) ∧
    seqGround a.toDev a.adc[(31 : Fin 32)].seq0 = false ∧
    (∀ h < 16, seqGround a.toDev (a.get (.adc 31 (.seq (Fin.ofNat 16 h)))) = false) ∧ conv.openV = false ∧ Calm a (conv.at_ + 48 * tuNs) ∧
    (aRun (.pass 5 16)).adc[(31 : Fin 32)].run = .pass 5 16 ∧ (aRun (.pass 5 15)).adc[(31 : Fin 32)].run = .pass 5 15 ∧
    Calm (aRun (.pass 5 15)) (5 + 15 * (80 * tuTick)) ∧ Calm (aRun (.pass 5 16)) (5 + 16 * (80 * tuTick)) ∧
    a.b (.sys (.ready 0)) READY0.ANALOG = true := by
  unfold Calm Asks Open Up; decide +kernel
theorem witness_Converters_tasks :
    let a := kAdc [] id
    (kAdc (aCtl 1 1) fun x => { x with armed := true }).adc[(31 : Fin 32)].armed = true ∧
    (kAdc (aCtl 1 1) id).f (.adc 31 .ctl) ADC_CTL.STEN = 1 ∧ (kAdc (aCtl 1 1) id).f (.adc 31 .ctl) ADC_CTL.STCH = 9 ∧ (kAdc (aCtl 1 1) id).f (.adc 31 .ctl) ADC_CTL.MODE = 1 ∧
    Calm (kAdc (aCtl 1 1) id) (max 5 ((fabGot (kAdc (aCtl 1 1) id).toDev 9 5).getD (max 1000000000 5))) ∧
    (kAdc (aCtl 1 1) fun x => { x with wake := true }).adc[(31 : Fin 32)].wake = true ∧
    (kAdc [] fun x => { x with conv := [conv] }).adc[(31 : Fin 32)].conv = conv :: [] ∧
    fabTaskAt a.toDev .adcTrig 9 = some 5 ∧
    (let t := kAdc (aCtl 2 1) id
     Up t ∧ t.f (.adc 31 .trig) ADC_TRIG.TCH = 9 ∧ t.b (.adc 31 .trig) ADC_TRIG.TSRC = false ∧ t.tbRun (adcTb t.toDev 31) = true ∧
       t.f (.adc 31 .ctl) ADC_CTL.MODE = 2 ∧ Calm t (max 5 ((fabGot t.toDev 9 5).getD (max 1000000000 5)))) ∧
    (kAdc (aCtl 2 1 ++ [(.adc 31 .stat, ADC_STAT.BUSY.put 1 0)]) id).b (.adc 31 .stat) ADC_STAT.BUSY = true ∧
    (kAdc [] fun x => { x with pend := some 5, calEnd := some 5 }).adc[(31 : Fin 32)].pend = some 5 ∧ adcMode a.toDev 31 = 0 ∧
    (kAdc [] fun x => { x with pend := some 5, calEnd := some 5 }).adc[(31 : Fin 32)].calEnd = some 5 ∧ Calm a 5 ∧
    Asks .host a (.adc 31 .last) ∧ hasAsked a.toDev .host (.adc 31 .last) = false ∧ Asks .host a (.adc 31 (.res 15)) ∧
    hasAsked a.toDev .host (.adc 31 (.res 15)) = false := by
  unfold Calm Asks Open Up; decide +kernel

def stall : LeStall := { m := 1, sat := false, at_ := 5, frR := false, frF := false, rx := 0, fx := 0, tags := 1, frozen := false, auto := false, snap := [] }
def kLe (l : List (Reg × Word)) (g : LeSt → LeSt) : State := made l fun d =>
  { d with le := d.le.set 63 (g d.le[63]), fab := { d.fab with tasks := [(.leSwap, 9, 5)] } }
theorem witness_LoopEngines_slots :
    (∀ x ∈ (leSlots (kLe [] id).toDev 63).flatMap (leSlotFields (kLe [] id).toDev), leFieldOwned (kLe [] id).toDev x = false) ∧
    ((leSlots (kLe [(.le 63 (.dst 0), LE_DST.KIND.put 7 0)] id).toDev 63).any fun x => decide (5 < x.kind)) = true ∧
    ((leSlots (kLe [(.le 63 (.dst 0), (0 : Word) |> LE_DST.KIND.put 1 |> LE_DST.LEG.put 95)] id).toDev 63).map fun x => (x.kind, x.leg)) =
      [(1, 95), (0, 0), (0, 0), (0, 0)] := by
  decide +kernel
/-- Engine 63 enabled, with a sample taken up; one in manual mode, its first sample past; one frozen on leg 95, which is not running. -/
def leOn (c : Word) (l : List (Reg × Word)) (g : LeSt → LeSt) : State :=
  kLe ([(.le 63 .stat, (0 : Word) |> LE_STAT.ACTIVE.put 1 |> LE_STAT.AUTO.put 1),
    (.le 63 .ctl, c |> LE_CTL.EN.put 1 |> LE_CTL.SWEN.put 1 |> LE_CTL.SWCH.put 9), (.sys (.tagbud 68), TAGBUD.BUDGET.put 4 0)] ++ l) fun x =>
    g { x with inbound := [7], held := some 7 }
theorem witness_LoopEngines :
    let auto := leOn (LE_CTL.MODE.put 1 0) [] id
    (∀ a ∈ [leOn 0 [] id, auto, leOn (LE_CTL.MODE.put 1 0) [] fun x => { x with first := true },
        leOn ((0 : Word) |> LE_CTL.MODE.put 1 |> LE_CTL.SSEN.put 1) [(.le 63 .ssrate, 1)] id,
        leOn ((0 : Word) |> LE_CTL.MODE.put 1 |> LE_CTL.FREEZE.put 1) [(.le 63 (.dst 0), (0 : Word) |> LE_DST.KIND.put 4 |> LE_DST.LEG.put 95)] id],
      Up a ∧ a.le[(63 : Fin 64)].inbound = 7 :: [] ∧ lePaired a.toDev 63 = false ∧ a.b (.le 63 .stat) LE_STAT.ACTIVE = true ∧
      a.le[(63 : Fin 64)].held = some 7 ∧ leReadyFor a.toDev 63 = true ∧ a.b (.le 63 .stat) LE_STAT.SWPEND = false ∧
      a.b (.le 63 .rsrc) LE_RSRC.WAIT = false ∧ a.b (.le 63 .fsrc) LE_FSRC.WAIT = false ∧ a.le[(63 : Fin 64)].openPos = false ∧
      (eccData (memGet a.toDev (leAddr 63 0x20))).toInt ≤ (eccData (memGet a.toDev (leAddr 63 0x24))).toInt) ∧
    auto.b (.le 63 .stat) LE_STAT.AUTO = true ∧ auto.le[(63 : Fin 64)].first = false ∧
    (∀ o ∈ leBankOffs (auto.b (.le 63 .stat) LE_STAT.BANK) ++ leStateOffs, eccDecode (memGet auto.toDev (leAddr 63 o)) = .clean) ∧
    auto.f (.leg 95 .stat) LEG_STAT.STATE ≠ 1 ∧
    (∀ k ∈ [1, 2, 3, 4, 5], (leSlots (leOn 0 [(.le 63 (.dst 0), (0 : Word) |> LE_DST.KIND.put k |> LE_DST.LEG.put 95)] id).toDev 63).map
      (fun x => (x.kind, x.leg)) = [(k, 95), (0, 0), (0, 0), (0, 0)]) ∧
    (let b := kLe [] fun x => { x with commits := [{ vals := [(.cmpa 95, 5)], legs := [95], u := 0, scnt := 0, ev := true, tags := 0, tagsO := 0 }] }
     (b.le[(63 : Fin 64)].commits.map fun c => (c.legs, c.vals)) = [([95], [(.cmpa 95, 5)])] ∧ b.tbRun (b.legTb 95) = false) := by
  unfold Up; decide +kernel
theorem witness_LoopEngines_operands :
    let a := leOn 0 [] id
    let b := kLe [] fun x => { x with stall := some stall }
    b.le[(63 : Fin 64)].stall = some stall ∧ leFresh b.toDev 63 stall = true ∧
    (let w := kLe [(.le 63 .rsrc, LE_RSRC.WAIT.put 1 0)] fun x => { x with stall := some stall }
     Up w ∧ leFresh w.toDev 63 stall = false ∧ Calm w (stall.at_ + max 1 (LE_WAIT.WAITTO.get (leSnap stall .wait)) * 50 * tuNs)) ∧
    Asks .host b (.le 63 .ctl) ∧ lePaired b.toDev 63 = false ∧
    b.b (.le 63 .ctl) LE_CTL.EN = false ∧ (∀ x ∈ leSlots b.toDev 63, x.kind ≤ 5 ∧ (x.kind = 0 ∨ x.leg ≤ 95)) ∧
    ((leSlots b.toDev 63).map (leSlotFields b.toDev)).flatten.Nodup ∧ a.b (.le 63 .ctl) LE_CTL.EN = true ∧ Asks .host a (.le 63 .ctl) ∧
    Asks .host a (.le 63 .cmd) ∧ Asks .host a (.lesh (.leswap 1)) ∧ fabTaskAt a.toDev .leSwap 9 = some 5 ∧ Calm a 5 ∧ a.b (.le 63 .ctl) LE_CTL.SWEN = true ∧
    a.f (.le 63 .ctl) LE_CTL.SWCH = 9 ∧ (leOn 0 [(.le 63 .stat, LE_STAT.SWPEND.put 1 0)] id).b (.le 63 .stat) LE_STAT.SWPEND = true ∧
    Asks .host b (.le 63 .rsrc) ∧ plainWrite (LeReg.access .rsrc) (b.get (.le 63 .rsrc)) 1 ≠ b.get (.le 63 .rsrc) ∧
    Asks .host b (.le 63 .fsrc) ∧ plainWrite (LeReg.access .fsrc) (b.get (.le 63 .fsrc)) 1 ≠ b.get (.le 63 .fsrc) ∧
    Asks .host a (.le 63 .mreg) ∧ Asks .host a (.le 63 .ref) ∧ Asks .host a (.le 63 .freg) ∧ tagsFull a.toDev (reqHolder .host) = false ∧
    memWaits (asked .host a.toDev) (leAddr 63 0x98) = false ∧ memWaits (asked .host a.toDev) (leAddr 63 0) = false := by
  unfold Calm Asks Open Up; decide +kernel

/-! ## Inputs, events, interrupts, faults -/

def kCmp (l : List (Reg × Word)) (g : CmpSt → CmpSt) : State := made (tbOn 0 ++ l) fun d => d.cmpU 63 g
def cmpRun : CmpRun := { val := true, at_ := 5, ts := 5, tv := false }
theorem witness_Comparators :
    let a := kCmp [] id
    let b := kCmp [] fun x => { x with live := true, runs := [cmpRun], win := some 5, twin := some { since := 5, till := 5, held := false } }
    let ready (s : State) : Nat := tickOf s.toDev (cmpTb s.toDev 63) 5 + (s.f (.cmp 63 .ctl) CMP_CTL.FILT + 3) * tuTick
    Up a ∧ cmpRun.un = false ∧ a.f (.cmp 63 .ctl) CMP_CTL.HYST = 0 ∧ (30 : Int) < 31 - 0 ∧ Calm a 2000000000 ∧
    (kCmp [(.cmp 63 .ctl, CMP_CTL.HYST.put 3 0)] id).f (.cmp 63 .ctl) CMP_CTL.HYST = 3 ∧ Up b ∧ a.cmp[(63 : Fin 64)].raw = false ∧ a.cmp[(63 : Fin 64)].live = false ∧ a.cmp[(63 : Fin 64)].runs = [] ∧
    (kCmp [] fun x => { x with live := true }).cmp[(63 : Fin 64)].live = true ∧ a.b (.cmp 63 .stat) CMP_STAT.OUT = false ∧
    b.cmp[(63 : Fin 64)].runs = cmpRun :: [] ∧ Calm b (ready b) ∧
    (let w := kCmp [] fun x => { x with live := true, runs := [cmpRun], win := some 2000000000 }
     Up w ∧ ready w < 2000000000 ∧ Calm w (ready w) ∧ Calm w 2000000000) ∧
    b.cmp[(63 : Fin 64)].win = some 5 ∧ b.cmp[(63 : Fin 64)].twin = some { since := 5, till := 5, held := false } ∧ Calm b 5 ∧
    Calm b (min 5 (5 + b.f (.shg .shblankmax) SHBLANKMAX.MAX * tuTick)) ∧
    a.cmp[(63 : Fin 64)].win = none ∧ a.cmp[(63 : Fin 64)].twin = none ∧ Asks .host a (.cmp 63 .ctl) ∧ a.b (.cmp 63 .ctl) CMP_CTL.EN = false ∧
    CMP_CTL.WIN.bit (0 : Word) = false ∧ Asks .host a (.cmp 63 .cap) ∧ hasAsked a.toDev .host (.cmp 63 .cap) = false := by
  unfold Calm Asks Open Up; decide +kernel

/-- Position block 7 enabled in mode m on timebase 0, with a task of channel 9 due. -/
def kPos (m : Nat) (l : List (Reg × Word)) (g : PosSt → PosSt) : State :=
  made (tbOn 0 ++ [(.pos 7 .ctl, (0 : Word) |> POS_CTL.EN.put 1 |> POS_CTL.MODE.put m |> POS_CTL.USRC.put 1), (.pos 7 .trig, POS_TRIG.TCH.put 9 0),
    (.pos 7 .spdto, POS_SPDTO.TO.put 1 0), (.pos 7 .stime, POS_STIME.TMO.put 4095 0)] ++ l) fun d =>
    ({ d with fab := { d.fab with tasks := [(.posTrig, 9, 5)] } }).posU 7 g
theorem witness_Positions :
    let a := kPos 0 [] id
    let b := kPos 2 [] fun x => { x with frame := .shifting 1000000000 1000000000 false 7 }
    let filtered (s : State) (k : Nat) : Nat := tickOf s.toDev (posTb s.toDev 7) 1000000000 + (s.f (.pos 7 .ctl) POS_CTL.FILT + k) * tuTick
    Up a ∧ posOn (dev []).toDev 7 = false ∧ Calm (dev []) 5 ∧ posOn a.toDev 7 = true ∧ a.f (.pos 7 .ctl) POS_CTL.MODE = 0 ∧ a.pos[(7 : Fin 8)].z = false ∧
    Calm a (filtered a 3) ∧ 0 < filtered a 1 ∧
    (quadPos true false + 4 - quadPos false false) % 4 = 1 ∧ (quadPos false true + 4 - quadPos false false) % 4 = 3 ∧
    (quadPos true true + 4 - quadPos false false) % 4 = 2 ∧ fabTaskAt a.toDev .posTrig 9 = some 5 ∧
    a.b (.pos 7 .trig) POS_TRIG.TSRC = false ∧ a.f (.pos 7 .trig) POS_TRIG.TCH = 9 ∧ a.b (.pos 7 .ctl) POS_CTL.USRC = true ∧
    Calm a (max 5 ((fabGot a.toDev 9 5).getD (max 1000000000 5))) ∧
    a.pos[(7 : Fin 8)].frame = .idle ∧ Up b ∧ b.pos[(7 : Fin 8)].frame = .shifting 1000000000 1000000000 false 7 ∧ posOn b.toDev 7 = true ∧
    b.f (.pos 7 .ctl) POS_CTL.MODE = 2 ∧ b.pos[(7 : Fin 8)].undef = false ∧ (posLastSample b.toDev 7 1000000000).isSome = true ∧
    ((posLastSample b.toDev 7 1000000000).all fun x => x ≤ 1000000000 + posTimeout b.toDev 7 && !overdue (b.toDev.at (x + 2 * tuTick))) = true ∧
    posRush a.toDev 7 1000000000 = false ∧ posRush (kPos 0 [] fun x => { x with moved := some 999999999 }).toDev 7 1000000000 = true := by
  unfold Calm Up; decide +kernel
theorem witness_Positions_frames :
    let a := kPos 0 [] id
    let b := kPos 2 [] fun x => { x with frame := .shifting 1000000000 1000000000 false 7 }
    (let long := kPos 2 [(.pos 7 .stime, 0), (.pos 7 .scfg, (0 : Word) |> POS_SCFG.DIV.put 4095 |> POS_SCFG.DLEN.put 32)] fun x =>
       { x with frame := .shifting 1000000000 1000000000 false 7 }
     Up long ∧ (posLastSample long.toDev 7 1000000000).any (fun x => long.now + posTimeout long.toDev 7 < x) = true ∧
       Calm long (1000000000 + posTimeout long.toDev 7)) ∧
    (let biss := kPos 3 [] fun x => { x with frame := .shifting 999000000 999000000 false 7, low := true }
     let f3 := tickOf biss.toDev (posTb biss.toDev 7) 1000000000 + (biss.f (.pos 7 .ctl) POS_CTL.FILT + 3) * tuTick
     Up biss ∧ posLastSample biss.toDev 7 999000000 = none ∧ biss.pos[(7 : Fin 8)].a = false ∧ biss.pos[(7 : Fin 8)].slo = none ∧
     biss.pos[(7 : Fin 8)].undef = false ∧ posOn biss.toDev 7 = true ∧ Calm biss f3 ∧
     999000000 + posHalf biss.toDev 7 * tuTick < f3 ∧
     (f3 - (999000000 + (2 * (((f3 - 999000000 - 1) / (posHalf biss.toDev 7 * tuTick) - 1) / 2) + 1) * (posHalf biss.toDev 7 * tuTick))) / tuTick ≤ 4095) ∧
    posFrameBad b.toDev 7 0 false false false 0 false = [] ∧ b.b (.pos 7 .scfg) POS_SCFG.GRAY = false ∧
    posFrameBad (kPos 3 [] id).toDev 7 1 true true true 0 false ≠ [] ∧
    (let w := kPos 2 [] fun x => { x with frame := .waiting 5 }
     Up w ∧ posOn w.toDev 7 = true ∧ w.pos[(7 : Fin 8)].frame = .waiting 5 ∧ Calm w (tickUp (tbB w.toDev (posTb w.toDev 7)) 1000000000) ∧
       Calm w (5 + posTimeout w.toDev 7)) ∧
    a.f (.pos 7 .spdto) POS_SPDTO.TO ≠ 0 ∧ Calm a (a.pos[(7 : Fin 8)].zeroAt + a.f (.pos 7 .spdto) POS_SPDTO.TO * tuUs) ∧
    (dev []).f (.pos 7 .spdto) POS_SPDTO.TO = 0 ∧ Asks .host (dev []) (.pos 7 .ctl) ∧
    (dev []).b (.pos 7 .ctl) POS_CTL.EN = false ∧ Asks .host a (.pos 7 .upos) ∧ hasAsked a.toDev .host (.pos 7 .upos) = false := by
  unfold Calm Asks Open Up; decide +kernel

def kEv (c : ChanSt) (held : List (Fin 512)) (last : List (Fin 512 × Nat)) : State :=
  made [(.ch 255 (.en 15), 0x80000000)] fun d => { d with fab := { d.fab with raised := [511], chan := d.fab.chan.set 255 c, held := held, last := last } }
theorem witness_EventFabric :
    let a := kEv {} [] []
    let b := kEv { act := some 0 } [] []
    let h := kEv {} [511] [(511, 999999999)]
    let edge := (1000000000 / tuTick + 1) * tuTick
    Up a ∧ (511 : Fin 512) ∈ a.fab.raised ∧ (511 : Fin 512) ∉ a.fab.held ∧ fabLast a.toDev 511 = none ∧ fabEnabled a.toDev 255 511 = true ∧
    fabEnabled a.toDev 254 511 = false ∧ a.fab.chan[(255 : Fin 256)].act = none ∧ a.now = 1000000000 ∧ a.sys.pllA = true ∧
    b.fab.chan[(255 : Fin 256)].act = some 0 ∧ b.fab.chan[(255 : Fin 256)].pend = false ∧ 0 + 3 * tuTick ≤ edge ∧ Calm b (0 + 3 * tuTick) ∧
    (kEv { act := some (edge - tuTick) } [] []).fab.chan[(255 : Fin 256)].act = some (edge - tuTick) ∧ edge < edge - tuTick + 3 * tuTick ∧
    (kEv { act := some edge, pend := true } [] []).fab.chan[(255 : Fin 256)].pend = true ∧
    (kEv { act := some edge } [] []).fab.chan[(255 : Fin 256)].act = some edge ∧ Calm (kEv { act := some edge, pend := true } [] []) (edge + 3 * tuTick) ∧
    fabLast h.toDev 511 = some 999999999 ∧ (511 : Fin 512) ∈ h.fab.held ∧ Calm h (999999999 + 3 * tuTick) ∧
    fabLast (kEv {} [] [(511, 999999999)]).toDev 511 = some 999999999 ∧ (1000000000 : Nat) < 999999999 + 3 * tuTick ∧
    Asks .host a (.ev .swtrig) ∧ Asks .host a (.ch 255 (chanReg .own)) ∧ Asks .host a (.ch 255 (chanReg .ctl)) ∧
    Asks .host (made [(.ch 255 .own, CH_OWN.SEC.put 1 0)] id) (.ch 255 (chanReg .ctl)) ∧
    (made [(.ch 255 .own, CH_OWN.SEC.put 1 0)] id).b (.ch 255 .own) CH_OWN.SEC = true := by
  unfold Calm Asks Open Up; decide +kernel

/-- Target 4 enabled in queue mode with a ring of 16 records at the start of SRAM, software interrupt 383 for it pending and every
other source queued. -/
def kIc (wr rd en : Nat) (g : TgtSt → TgtSt) (f : SrcSt → SrcSt) : State :=
  made [(.icc 4 .iccfg, (0 : Word) |> ICCFG.EN.put en |> ICCFG.MODE.put 1), (.icc 4 .icqbase, 0x20000000),
    (.icc 4 .icqsize, (0 : Word) |> ICQSIZE.QSZ.put 4 |> ICQSIZE.LIMIT.put 16), (.icc 4 .icqwr, ICQWR.INDEX.put wr 0), (.icc 4 .icqrd, ICQRD.INDEX.put rd 0),
    (.ic (.icroutes 11), 0x80000000), (.ic (.icsrc 383), ICSRC.LEVEL.put 7 0), (.ic (.icen 11), 0x80000000), (.ic .iswset, 0x80)] fun d =>
    { d with ic := { d.ic with tgt := d.ic.tgt.set 4 (g d.ic.tgt[4]), src := quiet 383 (f { pendAt := some 5 }) } }
/-- A stack whose top entry fails its parity check. -/
def kIcBad (c : Fin 5) : State := made [] fun d => d.tgtU c fun x => { x with stack := [{ src := 383, lvl := 7, par := !icPar 383 7 }] }
theorem witness_InterruptController_stack :
    (kIc 0 0 0 (fun x => { x with stack := [{ src := 383, lvl := 7, par := icPar 383 7 }] }) id).ic.tgt[(4 : Fin 5)].stack =
      [{ src := 383, lvl := 7, par := icPar 383 7 }] ∧
    (kIcBad 4).ic.tgt[(4 : Fin 5)].stack = [{ src := 383, lvl := 7, par := !icPar 383 7 }] ∧ (!icPar 383 7) ≠ icPar 383 7 :=
  ⟨rfl, rfl, by cases icPar 383 7 <;> decide⟩
/-- A ring of more records than a target may have. -/
def kIcWide : State := made [(.icc 4 .icqsize, ICQSIZE.QSZ.put 13 0)] id
theorem witness_InterruptController :
    let a := kIc 65535 65534 1 id id
    icBest (icCand a.toDev 4) = some (383, 7) ∧ icCand (kIc 1 1 0 id fun x => { x with serve := .queued }).toDev 4 = [] ∧
    (kIc 16 0 1 id id).f (.icc 4 .icqwr) ICQWR.INDEX = 16 ∧ icCand (kIc 16 0 1 id id).toDev 4 ≠ [] ∧
    Up a ∧ icTarget a.toDev 383 = 4 ∧
    (icSrc (kIc 0 0 1 id fun x => { x with serve := .queued }).toDev 383).serve = .queued := by
  intro a
  unfold Up
  rw [quiet_cand (d := (kIc 65535 65534 1 id id).toDev) (n := 383) rfl,
    quiet_cand (d := (kIc 1 1 0 id fun x => { x with serve := .queued }).toDev) (n := 383) rfl,
    quiet_cand (d := (kIc 16 0 1 id id).toDev) (n := 383) rfl]
  decide +kernel
theorem witness_InterruptController_writes :
    let a := kIc 65535 65534 1 id id
    let b := kIc 0 0 0 (fun x => { x with stack := [{ src := 383, lvl := 7, par := icPar 383 7 }], win := some { at_ := 5, count := 1 } }) id
    Asks .host a (.ic (.icenset 11)) ∧ Asks .host a (.ic (.icenclr 11)) ∧ Asks .host a (.ic .iswset) ∧ Asks .host a (.ic .iswclr) ∧
    Asks .host a (.icc 4 .iceoi) ∧ Asks (.core 4) a (.icc 4 .iceoi) ∧
    a.ic.tgt[(4 : Fin 5)].stack = [] ∧ a.f (.icc 4 .icqsize) ICQSIZE.LIMIT = 16 ∧ Asks (.core 4) (kIcBad 4) (.icc 4 .iceoi) ∧
    b.ic.tgt[(4 : Fin 5)].chkOpen = false ∧ ICEOI.SRC.get (383 : Word) = 383 ∧ Asks (.core 4) a (.icc 4 .icqdone) ∧
    Asks (.core 4) a (.icc 4 .icqrd) ∧
    Asks (.core 4) b (.icc 4 .iccfg) ∧ b.b (.icc 4 .iccfg) ICCFG.EN = false ∧ ICCFG.MODE.bit (ICCFG.MODE.put 1 0) = true ∧
    (b.get (.icc 4 .icqbase)).toNat % 16 = 0 ∧ b.f (.icc 4 .icqsize) ICQSIZE.QSZ = 4 ∧ 0x20000000 ≤ (b.get (.icc 4 .icqbase)).toNat ∧
    Asks (.core 4) kIcWide (.icc 4 .iccfg) ∧ ¬ kIcWide.f (.icc 4 .icqsize) ICQSIZE.QSZ ≤ 12 := by
  unfold Asks Open Up; decide +kernel
theorem witness_InterruptController_ring :
    let a := kIc 65535 65534 1 id id
    let b := kIc 0 0 0 (fun x => { x with win := some { at_ := 5, count := 1 } }) id
    a.b (.icc 4 .iccfg) ICCFG.EN = true ∧ a.b (.icc 4 .iccfg) ICCFG.MODE = true ∧ a.f (.icc 4 .icqwr) ICQWR.INDEX = 65535 ∧
    (65535 + 65536 - a.f (.icc 4 .icqrd) ICQRD.INDEX) % 65536 = 1 ∧ memWaits a.toDev 0x200000F0 = false ∧ inSram 0x200000F0 = true ∧
    a.ic.tgt[(4 : Fin 5)].ringOpen = false ∧ a.ic.tgt[(4 : Fin 5)].win = none ∧ b.ic.tgt[(4 : Fin 5)].win = some { at_ := 5, count := 1 } := by
  decide +kernel
def kIcMod : State := made [(.icc 4 .iccfg, ICCFG.EN.put 1 0), (.icc 4 .icmod, 0xFFFFFFFF)] fun d =>
  d.tgtU 4 fun x => { x with win := some { at_ := 5, count := 1 } }
theorem witness_InterruptController_moderation : (∃ n us, icModPar kIcMod.toDev 4 = some (n, us) ∧ us ≠ 0) ∧ ∀ t, Calm kIcMod t :=
  ⟨⟨_, _, rfl, by decide +kernel⟩, calm_idle (by decide +kernel)⟩

def kFc (l : List (Reg × Word)) (f : FcSt → FcSt) : State := made l fun d => { d with fc := f d.fc }
/-- Class 15 open at level 1 with its line 424 captured in the present cycle and still asserted; masked in that cycle, or before it. -/
def kAck (l : List (Reg × Word)) (m : List (Nat × Nat)) : State :=
  kFc ([(.fc (.fclstat 15), (0 : Word) |> FCLSTAT.OPEN.put 1 |> FCLSTAT.ELEVEL.put 1), (.fc (.flevel 15), FLEVEL.LEVEL.put 1 0)] ++ l) fun x =>
    { x with cycle := 1000000000, live := [424], level := [424], masked := m }
theorem witness_Faults_acknowledge :
    let hit (s : State) (masked : Bool) : Prop := (424 ∈ fcNow s.toDev ∧ lineClass 424 = 15 ∧ 424 ∈ s.fc.level) ∧ lineMasked s.toDev 424 = masked
    let mask : List (Reg × Word) := [(.fc (.fmask 13), 0x100)]
    hit (kAck [] []) false ∧ hit (kAck mask [(424, 1000000000)]) true ∧
    (∃ y ∈ (kAck mask [(424, 1000000000)]).fc.masked, y.1 = 424 ∧
      y.2 / fcPeriod (kAck mask [(424, 1000000000)]).toDev = (kAck mask [(424, 1000000000)]).now / fcPeriod (kAck mask [(424, 1000000000)]).toDev) ∧
    hit (kAck mask []) true ∧ (kAck mask []).fc.masked = [] ∧ fcNow (kAck mask []).toDev = [424] ∧
    (∀ s ∈ [kAck [] [], kAck mask [(424, 1000000000)], kAck mask []], Asks .host s (.fc .fack) ∧
      s.b (.fc (.fclstat 15)) FCLSTAT.OPEN = true ∧ s.f (.fc (.fclstat 15)) FCLSTAT.ELEVEL ≠ 5) ∧
    (kFc [(.fc (.fclstat 15), FCLSTAT.ELEVEL.put 5 0)] id).f (.fc (.fclstat 15)) FCLSTAT.ELEVEL = 5 ∧
    (FACK.CLASS.get (0x8000 : Word)).testBit 15 = true := by
  unfold Asks Open Up; decide +kernel
theorem witness_Faults :
    let a := kFc [] fun x => { x with fresh := [511] }
    let b := kFc [(.fc (.fclstat 15), (0 : Word) |> FCLSTAT.OPEN.put 1 |> FCLSTAT.ELEVEL.put 4)] fun x => { x with recs := [⟨1, 2, 3, 4⟩] }
    let c := made [(.shtm 63 .cfg, (0 : Word) |> SHTM_CFG.EN.put 1 |> SHTM_CFG.POL.put 1), (.shtm 63 (.leg 2), 0x80000000)] fun d => d.cmpU 63 fun x => { x with cond := some 1000000000 }
    let up := gridUp (fcPeriod a.toDev) 0 a.now
    Up a ∧ Calm a (if up ≤ a.fc.cycle then a.fc.cycle + fcPeriod a.toDev else up) ∧ Up c ∧
    a.fc.fresh = [511] ∧ lineMasked a.toDev 511 = false ∧ fcLast a.toDev 511 = none ∧ a.fc.recs.length < 32 ∧ a.fc.locked = false ∧
    (dev []).fc.fresh = [] ∧
    Asks .host b (.shg (.shrel 2)) ∧ (0x80000000 : Word).getLsbD (95 % 32) = true ∧ b.leg[(95 : Fin 96)].pend = none ∧
    b.leg[(95 : Fin 96)].hi.on = false ∧ b.leg[(95 : Fin 96)].lo.on = false ∧
    (kFc [(.shl 95 .hold, SHL_HOLD.HMASK.put 0x8000 0)] id).f (.shl 95 .hold) SHL_HOLD.HMASK = 0x8000 ∧ clsOpen b.toDev 15 = true ∧
    clsOpen a.toDev 15 = false ∧ Asks .host b (.shg .shgate) ∧ b.f (.fc (.fclstat 15)) FCLSTAT.ELEVEL = 4 ∧
    Asks .host (dev []) (.shg .shgate) ∧ (∀ x : Fin 16, clsOpen (dev []).toDev x = false) ∧
    a.b (.fc .fsum) FSUM.LOCKDOWN = false ∧ a.b (.sys (.ready 0)) READY0.SHROUD = true ∧
    Asks .host b (.fc .frecpop) ∧ b.fc.recs = ⟨1, 2, 3, 4⟩ :: [] ∧ a.cmp[(63 : Fin 64)].cond = none ∧ c.cmp[(63 : Fin 64)].cond = some 1000000000 ∧
    tripCond c.toDev 63 = true ∧ c.cmp[(63 : Fin 64)].tripped = false ∧ c.cmp[(63 : Fin 64)].twin = none ∧ Calm c (1000000000 + 0 * tuNs) ∧
    (legRow c.toDev fun j => .shtm 63 (.leg j)).testBit 95 = true := by
  unfold Calm Asks Open Up; decide +kernel

def kWd (f : FcSt → FcSt) : State := kFc [(.wd 4 .ctl, WD_CTL.EN.put 1 0), (.wd 4 .tmo, (0 : Word) |> WD_TMO.TIMEOUT.put 9 |> WD_TMO.WMIN.put 3)] f
theorem witness_MonitorsAndWatchdogs :
    let a := kWd fun x => { x with tollAt := some 5, wd := x.wd.set 4 { from_ := some 1000000000, key := true }, rest := true }
    let b := kWd fun x => { x with wd := x.wd.set 4 { from_ := some 5 } }
    Up a ∧ a.fc.tollAt = some 5 ∧ Calm a 5 ∧ fcHigh a.toDev = false ∧ a.b (.fc .fsum) FSUM.LOCKDOWN = false ∧ a.sys.refOk = true ∧
    a.b (.fc .tollctl) TOLLCTL.FEEDEN = false ∧
    fcHigh (kFc [(.fc (.fclstat 15), (0 : Word) |> FCLSTAT.OPEN.put 1 |> FCLSTAT.ELEVEL.put 4)] fun x => { x with tollAt := some 5 }).toDev = true ∧
    (dev []).fc.tollAt = none ∧ Asks .host a (.fc .tollfeed) ∧ Asks .host (dev []) (.wd 4 .ctl) ∧ (dev []).b (.wd 4 .ctl) WD_CTL.EN = false ∧
    (dev []).fc.locked = false ∧ Asks (.core 4) a (.wd 4 .feed) ∧ Asks .host a (.wd 4 .feed) ∧ Asks (.core 4) b (.wd 4 .feed) ∧ Asks .host a (.wd 4 .ctl) ∧
    a.fc.wd[(4 : Fin 5)].key = true ∧ b.fc.wd[(4 : Fin 5)].key = false := by
  unfold Calm Asks Open Up; decide +kernel
theorem witness_MonitorsAndWatchdogs_states :
    let a := kWd fun x => { x with tollAt := some 5, wd := x.wd.set 4 { from_ := some 1000000000, key := true }, rest := true }
    let b := kWd fun x => { x with wd := x.wd.set 4 { from_ := some 5 } }
    let tmo := a.f (.wd 4 .tmo) WD_TMO.TIMEOUT
    a.b (.wd 4 .ctl) WD_CTL.EN = true ∧ a.fc.wd[(4 : Fin 5)].from_ = some 1000000000 ∧
    (a.now - 1000000000) / tuAon < a.f (.wd 4 .tmo) WD_TMO.WMIN ∧ b.f (.wd 4 .tmo) WD_TMO.WMIN ≤ (b.now - 5) / tuAon ∧
    Calm a (1000000000 + tmo / 2 * tuAon) ∧ Calm a (max 1000000000 (1000000000 + max 1 tmo * tuAon)) ∧
    b.fc.wd[(4 : Fin 5)].warned = false ∧ a.fc.rest = true ∧ a.b (.fl .flstat) FLSTAT.BUSY = false ∧ (dev []).fc.rest = false ∧
    473 ∉ a.fc.level ∧ fcLast a.toDev 473 = none ∧ ¬ ((a.f (.sys .iostat) IOSTAT.PRESENT).testBit 3 = true) ∧
    Calm a (let up := gridUp (fcPeriod a.toDev) 0 a.now
            if up ≤ a.fc.cycle then a.fc.cycle + fcPeriod a.toDev else up) ∧
    ((dev [(.sys .iostat, IOSTAT.PRESENT.put 8 0)]).f (.sys .iostat) IOSTAT.PRESENT).testBit 3 = true := by
  unfold Calm; decide +kernel

/-! ## Link, capture, security, the machine as a whole -/

/-- A unit at address 5 of a chain of 64 with both ports trained. -/
def mLnk (l : List (Reg × Word)) (g : Dev → Dev) : State :=
  made ([(.lnk .lnkctl, (0 : Word) |> LNKCTL.EN.put 1 |> LNKCTL.TEN.put 1), (.lnkp 0 .ctl, (0 : Word) |> LNKP_CTL.EN.put 1 |> LNKP_CTL.ERRTH.put 4),
    (.lnkp 1 .ctl, LNKP_CTL.EN.put 1 0), (.lnkp 0 .stat, (0 : Word) |> LNKP_STAT.TRAINED.put 1 |> LNKP_STAT.DVALID.put 1),
    (.lnkp 1 .stat, (0 : Word) |> LNKP_STAT.TRAINED.put 1 |> LNKP_STAT.DVALID.put 1),
    (.lnk .lnkaddr, (0 : Word) |> LNKADDR.V.put 1 |> LNKADDR.COUNT.put 64 |> LNKADDR.ADDR.put 5), (.hif .hifcfg, HIFCFG.CHAINIF.put 1 0)] ++ l) g
/-- A packet whose header fails its check, cut off after the header. -/
def badHeader : List Byte := List.replicate 8 0
theorem witness_LinkFrames :
    let a := mLnk [] id
    let head := mLnk [(.lnk .lnkstat, LNKSTAT.HEAD.put 1 0)] id
    Up a ∧ a.hst.enum = none ∧ a.hst.cmds = [] ∧ a.hst.late = [] ∧ (∀ x : Fin 2, a.lnk.port[x].txq = []) ∧ a.b (.lnk .lnkctl) LNKCTL.EN = true ∧
    (BitVec.ofNat 16 (crc16 (Frame.enum 63 0).syms)) ≠ (0 : BitVec 16) ∧
    (let x := mLnk [(.lnk .lnkstat, LNKSTAT.RING.put 1 0), (.lnk .lnkaddr, (0 : Word) |> LNKADDR.V.put 1 |> LNKADDR.COUNT.put 64 |> LNKADDR.ADDR.put 5 |>
       LNKADDR.BRK.put 1 |> LNKADDR.BRKA.put 5)] id
     lnkRing x.toDev = true ∧ x.b (.lnk .lnkaddr) LNKADDR.BRK = true ∧ lnkAddr x.toDev ≤ x.f (.lnk .lnkaddr) LNKADDR.BRKA) ∧
    a.b (.lnkp 0 .ctl) LNKP_CTL.EN = true ∧ lnkTrained (mLnk [(.lnkp 0 .stat, 0)] id).toDev 0 = false ∧ lnkTrained a.toDev 0 = true ∧
    (mLnk [(.lnk .lnkctl, 0)] id).b (.lnk .lnkctl) LNKCTL.EN = false ∧ a.f (.lnkp 0 .ctl) LNKP_CTL.ERRTH < 5 ∧ lnkHead a.toDev = false ∧
    (∀ x : Fin 2, lnkTrained a.toDev x = true ∧ a.lnk.port[x].busy ≤ a.now) ∧ lnkTrained (mLnk [(.lnkp 1 .stat, 0)] id).toDev 1 = false ∧
    lnkHead head.toDev = true ∧ lnkBusy head.toDev = false ∧ Asks .host head (.lnk .lnktcmd) ∧
    lnkBusy (mLnk [(.lnk .lnkstat, (0 : Word) |> LNKSTAT.HEAD.put 1 |> LNKSTAT.ENUMBUSY.put 1)] id).toDev = true ∧ lnkAddr a.toDev = 5 ∧
    lnkV a.toDev = true ∧ Asks .host a (.lnk .lnktcmd) := by
  unfold Asks Open Up; decide +kernel
theorem witness_LinkFrames_packets :
    let a := mLnk [] id
    lnkBusy a.toDev = false ∧ lnkCount a.toDev = 64 ∧ crc8 [63, 0, 0] = (BitVec.ofNat 8 (crc8 [63, 0, 0])).toNat ∧
    crc8 [63, 0, 0] ≠ (BitVec.ofNat 8 (crc8 [63, 0, 0]) + 1).toNat ∧ crc8 [5, 0, 0] = (BitVec.ofNat 8 (crc8 [5, 0, 0])).toNat ∧
    lnkRing (mLnk [(.lnk .lnkstat, LNKSTAT.RING.put 1 0)] id).toDev = true ∧
    (mLnk [(.lnk .lnkaddr, LNKADDR.BRK.put 1 0)] id).b (.lnk .lnkaddr) LNKADDR.BRK = true ∧
    hdrCheck packet = .good 0 ∧ packet.length = 12 + 0 ∧ packetErr packet 0 = none ∧ hdrCheck badHeader = .bad ∧
    a.b (.hif .hifcfg) HIFCFG.CHAINIF = true ∧ a.hst.spiQ.length < 4 ∧ Calm a (a.now + 20 * tuUs) := by
  unfold Calm; decide +kernel
def mTime (s : Nat) (l : List (Reg × Word)) (g : PortSt → PortSt) : State :=
  mLnk ((.lnk .lnktstat, LNKTSTAT.STATE.put s 0) :: l) fun d => { d with lnk := { d.lnk with port := d.lnk.port.set 0 (g d.lnk.port[0]) } }
theorem witness_LinkTime :
    let a := mTime 2 [] fun x => { x with exch := [(5, some 7)], dels := List.replicate 15 1, done_ := 15 }
    let head := mLnk [(.lnk .lnkstat, (0 : Word) |> LNKSTAT.HEAD.put 1 |> LNKSTAT.RING.put 1)] id
    Up a ∧ Calm a 5 ∧ a.hst.enum = none ∧ a.hst.cmds = [] ∧ a.hst.late = [] ∧ (∀ x : Fin 2, a.lnk.port[x].txq = []) ∧ lnkTrained a.toDev 0 = true ∧ a.lnk.openE = false ∧
    exLive 5 [(5, some 7)] = [(5, some 7)] ∧ (BitVec.ofNat 16 (crc16 Frame.dreq.syms)) ≠ (0 : BitVec 16) ∧
    lnkHead head.toDev = true ∧ lnkWhole head.toDev = true ∧ lnkWhole (mLnk [(.lnk .lnkstat, LNKSTAT.HEAD.put 1 0)] id).toDev = false ∧
    lnkHead a.toDev = false ∧ a.lnk.port[(1 : Fin 2)].rx = none ∧ a.b (.lnk .lnkctl) LNKCTL.TEN = true ∧
    (mTime 1 [] id).f (.lnk .lnktstat) LNKTSTAT.STATE = 1 ∧ (mTime 1 [] id).b (.lnkp 0 .stat) LNKP_STAT.DVALID = true ∧
    a.f (.lnk .lnktstat) LNKTSTAT.STATE = 2 ∧
    (((0 : Nat) : Int) + a.f (.lnkp 0 .dly) LNKP_DLY.IN - a.devTime 0).natAbs ≤ 24 * max 1 (a.f (.lnk .lnktcfg) LNKTCFG.STEPTHR) ∧
    24 * max 1 (a.f (.lnk .lnktcfg) LNKTCFG.STEPTHR) < (((10 ^ 9 : Nat) : Int) + a.f (.lnkp 0 .dly) LNKP_DLY.IN - a.devTime 0).natAbs ∧
    a.lnk.port[(0 : Fin 2)].busy ≤ a.now ∧ lnkTrained (mTime 2 [(.lnkp 1 .stat, 0)] id).toDev 1 = false ∧
    a.lnk.port[(0 : Fin 2)].exch = [(5, some 7)] ∧ 15 ≤ a.lnk.port[(0 : Fin 2)].dels.length ∧ 15 ≤ a.lnk.port[(0 : Fin 2)].done_ ∧
    (mTime 2 [] id).lnk.port[(0 : Fin 2)].exch = [] ∧ Asks .host a (.lnk .lnktcmd) ∧ Asks .host a (.lnk .lnktimel) ∧
    hasAsked a.toDev .host (.lnk .lnktimel) = false := by
  unfold Calm Asks Open Up; decide +kernel
theorem witness_LinkTime_calm : ∀ t, Calm (mTime 2 [] id) t := calm_idle (by decide +kernel)

/-- Ring set 15 enabled with one descriptor of two lines, changed by g; a task of channel 9 due for each kind. -/
def mCap (l : List (Reg × Word)) (g : CapSt → CapSt) : State :=
  made ([(.capr 15 .ctl, (0 : Word) |> CAPR_CTL.EN.put 1 |> CAPR_CTL.STEN.put 1 |> CAPR_CTL.STCH.put 9 |> CAPR_CTL.SPEN.put 1 |> CAPR_CTL.SPCH.put 9 |>
      CAPR_CTL.SNEN.put 1 |> CAPR_CTL.SNCH.put 9), (.capr 15 .stat, CAPR_STAT.RUN.put 1 0), (.capr 15 .qta, CAPR_QTA.TAGS.put 8 0),
    (.sys (.tagbud 69), TAGBUD.BUDGET.put 8 0), (.hif .pciestat, PCIESTAT.L0.put 1 0), (.capr 15 .snap, CAPR_SNAP.ADDR.put 0x08000000 0),
    (.capr 15 .snlen, CAPR_SNLEN.N.put 1 0), (.capr 15 .ndesc, CAPR_NDESC.N.put 1 0), (.capr 15 .dbase, CAPR_DBASE.ADDR.put 0x02000000 0)] ++ l)
    fun d => { (memWrite 0x20000008 64 d) with cap := d.cap.set 15 (g { d.cap[15] with descs := [{ addr := 4096, len := 128, irq := true }] }),
                                               fab := { d.fab with tasks := [(.capStart, 9, 5), (.capStop, 9, 5), (.capSnap, 9, 5)] } }
/-- A line of one record. -/
def capLine : CapLine := { words := [1, 2, 3, 4], recs := [{ at_ := 5, ts := 5, body := .long [1, 2, 3, 4] }] }
theorem witness_Capture :
    let a := mCap [] fun x => { x with line := capLine }
    let b := mCap [(.capr 15 .ctl, 0)] id
    Up a ∧ Asks .host a (.capr 15 .ctl) ∧ a.b (.capr 15 .ctl) CAPR_CTL.EN = true ∧ Asks .host b (.capr 15 .ctl) ∧ b.b (.capr 15 .ctl) CAPR_CTL.EN = false ∧
    b.f (.capr 15 .ndesc) CAPR_NDESC.N = 1 ∧ capSnapOk b.toDev 15 = true ∧
    (capDescs (16 * b.f (.capr 15 .dbase) CAPR_DBASE.ADDR) 1 b.toDev).1 = some [{ addr := 0, len := 64, irq := false }] ∧
    (capDescs 0x20000000 64 (dev []).toDev).1 = none ∧ memWaits b.toDev 0x20000000 = false ∧
    memWaits (mCap [(.capr 15 .ctl, 0), (.sys (.ready 0), 0)] id).toDev 0x20000000 = true ∧ b.cap[(15 : Fin 16)].line.words = [] ∧
    (let c := a.cap[(15 : Fin 16)]
     c.line.words ≠ [] ∧ c.line.hasLoss = false ∧ c.drops = 0 ∧ c.ringOpen = false ∧ c.staged = [] ∧ c.dropping = false ∧
       (c.descs.map fun x => x.len / 64).sum = 2 ∧ capAddr c.descs (64 * 1) = some (4160, true) ∧ capAddr c.descs 0 = some (4096, false)) ∧
    (mCap [] fun x => { x with line := { words := List.replicate 8 0, recs := [] }, drops := 1 }).cap[(15 : Fin 16)].line.hasLoss = false ∧
    ({ words := capLossWords {} ++ [1], recs := [] } : CapLine).hasLoss = true ∧
    a.hst.perst = false ∧ (a.get (.capr 15 .wline) - a.get (.capr 15 .rline)).toNat = 0 ∧
    capStaged a.toDev < 1024 ∧ capMayIssue a.toDev 15 = true ∧ a.b (.hif .pciestat) PCIESTAT.L0 = true ∧
    Calm a (max a.now (a.cap[(15 : Fin 16)].since + max 1 (a.f (.capr 15 .cfg) CAPR_CFG.FLUSHUS) * tuUs)) ∧
    (mCap [(.capr 15 .wline, 2)] id).get (.capr 15 .wline) = 2 ∧ (mCap [(.capr 15 .wline, 2)] id).get (.capr 15 .rline) = 0 := by
  unfold Calm Asks Open Up; decide +kernel
theorem witness_Capture_tasks :
    let a := mCap [] id
    Up a ∧ fabTaskAt a.toDev .capStart 9 = some 5 ∧ fabTaskAt a.toDev .capStop 9 = some 5 ∧ Calm a 5 ∧
    fabTaskAt a.toDev .capSnap 9 = some 5 ∧ fabTaskAt a.toDev .capSnap 8 = none ∧
    a.b (.capr 15 .ctl) CAPR_CTL.SNEN = true ∧ a.b (.capr 15 .stat) CAPR_STAT.RUN = true ∧ a.f (.capr 15 .ctl) CAPR_CTL.SNCH = 9 ∧
    a.cap[(15 : Fin 16)].snap = none ∧ a.cap[(15 : Fin 16)].drops = 0 ∧ a.cap[(15 : Fin 16)].line.words = [] ∧ a.f (.capr 15 .snlen) CAPR_SNLEN.N = 1 ∧
    (mCap [] fun x => { x with snap := some { stamp := 0, tv := false, words := [], poison := false } }).cap[(15 : Fin 16)].snap ≠ none ∧
    inSram (4 * a.f (.capr 15 .snap) CAPR_SNAP.ADDR) = true ∧ dataWaits a.toDev (4 * a.f (.capr 15 .snap) CAPR_SNAP.ADDR) = false ∧ capMayIssue a.toDev 15 = true ∧
    (∀ x : Fin 16, a.b (.capr x .ctl) CAPR_CTL.SNEN = true ∧ a.b (.capr x .stat) CAPR_STAT.RUN = true ∧ a.f (.capr x .ctl) CAPR_CTL.SNCH = 9 → x = 15) := by
  unfold Calm Up; decide +kernel

/-- A stage of one entry, the budget of holder 69, opened by core 0 and its nonce known; the device has started. -/
def mTk (v n : Nat) (l : List (Reg × Word)) (g : SecSt → SecSt) : State :=
  made ([(.sec .tk_stat, (0 : Word) |> TK_STAT.OPEN.put 1 |> TK_STAT.COUNT.put n), (.sec (.tk_enta 0), TK_ENTA.ADDR.put (Reg.addr (.sys (.tagbud 69)) / 4) 0),
    (.sec (.tk_entv 0), TAGBUD.BUDGET.put v 0), (.sec .tk_nonce, (0 : Word) |> TK_NONCE.VALID.put 1 |> TK_NONCE.NONCE.put 0xFFFF),
    (.sec .tk_saddr, TK_SADDR.ADDR.put (Reg.addr (.sys (.tagbud 69)) / 4) 0)] ++ l) fun d => { d with sec := g { d.sec with entryAt := d.now } }
/-- S runs, and so does core 0; S is halted. -/
def mRun (r : CoreRun) (s : State) : State := st { s.toDev with core := (s.core.set 0 { run := .run }).set 4 { run := r } }
theorem witness_TwoPartyKeys :
    let a := mRun .run (mTk 1 1 [] id)
    let full := mTk 1 8 [(.sec .tk_saddr, TK_SADDR.ADDR.put (Reg.addr (.sec .tkcfg) / 4) 0)] id
    Up a ∧ tkOpen (dev []).toDev = false ∧ tkOpen a.toDev = true ∧ ¬ (a.sec.firstAt.getD a.sec.entryAt + 25000 * tuRef ≤ a.now) ∧
    Calm a (a.sec.firstAt.getD a.sec.entryAt + 25000 * tuRef) ∧
    (mTk 1 1 [] fun x => { x with entryAt := 0, firstAt := some 0 }).sec.firstAt.getD 7 + 25000 * tuRef ≤ a.now ∧
    Asks (.core 0) a (.sec .tk_stage) ∧ Asks .host a (.sec .tk_stage) ∧
    a.sec.odd = false ∧ (mTk 1 1 [] fun x => { x with odd := true }).sec.odd = true ∧
    4 * TK_SADDR.ADDR.get (a.get (.sec .tk_saddr)) = Reg.addr (.sys (.tagbud 69)) ∧
    tkListed (Reg.addr (.sys (.tagbud 69))) (TAGBUD.BUDGET.put 1 0) = true ∧ tkListed (Reg.addr (.sys .sysctl)) 0 = false ∧
    a.tk TK_STAT.OPENER = reqCode (.core 0) ∧ a.tkB TK_STAT.SEALED = false ∧ a.tk TK_STAT.OPENER ≠ reqCode .host ∧ a.tk TK_STAT.COUNT = 1 ∧
    (tkEntry a.toDev 0).1 = Reg.addr (.sys (.tagbud 69)) ∧ full.tk TK_STAT.COUNT = 8 ∧ (∀ x : Fin 8, (tkEntry full.toDev x).1 ≠ Reg.addr (.sec .tkcfg)) ∧
    a.tkB TK_STAT.NBUSY = false ∧ (mTk 1 1 [(.sec .tk_stat, (0 : Word) |> TK_STAT.OPEN.put 1 |> TK_STAT.NBUSY.put 1)] id).tkB TK_STAT.NBUSY = true ∧
    a.sec.waitA = none ∧ a.sec.waitB = none := by
  unfold Calm Asks Open Up; decide +kernel
theorem witness_TwoPartyKeys_commits :
    let a := mRun .run (mTk 1 1 [] id)
    (∀ by_ ∈ [Requester.core 0, .core 4, .host], Asks by_ a (.sec .tk_commit_a) ∧ Asks by_ a (.sec .tk_commit_b) ∧ Asks by_ a (.sec .tk_clear)) ∧
    tkPartyB a.toDev < 6 ∧ reqCode (.core 4) = 4 ∧ a.core[(4 : Fin 5)].run = .run ∧ a.core[(4 : Fin 5)].parked = false ∧
    (mRun .halted (mTk 1 1 [] id)).core[(4 : Fin 5)].run = .halted ∧ tkBootKey a.toDev = false ∧
    tkBootKey (mTk 1 1 [(.sys (.ready 0), 0)] id).toDev = true ∧ a.f (.sec .tk_nonce) TK_NONCE.NONCE = 0xFFFF ∧
    (mTk 1 1 [(.sec .tk_stat, (0 : Word) |> TK_STAT.OPEN.put 1 |> TK_STAT.BDONE.put 1)] id).tkB TK_STAT.BDONE = true ∧ a.tkB TK_STAT.BDONE = false ∧
    tkFail a.toDev = none ∧ tkFail (mTk 4095 1 [] id).toDev = some 0 ∧ tkEntries a.toDev = [(Reg.addr (.sys (.tagbud 69)), TAGBUD.BUDGET.put 1 0)] ∧
    Asks .host a (.sys (.tagbud 69)) ∧ Asks .host a (.fc (.flevel 15)) := by
  unfold Asks Open Up; decide +kernel
/-- The second confirmation of a stage that sets the budget of holder 69 to 4,095 beside the others, or that of S to 15. -/
theorem witness_BudgetRule :
    let done : List (Reg × Word) := [(.sec .tk_stat, (0 : Word) |> TK_STAT.OPEN.put 1 |> TK_STAT.COUNT.put 1 |> TK_STAT.BDONE.put 1)]
    let low : List (Reg × Word) := [(.sec (.tk_enta 0), TK_ENTA.ADDR.put (Reg.addr (.sys (.tagbud 4)) / 4) 0)]
    let staged (s : State) (h : Fin 70) : Option Word := ((tkEntries s.toDev).find? fun x => x.1 == Reg.addr (.sys (.tagbud h))).map (·.2)
    let budget (s : State) (h : Fin 70) : Nat := TAGBUD.BUDGET.get ((staged s h).getD (s.get (.sys (.tagbud h))))
    let past := mRun .run (mTk 4095 1 done id)
    let under := mRun .run (mTk 15 1 (done ++ low) id)
    staged past 69 ≠ none ∧ 4096 < ((List.finRange 70).map (budget past)).sum ∧ staged under 4 ≠ none ∧ budget under 4 < 16 ∧
    (∀ s ∈ [past, under], Asks (.core 4) s (.sec .tk_commit_a) ∧ tkOpen s.toDev = true ∧ ¬ s.sec.firstAt.getD s.sec.entryAt + 25000 * tuRef ≤ s.now ∧
      s.tkB TK_STAT.NBUSY = false ∧ s.f (.sec .tk_nonce) TK_NONCE.NONCE = 0xFFFF ∧ s.tkB TK_STAT.BDONE = true ∧
      s.core[(4 : Fin 5)].run = .run ∧ s.core[(4 : Fin 5)].parked = false ∧ s.b (.fc .fsum) FSUM.LOCKDOWN = false) := by
  unfold Asks Open Up; decide +kernel

def mVer : State := made [] fun d => { d with sec := { d.sec with ver := some { bank := true, for_ := .firmware } }, core := d.core.set 4 { run := .run } }
theorem witness_VerifierAndRandom : Up mVer ∧ mVer.hst.cmds = [] ∧ mVer.hst.late = [] ∧ Asks (.core 4) mVer (.sec .verctl) ∧ Asks .host mVer (.sec .verctl) ∧
    mVer.sec.ver = some { bank := true, for_ := .firmware } ∧ (dev []).sec.ver = none ∧ Asks (.core 4) (dev []) (.sec .verctl) ∧
    mVer.core[(4 : Fin 5)].run = .run ∧ mVer.b (.sys (.ready 0)) READY0.FLASH = true ∧
    (match flSee mVer.toDev 0x00700000 1 with | .ok l => wordAt l 8 == 0xFFFFFFFF | _ => false) = true ∧
    Asks (.core 4) mVer (.sec .rng) ∧ hasAsked mVer.toDev (.core 4) (.sec .rng) = false ∧
    Asks .host mVer (.sec .rng) ∧ hasAsked mVer.toDev .host (.sec .rng) = false := by
  unfold Asks Open Up; decide +kernel

theorem witness_StepTakesFront : (dev []).pending = [] ∧ Up (dev []) ∧ Calm (dev []) ((dev []).now + 120) ∧ (∀ p : Fin 2, (dev []).lnk.port[p].txq = []) ∧
    (dev []).hst.late = [] ∧ (dev []).hst.cmds = [] ∧ (dev []).hst.posted = [] ∧
    (∀ r : Fin 16, (dev []).cap[r].wbPend = false ∧ (dev []).cap[r].snap = none) := by unfold Calm Up; decide +kernel
theorem witness_HeldResetStopsCommands : (rst .por).sys.rst.isSome = true ∧ board (.swtrig .host 1) = false := ⟨rfl, rfl⟩
theorem witness_SourcesFollowed : Followed State.reset.toDev ∧ ∃ t, step State.reset = .next t :=
  ⟨fun h => absurd h (by decide +kernel), _, rfl⟩
theorem witness_SourcesFollowed_watched : icWatch (kIc 0 0 1 id id).toDev = true ∧ Followed (kIc 0 0 1 id id).toDev :=
  ⟨by decide +kernel, quiet_followed (n := 383) rfl (by decide +kernel)⟩
theorem witness_MemoryStaysCanonical : mSt.mem.wf = true ∧ ∃ t, step mSt = .next t := ⟨by decide +kernel, _, rfl⟩
theorem witness_NeverBothSwitches : (∀ n : Fin 96, ¬ (State.reset.leg[n].hi.on = true ∧ State.reset.leg[n].lo.on = true)) ∧
    ∃ t, step State.reset = .next t := ⟨by decide +kernel, _, rfl⟩
theorem witness_RegisterMap : Reg.ofAddr 0x40100940 = some (.leg 37 .ctl) := by decide +kernel
theorem witness_PlainWrite : (31 : Nat) < 32 ∧ (Reg.sys .sysctl).access.rw.getLsbD 0 = true ∧ (Reg.fl .flstat).access.w1c ≠ 0 ∧
    (Reg.sys (.tagbud 0)).access.tk ≠ 0 := by decide +kernel
/-- R153, R311: the words that reset leaves in loop engine memory are 0xC0000000 and 0x3FFFFFFF with their check bits. -/
theorem test_lemReset : eccEnc 0xC0000000 = 0x3C0000000 ∧ eccEnc 0x3FFFFFFF = 0x1B3FFFFFFF ∧
    lemReset.take 2 = [(8, 0x3C0000000), (9, 0x1B3FFFFFFF)] := by decide +kernel

/-! ## WellFormed refuses an ill-formed command -/

theorem wf_refuses_raw_code : (Instr.adcHold 0 65536).wf = false := by decide
theorem wf_refuses_packet_envelope : (Instr.packetFrame 0 none (some 1) none none [] true).wf = false := by decide
theorem wf_refuses_packet_bytes : (Instr.packetPadTimeout 0 (some 1) none none none [1]).wf = false := by decide
theorem wf_refuses_flash_word : (Instr.flashOperationEnd true [0xE1000]).wf = false := by decide
theorem wf_refuses_time_frame : (Instr.timeFrame 0 0 (2 ^ 64) true false 0 (0, 0)).wf = false := by decide
theorem wf_refuses_hops : (Instr.timeFrame 0 0 0 true false 256 (0, 0)).wf = false := by decide
theorem wf_refuses_drsp : (Instr.drsp 0 0 0 (2 ^ 64) 0).wf = false := by decide
theorem wf_refuses_enum : (Instr.enum 0 256 (0, 0)).wf = false := by decide
theorem wf_refuses_enumDone : (Instr.enumDone 0 256 false false 0).wf = false := by decide
theorem wf_refuses_lstat : (Instr.lstat 0 0 2 0 0).wf = false := by decide
theorem wf_refuses_lockdown : (Instr.lockdownFrame 0 0 16 0 0).wf = false := by decide
theorem wf_refuses_inbound_address : (Instr.pcieInboundRequest { bar2 := false, addr := 2, write := false, be := [15], data := [] }).wf = false := by
  decide
theorem wf_refuses_inbound_data : (Instr.pcieInboundRequest { bar2 := false, addr := 0, write := true, be := [15], data := [] }).wf = false := by
  decide
theorem wf_admits_boundaries : (Instr.adcHold 0 65535).wf = true ∧ (Instr.enum 0 255 (0, 0)).wf = true ∧ (Instr.lstat 0 255 1 1 0).wf = true := by
  decide

/-! ## Values the rules state -/

/-- R12 and the naming of instance registers: LEG37_CTL is at 0x4010_0940. -/
theorem test_leg37_address : Reg.addr (.leg 37 .ctl) = 0x40100940 ∧ Reg.ofAddr 0x40100940 = some (.leg 37 .ctl) := by decide +kernel
/-- R392: the check values of the two packet CRCs, and the payload CRC of no payload. -/
theorem test_packet_crcs : crc16 ((List.range 9).map fun k => BitVec.ofNat 8 (0x31 + k)) = 0x29B1 ∧
    crc32c ((List.range 9).map fun k => BitVec.ofNat 8 (0x31 + k)) = 0xE3069283 ∧ crc32c [] = 0 := by decide +kernel
/-- R311, R312: check bits of 0 and of 1; the flipped data bit 0 of a stored 1 is corrected, two flipped bits are not. -/
theorem test_ecc : eccEnc 0 = 0 ∧ eccEnc 1 = 0x4300000001 ∧ eccDecode 0x4300000000 = .fixed 1 ∧ eccDecode 0x4300000002 = .bad ∧
    eccDecode (eccEnc 0xFFFFFFFF) = .clean := by decide +kernel

/-- The device after a command, and core 0 after it where W1 and W2 start at x and y. -/
def next (o : Outc) : Option Dev := match o with | .next t => some t.toDev | _ => none
def regs (x y : Word) (f : CoreSt → CoreSt) : State := cored fun c => f { c with w := (c.w.set 1 x).set 2 y }
def run (i : Instr) (x y : Word) (f : CoreSt → CoreSt) : Option CoreSt := (next (exec i (regs x y f))).map fun d => d.core[(0 : Fin 5)]
/-- R263: an addition wraps, with carry and zero and without overflow; the program counter passes the two bytes. -/
theorem test_add_wraps : (run (.add 0 {} 1 (.reg 2)) 0xFFFFFFFF 1 id).map (fun c => (c.w[1], PSW.C.bit c.psw, PSW.Z.bit c.psw, PSW.V.bit c.psw, c.pc)) =
    some (0, true, true, false, 2) := by decide +kernel
/-- R263: subtracting one from the least signed number overflows; C is 1 where no borrow occurs. -/
theorem test_sub_overflows : (run (.sub 0 {} 1 (.reg 2)) 0x80000000 1 id).map (fun c => (c.w[1], PSW.V.bit c.psw, PSW.N.bit c.psw)) =
    some (0x7FFFFFFF, true, false) := by decide +kernel
/-- R263: the saturating addition stops at 2^31 - 1 and sets V. -/
theorem test_addsat : (run (.addsat 0 {} 1 (.reg 2)) 0x7FFFFFFF 1 id).map (fun c => (c.w[1], PSW.V.bit c.psw)) = some (0x7FFFFFFF, true) := by
  decide +kernel
/-- R266: an arithmetic shift by 31 leaves the sign. -/
theorem test_sar : (run (.sar 0 {} 1 (.imm 31)) 0x80000000 0 id).map (fun c => c.w[1]) = some 0xFFFFFFFF := by decide +kernel
/-- R266: BPERM with 0x1B reverses the byte order. -/
theorem test_bperm : (run (.bperm 0 {} 1 2 0x1B) 0 0x11223344 id).map (fun c => c.w[1]) = some 0x44332211 := by decide +kernel
/-- R270: 1,000,000 / 7 is 142,857, remainder 1, once the divide is complete. -/
theorem test_divide : ((run (.div 0 {} 1 2) 1000000 7 id).map fun c => c.divn) = some (some (142857, 1)) := by decide +kernel
/-- R270: dividing by zero with DZE clear gives the largest number of the dividend's sign, leaves A as remainder and sets DZ. -/
theorem test_divide_by_zero : (run (.div 0 {} 1 2) 0xFFFFFFFB 0 id).map (fun c => (c.divn, PSW.DZ.bit c.psw)) =
    some (some (0x80000000, 0xFFFFFFFB), true) := by decide +kernel
/-- R268: a signed product of -1 and 3 in MH:ML, once it is written. -/
theorem test_multiply : (run (.mul 0 {} 1 2) 0xFFFFFFFF 3 id).map (fun c => c.prod) = some (some 0xFFFFFFFFFFFFFFFD) := by decide +kernel
/-- R265: a store to SRAM is read back with its check bits. -/
theorem test_store : (next (exec (.st 0 {} 2 (.ind 1)) (regs 0x100 0x12345678 id))).map (fun d => memGet d 0x20000100) =
    some (eccEnc 0x12345678) := by decide +kernel
/-- R97: raw 0x8123 with CALO 0x0012 and CALG 0x80A0 gives 0x81B2. -/
theorem test_adc_result : (next (exec (.adcResultReady 0) (made [(.adc 0 .calo, 0x12), (.adc 0 .calg, 0x80A0)] fun d =>
    { d with adc := d.adc.set 0 { conv := [{ conv with raw := 0x8123 }] } }))).map (fun d => d.f (.adc 0 (.res 0)) ADC_RES.DATA) = some 0x81B2 := by
  decide +kernel
/-- R258, R259, R280: bytes of the worked example, and bytes that begin no instruction. -/
theorem test_decode_example : decodeCore 2 [0x10, 0x11] = .instr (.xor 2 {} 1 (.reg 1)) 2 ∧
    decodeCore 2 [0xE4, 0x36, 0x41, 0xA0, 0x0A] = .instr (.st 2 { seg := some .xs } 4 (.disp16 1 0x0AA0)) 5 ∧
    decodeCore 2 [0x55, 0x54] = .instr (.mwait 2 {}) 1 := by decide +kernel
theorem test_decode_refuses : decodeCore 0 [0x3D] = .illegal ∧ decodeCore 0 [0xE4, 0xE4, 0x55] = .illegal ∧ decodeCore 0 [0xE6, 0x55] = .illegal ∧
    decodeCore 0 [0xF0, 0x03] = .illegal := by decide +kernel
/-- R343: the cause of the power-on reset, and every core held. -/
theorem test_reset : State.reset.get (.sys .rstcause) = 1 ∧ (∀ c : Fin 5, State.reset.core[c].run = .held) ∧ State.reset.pending = [] ∧
    (∀ n : Fin 96, State.reset.leg[n].hi.on = false ∧ State.reset.leg[n].lo.on = false) := by decide +kernel
/-- R185, R187: a host write of SWTRIG raises producers 480-487 by its low bits; bit 8 is refused it. -/
theorem test_swtrig : (next (exec (.swtrig .host 0x181) (dev []))).map (fun d => (d.fab.raised, d.b (.ev .evstat) EVSTAT.SWREJ)) =
    some ([480, 487], true) := by decide +kernel
/-- A step runs the command at the front of the queue on the rest of it. -/
theorem test_step_takes_front : step { dev [] with pending := [.tollfeed .host 0, .swtrig .host 1] } =
    exec (.tollfeed .host 0) { dev [] with pending := [.swtrig .host 1] } := rfl

end Sys2Proof.Tests
end

section
/-!
What a step with an empty queue does, the access codes of a register, and the register map: every register is found at its address.
-/

namespace Sys2Proof.Machine
open Sys2Proof
set_option Elab.async false

/-! ### A tick with nothing queued (log entry 1) -/

/-- With no frame at a port, the link sends nothing. -/
theorem lnkPump_idle {d : Dev} (h : ∀ p : Fin 2, d.lnk.port[p].txq = []) : lnkPump d = d := by
  have h0 : d.lnk.port[(0 : Fin 2)].txq.length = 0 := by rw [h]; rfl
  have h1 : d.lnk.port[(1 : Fin 2)].txq.length = 0 := by rw [h]; rfl
  rw [lnkPump, h0, h1]; rfl

/-- With no reply that waits for room and no command, the interpreter answers nothing. -/
theorem hstFlush_idle {d : Dev} (hl : d.hst.late = []) (hc : d.hst.cmds = []) : hstFlush d = d := by
  have h0 : hstLateN d.hst.late.length d = d := by rw [hl]; rfl
  simp only [hstFlush, h0, hc]; rfl

/-- With no write of the host that waits, none is made. -/
theorem hostIssueAll_idle {d : Dev} (h : d.hst.posted = []) : hostIssueAll d = d := by
  rw [hostIssueAll, h]; rfl

/-- What is done for each of a list changes nothing where it changes nothing for one. -/
theorem Dev.each_eq_self {α : Type} {l : List α} {f : α → Dev → Dev} {d : Dev} (h : ∀ a ∈ l, f a d = d) : d.each l f = d := by
  induction l with
  | nil => rfl
  | cons a l ih =>
    have ha : f a d = d := h a (by simp)
    simpa [Dev.each, ha] using ih fun b hb => h b (by simp [hb])

/-- With no write-back held back, the capture engine writes none. -/
theorem capTick_idle {d : Dev} (h : ∀ r : Fin 16, d.cap[r].wbPend = false) : capTick d = d := by
  have : (fins 16).filter (fun r => d.cap[r].wbPend) = [] := by simpa using fun r _ => h r
  rw [capTick, this]; rfl

/-- With no snapshot in progress, none goes on. -/
theorem capSnapAll_idle {d : Dev} (h : ∀ r : Fin 16, d.cap[r].snap = none) : capSnapAll d = d :=
  Dev.each_eq_self fun r _ => by rw [capSnapGo, capSnapStep, h r]

/-- With no queue holding anything, a tick lets the time pass alone. -/
theorem tickWork_idle {d : Dev} (hp : ∀ p : Fin 2, d.lnk.port[p].txq = []) (hl : d.hst.late = []) (hc : d.hst.cmds = [])
    (hw : d.hst.posted = []) (hr : ∀ r : Fin 16, d.cap[r].wbPend = false ∧ d.cap[r].snap = none) : tickWork d = d.tick := by
  have ep : lnkPump d.tick = d.tick := lnkPump_idle hp
  have eh : hstFlush d.tick = d.tick := hstFlush_idle hl hc
  have ew : hostIssueAll d.tick = d.tick := hostIssueAll_idle hw
  have et : capTick d.tick = d.tick := capTick_idle fun r => (hr r).1
  have es : capSnapAll d.tick = d.tick := capSnapAll_idle fun r => (hr r).2
  rw [tickWork, ep, eh, ew, et, es]

/-! ### Access codes -/

/-- A bit of a register that a write acts on has one access code, and none that a write acts on is a TK bit (R13, R14). -/
def Access.apart (a : Access) : Bool :=
  (a.rw &&& a.w1c) == 0 && (a.rw &&& a.w1s) == 0 && (a.w1c &&& a.w1s) == 0 && (a.tk &&& (a.rw ||| a.w1c ||| a.w1s)) == 0

theorem Reg.access_apart (r : Reg) : r.access.apart = true := by
  cases r <;> rename_i r <;> cases r <;> dsimp only [Reg.access, SysReg.access, LegReg.access, TbReg.access, TbgReg.access,
    AdcReg.access, AdcgReg.access, LeReg.access, LeprReg.access, LeshReg.access, CmpReg.access, CmpgReg.access, PosReg.access,
    ChReg.access, EvReg.access, IcReg.access, IccReg.access, FcReg.access, ShlReg.access, ShtmReg.access, ShgReg.access, WdReg.access,
    ThReg.access, CoreReg.access, FlReg.access, LnkReg.access, LnkpReg.access, HifReg.access, CaprReg.access, SecReg.access] <;> decide

/-- Two masks with no bit in common. -/
theorem getLsbD_of_apart {a b : Word} (h : a &&& b = 0) {k : Nat} (ha : a.getLsbD k = true) : b.getLsbD k = false := by
  have hk : (a &&& b).getLsbD k = false := by rw [h]; exact BitVec.getLsbD_zero
  simpa [ha] using hk

/-- A bit of what a plain write leaves. -/
theorem getLsbD_plainWrite (a : Access) (old v : Word) {k : Nat} (hk : k < 32) :
    (plainWrite a old v).getLsbD k =
      (((if a.rw.getLsbD k then v.getLsbD k else old.getLsbD k) && !(v.getLsbD k && a.w1c.getLsbD k)) ||
        (v.getLsbD k && a.w1s.getLsbD k)) := by
  simp only [plainWrite, BitVec.getLsbD_or, BitVec.getLsbD_and, BitVec.getLsbD_not, hk, decide_true, Bool.true_and]
  cases a.rw.getLsbD k <;> simp

/-! ### The register map: the offsets of each block -/

theorem SysReg.ofOff_off (r : SysReg) : SysReg.ofOff r.off = some r := by
  cases r with
  | tempo k | tagbud k | taguse k | dtbase k | remap j k | ready k | bootent k | bootfseg k | bootfpc k =>
    rw [SysReg.off, SysReg.ofOff]
    repeat rw [dif_neg (by omega)]
    rw [dif_pos (by omega)]
    congr <;> omega
  | _ => rfl

theorem SysReg.off_of_ofOff (o : Nat) : ∀ r, SysReg.ofOff o = some r → r.off = o := by
  fun_cases SysReg.ofOff o <;> rintro r ⟨⟩ <;> simp only [SysReg.off] <;> omega

theorem SysReg.off_range (r : SysReg) : (r.off < 0x810 ∨ 0x860 ≤ r.off) ∧ r.off < 0x1000 ∧ r.off % 4 = 0 := by
  cases r <;> simp [SysReg.off] <;> omega

theorem LegReg.ofOff_off (r : LegReg) : LegReg.ofOff r.off = some r := by
  cases r <;> rfl

theorem LegReg.off_of_ofOff (o : Nat) : ∀ r, LegReg.ofOff o = some r → r.off = o := by
  fun_cases LegReg.ofOff o <;> rintro r ⟨⟩ <;> rfl

theorem LegReg.off_range (r : LegReg) : r.off < 0x40 ∧ r.off % 4 = 0 := by
  cases r <;> simp [LegReg.off]

theorem TbReg.ofOff_off (r : TbReg) : TbReg.ofOff r.off = some r := by
  cases r with
  | evcmp k =>
    rw [TbReg.off, TbReg.ofOff]
    rw [dif_pos (by omega)]
    congr; omega
  | _ => rfl

theorem TbReg.off_of_ofOff (o : Nat) : ∀ r, TbReg.ofOff o = some r → r.off = o := by
  fun_cases TbReg.ofOff o <;> rintro r ⟨⟩ <;> simp only [TbReg.off]; omega

theorem TbReg.off_range (r : TbReg) : 0x2000 ≤ r.off ∧ r.off < 0x2040 ∧ r.off % 4 = 0 := by
  cases r <;> simp [TbReg.off]; omega

theorem TbgReg.ofOff_off (r : TbgReg) : TbgReg.ofOff r.off = some r := by
  cases r with
  | legcommit k =>
    rw [TbgReg.off, TbgReg.ofOff]
    rw [dif_pos (by omega)]
    congr; omega
  | _ => rfl

theorem TbgReg.off_of_ofOff (o : Nat) : ∀ r, TbgReg.ofOff o = some r → r.off = o := by
  fun_cases TbgReg.ofOff o <;> rintro r ⟨⟩ <;> simp only [TbgReg.off]; omega

theorem TbgReg.off_range (r : TbgReg) : 0x3000 ≤ r.off ∧ r.off < 0x3100 ∧ r.off % 4 = 0 := by
  cases r <;> simp [TbgReg.off]; omega

theorem AdcReg.ofOff_off (r : AdcReg) : AdcReg.ofOff r.off = some r := by
  cases r with
  | seq k | res k =>
    rw [AdcReg.off, AdcReg.ofOff]
    repeat rw [dif_neg (by omega)]
    rw [dif_pos (by omega)]
    congr; omega
  | _ => rfl

theorem AdcReg.off_of_ofOff (o : Nat) : ∀ r, AdcReg.ofOff o = some r → r.off = o := by
  fun_cases AdcReg.ofOff o <;> rintro r ⟨⟩ <;> simp only [AdcReg.off] <;> omega

theorem AdcReg.off_range (r : AdcReg) : r.off < 0x100 ∧ r.off % 4 = 0 := by
  cases r <;> simp [AdcReg.off] <;> omega

theorem AdcgReg.ofOff_off (r : AdcgReg) : AdcgReg.ofOff r.off = some r := by
  cases r <;> rfl

theorem AdcgReg.off_of_ofOff (o : Nat) : ∀ r, AdcgReg.ofOff o = some r → r.off = o := by
  fun_cases AdcgReg.ofOff o <;> rintro r ⟨⟩ <;> rfl

theorem AdcgReg.off_range (r : AdcgReg) : 0x2000 ≤ r.off ∧ r.off < 0x2100 ∧ r.off % 4 = 0 := by
  cases r <;> simp [AdcgReg.off]

theorem LeReg.ofOff_off (r : LeReg) : LeReg.ofOff r.off = some r := by
  cases r with
  | dst k | dofs k =>
    rw [LeReg.off, LeReg.ofOff]
    repeat rw [dif_neg (by omega)]
    rw [dif_pos (by omega)]
    congr; omega
  | _ => rfl

theorem LeReg.off_of_ofOff (o : Nat) : ∀ r, LeReg.ofOff o = some r → r.off = o := by
  fun_cases LeReg.ofOff o <;> rintro r ⟨⟩ <;> simp only [LeReg.off] <;> omega

theorem LeReg.off_range (r : LeReg) : r.off < 0x80 ∧ r.off % 4 = 0 := by
  cases r <;> simp [LeReg.off] <;> omega

theorem LeprReg.ofOff_off (r : LeprReg) : LeprReg.ofOff r.off = some r := by
  cases r <;> rfl

theorem LeprReg.off_of_ofOff (o : Nat) : ∀ r, LeprReg.ofOff o = some r → r.off = o := by
  fun_cases LeprReg.ofOff o <;> rintro r ⟨⟩ <;> rfl

theorem LeprReg.off_range (r : LeprReg) : 0x2000 ≤ r.off ∧ r.off < 0x2010 ∧ r.off % 4 = 0 := by
  cases r <;> simp [LeprReg.off]

theorem LeshReg.ofOff_off (r : LeshReg) : LeshReg.ofOff r.off = some r := by
  cases r with
  | leswap k | leen k =>
    rw [LeshReg.off, LeshReg.ofOff]
    repeat rw [dif_neg (by omega)]
    rw [dif_pos (by omega)]
    congr; omega

theorem LeshReg.off_of_ofOff (o : Nat) : ∀ r, LeshReg.ofOff o = some r → r.off = o := by
  fun_cases LeshReg.ofOff o <;> rintro r ⟨⟩ <;> simp only [LeshReg.off] <;> omega

theorem LeshReg.off_range (r : LeshReg) : 0x2200 ≤ r.off ∧ r.off < 0x2300 ∧ r.off % 4 = 0 := by
  cases r <;> simp [LeshReg.off] <;> omega

theorem CmpReg.ofOff_off (r : CmpReg) : CmpReg.ofOff r.off = some r := by
  cases r <;> rfl

theorem CmpReg.off_of_ofOff (o : Nat) : ∀ r, CmpReg.ofOff o = some r → r.off = o := by
  fun_cases CmpReg.ofOff o <;> rintro r ⟨⟩ <;> rfl

theorem CmpReg.off_range (r : CmpReg) : r.off < 0x40 ∧ r.off % 4 = 0 := by
  cases r <;> simp [CmpReg.off]

theorem CmpgReg.ofOff_off (r : CmpgReg) : CmpgReg.ofOff r.off = some r := by
  cases r with
  | cmpout k | cmpqout k =>
    rw [CmpgReg.off, CmpgReg.ofOff]
    repeat rw [dif_neg (by omega)]
    rw [dif_pos (by omega)]
    congr; omega

theorem CmpgReg.off_of_ofOff (o : Nat) : ∀ r, CmpgReg.ofOff o = some r → r.off = o := by
  fun_cases CmpgReg.ofOff o <;> rintro r ⟨⟩ <;> simp only [CmpgReg.off] <;> omega

theorem CmpgReg.off_range (r : CmpgReg) : 0x1000 ≤ r.off ∧ r.off < 0x1100 ∧ r.off % 4 = 0 := by
  cases r <;> simp [CmpgReg.off] <;> omega

theorem PosReg.ofOff_off (r : PosReg) : PosReg.ofOff r.off = some r := by
  cases r <;> rfl

theorem PosReg.off_of_ofOff (o : Nat) : ∀ r, PosReg.ofOff o = some r → r.off = o := by
  fun_cases PosReg.ofOff o <;> rintro r ⟨⟩ <;> rfl

theorem PosReg.off_range (r : PosReg) : r.off < 0x100 ∧ r.off % 4 = 0 := by
  cases r <;> simp [PosReg.off]

theorem ChReg.ofOff_off (r : ChReg) : ChReg.ofOff r.off = some r := by
  cases r with
  | en k =>
    rw [ChReg.off, ChReg.ofOff]
    rw [dif_pos (by omega)]
    congr; omega
  | _ => rfl

theorem ChReg.off_of_ofOff (o : Nat) : ∀ r, ChReg.ofOff o = some r → r.off = o := by
  fun_cases ChReg.ofOff o <;> rintro r ⟨⟩ <;> simp only [ChReg.off]; omega

theorem ChReg.off_range (r : ChReg) : (r.off < 0x40 ∨ 0x4000 ≤ r.off) ∧ r.off < 0x4010 ∧ r.off % 4 = 0 := by
  cases r <;> simp [ChReg.off]; omega

theorem EvReg.ofOff_off (r : EvReg) : EvReg.ofOff r.off = some r := by
  cases r with
  | evcsel k | chflag k =>
    rw [EvReg.off, EvReg.ofOff]
    repeat rw [dif_neg (by omega)]
    rw [dif_pos (by omega)]
    congr; omega
  | _ => rfl

theorem EvReg.off_of_ofOff (o : Nat) : ∀ r, EvReg.ofOff o = some r → r.off = o := by
  fun_cases EvReg.ofOff o <;> rintro r ⟨⟩ <;> simp only [EvReg.off] <;> omega

theorem EvReg.off_range (r : EvReg) : 0x5000 ≤ r.off ∧ r.off < 0x6000 ∧ r.off % 4 = 0 := by
  cases r <;> simp [EvReg.off] <;> omega

theorem IcReg.ofOff_off (r : IcReg) : IcReg.ofOff r.off = some r := by
  cases r with
  | icsrc k | icen k | icenset k | icenclr k | icpend k | icroutes k | icstorm k | icstk j k =>
    rw [IcReg.off, IcReg.ofOff]
    repeat rw [dif_neg (by omega)]
    rw [dif_pos (by omega)]
    congr <;> omega
  | _ => rfl

theorem IcReg.off_of_ofOff (o : Nat) : ∀ r, IcReg.ofOff o = some r → r.off = o := by
  fun_cases IcReg.ofOff o <;> rintro r ⟨⟩ <;> simp only [IcReg.off] <;> omega

theorem IcReg.off_range (r : IcReg) : (r.off < 0x1000 ∨ 0x1400 ≤ r.off) ∧ r.off < 0x2000 ∧ r.off % 4 = 0 := by
  cases r <;> simp [IcReg.off] <;> omega

theorem IccReg.ofOff_off (r : IccReg) : IccReg.ofOff r.off = some r := by
  cases r <;> rfl

theorem IccReg.off_of_ofOff (o : Nat) : ∀ r, IccReg.ofOff o = some r → r.off = o := by
  fun_cases IccReg.ofOff o <;> rintro r ⟨⟩ <;> rfl

theorem IccReg.off_range (r : IccReg) : 0x1000 ≤ r.off ∧ r.off < 0x1040 ∧ r.off % 4 = 0 := by
  cases r <;> simp [IccReg.off]

theorem FcReg.ofOff_off (r : FcReg) : FcReg.ofOff r.off = some r := by
  cases r with
  | fstat k | flive k | fmask k | flevel k | fclstat k | fgmap j k | frec k =>
    rw [FcReg.off, FcReg.ofOff]
    repeat rw [dif_neg (by omega)]
    rw [dif_pos (by omega)]
    congr <;> omega
  | _ => rfl

theorem FcReg.off_of_ofOff (o : Nat) : ∀ r, FcReg.ofOff o = some r → r.off = o := by
  fun_cases FcReg.ofOff o <;> rintro r ⟨⟩ <;> simp only [FcReg.off] <;> omega

theorem FcReg.off_range (r : FcReg) : r.off < 0x1000 ∧ r.off % 4 = 0 := by
  cases r <;> simp [FcReg.off] <;> omega

theorem ShlReg.ofOff_off (r : ShlReg) : ShlReg.ofOff r.off = some r := by
  cases r <;> rfl

theorem ShlReg.off_of_ofOff (o : Nat) : ∀ r, ShlReg.ofOff o = some r → r.off = o := by
  fun_cases ShlReg.ofOff o <;> rintro r ⟨⟩ <;> rfl

theorem ShlReg.off_range (r : ShlReg) : r.off < 0x20 ∧ r.off % 4 = 0 := by
  cases r <;> simp [ShlReg.off]

theorem ShtmReg.ofOff_off (r : ShtmReg) : ShtmReg.ofOff r.off = some r := by
  cases r with
  | leg k =>
    rw [ShtmReg.off, ShtmReg.ofOff]
    rw [dif_pos (by omega)]
    congr; omega
  | _ => rfl

theorem ShtmReg.off_of_ofOff (o : Nat) : ∀ r, ShtmReg.ofOff o = some r → r.off = o := by
  fun_cases ShtmReg.ofOff o <;> rintro r ⟨⟩ <;> simp only [ShtmReg.off]; omega

theorem ShtmReg.off_range (r : ShtmReg) : 0x1000 ≤ r.off ∧ r.off < 0x1010 ∧ r.off % 4 = 0 := by
  cases r <;> simp [ShtmReg.off]; omega

theorem ShgReg.ofOff_off (r : ShgReg) : ShgReg.ofOff r.off = some r := by
  cases r with
  | shrel k | shheld k | shreef k =>
    rw [ShgReg.off, ShgReg.ofOff]
    repeat rw [dif_neg (by omega)]
    rw [dif_pos (by omega)]
    congr; omega
  | _ => rfl

theorem ShgReg.off_of_ofOff (o : Nat) : ∀ r, ShgReg.ofOff o = some r → r.off = o := by
  fun_cases ShgReg.ofOff o <;> rintro r ⟨⟩ <;> simp only [ShgReg.off] <;> omega

theorem ShgReg.off_range (r : ShgReg) : 0x2000 ≤ r.off ∧ r.off < 0x3000 ∧ r.off % 4 = 0 := by
  cases r <;> simp [ShgReg.off] <;> omega

theorem WdReg.ofOff_off (r : WdReg) : WdReg.ofOff r.off = some r := by
  cases r <;> rfl

theorem WdReg.off_of_ofOff (o : Nat) : ∀ r, WdReg.ofOff o = some r → r.off = o := by
  fun_cases WdReg.ofOff o <;> rintro r ⟨⟩ <;> rfl

theorem WdReg.off_range (r : WdReg) : r.off < 0x20 ∧ r.off % 4 = 0 := by
  cases r <;> simp [WdReg.off]

theorem ThReg.ofOff_off (r : ThReg) : ThReg.ofOff r.off = some r := by
  cases r <;> rfl

theorem ThReg.off_of_ofOff (o : Nat) : ∀ r, ThReg.ofOff o = some r → r.off = o := by
  fun_cases ThReg.ofOff o <;> rintro r ⟨⟩ <;> rfl

theorem ThReg.off_range (r : ThReg) : 0x100 ≤ r.off ∧ r.off < 0x200 ∧ r.off % 4 = 0 := by
  cases r <;> simp [ThReg.off]

theorem CoreReg.ofOff_off (r : CoreReg) : CoreReg.ofOff r.off = some r := by
  cases r <;> rfl

theorem CoreReg.off_of_ofOff (o : Nat) : ∀ r, CoreReg.ofOff o = some r → r.off = o := by
  fun_cases CoreReg.ofOff o <;> rintro r ⟨⟩ <;> rfl

theorem CoreReg.off_range (r : CoreReg) : 0x810 ≤ r.off ∧ r.off < 0x820 ∧ r.off % 4 = 0 := by
  cases r <;> simp [CoreReg.off]

theorem FlReg.ofOff_off (r : FlReg) : FlReg.ofOff r.off = some r := by
  cases r with
  | fldata k | fleic k =>
    rw [FlReg.off, FlReg.ofOff]
    repeat rw [dif_neg (by omega)]
    rw [dif_pos (by omega)]
    congr; omega
  | _ => rfl

theorem FlReg.off_of_ofOff (o : Nat) : ∀ r, FlReg.ofOff o = some r → r.off = o := by
  fun_cases FlReg.ofOff o <;> rintro r ⟨⟩ <;> simp only [FlReg.off] <;> omega

theorem FlReg.off_range (r : FlReg) : r.off < 0x1000 ∧ r.off % 4 = 0 := by
  cases r <;> simp [FlReg.off] <;> omega

theorem LnkReg.ofOff_off (r : LnkReg) : LnkReg.ofOff r.off = some r := by
  cases r <;> rfl

theorem LnkReg.off_of_ofOff (o : Nat) : ∀ r, LnkReg.ofOff o = some r → r.off = o := by
  fun_cases LnkReg.ofOff o <;> rintro r ⟨⟩ <;> rfl

theorem LnkReg.off_range (r : LnkReg) : r.off < 0x100 ∧ r.off % 4 = 0 := by
  cases r <;> simp [LnkReg.off]

theorem LnkpReg.ofOff_off (r : LnkpReg) : LnkpReg.ofOff r.off = some r := by
  cases r <;> rfl

theorem LnkpReg.off_of_ofOff (o : Nat) : ∀ r, LnkpReg.ofOff o = some r → r.off = o := by
  fun_cases LnkpReg.ofOff o <;> rintro r ⟨⟩ <;> rfl

theorem LnkpReg.off_range (r : LnkpReg) : 0x100 ≤ r.off ∧ r.off < 0x140 ∧ r.off % 4 = 0 := by
  cases r <;> simp [LnkpReg.off]

theorem HifReg.ofOff_off (r : HifReg) : HifReg.ofOff r.off = some r := by
  cases r with
  | hobw k | hmbcmd k | hmbrpl k | fwcmdbuf k | fwrplbuf k | msixtab k =>
    rw [HifReg.off, HifReg.ofOff]
    repeat rw [dif_neg (by omega)]
    rw [dif_pos (by omega)]
    congr; omega
  | _ => rfl

theorem HifReg.off_of_ofOff (o : Nat) : ∀ r, HifReg.ofOff o = some r → r.off = o := by
  fun_cases HifReg.ofOff o <;> rintro r ⟨⟩ <;> simp only [HifReg.off] <;> omega

theorem HifReg.off_range (r : HifReg) : r.off < 0x10000 ∧ r.off % 4 = 0 := by
  cases r <;> simp [HifReg.off] <;> omega

theorem CaprReg.ofOff_off (r : CaprReg) : CaprReg.ofOff r.off = some r := by
  cases r <;> rfl

theorem CaprReg.off_of_ofOff (o : Nat) : ∀ r, CaprReg.ofOff o = some r → r.off = o := by
  fun_cases CaprReg.ofOff o <;> rintro r ⟨⟩ <;> rfl

theorem CaprReg.off_range (r : CaprReg) : r.off < 0x100 ∧ r.off % 4 = 0 := by
  cases r <;> simp [CaprReg.off]

theorem SecReg.ofOff_off (r : SecReg) : SecReg.ofOff r.off = some r := by
  cases r with
  | tk_enta k | tk_entv k =>
    rw [SecReg.off, SecReg.ofOff]
    repeat rw [dif_neg (by omega)]
    rw [dif_pos (by omega)]
    congr; omega
  | _ => rfl

theorem SecReg.off_of_ofOff (o : Nat) : ∀ r, SecReg.ofOff o = some r → r.off = o := by
  fun_cases SecReg.ofOff o <;> rintro r ⟨⟩ <;> simp only [SecReg.off] <;> omega

theorem SecReg.off_range (r : SecReg) : r.off < 0x1000 ∧ r.off % 4 = 0 := by
  cases r <;> simp [SecReg.off] <;> omega

/-- A register block that stands once: nothing is found outside the range of its offsets. -/
theorem one_none {ρ : Type} {off : ρ → Nat} {ofOff : Nat → Option ρ} (hs : ∀ o r, ofOff o = some r → off r = o)
    (mk : ρ → Reg) {base a : Nat}
    (h : ∀ r, base + off r ≠ a) : (if base ≤ a then (ofOff (a - base)).map mk else none) = none := by
  split
  · rw [Option.map_eq_none_iff, Option.eq_none_iff_forall_ne_some]
    intro r hr
    have hr := hs _ _ hr
    exact h r (by omega)
  · rfl

/-- A register block that stands once: a register is found at its offset. -/
theorem one_find {ρ : Type} {off : ρ → Nat} {ofOff : Nat → Option ρ} (hf : ∀ r, ofOff (off r) = some r)
    (mk : ρ → Reg) {base a : Nat} (r : ρ)
    (ha : a = base + off r) : (if base ≤ a then (ofOff (a - base)).map mk else none) = some (mk r) := by
  rw [ha, if_pos (Nat.le_add_right ..), Nat.add_sub_cancel_left, hf]; rfl

/-- An array of register blocks: nothing is found below or above it. -/
theorem instOf_none {n base stride a : Nat} (hs : 0 < stride) (h : a < base ∨ base + stride * n ≤ a) :
    instOf n base stride a = none := by
  refine dif_neg fun ⟨h1, h2⟩ => ?_
  rw [Nat.div_lt_iff_lt_mul hs, Nat.mul_comm] at h2
  omega

/-- An array of register blocks: the instance at an address, and the offset in it. -/
theorem instOf_eq {n base stride o : Nat} (i : Fin n) (h : o < stride) : instOf n base stride (base + stride * i + o) = some (i, o) := by
  have hs : 0 < stride := by omega
  have e : base + stride * i + o - base = stride * i + o := by omega
  have hd : (stride * i + o) / stride = i := by rw [Nat.mul_add_div hs, Nat.div_eq_of_lt h, Nat.add_zero]
  have hm : (stride * i + o) % stride = o := by rw [Nat.mul_add_mod, Nat.mod_eq_of_lt h]
  unfold instOf
  rw [dif_pos ⟨by omega, by rw [e, hd]; exact i.isLt⟩]
  simp only [e, hd, hm]

theorem sysAt_none {a : Nat} (h : 0x40000810 ≤ a ∧ a < 0x40000860 ∨ 0x40001000 ≤ a) :
    (if 0x40000000 ≤ a then (SysReg.ofOff (a - 0x40000000)).map Reg.sys else none) = none :=
  one_none SysReg.off_of_ofOff _ fun r => by have := r.off_range; omega

theorem tbgAt_none {a : Nat} (h : a < 0x40103000 ∨ 0x40103100 ≤ a) :
    (if 0x40100000 ≤ a then (TbgReg.ofOff (a - 0x40100000)).map Reg.tbg else none) = none :=
  one_none TbgReg.off_of_ofOff _ fun r => by have := r.off_range; omega

theorem adcgAt_none {a : Nat} (h : a < 0x40202000 ∨ 0x40202100 ≤ a) :
    (if 0x40200000 ≤ a then (AdcgReg.ofOff (a - 0x40200000)).map Reg.adcg else none) = none :=
  one_none AdcgReg.off_of_ofOff _ fun r => by have := r.off_range; omega

theorem leshAt_none {a : Nat} (h : a < 0x40402200 ∨ 0x40402300 ≤ a) :
    (if 0x40400000 ≤ a then (LeshReg.ofOff (a - 0x40400000)).map Reg.lesh else none) = none :=
  one_none LeshReg.off_of_ofOff _ fun r => by have := r.off_range; omega

theorem cmpgAt_none {a : Nat} (h : a < 0x40301000 ∨ 0x40301100 ≤ a) :
    (if 0x40300000 ≤ a then (CmpgReg.ofOff (a - 0x40300000)).map Reg.cmpg else none) = none :=
  one_none CmpgReg.off_of_ofOff _ fun r => by have := r.off_range; omega

theorem evAt_none {a : Nat} (h : a < 0x40045000 ∨ 0x40046000 ≤ a) :
    (if 0x40040000 ≤ a then (EvReg.ofOff (a - 0x40040000)).map Reg.ev else none) = none :=
  one_none EvReg.off_of_ofOff _ fun r => by have := r.off_range; omega

theorem icAt_none {a : Nat} (h : a < 0x40060000 ∨ 0x40061000 ≤ a ∧ a < 0x40061400 ∨ 0x40062000 ≤ a) :
    (if 0x40060000 ≤ a then (IcReg.ofOff (a - 0x40060000)).map Reg.ic else none) = none :=
  one_none IcReg.off_of_ofOff _ fun r => by have := r.off_range; omega

theorem fcAt_none {a : Nat} (h : a < 0x40010000 ∨ 0x40011000 ≤ a) :
    (if 0x40010000 ≤ a then (FcReg.ofOff (a - 0x40010000)).map Reg.fc else none) = none :=
  one_none FcReg.off_of_ofOff _ fun r => by have := r.off_range; omega

theorem shgAt_none {a : Nat} (h : a < 0x40022000 ∨ 0x40023000 ≤ a) :
    (if 0x40020000 ≤ a then (ShgReg.ofOff (a - 0x40020000)).map Reg.shg else none) = none :=
  one_none ShgReg.off_of_ofOff _ fun r => by have := r.off_range; omega

theorem thAt_none {a : Nat} (h : a < 0x40900100 ∨ 0x40900200 ≤ a) :
    (if 0x40900000 ≤ a then (ThReg.ofOff (a - 0x40900000)).map Reg.th else none) = none :=
  one_none ThReg.off_of_ofOff _ fun r => by have := r.off_range; omega

theorem flAt_none {a : Nat} (h : a < 0x40500000 ∨ 0x40501000 ≤ a) :
    (if 0x40500000 ≤ a then (FlReg.ofOff (a - 0x40500000)).map Reg.fl else none) = none :=
  one_none FlReg.off_of_ofOff _ fun r => by have := r.off_range; omega

theorem lnkAt_none {a : Nat} (h : a < 0x40600000 ∨ 0x40600100 ≤ a) :
    (if 0x40600000 ≤ a then (LnkReg.ofOff (a - 0x40600000)).map Reg.lnk else none) = none :=
  one_none LnkReg.off_of_ofOff _ fun r => by have := r.off_range; omega

theorem hifAt_none {a : Nat} (h : a < 0x40700000 ∨ 0x40710000 ≤ a) :
    (if 0x40700000 ≤ a then (HifReg.ofOff (a - 0x40700000)).map Reg.hif else none) = none :=
  one_none HifReg.off_of_ofOff _ fun r => by have := r.off_range; omega

theorem secAt_none {a : Nat} (h : a < 0x40800000 ∨ 0x40801000 ≤ a) :
    (if 0x40800000 ≤ a then (SecReg.ofOff (a - 0x40800000)).map Reg.sec else none) = none :=
  one_none SecReg.off_of_ofOff _ fun r => by have := r.off_range; omega

/-- An array of register blocks: a register is found at the address of its instance. -/
theorem array_find {ρ : Type} {off : ρ → Nat} {ofOff : Nat → Option ρ} (hf : ∀ r, ofOff (off r) = some r) {n : Nat}
    (mk : Fin n → ρ → Reg)
    {base stride sh a : Nat} (i : Fin n) (r : ρ) (h : sh ≤ off r ∧ off r < sh + stride) (ha : a = base + stride * i + (off r - sh)) :
    ((instOf n base stride a).bind fun p => (ofOff (p.2 + sh)).map (mk p.1)) = some (mk i r) := by
  rw [ha, instOf_eq i (by omega), Option.bind_some]
  have e : off r - sh + sh = off r := by omega
  simp only [e, hf, Option.map_some]

theorem Reg.ofAddr_sys (r : SysReg) : Reg.ofAddr (Reg.sys r).addr = some (.sys r) := by
  have hr := r.off_range
  have ha : (Reg.sys r).addr = 0x40000000 + r.off := rfl
  generalize (Reg.sys r).addr = a at ha ⊢
  have own := one_find SysReg.ofOff_off Reg.sys r ha
  simp only [Reg.ofAddr, own]
  rfl

theorem Reg.ofAddr_leg (i : Fin 96) (r : LegReg) : Reg.ofAddr (Reg.leg i r).addr = some (.leg i r) := by
  have hr := r.off_range
  have ha : (Reg.leg i r).addr = 0x40100000 + 0x40 * i.val + (r.off - 0x0) := by
    simp only [Reg.addr]; omega
  generalize (Reg.leg i r).addr = a at ha ⊢
  have own := array_find LegReg.ofOff_off Reg.leg i r (by omega) ha
  have hb : 0x40100000 ≤ a ∧ a < 0x40101800 := by omega
  clear ha hr
  simp (disch := omega) only [Reg.ofAddr, sysAt_none, own]
  rfl

theorem Reg.ofAddr_tb (i : Fin 32) (r : TbReg) : Reg.ofAddr (Reg.tb i r).addr = some (.tb i r) := by
  have hr := r.off_range
  have ha : (Reg.tb i r).addr = 0x40102000 + 0x40 * i.val + (r.off - 0x2000) := by
    simp only [Reg.addr]; omega
  generalize (Reg.tb i r).addr = a at ha ⊢
  have own := array_find TbReg.ofOff_off Reg.tb i r (by omega) ha
  have hb : 0x40102000 ≤ a ∧ a < 0x40102800 := by omega
  clear ha hr
  simp (disch := omega) only [Reg.ofAddr, sysAt_none, instOf_none, Option.bind_none, own]
  rfl

theorem Reg.ofAddr_tbg (r : TbgReg) : Reg.ofAddr (Reg.tbg r).addr = some (.tbg r) := by
  have hr := r.off_range
  have ha : (Reg.tbg r).addr = 0x40100000 + r.off := rfl
  generalize (Reg.tbg r).addr = a at ha ⊢
  have own := one_find TbgReg.ofOff_off Reg.tbg r ha
  have hb : 0x40103000 ≤ a ∧ a < 0x40103100 := by omega
  clear ha hr
  simp (disch := omega) only [Reg.ofAddr, sysAt_none, instOf_none, Option.bind_none, own]
  rfl

theorem Reg.ofAddr_adc (i : Fin 32) (r : AdcReg) : Reg.ofAddr (Reg.adc i r).addr = some (.adc i r) := by
  have hr := r.off_range
  have ha : (Reg.adc i r).addr = 0x40200000 + 0x100 * i.val + (r.off - 0x0) := by
    simp only [Reg.addr]; omega
  generalize (Reg.adc i r).addr = a at ha ⊢
  have own := array_find AdcReg.ofOff_off Reg.adc i r (by omega) ha
  have hb : 0x40200000 ≤ a ∧ a < 0x40202000 := by omega
  clear ha hr
  simp (disch := omega) only [Reg.ofAddr, sysAt_none, tbgAt_none, instOf_none, Option.bind_none, own]
  rfl

theorem Reg.ofAddr_adcg (r : AdcgReg) : Reg.ofAddr (Reg.adcg r).addr = some (.adcg r) := by
  have hr := r.off_range
  have ha : (Reg.adcg r).addr = 0x40200000 + r.off := rfl
  generalize (Reg.adcg r).addr = a at ha ⊢
  have own := one_find AdcgReg.ofOff_off Reg.adcg r ha
  have hb : 0x40202000 ≤ a ∧ a < 0x40202100 := by omega
  clear ha hr
  simp (disch := omega) only [Reg.ofAddr, sysAt_none, tbgAt_none, instOf_none, Option.bind_none, own]
  rfl

theorem Reg.ofAddr_le (i : Fin 64) (r : LeReg) : Reg.ofAddr (Reg.le i r).addr = some (.le i r) := by
  have hr := r.off_range
  have ha : (Reg.le i r).addr = 0x40400000 + 0x80 * i.val + (r.off - 0x0) := by
    simp only [Reg.addr]; omega
  generalize (Reg.le i r).addr = a at ha ⊢
  have own := array_find LeReg.ofOff_off Reg.le i r (by omega) ha
  have hb : 0x40400000 ≤ a ∧ a < 0x40402000 := by omega
  clear ha hr
  simp (disch := omega) only [Reg.ofAddr, sysAt_none, tbgAt_none, adcgAt_none, instOf_none, Option.bind_none, own]
  rfl

theorem Reg.ofAddr_lepr (i : Fin 32) (r : LeprReg) : Reg.ofAddr (Reg.lepr i r).addr = some (.lepr i r) := by
  have hr := r.off_range
  have ha : (Reg.lepr i r).addr = 0x40402000 + 0x10 * i.val + (r.off - 0x2000) := by
    simp only [Reg.addr]; omega
  generalize (Reg.lepr i r).addr = a at ha ⊢
  have own := array_find LeprReg.ofOff_off Reg.lepr i r (by omega) ha
  have hb : 0x40402000 ≤ a ∧ a < 0x40402200 := by omega
  clear ha hr
  simp (disch := omega) only [Reg.ofAddr, sysAt_none, tbgAt_none, adcgAt_none, instOf_none, Option.bind_none, own]
  rfl

theorem Reg.ofAddr_lesh (r : LeshReg) : Reg.ofAddr (Reg.lesh r).addr = some (.lesh r) := by
  have hr := r.off_range
  have ha : (Reg.lesh r).addr = 0x40400000 + r.off := rfl
  generalize (Reg.lesh r).addr = a at ha ⊢
  have own := one_find LeshReg.ofOff_off Reg.lesh r ha
  have hb : 0x40402200 ≤ a ∧ a < 0x40402300 := by omega
  clear ha hr
  simp (disch := omega) only [Reg.ofAddr, sysAt_none, tbgAt_none, adcgAt_none, instOf_none, Option.bind_none, own]
  rfl

theorem Reg.ofAddr_cmp (i : Fin 64) (r : CmpReg) : Reg.ofAddr (Reg.cmp i r).addr = some (.cmp i r) := by
  have hr := r.off_range
  have ha : (Reg.cmp i r).addr = 0x40300000 + 0x40 * i.val + (r.off - 0x0) := by
    simp only [Reg.addr]; omega
  generalize (Reg.cmp i r).addr = a at ha ⊢
  have own := array_find CmpReg.ofOff_off Reg.cmp i r (by omega) ha
  have hb : 0x40300000 ≤ a ∧ a < 0x40301000 := by omega
  clear ha hr
  simp (disch := omega) only [Reg.ofAddr, sysAt_none, tbgAt_none, adcgAt_none, leshAt_none, instOf_none, Option.bind_none, own]
  rfl

theorem Reg.ofAddr_cmpg (r : CmpgReg) : Reg.ofAddr (Reg.cmpg r).addr = some (.cmpg r) := by
  have hr := r.off_range
  have ha : (Reg.cmpg r).addr = 0x40300000 + r.off := rfl
  generalize (Reg.cmpg r).addr = a at ha ⊢
  have own := one_find CmpgReg.ofOff_off Reg.cmpg r ha
  have hb : 0x40301000 ≤ a ∧ a < 0x40301100 := by omega
  clear ha hr
  simp (disch := omega) only [Reg.ofAddr, sysAt_none, tbgAt_none, adcgAt_none, leshAt_none, instOf_none, Option.bind_none, own]
  rfl

theorem Reg.ofAddr_pos (i : Fin 8) (r : PosReg) : Reg.ofAddr (Reg.pos i r).addr = some (.pos i r) := by
  have hr := r.off_range
  have ha : (Reg.pos i r).addr = 0x40340000 + 0x100 * i.val + (r.off - 0x0) := by
    simp only [Reg.addr]; omega
  generalize (Reg.pos i r).addr = a at ha ⊢
  have own := array_find PosReg.ofOff_off Reg.pos i r (by omega) ha
  have hb : 0x40340000 ≤ a ∧ a < 0x40340800 := by omega
  clear ha hr
  simp (disch := omega) only [Reg.ofAddr, sysAt_none, tbgAt_none, adcgAt_none, leshAt_none, cmpgAt_none, instOf_none,
    Option.bind_none, own]
  rfl

theorem Reg.ofAddr_ch (i : Fin 256) (r : ChReg) : Reg.ofAddr (Reg.ch i r).addr = some (.ch i r) := by
  have hr := r.off_range
  by_cases he : r.off < 0x40
  · have ha : (Reg.ch i r).addr = 0x40040000 + 0x40 * i.val + (r.off - 0) := by
      cases r with
      | en k => rfl
      | _ => simp [ChReg.off] at he
    generalize (Reg.ch i r).addr = a at ha ⊢
    have own := array_find ChReg.ofOff_off Reg.ch i r (by omega) ha
    simp only [Nat.add_zero] at own
    have hb : 0x40040000 ≤ a ∧ a < 0x40044000 := by omega
    clear ha hr
    simp (disch := omega) only [Reg.ofAddr, sysAt_none, tbgAt_none, adcgAt_none, leshAt_none, cmpgAt_none, instOf_none,
      Option.bind_none, own]
    rfl
  · have ha : (Reg.ch i r).addr = 0x40044000 + 0x10 * i.val + (r.off - 0x4000) := by
      cases r <;> simp only [Reg.addr, ChReg.off] at he ⊢ <;> omega
    generalize (Reg.ch i r).addr = a at ha ⊢
    have own := array_find ChReg.ofOff_off Reg.ch i r (by omega) ha
    have hb : 0x40044000 ≤ a ∧ a < 0x40045000 := by omega
    clear ha hr
    simp (disch := omega) only [Reg.ofAddr, sysAt_none, tbgAt_none, adcgAt_none, leshAt_none, cmpgAt_none, instOf_none,
      Option.bind_none, own]
    rfl

theorem Reg.ofAddr_ev (r : EvReg) : Reg.ofAddr (Reg.ev r).addr = some (.ev r) := by
  have hr := r.off_range
  have ha : (Reg.ev r).addr = 0x40040000 + r.off := rfl
  generalize (Reg.ev r).addr = a at ha ⊢
  have own := one_find EvReg.ofOff_off Reg.ev r ha
  have hb : 0x40045000 ≤ a ∧ a < 0x40046000 := by omega
  clear ha hr
  simp (disch := omega) only [Reg.ofAddr, sysAt_none, tbgAt_none, adcgAt_none, leshAt_none, cmpgAt_none, instOf_none,
    Option.bind_none, own]
  rfl

theorem Reg.ofAddr_ic (r : IcReg) : Reg.ofAddr (Reg.ic r).addr = some (.ic r) := by
  have hr := r.off_range
  have ha : (Reg.ic r).addr = 0x40060000 + r.off := rfl
  generalize (Reg.ic r).addr = a at ha ⊢
  have own := one_find IcReg.ofOff_off Reg.ic r ha
  have hb : 0x40060000 ≤ a ∧ a < 0x40062000 := by omega
  clear ha hr
  simp (disch := omega) only [Reg.ofAddr, sysAt_none, tbgAt_none, adcgAt_none, leshAt_none, cmpgAt_none, evAt_none,
    instOf_none, Option.bind_none, own]
  rfl

theorem Reg.ofAddr_icc (i : Fin 5) (r : IccReg) : Reg.ofAddr (Reg.icc i r).addr = some (.icc i r) := by
  have hr := r.off_range
  have ha : (Reg.icc i r).addr = 0x40061000 + 0x40 * i.val + (r.off - 0x1000) := by
    simp only [Reg.addr]; omega
  generalize (Reg.icc i r).addr = a at ha ⊢
  have own := array_find IccReg.ofOff_off Reg.icc i r (by omega) ha
  have hb : 0x40061000 ≤ a ∧ a < 0x40061140 := by omega
  clear ha hr
  simp (disch := omega) only [Reg.ofAddr, sysAt_none, tbgAt_none, adcgAt_none, leshAt_none, cmpgAt_none, evAt_none,
    icAt_none, instOf_none, Option.bind_none, own]
  rfl

theorem Reg.ofAddr_fc (r : FcReg) : Reg.ofAddr (Reg.fc r).addr = some (.fc r) := by
  have hr := r.off_range
  have ha : (Reg.fc r).addr = 0x40010000 + r.off := rfl
  generalize (Reg.fc r).addr = a at ha ⊢
  have own := one_find FcReg.ofOff_off Reg.fc r ha
  have hb : 0x40010000 ≤ a ∧ a < 0x40011000 := by omega
  clear ha hr
  simp (disch := omega) only [Reg.ofAddr, sysAt_none, tbgAt_none, adcgAt_none, leshAt_none, cmpgAt_none, evAt_none,
    icAt_none, instOf_none, Option.bind_none, own]
  rfl

theorem Reg.ofAddr_shl (i : Fin 96) (r : ShlReg) : Reg.ofAddr (Reg.shl i r).addr = some (.shl i r) := by
  have hr := r.off_range
  have ha : (Reg.shl i r).addr = 0x40020000 + 0x20 * i.val + (r.off - 0x0) := by
    simp only [Reg.addr]; omega
  generalize (Reg.shl i r).addr = a at ha ⊢
  have own := array_find ShlReg.ofOff_off Reg.shl i r (by omega) ha
  have hb : 0x40020000 ≤ a ∧ a < 0x40020c00 := by omega
  clear ha hr
  simp (disch := omega) only [Reg.ofAddr, sysAt_none, tbgAt_none, adcgAt_none, leshAt_none, cmpgAt_none, evAt_none,
    icAt_none, fcAt_none, instOf_none, Option.bind_none, own]
  rfl

theorem Reg.ofAddr_shtm (i : Fin 64) (r : ShtmReg) : Reg.ofAddr (Reg.shtm i r).addr = some (.shtm i r) := by
  have hr := r.off_range
  have ha : (Reg.shtm i r).addr = 0x40021000 + 0x10 * i.val + (r.off - 0x1000) := by
    simp only [Reg.addr]; omega
  generalize (Reg.shtm i r).addr = a at ha ⊢
  have own := array_find ShtmReg.ofOff_off Reg.shtm i r (by omega) ha
  have hb : 0x40021000 ≤ a ∧ a < 0x40021400 := by omega
  clear ha hr
  simp (disch := omega) only [Reg.ofAddr, sysAt_none, tbgAt_none, adcgAt_none, leshAt_none, cmpgAt_none, evAt_none,
    icAt_none, fcAt_none, instOf_none, Option.bind_none, own]
  rfl

theorem Reg.ofAddr_shg (r : ShgReg) : Reg.ofAddr (Reg.shg r).addr = some (.shg r) := by
  have hr := r.off_range
  have ha : (Reg.shg r).addr = 0x40020000 + r.off := rfl
  generalize (Reg.shg r).addr = a at ha ⊢
  have own := one_find ShgReg.ofOff_off Reg.shg r ha
  have hb : 0x40022000 ≤ a ∧ a < 0x40023000 := by omega
  clear ha hr
  simp (disch := omega) only [Reg.ofAddr, sysAt_none, tbgAt_none, adcgAt_none, leshAt_none, cmpgAt_none, evAt_none,
    icAt_none, fcAt_none, instOf_none, Option.bind_none, own]
  rfl

theorem Reg.ofAddr_wd (i : Fin 5) (r : WdReg) : Reg.ofAddr (Reg.wd i r).addr = some (.wd i r) := by
  have hr := r.off_range
  have ha : (Reg.wd i r).addr = 0x40900000 + 0x20 * i.val + (r.off - 0x0) := by
    simp only [Reg.addr]; omega
  generalize (Reg.wd i r).addr = a at ha ⊢
  have own := array_find WdReg.ofOff_off Reg.wd i r (by omega) ha
  have hb : 0x40900000 ≤ a ∧ a < 0x409000a0 := by omega
  clear ha hr
  simp (disch := omega) only [Reg.ofAddr, sysAt_none, tbgAt_none, adcgAt_none, leshAt_none, cmpgAt_none, evAt_none,
    icAt_none, fcAt_none, shgAt_none, instOf_none, Option.bind_none, own]
  rfl

theorem Reg.ofAddr_th (r : ThReg) : Reg.ofAddr (Reg.th r).addr = some (.th r) := by
  have hr := r.off_range
  have ha : (Reg.th r).addr = 0x40900000 + r.off := rfl
  generalize (Reg.th r).addr = a at ha ⊢
  have own := one_find ThReg.ofOff_off Reg.th r ha
  have hb : 0x40900100 ≤ a ∧ a < 0x40900200 := by omega
  clear ha hr
  simp (disch := omega) only [Reg.ofAddr, sysAt_none, tbgAt_none, adcgAt_none, leshAt_none, cmpgAt_none, evAt_none,
    icAt_none, fcAt_none, shgAt_none, instOf_none, Option.bind_none, own]
  rfl

theorem Reg.ofAddr_core (i : Fin 5) (r : CoreReg) : Reg.ofAddr (Reg.core i r).addr = some (.core i r) := by
  have hr := r.off_range
  have ha : (Reg.core i r).addr = 0x40000810 + 0x10 * i.val + (r.off - 0x810) := by
    simp only [Reg.addr]; omega
  generalize (Reg.core i r).addr = a at ha ⊢
  have own := array_find CoreReg.ofOff_off Reg.core i r (by omega) ha
  have hb : 0x40000810 ≤ a ∧ a < 0x40000860 := by omega
  clear ha hr
  simp (disch := omega) only [Reg.ofAddr, sysAt_none, tbgAt_none, adcgAt_none, leshAt_none, cmpgAt_none, evAt_none,
    icAt_none, fcAt_none, shgAt_none, thAt_none, instOf_none, Option.bind_none, own]
  rfl

theorem Reg.ofAddr_fl (r : FlReg) : Reg.ofAddr (Reg.fl r).addr = some (.fl r) := by
  have hr := r.off_range
  have ha : (Reg.fl r).addr = 0x40500000 + r.off := rfl
  generalize (Reg.fl r).addr = a at ha ⊢
  have own := one_find FlReg.ofOff_off Reg.fl r ha
  have hb : 0x40500000 ≤ a ∧ a < 0x40501000 := by omega
  clear ha hr
  simp (disch := omega) only [Reg.ofAddr, sysAt_none, tbgAt_none, adcgAt_none, leshAt_none, cmpgAt_none, evAt_none,
    icAt_none, fcAt_none, shgAt_none, thAt_none, instOf_none, Option.bind_none, own]
  rfl

theorem Reg.ofAddr_lnk (r : LnkReg) : Reg.ofAddr (Reg.lnk r).addr = some (.lnk r) := by
  have hr := r.off_range
  have ha : (Reg.lnk r).addr = 0x40600000 + r.off := rfl
  generalize (Reg.lnk r).addr = a at ha ⊢
  have own := one_find LnkReg.ofOff_off Reg.lnk r ha
  have hb : 0x40600000 ≤ a ∧ a < 0x40600100 := by omega
  clear ha hr
  simp (disch := omega) only [Reg.ofAddr, sysAt_none, tbgAt_none, adcgAt_none, leshAt_none, cmpgAt_none, evAt_none,
    icAt_none, fcAt_none, shgAt_none, thAt_none, flAt_none, instOf_none, Option.bind_none, own]
  rfl

theorem Reg.ofAddr_lnkp (i : Fin 2) (r : LnkpReg) : Reg.ofAddr (Reg.lnkp i r).addr = some (.lnkp i r) := by
  have hr := r.off_range
  have ha : (Reg.lnkp i r).addr = 0x40600100 + 0x40 * i.val + (r.off - 0x100) := by
    simp only [Reg.addr]; omega
  generalize (Reg.lnkp i r).addr = a at ha ⊢
  have own := array_find LnkpReg.ofOff_off Reg.lnkp i r (by omega) ha
  have hb : 0x40600100 ≤ a ∧ a < 0x40600180 := by omega
  clear ha hr
  simp (disch := omega) only [Reg.ofAddr, sysAt_none, tbgAt_none, adcgAt_none, leshAt_none, cmpgAt_none, evAt_none,
    icAt_none, fcAt_none, shgAt_none, thAt_none, flAt_none, lnkAt_none, instOf_none, Option.bind_none, own]
  rfl

theorem Reg.ofAddr_hif (r : HifReg) : Reg.ofAddr (Reg.hif r).addr = some (.hif r) := by
  have hr := r.off_range
  have ha : (Reg.hif r).addr = 0x40700000 + r.off := rfl
  generalize (Reg.hif r).addr = a at ha ⊢
  have own := one_find HifReg.ofOff_off Reg.hif r ha
  have hb : 0x40700000 ≤ a ∧ a < 0x40710000 := by omega
  clear ha hr
  simp (disch := omega) only [Reg.ofAddr, sysAt_none, tbgAt_none, adcgAt_none, leshAt_none, cmpgAt_none, evAt_none,
    icAt_none, fcAt_none, shgAt_none, thAt_none, flAt_none, lnkAt_none, instOf_none, Option.bind_none, own]
  rfl

theorem Reg.ofAddr_capr (i : Fin 16) (r : CaprReg) : Reg.ofAddr (Reg.capr i r).addr = some (.capr i r) := by
  have hr := r.off_range
  have ha : (Reg.capr i r).addr = 0x40780000 + 0x100 * i.val + (r.off - 0x0) := by
    simp only [Reg.addr]; omega
  generalize (Reg.capr i r).addr = a at ha ⊢
  have own := array_find CaprReg.ofOff_off Reg.capr i r (by omega) ha
  have hb : 0x40780000 ≤ a ∧ a < 0x40781000 := by omega
  clear ha hr
  simp (disch := omega) only [Reg.ofAddr, sysAt_none, tbgAt_none, adcgAt_none, leshAt_none, cmpgAt_none, evAt_none,
    icAt_none, fcAt_none, shgAt_none, thAt_none, flAt_none, lnkAt_none, hifAt_none, instOf_none, Option.bind_none, own]
  rfl

theorem Reg.ofAddr_sec (r : SecReg) : Reg.ofAddr (Reg.sec r).addr = some (.sec r) := by
  have hr := r.off_range
  have ha : (Reg.sec r).addr = 0x40800000 + r.off := rfl
  generalize (Reg.sec r).addr = a at ha ⊢
  have own := one_find SecReg.ofOff_off Reg.sec r ha
  have hb : 0x40800000 ≤ a ∧ a < 0x40801000 := by omega
  clear ha hr
  simp (disch := omega) only [Reg.ofAddr, sysAt_none, tbgAt_none, adcgAt_none, leshAt_none, cmpgAt_none, evAt_none,
    icAt_none, fcAt_none, shgAt_none, thAt_none, flAt_none, lnkAt_none, hifAt_none, instOf_none, Option.bind_none, own]
  rfl

/-- A register is found at its address. -/
theorem Reg.ofAddr_addr (r : Reg) : Reg.ofAddr r.addr = some r := by
  cases r with
  | sys r => exact ofAddr_sys r
  | leg i r => exact ofAddr_leg i r
  | tb i r => exact ofAddr_tb i r
  | tbg r => exact ofAddr_tbg r
  | adc i r => exact ofAddr_adc i r
  | adcg r => exact ofAddr_adcg r
  | le i r => exact ofAddr_le i r
  | lepr i r => exact ofAddr_lepr i r
  | lesh r => exact ofAddr_lesh r
  | cmp i r => exact ofAddr_cmp i r
  | cmpg r => exact ofAddr_cmpg r
  | pos i r => exact ofAddr_pos i r
  | ch i r => exact ofAddr_ch i r
  | ev r => exact ofAddr_ev r
  | ic r => exact ofAddr_ic r
  | icc i r => exact ofAddr_icc i r
  | fc r => exact ofAddr_fc r
  | shl i r => exact ofAddr_shl i r
  | shtm i r => exact ofAddr_shtm i r
  | shg r => exact ofAddr_shg r
  | wd i r => exact ofAddr_wd i r
  | th r => exact ofAddr_th r
  | core i r => exact ofAddr_core i r
  | fl r => exact ofAddr_fl r
  | lnk r => exact ofAddr_lnk r
  | lnkp i r => exact ofAddr_lnkp i r
  | hif r => exact ofAddr_hif r
  | capr i r => exact ofAddr_capr i r
  | sec r => exact ofAddr_sec r

theorem Reg.addr_inj {q r : Reg} (h : q.addr = r.addr) : q = r :=
  Option.some.inj (by rw [← Reg.ofAddr_addr q, h, Reg.ofAddr_addr])

/-- Every register lies on a 4-byte boundary of the device region. -/
theorem Reg.addr_range (r : Reg) : 0x40000000 ≤ r.addr ∧ r.addr ≤ 0x4FFFFFFF ∧ r.addr % 4 = 0 := by
  cases r with
  | ch i r => cases r <;> simp only [Reg.addr, ChReg.off] <;> omega
  | sys r => have := r.off_range; simp only [Reg.addr]; omega
  | leg i r => have := r.off_range; simp only [Reg.addr]; omega
  | tb i r => have := r.off_range; simp only [Reg.addr]; omega
  | tbg r => have := r.off_range; simp only [Reg.addr]; omega
  | adc i r => have := r.off_range; simp only [Reg.addr]; omega
  | adcg r => have := r.off_range; simp only [Reg.addr]; omega
  | le i r => have := r.off_range; simp only [Reg.addr]; omega
  | lepr i r => have := r.off_range; simp only [Reg.addr]; omega
  | lesh r => have := r.off_range; simp only [Reg.addr]; omega
  | cmp i r => have := r.off_range; simp only [Reg.addr]; omega
  | cmpg r => have := r.off_range; simp only [Reg.addr]; omega
  | pos i r => have := r.off_range; simp only [Reg.addr]; omega
  | ev r => have := r.off_range; simp only [Reg.addr]; omega
  | ic r => have := r.off_range; simp only [Reg.addr]; omega
  | icc i r => have := r.off_range; simp only [Reg.addr]; omega
  | fc r => have := r.off_range; simp only [Reg.addr]; omega
  | shl i r => have := r.off_range; simp only [Reg.addr]; omega
  | shtm i r => have := r.off_range; simp only [Reg.addr]; omega
  | shg r => have := r.off_range; simp only [Reg.addr]; omega
  | wd i r => have := r.off_range; simp only [Reg.addr]; omega
  | th r => have := r.off_range; simp only [Reg.addr]; omega
  | core i r => have := r.off_range; simp only [Reg.addr]; omega
  | fl r => have := r.off_range; simp only [Reg.addr]; omega
  | lnk r => have := r.off_range; simp only [Reg.addr]; omega
  | lnkp i r => have := r.off_range; simp only [Reg.addr]; omega
  | hif r => have := r.off_range; simp only [Reg.addr]; omega
  | capr i r => have := r.off_range; simp only [Reg.addr]; omega
  | sec r => have := r.off_range; simp only [Reg.addr]; omega

end Sys2Proof.Machine

namespace Sys2Proof.Proofs
open Sys2Proof Sys2Proof.Machine
set_option Elab.async false

/-- Settles O52. -/
theorem stepTakesFront : Obligations.StepTakesFront := by
  unfold Obligations.StepTakesFront
  refine ⟨fun i s => ⟨rfl, fun hq hu hc hp hl hn hw hr => ?_⟩, fun i s => ?_⟩
  · have ht : tickWork s.toDev = s.toDev.tick := tickWork_idle hp hl hn hw hr
    have hf : overdue (s.toDev.at (tickWork s.toDev).now) = false := by rw [ht]; exact hc
    rw [step, hq]
    simp only [idle, after, hu.1, catchUp_eq hu.2, timely_eq hf, ht, Option.isSome_none, Bool.false_eq_true, if_false]
    rfl
  · obtain ⟨d, hd⟩ := exec_settles i s
    exact ⟨_, hd, rfl⟩

/-- Settles O59. -/
theorem plainWrite : Obligations.PlainWrite := by
  unfold Obligations.PlainWrite
  intro r d v k hk
  have hap := Reg.access_apart r
  simp only [Access.apart, Bool.and_eq_true, beq_iff_eq] at hap
  obtain ⟨⟨⟨hwc, hws⟩, hcs⟩, htk⟩ := hap
  have hnew : (d.wr r v).get r = Machine.plainWrite r.access (d.get r) v := Dev.get_put_same d r _
  simp only [hnew, getLsbD_plainWrite _ _ _ hk]
  refine ⟨fun h => ?_, fun h => ?_, fun h => ?_, fun h => ?_, fun h => ?_, fun q hq => Dev.get_put_ne d hq _⟩
  · have hc := getLsbD_of_apart hwc h
    have hs := getLsbD_of_apart hws h
    simp [h, hc, hs]
  · have hw := getLsbD_of_apart (BitVec.and_comm _ _ ▸ hwc) h
    have hs := getLsbD_of_apart hcs h
    simp [h, hw, hs]
  · have hw := getLsbD_of_apart (BitVec.and_comm _ _ ▸ hws) h
    have hc := getLsbD_of_apart (BitVec.and_comm _ _ ▸ hcs) h
    simp [h, hw, hc]
  · simp only [BitVec.getLsbD_or, Bool.or_eq_false_iff] at h
    simp [h]
  · have hn := getLsbD_of_apart htk h
    simp only [BitVec.getLsbD_or, Bool.or_eq_false_iff] at hn
    simp [hn]

/-- Settles O58. -/
theorem registerMap : Obligations.RegisterMap := by
  unfold Obligations.RegisterMap
  intro r d
  obtain ⟨hlo, hhi, hal⟩ := Reg.addr_range r
  exact ⟨_, rfl, hlo, hhi, hal, Reg.ofAddr_addr r, fun q => Reg.addr_inj⟩

end Sys2Proof.Proofs
end


section
/-!
SUPPORT. What leaves the legs alone: for each action on the device that touches no leg, one equation, in the order of the model.
-/
set_option Elab.async false
namespace Sys2Proof.Machine
open Sys2Proof

@[simp] theorem Dev.ite_leg (c : Prop) [Decidable c] (d e : Dev) : (if c then d else e).leg = if c then d.leg else e.leg := by
  split <;> rfl

@[simp] theorem ite_snd_leg {α : Type} (c : Prop) [Decidable c] (p q : α × Dev) :
    (if c then p else q).2.leg = if c then p.2.leg else q.2.leg := by split <;> rfl

/-- What is done for each of a list leaves the legs as they are where it does so for one. -/
@[simp] theorem Dev.each_leg {α : Type} {l : List α} {f : α → Dev → Dev} {d : Dev} (h : ∀ a ∈ l, ∀ d, (f a d).leg = d.leg) :
    (d.each l f).leg = d.leg := by
  induction l generalizing d with
  | nil => rfl
  | cons a l ih => exact (ih fun b hb => h b (by simp [hb])).trans (h a (by simp) d)

@[simp] theorem Dev.foldl_leg {α : Type} {l : List α} {f : Dev → α → Dev} {d : Dev} (h : ∀ a ∈ l, ∀ d, (f d a).leg = d.leg) :
    (l.foldl f d).leg = d.leg := Dev.each_leg (f := fun a d => f d a) h

/-- A fold that carries a value beside the device leaves the legs as they are where each of its steps does. -/
@[simp] theorem foldl_snd_leg {α β : Type} {l : List β} {f : α × Dev → β → α × Dev} {p : α × Dev}
    (h : ∀ b ∈ l, ∀ q, (f q b).2.leg = q.2.leg) : (l.foldl f p).2.leg = p.2.leg := by
  induction l generalizing p with
  | nil => rfl
  | cons b l ih => exact (ih fun c hc => h c (by simp [hc])).trans (h b (by simp) p)

/-! ## Ops -/

@[simp] theorem Dev.asOf_leg (d : Dev) (t : Nat) (g : Dev → Dev) (hg : ∀ e, (g e).leg = e.leg) :
    (Dev.asOf d t g).leg = d.leg := by
  unfold Dev.asOf
  simp_all

@[simp] theorem Dev.replyLeft_leg (d : Dev) (i : Iface) (b : List Byte) (t : Nat) : (Dev.replyLeft d i b t).leg = d.leg := by
  unfold Dev.replyLeft
  split <;> simp

/-! ## Capture -/

@[simp] theorem Dev.msix_leg (d : Dev) (vec : Nat) : (Dev.msix d vec).leg = d.leg := by simp [Dev.msix]

@[simp] theorem capWm_leg (r : Fin 16) (d : Dev) : (capWm r d).leg = d.leg := by simp [capWm]

@[simp] theorem capHostErr_leg (r : Fin 16) (d : Dev) : (capHostErr r d).leg = d.leg := rfl

@[simp] theorem capWriteBack_leg (r : Fin 16) (d : Dev) : (capWriteBack r d).leg = d.leg := by simp [capWriteBack]

@[simp] theorem capUnreported_leg (r : Fin 16) (before : Bool) (n ts : Nat) (d : Dev) :
    (capUnreported r before n ts d).leg = d.leg := by
  simp [capUnreported]

@[simp] theorem capDrop_leg (r : Fin 16) (before : Bool) (x : CapLine) (d : Dev) : (capDrop r before x d).leg = d.leg := by
  simp [capDrop]

@[simp] theorem capWords_leg (r : Fin 16) (ws : List Word) (d : Dev) : (capWords r ws d).2.leg = d.leg := by simp [capWords]

@[simp] theorem capIssue_leg (r : Fin 16) (x : CapLine) (d0 : Dev) : (capIssue r x d0).leg = d0.leg := by
  unfold capIssue
  dsimp only
  split <;> simp

@[simp] theorem capNoRoom_leg (r : Fin 16) (d : Dev) : (capNoRoom r d).2.leg = d.leg := by simp [capNoRoom]

@[simp] theorem capCloseOne_leg (r : Fin 16) (d1 : Dev) : (capCloseOne r d1).leg = d1.leg := by simp [capCloseOne]

@[simp] theorem capClose_leg (r : Fin 16) (d : Dev) : (capClose r d).leg = d.leg := by simp [capClose]

@[simp] theorem capOpen_leg (r : Fin 16) (at_ : Nat) (d : Dev) : (capOpen r at_ d).leg = d.leg := by simp [capOpen]

@[simp] theorem capPut_leg (r : Fin 16) (x : CapRec) (ws : List Word) (d : Dev) : (capPut r x ws d).leg = d.leg := by
  simp [capPut]

@[simp] theorem capPlace_leg (r : Fin 16) (x : CapRec) (ws : List Word) (d : Dev) : (capPlace r x ws d).leg = d.leg := by
  simp [capPlace]

@[simp] theorem capPlacePart_leg (r : Fin 16) (x : CapRec) (ws : List Word) (d : Dev) : (capPlacePart r x ws d).leg = d.leg := by
  simp [capPlacePart]

@[simp] theorem capParts_leg (r : Fin 16) (at_ ts num k : Nat) (l : List Word) (d : Dev) :
    (capParts r at_ ts num k l d).leg = d.leg := by
  induction k generalizing l d with
  | zero => rfl
  | succ k ih => cases l with
    | nil => rfl
    | cons w ws => simp [capParts, ih]

@[simp] theorem capPlaceSnap_leg (r : Fin 16) (stamp : Nat) (l : List Word) (d : Dev) :
    (capPlaceSnap r stamp l d).leg = d.leg := by
  simp [capPlaceSnap]

@[simp] theorem capPlaceAdc_leg (r : Fin 16) (x : CapRec) (n : Fin 32) (entry : Nat) (sat tv : Bool) (data : Nat) (d : Dev) :
    (capPlaceAdc r x n entry sat tv data d).leg = d.leg := by
  simp [capPlaceAdc]

@[simp] theorem capAgain_leg (r : Fin 16) (x : CapRec) (d : Dev) : (capAgain r x d).leg = d.leg := by
  unfold capAgain
  split <;> simp

@[simp] theorem capRepack_leg (r : Fin 16) (d : Dev) : (capRepack r d).leg = d.leg := by simp -implicitDefEqProofs [capRepack]

@[simp] theorem capDropAll_leg (r : Fin 16) (l : List CapLine) (d : Dev) : (capDropAll r l d).leg = d.leg := by
  unfold capDropAll
  induction l with
  | nil => rfl
  | cons x l ih => simp [ih]

@[simp] theorem capIssueAll_leg (r : Fin 16) (k : Nat) (d : Dev) : (capIssueAll r k d).leg = d.leg := by
  induction k generalizing d with
  | zero => rfl
  | succ k ih =>
    unfold capIssueAll
    repeat' split
    all_goals simp [ih]

@[simp] theorem capPump_leg (r : Fin 16) (d : Dev) : (capPump r d).leg = d.leg := by simp [capPump]

@[simp] theorem capLinkLost_leg (r : Fin 16) (d : Dev) : (capLinkLost r d).leg = d.leg := by simp [capLinkLost]

@[simp] theorem capTakeIn_leg (r : Fin 16) (ts : Nat) (ws : List Word) (d : Dev) : (capTakeIn r ts ws d).leg = d.leg := by
  simp [capTakeIn]

@[simp] theorem capAdc_leg (n : Fin 32) (entry : Nat) (sat tv : Bool) (data ts : Nat) (d : Dev) :
    (capAdc n entry sat tv data ts d).leg = d.leg := by
  simp [capAdc]

@[simp] theorem capCmp_leg (n : Fin 64) (sat tv : Bool) (val ts : Nat) (d : Dev) : (capCmp n sat tv val ts d).leg = d.leg := by
  simp [capCmp]

@[simp] theorem capPos_leg (n : Fin 8) (tv : Bool) (u : PosUpd) (d : Dev) : (capPos n tv u d).leg = d.leg := by simp [capPos]

@[simp] theorem capLe_leg (n : Fin 64) (tv : Bool) (scnt u : Word) (ts : Nat) (d : Dev) :
    (capLe n tv scnt u ts d).leg = d.leg := by
  simp [capLe]

@[simp] theorem capRunRec_leg (r : Fin 16) (on : Bool) (d : Dev) : (capRunRec r on d).leg = d.leg := by simp [capRunRec]

@[simp] theorem capStart_leg (r : Fin 16) (d : Dev) : (capStart r d).leg = d.leg := by simp [capStart]

@[simp] theorem capStop_leg (r : Fin 16) (d : Dev) : (capStop r d).leg = d.leg := by simp [capStop]

@[simp] theorem capTick_leg (d : Dev) : (capTick d).leg = d.leg := by simp [capTick]

/-! ## LoopIn -/

@[simp] theorem leOffer_leg (hit : Word → Bool) (x : Word → Word) (n : Fin 64) (d : Dev) : (leOffer hit x n d).leg = d.leg := by
  simp [leOffer]

@[simp] theorem leOfferAll_leg (hit : Word → Bool) (x : Word → Word) (d : Dev) : (leOfferAll hit x d).leg = d.leg := by
  simp [leOfferAll]

@[simp] theorem leFromAdc_leg (n : Fin 32) (entry : Nat) (diff : Bool) (data : Nat) (d : Dev) :
    (leFromAdc n entry diff data d).leg = d.leg := by
  simp [leFromAdc]

@[simp] theorem leFromCmp_leg (n : Fin 64) (val : Nat) (d : Dev) : (leFromCmp n val d).leg = d.leg := by simp [leFromCmp]

@[simp] theorem leFromPos_leg (n : Fin 8) (pos cpr : Nat) (spd : Word) (d : Dev) : (leFromPos n pos cpr spd d).leg = d.leg := by
  simp [leFromPos]

@[simp] theorem leFromLe_leg (n : Fin 64) (u : Word) (d : Dev) : (leFromLe n u d).leg = d.leg := by simp [leFromLe]

@[simp] theorem lePosChanged_leg (c : Nat) (d : Dev) : (lePosChanged c d).leg = d.leg := by
  simp -implicitDefEqProofs [lePosChanged]

/-! ## Comparator -/

@[simp] theorem cmpWout_leg (quiet : Bool) (n : Fin 64) (d : Dev) : (cmpWout quiet n d).leg = d.leg := by simp [cmpWout]

@[simp] theorem tripTrack_leg (m : Fin 64) (d : Dev) : (tripTrack m d).leg = d.leg := by simp [tripTrack]

@[simp] theorem cmpCapture_leg (n : Fin 64) (t ts : Nat) (tv : Bool) (d : Dev) : (cmpCapture n t ts tv d).leg = d.leg := by
  simp [cmpCapture]

@[simp] theorem cmpCapMode_leg (n : Fin 64) (v : Bool) (stampAt ts : Nat) (tv : Bool) (d : Dev) :
    (cmpCapMode n v stampAt ts tv d).leg = d.leg := by
  unfold cmpCapMode
  dsimp only
  repeat' split
  all_goals simp -implicitDefEqProofs

@[simp] theorem cmpQset_leg (n : Fin 64) (v : Bool) (stampAt ts : Nat) (tv : Bool) (d : Dev) :
    (cmpQset n v stampAt ts tv d).leg = d.leg := by
  simp [cmpQset]

@[simp] theorem cmpShow_leg (n : Fin 64) (d : Dev) : (cmpShow n d).leg = d.leg := by simp [cmpShow]

@[simp] theorem cmpPath_leg (n : Fin 64) (d : Dev) : (cmpPath n d).leg = d.leg := by simp [cmpPath]

@[simp] theorem cmpPathAll_leg (b : Fin 32) (d : Dev) : (cmpPathAll b d).leg = d.leg := by simp [cmpPathAll]

@[simp] theorem cmpXchange_leg (n : Fin 64) (x un : Bool) (d : Dev) : (cmpXchange n x un d).leg = d.leg := by simp [cmpXchange]

@[simp] theorem cmpRaw_leg (n : Fin 64) (v : Bool) (d : Dev) : (cmpRaw n v d).leg = d.leg := by simp [cmpRaw]

@[simp] theorem cmpInput_leg (n : Fin 64) (vp vn : Int) (d : Dev) : (cmpInput n vp vn d).leg = d.leg := by simp [cmpInput]

@[simp] theorem cmpLegEdgeOne_leg (n : Fin 96) (bit t : Nat) (m : Fin 64) (d : Dev) :
    (cmpLegEdgeOne n bit t m d).leg = d.leg := by
  simp [cmpLegEdgeOne]

@[simp] theorem cmpLegEdge_leg (n : Fin 96) (sw : Sw) (on : Bool) (t : Nat) (d : Dev) : (cmpLegEdge n sw on t d).leg = d.leg := by
  simp [cmpLegEdge]

@[simp] theorem cmpWinClose_leg (n : Fin 64) (t : Nat) (d : Dev) : (cmpWinClose n t d).leg = d.leg := by simp [cmpWinClose]

@[simp] theorem cmpWriteCtl_leg (n : Fin 64) (v : Word) (d : Dev) : (cmpWriteCtl n v d).leg = d.leg := by simp [cmpWriteCtl]

@[simp] theorem cmpWriteBlank_leg (n : Fin 64) (v : Word) (d : Dev) : (cmpWriteBlank n v d).leg = d.leg := by
  unfold cmpWriteBlank
  split <;> simp

@[simp] theorem cmpWrite_leg (n : Fin 64) (r : CmpReg) (v : Word) (d : Dev) : (cmpWrite n r v d).leg = d.leg := by
  unfold cmpWrite
  split <;> simp

@[simp] theorem cmpReadCap_leg (n : Fin 64) (d : Dev) : (cmpReadCap n d).2.leg = d.leg := rfl

/-! ## Position -/

@[simp] theorem posPath_leg (n : Fin 8) (d : Dev) : (posPath n d).leg = d.leg := rfl

@[simp] theorem posPathAll_leg (b : Fin 32) (d : Dev) : (posPathAll b d).leg = d.leg := by simp -implicitDefEqProofs [posPathAll]

@[simp] theorem posUpdate_leg (n : Fin 8) (t stamp : Nat) (tv : Bool) (d : Dev) : (posUpdate n t stamp tv d).leg = d.leg := by
  simp [posUpdate]

@[simp] theorem posTrigger_leg (n : Fin 8) (tt : Nat) (d : Dev) : (posTrigger n tt d).leg = d.leg := by
  unfold posTrigger
  repeat' split
  all_goals simp

@[simp] theorem posIllegal_leg (n : Fin 8) (d : Dev) : (posIllegal n d).leg = d.leg := by simp [posIllegal]

@[simp] theorem posMove_leg (n : Fin 8) (up : Bool) (d : Dev) : (posMove n up d).leg = d.leg := by simp [posMove]

@[simp] theorem posStep_leg (n : Fin 8) (fwd : Bool) (t : Nat) (d : Dev) : (posStep n fwd t d).leg = d.leg := by
  unfold posStep
  dsimp only
  repeat' split
  all_goals simp -implicitDefEqProofs

@[simp] theorem posIndex_leg (n : Fin 8) (d : Dev) : (posIndex n d).leg = d.leg := by
  unfold posIndex
  split <;> simp

@[simp] theorem posSlo_leg (n : Fin 8) (hi : Bool) (tr : Nat) (d : Dev) : (posSlo n hi tr d).leg = d.leg := by
  unfold posSlo
  split <;> simp

@[simp] theorem posMoved_leg (n : Fin 8) (k t : Nat) (d : Dev) : (posMoved n k t d).leg = d.leg := by simp [posMoved]

@[simp] theorem posRushed_leg (n : Fin 8) (ill : Bool) (t : Nat) (d : Dev) : (posRushed n ill t d).leg = d.leg := by
  simp [posRushed]

@[simp] theorem posInput_leg (n : Fin 8) (a b z : Bool) (t : Nat) (d : Dev) : (posInput n a b z t d).leg = d.leg := by
  unfold posInput
  repeat' split
  all_goals simp

@[simp] theorem posFrameErr_leg (n : Fin 8) (fls : List Fld) (d : Dev) : (posFrameErr n fls d).leg = d.leg := by
  simp -implicitDefEqProofs [posFrameErr]

@[simp] theorem posFrameEnd_leg (n : Fin 8) (d : Dev) : (posFrameEnd n d).leg = d.leg := rfl

@[simp] theorem posAbort_leg (n : Fin 8) (d : Dev) : (posAbort n d).leg = d.leg := by
  unfold posAbort
  split <;> simp -implicitDefEqProofs

@[simp] theorem posFrameGood_leg (n : Fin 8) (raw start stamp : Nat) (tv : Bool) (d : Dev) :
    (posFrameGood n raw start stamp tv d).leg = d.leg := by
  simp [posFrameGood]

@[simp] theorem posFrameStart_leg (n : Fin 8) (t : Nat) (d : Dev) : (posFrameStart n t d).leg = d.leg := by
  unfold posFrameStart
  split <;> simp

@[simp] theorem posFrameLate_leg (n : Fin 8) (ts : Nat) (d : Dev) : (posFrameLate n ts d).leg = d.leg := by
  simp -implicitDefEqProofs [posFrameLate]

@[simp] theorem posFrameCheck_leg (n : Fin 8) (data : Nat) (cds nE nW : Bool) (crc : BitVec 6) (par : Bool) (d : Dev) :
    (posFrameCheck n data cds nE nW crc par d).leg = d.leg := by
  unfold posFrameCheck
  repeat' split
  all_goals simp

@[simp] theorem posSpeedTimeout_leg (n : Fin 8) (d : Dev) : (posSpeedTimeout n d).leg = d.leg := by simp [posSpeedTimeout]

@[simp] theorem posEnable_leg (n : Fin 8) (d : Dev) : (posEnable n d).leg = d.leg := rfl

@[simp] theorem posWriteCtl_leg (n : Fin 8) (v : Word) (d : Dev) : (posWriteCtl n v d).leg = d.leg := by
  simp -implicitDefEqProofs [posWriteCtl]

@[simp] theorem posWriteScfg_leg (n : Fin 8) (v : Word) (d : Dev) : (posWriteScfg n v d).leg = d.leg := by simp [posWriteScfg]

@[simp] theorem posWrite_leg (n : Fin 8) (r : PosReg) (v : Word) (d : Dev) : (posWrite n r v d).leg = d.leg := by
  unfold posWrite
  split <;> simp -implicitDefEqProofs

@[simp] theorem posReadUpos_leg (n : Fin 8) (d : Dev) : (posReadUpos n d).2.leg = d.leg := rfl

/-! ## Adc -/

@[simp] theorem adcRunSet_leg (n : Fin 32) (b : Bool) (d : Dev) : (adcRunSet n b d).leg = d.leg := rfl

@[simp] theorem adcGo_leg (n : Fin 32) (t0 : Nat) (d : Dev) : (adcGo n t0 d).leg = d.leg := rfl

@[simp] theorem adcStart_leg (n : Fin 32) (d : Dev) : (adcStart n d).leg = d.leg := by
  unfold adcStart
  repeat' split
  all_goals simp

@[simp] theorem adcEnable_leg (n : Fin 32) (d : Dev) : (adcEnable n d).leg = d.leg := by simp [adcEnable]

@[simp] theorem adcDisable_leg (n : Fin 32) (d : Dev) : (adcDisable n d).leg = d.leg := by
  unfold adcDisable
  split <;> simp

@[simp] theorem adcPass_leg (n : Fin 32) (h0 : Nat) (d : Dev) : (adcPass n h0 d).leg = d.leg := rfl

@[simp] theorem adcTrigger_leg (n : Fin 32) (tt : Nat) (d : Dev) : (adcTrigger n tt d).leg = d.leg := by simp [adcTrigger]

@[simp] theorem adcTbStop_leg (n : Fin 32) (d : Dev) : (adcTbStop n d).leg = d.leg := by simp [adcTbStop]

@[simp] theorem adcTbStopAll_leg (b : Fin 32) (d : Dev) : (adcTbStopAll b d).leg = d.leg := by simp [adcTbStopAll]

@[simp] theorem adcTake_leg (n : Fin 32) (j t : Nat) (raw : Int) (d : Dev) : (adcTake n j t raw d).leg = d.leg := by
  simp [adcTake]

@[simp] theorem adcHold_leg (n : Fin 32) (raw : Int) (d : Dev) : (adcHold n raw d).leg = d.leg := by
  unfold adcHold
  split <;> simp

@[simp] theorem adcLimit_leg (n : Fin 32) (seq : Word) (y : Int) (d : Dev) : (adcLimit n seq y d).leg = d.leg := by
  simp [adcLimit]

@[simp] theorem adcRunEnd_leg (n : Fin 32) (d : Dev) : (adcRunEnd n d).leg = d.leg := by
  unfold adcRunEnd
  split <;> simp

@[simp] theorem adcReady_leg (n : Fin 32) (d : Dev) : (adcReady n d).leg = d.leg := by
  unfold adcReady
  repeat' split
  all_goals simp

@[simp] theorem adcBusyEnd_leg (n : Fin 32) (d : Dev) : (adcBusyEnd n d).leg = d.leg := by
  unfold adcBusyEnd
  repeat' split
  all_goals simp

@[simp] theorem adcCalDone_leg (n : Fin 32) (pass : Bool) (gain offset : Nat) (d : Dev) :
    (adcCalDone n pass gain offset d).leg = d.leg := by
  simp [adcCalDone]

@[simp] theorem adcCalEnd_leg (n : Fin 32) (gain : Nat) (offset : Int) (d : Dev) : (adcCalEnd n gain offset d).leg = d.leg := by
  unfold adcCalEnd
  split <;> simp

@[simp] theorem adcCalOne_leg (n : Fin 32) (d : Dev) : (adcCalOne n d).leg = d.leg := by simp [adcCalOne]

@[simp] theorem adcCalibrate_leg (mask : Nat) (d : Dev) : (adcCalibrate mask d).leg = d.leg := by simp [adcCalibrate]

@[simp] theorem adcPllLoss_leg (d : Dev) : (adcPllLoss d).leg = d.leg := by simp [adcPllLoss]

@[simp] theorem adcWriteCtl_leg (n : Fin 32) (v : Word) (d : Dev) : (adcWriteCtl n v d).leg = d.leg := by simp [adcWriteCtl]

@[simp] theorem adcGstartOne_leg (n : Fin 32) (d : Dev) : (adcGstartOne n d).leg = d.leg := by simp [adcGstartOne]

@[simp] theorem adcGstopOne_leg (n : Fin 32) (d : Dev) : (adcGstopOne n d).leg = d.leg := by simp [adcGstopOne]

@[simp] theorem adcTaskStart_leg (ch : Nat) (d : Dev) : (adcTaskStart ch d).leg = d.leg := by simp [adcTaskStart]

@[simp] theorem adcPllLock_leg (d : Dev) : (adcPllLock d).leg = d.leg := by simp [adcPllLock]

@[simp] theorem adcTaskTrigger_leg (ch : Nat) (d : Dev) : (adcTaskTrigger ch d).leg = d.leg := by simp [adcTaskTrigger]

@[simp] theorem adcOpen_leg (n : Fin 32) (p : AdcConv → Bool) (d : Dev) : (adcOpen n p d).leg = d.leg := rfl

@[simp] theorem adcWriteSeq_leg (n : Fin 32) (k : Fin 16) (v : Word) (d : Dev) : (adcWriteSeq n k v d).leg = d.leg := rfl

@[simp] theorem adcWriteIcfg_leg (v : Word) (d : Dev) : (adcWriteIcfg v d).leg = d.leg := by
  simp -implicitDefEqProofs [adcWriteIcfg]

@[simp] theorem adcWrite_leg (n : Fin 32) (r : AdcReg) (v : Word) (d : Dev) : (adcWrite n r v d).leg = d.leg := by
  unfold adcWrite
  split <;> simp

@[simp] theorem adcgWrite_leg (r : AdcgReg) (v : Word) (d : Dev) : (adcgWrite r v d).leg = d.leg := by
  unfold adcgWrite
  split <;> simp -implicitDefEqProofs

@[simp] theorem adcReadLast_leg (n : Fin 32) (d : Dev) : (adcReadLast n d).2.leg = d.leg := rfl

@[simp] theorem adcReadRes_leg (n : Fin 32) (k : Fin 16) (d : Dev) : (adcReadRes n k d).2.leg = d.leg := rfl

/-! ## Memory -/

@[simp] theorem memPut_leg (a : Nat) (v : Ecc) (d : Dev) : (memPut a v d).leg = d.leg := by simp [memPut]

@[simp] theorem memUe_leg (q : MemReq) (a cause : Nat) (p : Bool) (s : Nat) (d : Dev) : (memUe q a cause p s d).leg = d.leg := by
  unfold memUe
  repeat' split
  all_goals simp

@[simp] theorem memCe_leg (q : MemReq) (a : Nat) (p : Bool) (s : Nat) (d : Dev) : (memCe q a p s d).leg = d.leg := rfl

@[simp] theorem memRead_leg (q : MemReq) (a : Nat) (d : Dev) : (memRead q a d).2.leg = d.leg := by
  unfold memRead
  dsimp only
  split <;> simp

@[simp] theorem memWrite_leg (a : Nat) (w : Word) (d : Dev) : (memWrite a w d).leg = d.leg := by simp [memWrite]

@[simp] theorem memMerge_leg (req a : Nat) (mask w : Word) (d : Dev) : (memMerge req a mask w d).leg = d.leg := by
  unfold memMerge
  dsimp only
  split <;> simp

@[simp] theorem memMergeOpen_leg (req a : Nat) (d : Dev) : (memMergeOpen req a d).leg = d.leg := by
  unfold memMergeOpen
  dsimp only
  split <;> simp

@[simp] theorem memPatrol_leg (d : Dev) : (memPatrol d).leg = d.leg := by simp [memPatrol]

@[simp] theorem memRemap_leg (b : Fin 8) (e : Fin 16) (v : Word) (d : Dev) : (memRemap b e v d).leg = d.leg := by simp [memRemap]

@[simp] theorem memCopyDone_leg (d : Dev) : (memCopyDone d).leg = d.leg := by
  unfold memCopyDone
  dsimp only
  repeat' split
  · rfl
  · rfl
  · simp -implicitDefEqProofs

@[simp] theorem memRaw_leg (o : RawOp) (d : Dev) : (memRaw o d).leg = d.leg := by
  unfold memRaw
  split <;> simp

@[simp] theorem memRawAsk_leg (o : RawOp) (d : Dev) : (memRawAsk o d).leg = d.leg := by simp [memRawAsk]

@[simp] theorem memTcmd_leg (by_ : Requester) (v : Word) (d : Dev) : (memTcmd by_ v d).leg = d.leg := by
  unfold memTcmd
  split <;> simp

@[simp] theorem memRawServe_leg (d : Dev) : (memRawServe d).leg = d.leg := by simp [memRawServe]

@[simp] theorem memScrub_leg (d : Dev) : (memScrub d).leg = d.leg := rfl

@[simp] theorem romRead_leg (q : MemReq) (a : Nat) (d : Dev) : (romRead q a d).2.leg = d.leg := by simp [romRead]

/-! ## Leg -/

@[simp] theorem legHoldBit_leg (n : Fin 96) (cls : Nat) (d : Dev) : (legHoldBit n cls d).leg = d.leg := rfl

@[simp] theorem legPut_leg (n : Fin 96) (vals : LegVals) (d : Dev) : (legPut n vals d).leg = d.leg := by
  simp -implicitDefEqProofs [legPut]

/-! ## Timebase -/

@[simp] theorem tbLine_leg (b : Fin 32) (d : Dev) : (tbLine b d).leg = d.leg := by simp [tbLine]

@[simp] theorem tbDiscipline_leg (b : Fin 32) (t : Nat) (d : Dev) : (tbDiscipline b t d).leg = d.leg := by simp [tbDiscipline]

@[simp] theorem tbStartEvent_leg (b : Fin 32) (d : Dev) : (tbStartEvent b d).leg = d.leg := by simp [tbStartEvent]

@[simp] theorem tbEvcmp_leg (b : Fin 32) (k : Fin 4) (d : Dev) : (tbEvcmp b k d).leg = d.leg := by simp [tbEvcmp]

@[simp] theorem tbWriteEvcmp_leg (b : Fin 32) (k : Fin 4) (v : Word) (d : Dev) : (tbWriteEvcmp b k v d).leg = d.leg := by
  simp [tbWriteEvcmp]

@[simp] theorem tbPeriodSet_leg (b : Fin 32) (v : Word) (d : Dev) : (tbPeriodSet b v d).leg = d.leg := by simp [tbPeriodSet]

@[simp] theorem tbWritePeriod_leg (b : Fin 32) (v : Word) (d : Dev) : (tbWritePeriod b v d).leg = d.leg := by simp [tbWritePeriod]

/-! ## LoopEngine -/

@[simp] theorem leExchange_leg (n : Fin 64) (d : Dev) : (leExchange n d).leg = d.leg := by simp [leExchange]

@[simp] theorem leSwap_leg (n : Fin 64) (d : Dev) : (leSwap n d).leg = d.leg := by simp -implicitDefEqProofs [leSwap]

@[simp] theorem leSwapTask_leg (ch : Nat) (d : Dev) : (leSwapTask ch d).leg = d.leg := by simp -implicitDefEqProofs [leSwapTask]

@[simp] theorem leArrive_leg (n : Fin 64) (d : Dev) : (leArrive n d).leg = d.leg := by
  unfold leArrive
  split <;> simp

@[simp] theorem leReadWords_leg (n : Fin 64) (a : List Nat) (d : Dev) : (leReadWords n a d).2.2.leg = d.leg := by
  induction a generalizing d with
  | nil => rfl
  | cons a l ih =>
    unfold leReadWords
    dsimp only
    all_goals simp -implicitDefEqProofs [ih]

@[simp] theorem lePresent_leg (n : Fin 64) (c : LeCommit) (d : Dev) : (lePresent n c d).leg = d.leg := by simp [lePresent]

@[simp] theorem leCommitSingle_leg (n : Fin 64) (u : Int) (scnt : Word) (tags : Nat) (d : Dev) :
    (leCommitSingle n u scnt tags d).leg = d.leg := by
  simp [leCommitSingle]

@[simp] theorem leModulate_leg (p : Fin 32) (vd vq : Int) (scnt : Word) (tags tagsO : Nat) (d : Dev) :
    (leModulate p vd vq scnt tags tagsO d).leg = d.leg := by
  simp [leModulate]

@[simp] theorem leWriteWords_leg (n : Fin 64) (a : List (Nat × Int)) (d : Dev) : (leWriteWords n a d).leg = d.leg := by
  induction a generalizing d with
  | nil => rfl
  | cons a l ih =>
    unfold leWriteWords
    all_goals simp [ih]

@[simp] theorem lePutRegs_leg (n : Fin 64) (l : List (LeReg × Word)) (d : Dev) : (lePutRegs n l d).leg = d.leg := by
  simp -implicitDefEqProofs [lePutRegs]

@[simp] theorem leUnder_leg (n : Fin 64) (snap : List (LeReg × Word)) (own : LeReg → Bool) {g : Dev → Dev}
    (hg : ∀ d, (g d).leg = d.leg) (d : Dev) : (leUnder n snap own g d).leg = d.leg := by
  simp [leUnder, hg]

@[simp] theorem leHalfDone_leg (n : Fin 64) (tags : Nat) (mine : Option LeHalf) (d : Dev) :
    (leHalfDone n tags mine d).leg = d.leg := by
  unfold leHalfDone
  dsimp only
  repeat' split
  all_goals simp -implicitDefEqProofs

@[simp] theorem leFinish_leg (n : Fin 64) (s : LeStall) (rx fx : Word) (d0 : Dev) : (leFinish n s rx fx d0).leg = d0.leg := by
  simp [leFinish]

@[simp] theorem leFinishStalled_leg (n : Fin 64) (s : LeStall) (d : Dev) : (leFinishStalled n s d).leg = d.leg := by
  simp [leFinishStalled]

@[simp] theorem leBound_leg (n : Fin 64) (m : Int) (sat : Bool) (d : Dev) : (leBound n m sat d).2.leg = d.leg := by simp [leBound]

@[simp] theorem leStallIf_leg (n : Fin 64) (s : LeStall) (go : Bool) (d : Dev) : (leStallIf n s go d).leg = d.leg := by
  simp [leStallIf]

@[simp] theorem leGoOn_leg (n : Fin 64) (s : LeStall) (go : Bool) (d : Dev) : (leGoOn n s go d).leg = d.leg := by simp [leGoOn]

@[simp] theorem leBoundary_leg (n : Fin 64) (m : Int) (sat : Bool) (d : Dev) : (leBoundary n m sat d).leg = d.leg := by
  simp [leBoundary]

@[simp] theorem lePairSample_leg (p : Fin 32) (d : Dev) : (lePairSample p d).leg = d.leg := by simp [lePairSample]

@[simp] theorem leSample_leg (n : Fin 64) (d : Dev) : (leSample n d).leg = d.leg := by simp [leSample]

@[simp] theorem leResume_leg (n : Fin 64) (d : Dev) : (leResume n d).leg = d.leg := by
  unfold leResume
  repeat' split
  all_goals simp

@[simp] theorem leTimeout_leg (n : Fin 64) (d : Dev) : (leTimeout n d).leg = d.leg := by
  unfold leTimeout
  repeat' split
  all_goals simp

@[simp] theorem lePutPeriod_leg (a : List (LeField × Nat)) (d : Dev) : (lePutPeriod a d).leg = d.leg := by
  induction a generalizing d with
  | nil => rfl
  | cons a l ih =>
    unfold lePutPeriod
    dsimp only
    repeat' split
    all_goals simp -implicitDefEqProofs [ih]

@[simp] theorem leAbandon_leg (n : Fin 64) (d : Dev) : (leAbandon n d).leg = d.leg := rfl

@[simp] theorem leWriteOperand_leg (n : Fin 64) (r src : LeReg) (v : Word) (d : Dev) :
    (leWriteOperand n r src v d).leg = d.leg := by
  unfold leWriteOperand
  repeat' split
  all_goals simp

@[simp] theorem leNewSource_leg (n : Fin 64) (r : LeReg) (d : Dev) : (leNewSource n r d).leg = d.leg := by
  unfold leNewSource
  split <;> simp

@[simp] theorem leGuarded_leg (n : Fin 64) (r : LeReg) (v : Word) (d : Dev) : (leGuarded n r v d).leg = d.leg := by
  simp [leGuarded]

@[simp] theorem leprWrite_leg (p : Fin 32) (r : LeprReg) (v : Word) (d : Dev) : (leprWrite p r v d).leg = d.leg := by
  unfold leprWrite
  split <;> simp

@[simp] theorem leshWrite_leg (r : LeshReg) (v : Word) (d : Dev) : (leshWrite r v d).leg = d.leg := by
  unfold leshWrite
  split <;> simp -implicitDefEqProofs

@[simp] theorem leMemGuard_leg (n k : Fin 64) (g : Dev → Dev) (d : Dev) (hg : ∀ e, (g e).leg = e.leg) :
    (leMemGuard n k g d).leg = d.leg := by
  unfold leMemGuard
  repeat' split
  all_goals simp_all

@[simp] theorem leMemWrite_leg (n k : Fin 64) (v : Word) (d : Dev) : (leMemWrite n k v d).leg = d.leg := by simp [leMemWrite]

@[simp] theorem leMemPart_leg (req : Nat) (n k : Fin 64) (d : Dev) : (leMemPart req n k d).leg = d.leg := by simp [leMemPart]

/-! ## Fabric -/

@[simp] theorem fabActivate_leg (c : Fin 256) (e : Nat) (d : Dev) : (fabActivate c e d).leg = d.leg := by simp [fabActivate]

@[simp] theorem fabIssue_leg (c : Fin 256) (e : Nat) (d : Dev) : (fabIssue c e d).leg = d.leg := by
  unfold fabIssue
  split <;> simp

@[simp] theorem fabSample_leg (e : Nat) (c : Fin 256) (d0 : Dev) : (fabSample e c d0).leg = d0.leg := by
  unfold fabSample
  dsimp only
  split <;> simp

@[simp] theorem fabPresent_leg (p : Fin 512) (d : Dev) : (fabPresent p d).leg = d.leg := by simp [fabPresent]

@[simp] theorem fabEvent_leg (p : Fin 512) (d : Dev) : (fabEvent p d).leg = d.leg := by simp [fabEvent]

@[simp] theorem fabHoldEnd_leg (p : Fin 512) (d : Dev) : (fabHoldEnd p d).leg = d.leg := by simp [fabHoldEnd]

@[simp] theorem fabHoldoffEnd_leg (c : Fin 256) (d : Dev) : (fabHoldoffEnd c d).leg = d.leg := by
  unfold fabHoldoffEnd
  split <;> simp

@[simp] theorem fabTogether_leg (c : Fin 256) (e : Nat) (act : Dev → Dev) (d : Dev) (hact : ∀ e, (act e).leg = e.leg) :
    (fabTogether c e act d).leg = d.leg := by
  unfold fabTogether
  simp_all

@[simp] theorem fabTask_leg (k : TaskKind) (c : Fin 256) (act : Dev → Dev) (d : Dev) (hact : ∀ e, (act e).leg = e.leg) :
    (fabTask k c act d).leg = d.leg := by
  unfold fabTask
  repeat' split
  all_goals simp_all

@[simp] theorem chWrite_leg (by_ : Requester) (c : Fin 256) (r : ChReg) (v : Word) (d : Dev) :
    (chWrite by_ c r v d).leg = d.leg := by
  unfold chWrite
  split <;> simp

@[simp] theorem fabSwtrig_leg (by_ : Requester) (v : Word) (d : Dev) : (fabSwtrig by_ v d).leg = d.leg := by simp [fabSwtrig]

@[simp] theorem evWrite_leg (by_ : Requester) (r : EvReg) (v : Word) (d : Dev) : (evWrite by_ r v d).leg = d.leg := by
  unfold evWrite
  split <;> simp

/-! ## Link -/

@[simp] theorem lnkNoRoute_leg (d : Dev) : (lnkNoRoute d).leg = d.leg := rfl

@[simp] theorem lnkPumpN_leg (p : Fin 2) (k : Nat) (d : Dev) : (lnkPumpN p k d).leg = d.leg := by
  induction k generalizing d with
  | zero => rfl
  | succ k ih =>
    unfold lnkPumpN
    dsimp only
    repeat' split
    all_goals simp -implicitDefEqProofs [ih]

@[simp] theorem lnkPump_leg (d : Dev) : (lnkPump d).leg = d.leg := by simp -implicitDefEqProofs [lnkPump]

@[simp] theorem lnkSend_leg (p : Fin 2) (f : Frame) (fwd : Bool) (d : Dev) : (lnkSend p f fwd d).leg = d.leg := by simp [lnkSend]

@[simp] theorem lnkSendPacket_leg (p : Fin 2) (f : Frame) (fwd : Bool) (d0 : Dev) : (lnkSendPacket p f fwd d0).leg = d0.leg := by
  simp -implicitDefEqProofs [lnkSendPacket]

@[simp] theorem lnkBroadcast_leg (send : Fin 2 → Dev → Dev) (d : Dev) (hsend : ∀ k e, (send k e).leg = e.leg) :
    (lnkBroadcast send d).leg = d.leg := by
  unfold lnkBroadcast
  repeat' split
  all_goals simp_all

@[simp] theorem lnkOwnPacket_leg (dst kind : Nat) (bytes : List Byte) (d : Dev) :
    (lnkOwnPacket dst kind bytes d).leg = d.leg := by
  unfold lnkOwnPacket
  dsimp only
  repeat' split
  all_goals simp -implicitDefEqProofs

@[simp] theorem lnkRebase_leg (d : Dev) : (lnkRebase d).leg = d.leg := rfl

@[simp] theorem lnkValid_leg (v : Bool) (d : Dev) : (lnkValid v d).leg = d.leg := by simp -implicitDefEqProofs [lnkValid]

@[simp] theorem lnkService_leg (d : Dev) : (lnkService d).leg = d.leg := by simp -implicitDefEqProofs [lnkService]

@[simp] theorem lnkPllLock_leg (d : Dev) : (lnkPllLock d).leg = d.leg := by simp -implicitDefEqProofs [lnkPllLock]

@[simp] theorem lnkPllLoss_leg (d : Dev) : (lnkPllLoss d).leg = d.leg := by simp -implicitDefEqProofs [lnkPllLoss]

@[simp] theorem lnkTimeSend_leg (d0 : Dev) : (lnkTimeSend d0).leg = d0.leg := by simp -implicitDefEqProofs [lnkTimeSend]

@[simp] theorem lnkTimeNext_leg (d : Dev) : (lnkTimeNext d).leg = d.leg := by simp -implicitDefEqProofs [lnkTimeNext]

@[simp] theorem lnkCorrect_leg (p : Fin 2) (e : Int) (d0 : Dev) : (lnkCorrect p e d0).leg = d0.leg := by
  simp -implicitDefEqProofs [lnkCorrect]

@[simp] theorem lnkTake_leg (p : Fin 2) (ok : Bool) (t : Nat) (act : Dev → Dev) (d0 : Dev) (hact : ∀ e, (act e).leg = e.leg) :
    (lnkTake p ok t act d0).leg = d0.leg := by
  unfold lnkTake
  dsimp only
  repeat' split
  all_goals simp_all -implicitDefEqProofs

@[simp] theorem lnkTimeFrame_leg (p : Fin 2) (t tx : Nat) (v back : Bool) (hops : Nat) (d0 : Dev) :
    (lnkTimeFrame p t tx v back hops d0).leg = d0.leg := by
  unfold lnkTimeFrame
  dsimp only
  repeat' split
  all_goals simp -implicitDefEqProofs

@[simp] theorem lnkTimeout_leg (d : Dev) : (lnkTimeout d).leg = d.leg := by simp -implicitDefEqProofs [lnkTimeout]

@[simp] theorem lnkExchange_leg (p : Fin 2) (d0 : Dev) : (lnkExchange p d0).leg = d0.leg := by
  simp -implicitDefEqProofs [lnkExchange]

@[simp] theorem lnkDreq_leg (p : Fin 2) (t : Nat) (d : Dev) : (lnkDreq p t d).leg = d.leg := by simp [lnkDreq]

@[simp] theorem lnkDelays_leg (p : Fin 2) (d : Dev) : (lnkDelays p d).leg = d.leg := by simp [lnkDelays]

@[simp] theorem lnkDrsp_leg (p : Fin 2) (t t2 t3 : Nat) (d : Dev) : (lnkDrsp p t t2 t3 d).leg = d.leg := by
  unfold lnkDrsp
  split <;> simp

@[simp] theorem lnkExchTimeout_leg (p : Fin 2) (d : Dev) : (lnkExchTimeout p d).leg = d.leg := by
  unfold lnkExchTimeout
  split <;> simp

@[simp] theorem lnkMeasure_leg (p : Fin 2) (d : Dev) : (lnkMeasure p d).leg = d.leg := by simp [lnkMeasure]

@[simp] theorem lnkEnumBegin_leg (d : Dev) : (lnkEnumBegin d).leg = d.leg := rfl

@[simp] theorem lnkEnumStart_leg (d : Dev) : (lnkEnumStart d).leg = d.leg := by simp [lnkEnumStart]

@[simp] theorem lnkEnumEnd_leg (count : Nat) (ring ovr : Bool) (d : Dev) : (lnkEnumEnd count ring ovr d).leg = d.leg := by
  simp [lnkEnumEnd]

@[simp] theorem lnkEnumErr_leg (d : Dev) : (lnkEnumErr d).leg = d.leg := rfl

@[simp] theorem lnkEnum_leg (p : Fin 2) (n : Nat) (flags : Byte) (d : Dev) : (lnkEnum p n flags d).leg = d.leg := by
  simp [lnkEnum]

@[simp] theorem lnkEnumDone_leg (count : Nat) (ring ovr : Bool) (d : Dev) : (lnkEnumDone count ring ovr d).leg = d.leg := by
  simp [lnkEnumDone]

@[simp] theorem lnkLstat_leg (a port state : Nat) (d : Dev) : (lnkLstat a port state d).leg = d.leg := by simp [lnkLstat]

@[simp] theorem lnkReport_leg (p : Fin 2) (state : Nat) (d : Dev) : (lnkReport p state d).leg = d.leg := by simp [lnkReport]

@[simp] theorem lnkRelay_leg (p : Fin 2) (src : Nat) (f : Frame) (act : Dev → Dev) (d : Dev)
    (hact : ∀ e, (act e).leg = e.leg) : (lnkRelay p src f act d).leg = d.leg := by
  unfold lnkRelay
  repeat' split
  all_goals simp_all

@[simp] theorem lnkNotice_leg (cls : Nat) (d : Dev) : (lnkNotice cls d).leg = d.leg := by simp [lnkNotice]

@[simp] theorem lnkLockdown_leg (src cls : Nat) (d : Dev) : (lnkLockdown src cls d).leg = d.leg := rfl

@[simp] theorem lnkPortDown_leg (p : Fin 2) (d0 : Dev) : (lnkPortDown p d0).leg = d0.leg := by
  simp -implicitDefEqProofs [lnkPortDown]

@[simp] theorem lnkPortUp_leg (p : Fin 2) (d0 : Dev) : (lnkPortUp p d0).leg = d0.leg := by simp -implicitDefEqProofs [lnkPortUp]

@[simp] theorem lnkAlign_leg (p : Fin 2) (align inv skew : Nat) (partner : Bool) (d : Dev) :
    (lnkAlign p align inv skew partner d).leg = d.leg := by
  simp -implicitDefEqProofs [lnkAlign]

@[simp] theorem lnkErrWindow_leg (p : Fin 2) (errs : Nat) (d : Dev) : (lnkErrWindow p errs d).leg = d.leg := by
  simp -implicitDefEqProofs [lnkErrWindow]

@[simp] theorem lnkPacketGo_leg (p : Fin 2) (dst src kind : Nat) (bytes : List Byte) (aborted : Bool) (d : Dev) :
    (lnkPacketGo p dst src kind bytes aborted d).2.leg = d.leg := by
  unfold lnkPacketGo
  dsimp only
  repeat' split
  all_goals simp -implicitDefEqProofs

@[simp] theorem lnkPacket_leg (p : Fin 2) (dst src kind crc : Option Byte) (bytes : List Byte) (aborted : Bool) (d0 : Dev) :
    (lnkPacket p dst src kind crc bytes aborted d0).2.leg = d0.leg := by
  unfold lnkPacket
  dsimp only
  repeat' split
  all_goals simp -implicitDefEqProofs

@[simp] theorem lnkWrite_leg (r : LnkReg) (v : Word) (d : Dev) : (lnkWrite r v d).leg = d.leg := by
  unfold lnkWrite
  split <;> simp -implicitDefEqProofs

@[simp] theorem lnkpWrite_leg (p : Fin 2) (r : LnkpReg) (v : Word) (d : Dev) : (lnkpWrite p r v d).leg = d.leg := by
  unfold lnkpWrite
  split <;> simp -implicitDefEqProofs

@[simp] theorem lnkRead_leg (r : LnkReg) (d : Dev) : (lnkRead r d).2.leg = d.leg := by
  unfold lnkRead
  split <;> simp

/-! ## HostReply -/

@[simp] theorem hstFlag_leg (f : Fld) (d : Dev) : (hstFlag f d).leg = d.leg := by simp [hstFlag]

@[simp] theorem hmbLoad_leg (d : Dev) : (hmbLoad d).leg = d.leg := by
  unfold hmbLoad
  split <;> simp

@[simp] theorem hstQueue_leg (i : Iface) (dst : Nat) (b : List Byte) (d : Dev) : (hstQueue i dst b d).leg = d.leg := by
  unfold hstQueue
  split <;> simp -implicitDefEqProofs

@[simp] theorem hstPut_leg (i : Iface) (dst : Nat) (b : List Byte) (d : Dev) : (hstPut i dst b d).leg = d.leg := by
  simp -implicitDefEqProofs [hstPut]

@[simp] theorem hstReply_leg (h : CmdHdr) (status : Nat) (data : List Byte) (d : Dev) :
    (hstReply h status data d).leg = d.leg := by
  simp -implicitDefEqProofs [hstReply]

@[simp] theorem hstLateN_leg (k : Nat) (d : Dev) : (hstLateN k d).leg = d.leg := by
  induction k generalizing d with
  | zero => rfl
  | succ k ih =>
    unfold hstLateN
    repeat' split
    all_goals simp [ih]

@[simp] theorem hstPop_leg (c : Cmd) (d : Dev) : (hstPop c d).leg = d.leg := rfl

@[simp] theorem hstFlushN_leg (k : Nat) (d : Dev) : (hstFlushN k d).leg = d.leg := by
  induction k generalizing d with
  | zero => rfl
  | succ k ih =>
    unfold hstFlushN
    repeat' split
    all_goals simp [ih]

@[simp] theorem hstFlush_leg (d0 : Dev) : (hstFlush d0).leg = d0.leg := by simp [hstFlush]

@[simp] theorem hstEnqueue_leg (c : Cmd) (d : Dev) : (hstEnqueue c d).leg = d.leg := by simp [hstEnqueue]

@[simp] theorem hstPacket_leg (i : Iface) (src : Nat) (b : List Byte) (d : Dev) : (hstPacket i src b d).leg = d.leg := by
  unfold hstPacket
  dsimp only
  repeat' split
  all_goals simp -implicitDefEqProofs

@[simp] theorem hstBadHeader_leg (d : Dev) : (hstBadHeader d).leg = d.leg := by simp [hstBadHeader]

@[simp] theorem hstTruncFlags_leg (d : Dev) : (hstTruncFlags d).leg = d.leg := by simp [hstTruncFlags]

@[simp] theorem hstTruncated_leg (i : Iface) (src : Nat) (b : List Byte) (d : Dev) : (hstTruncated i src b d).leg = d.leg := by
  simp -implicitDefEqProofs [hstTruncated]

@[simp] theorem hstTooLong_leg (i : Iface) (src : Nat) (b : List Byte) (d : Dev) : (hstTooLong i src b d).leg = d.leg := by
  simp -implicitDefEqProofs [hstTooLong]

@[simp] theorem spiParse_leg (k : Nat) (d : Dev) : (spiParse k d).leg = d.leg := by
  induction k generalizing d with
  | zero => rfl
  | succ k ih =>
    unfold spiParse
    dsimp only
    repeat' split
    all_goals simp -implicitDefEqProofs [ih]

@[simp] theorem spiOut_leg (b : List Byte) (d : Dev) : (spiOut b d).leg = d.leg := rfl

@[simp] theorem spiCmd_leg (b : List Byte) (d : Dev) : (spiCmd b d).leg = d.leg := by simp [spiCmd]

@[simp] theorem spiRpl_leg (whole : Bool) (d : Dev) : (spiRpl whole d).leg = d.leg := by
  unfold spiRpl
  repeat' split
  all_goals simp

@[simp] theorem spiStatFrame_leg (d : Dev) : (spiStatFrame d).leg = d.leg := by simp [spiStatFrame]

@[simp] theorem spiIgnored_leg (d : Dev) : (spiIgnored d).leg = d.leg := by simp [spiIgnored]

@[simp] theorem spiPartial_leg (d : Dev) : (spiPartial d).leg = d.leg := by simp -implicitDefEqProofs [spiPartial]

@[simp] theorem spiGap_leg (d : Dev) : (spiGap d).leg = d.leg := by simp -implicitDefEqProofs [spiGap]

@[simp] theorem spiRise_leg (d : Dev) : (spiRise d).leg = d.leg := by simp -implicitDefEqProofs [spiRise]

@[simp] theorem hstDoorbell_leg (count : Nat) (d : Dev) : (hstDoorbell count d).leg = d.leg := by
  unfold hstDoorbell
  dsimp only
  repeat' split
  all_goals simp -implicitDefEqProofs

@[simp] theorem hstAck_leg (d : Dev) : (hstAck d).leg = d.leg := by
  unfold hstAck
  repeat' split
  all_goals simp

@[simp] theorem hmbWrite_leg (k : Fin 512) (v : Word) (d : Dev) : (hmbWrite k v d).leg = d.leg := by simp [hmbWrite]

@[simp] theorem hstFromLink_leg (src kind : Nat) (b : List Byte) (aborted : Bool) (d : Dev) :
    (hstFromLink src kind b aborted d).leg = d.leg := by
  unfold hstFromLink
  repeat' split
  all_goals simp

@[simp] theorem hstCommitAbort_leg (d : Dev) : (hstCommitAbort d).leg = d.leg := by
  unfold hstCommitAbort
  split <;> simp -implicitDefEqProofs

/-! ## HostRegs -/

@[simp] theorem fwTimeout_leg (d : Dev) : (fwTimeout d).leg = d.leg := by
  unfold fwTimeout
  split <;> simp -implicitDefEqProofs

@[simp] theorem fwReply_leg (v : Word) (d0 : Dev) : (fwReply v d0).leg = d0.leg := by
  unfold fwReply
  dsimp only
  repeat' split
  all_goals simp -implicitDefEqProofs

@[simp] theorem pcieDown_leg (d : Dev) : (pcieDown d).leg = d.leg := by simp [pcieDown]

@[simp] theorem pcieUp_leg (speed width : Nat) (d : Dev) : (pcieUp speed width d).leg = d.leg := by simp [pcieUp]

@[simp] theorem hienWrite_leg (v : Word) (d : Dev) : (hienWrite v d).leg = d.leg := by simp [hienWrite]

@[simp] theorem msixWrite_leg (k : Fin 32) (v : Word) (d : Dev) : (msixWrite k v d).leg = d.leg := by simp [msixWrite]

@[simp] theorem hifWrite_leg (r : HifReg) (v : Word) (d : Dev) : (hifWrite r v d).leg = d.leg := by
  unfold hifWrite
  repeat' split
  all_goals simp

@[simp] theorem capReadWords_leg (a : List Nat) (d : Dev) : (capReadWords a d).2.leg = d.leg := by
  induction a generalizing d with
  | nil => rfl
  | cons a l ih =>
    unfold capReadWords
    dsimp only
    all_goals simp -implicitDefEqProofs [ih]

@[simp] theorem capDescAt_leg (base e : Nat) (d : Dev) : (capDescAt base e d).2.leg = d.leg := by
  simp -implicitDefEqProofs [capDescAt]

@[simp] theorem capDescs_leg (base n : Nat) (d : Dev) : (capDescs base n d).2.leg = d.leg := by
  induction n generalizing d with
  | zero => rfl
  | succ n ih =>
    unfold capDescs
    repeat' split
    all_goals grind [capDescAt_leg]

@[simp] theorem capEnable_leg (r : Fin 16) (d : Dev) : (capEnable r d).leg = d.leg := by
  unfold capEnable
  dsimp only
  split
  · simp
  · split
    all_goals grind [capDescs_leg, Dev.flag_leg, Dev.pulse_leg, capStart_leg, capWm_leg, Dev.capU_leg, Dev.put_leg]

@[simp] theorem capDisable_leg (r : Fin 16) (d : Dev) : (capDisable r d).leg = d.leg := by simp [capDisable]

@[simp] theorem capWriteCtl_leg (r : Fin 16) (v : Word) (d : Dev) : (capWriteCtl r v d).leg = d.leg := by simp [capWriteCtl]

@[simp] theorem capEnableServe_leg (d : Dev) : (capEnableServe d).leg = d.leg := by simp -implicitDefEqProofs [capEnableServe]

@[simp] theorem capGuard_leg (r : Fin 16) (x : CaprReg) (v : Word) (d : Dev) : (capGuard r x v d).leg = d.leg := by
  simp [capGuard]

@[simp] theorem capWriteRline_leg (r : Fin 16) (v : Word) (d : Dev) : (capWriteRline r v d).leg = d.leg := by simp [capWriteRline]

@[simp] theorem capWrite_leg (r : Fin 16) (x : CaprReg) (v : Word) (d : Dev) : (capWrite r x v d).leg = d.leg := by
  unfold capWrite
  repeat' split
  all_goals simp

@[simp] theorem capFlush_leg (r : Fin 16) (d : Dev) : (capFlush r d).leg = d.leg := by simp [capFlush]

@[simp] theorem capTaskStart_leg (ch : Nat) (d : Dev) : (capTaskStart ch d).leg = d.leg := by simp [capTaskStart]

@[simp] theorem capTaskStop_leg (ch : Nat) (d : Dev) : (capTaskStop ch d).leg = d.leg := by simp [capTaskStop]

/-! ## Flash -/

@[simp] theorem flPut_leg (a : Nat) (v : FlWord) (d : Dev) : (flPut a v d).leg = d.leg := rfl

@[simp] theorem flCe_leg (a : Nat) (d : Dev) : (flCe a d).leg = d.leg := rfl

@[simp] theorem flRead_leg (q : MemReq) (a : Nat) (d : Dev) : (flRead q a d).2.leg = d.leg := by
  unfold flRead
  repeat' split
  all_goals simp

@[simp] theorem flEvaluate_leg (d : Dev) : (flEvaluate d).leg = d.leg := by simp [flEvaluate]

@[simp] theorem flClaim_leg (by_ : Nat) (d : Dev) : (flClaim by_ d).leg = d.leg := by simp [flClaim]

@[simp] theorem flRelease_leg (by_ : Nat) (d : Dev) : (flRelease by_ d).leg = d.leg := by simp [flRelease]

@[simp] theorem flRefused_leg (r : Nat) (d : Dev) : (flRefused r d).leg = d.leg := by simp [flRefused]

@[simp] theorem verTouch_leg (o : FlOp) (d : Dev) : (verTouch o d).leg = d.leg := by
  unfold verTouch
  split <;> simp

@[simp] theorem flStart_leg (o : FlOp) (d0 : Dev) : (flStart o d0).leg = d0.leg := by simp [flStart]

@[simp] theorem flTry_leg (k : FlKind) (by_ a : Nat) (data : BitVec 128) (margin count : Nat) (d : Dev) :
    (flTry k by_ a data margin count d).leg = d.leg := by
  unfold flTry
  dsimp only
  repeat' split
  all_goals simp

@[simp] theorem flCommand_leg (by_ : Nat) (v : Word) (d : Dev) : (flCommand by_ v d).leg = d.leg := by
  unfold flCommand
  repeat' split
  all_goals simp

@[simp] theorem flFinish_leg (o : FlOp) (ok : Bool) (weak : List Nat) (d : Dev) : (flFinish o ok weak d).2.leg = d.leg := by
  unfold flFinish
  dsimp only
  repeat' split
  all_goals simp

@[simp] theorem flEnd_leg (ok : Bool) (weak : List Nat) (d : Dev) : (flEnd ok weak d).leg = d.leg := by
  unfold flEnd
  split <;> simp

@[simp] theorem flShutdown_leg (d : Dev) : (flShutdown d).leg = d.leg := by simp [flShutdown]

@[simp] theorem flReset_leg (d : Dev) : (flReset d).leg = d.leg := rfl

@[simp] theorem flInit_leg (por : Bool) (d : Dev) : (flInit por d).leg = d.leg := by simp [flInit]

@[simp] theorem flWrite_leg (by_ : Nat) (r : FlReg) (v : Word) (d : Dev) : (flWrite by_ r v d).leg = d.leg := by
  unfold flWrite
  dsimp only
  split <;> simp

/-! ## Fault -/

@[simp] theorem fcLockdown_leg (cls : Nat) (d : Dev) : (fcLockdown cls d).leg = d.leg := by simp [fcLockdown]

@[simp] theorem fcRecord_leg (l : Nat) (esc : Bool) (lvl occ : Nat) (d : Dev) : (fcRecord l esc lvl occ d).leg = d.leg := by
  simp [fcRecord]

@[simp] theorem fcRecords_leg (d0 : Dev) (ls : List Nat) (d : Dev) : (fcRecords d0 ls d).leg = d.leg := by simp [fcRecords]

@[simp] theorem tollResume_leg (d : Dev) : (tollResume d).leg = d.leg := by simp [tollResume]

@[simp] theorem tollToggle_leg (d0 : Dev) : (tollToggle d0).leg = d0.leg := by
  unfold tollToggle
  split <;> simp

@[simp] theorem tollFeed_leg (d : Dev) : (tollFeed d).leg = d.leg := by simp [tollFeed]

@[simp] theorem shGate_leg (v : Word) (d : Dev) : (shGate v d).leg = d.leg := by simp [shGate]

@[simp] theorem fcPop_leg (d : Dev) : (fcPop d).leg = d.leg := by
  unfold fcPop
  split <;> simp

@[simp] theorem tripCatch_leg (m : Fin 64) (d : Dev) : (tripCatch m d).leg = d.leg := by simp [tripCatch]

@[simp] theorem fcSetMask_leg (k : Fin 16) (v : Word) (d : Dev) : (fcSetMask k v d).leg = d.leg := by
  simp -implicitDefEqProofs [fcSetMask]

@[simp] theorem shBlankMax_leg (v : Word) (d : Dev) : (shBlankMax v d).leg = d.leg := by simp [shBlankMax]

@[simp] theorem supplyCross_leg (i : Fin 8) (x : Rail) (d : Dev) : (supplyCross i x d).leg = d.leg := by simp [supplyCross]

@[simp] theorem refLost_leg (d : Dev) : (refLost d).leg = d.leg := by simp [refLost]

@[simp] theorem refBack_leg (d : Dev) : (refBack d).leg = d.leg := by simp [refBack]

@[simp] theorem thWarn_leg (hot : Nat) (d : Dev) : (thWarn hot d).leg = d.leg := by simp [thWarn]

@[simp] theorem thClear_leg (d : Dev) : (thClear d).leg = d.leg := rfl

@[simp] theorem fcLockRest_leg (d : Dev) : (fcLockRest d).leg = d.leg := by simp [fcLockRest]

/-! ## Interrupt -/

@[simp] theorem icCloseWin_leg (c : Fin 5) (d : Dev) : (icCloseWin c d).leg = d.leg := by
  unfold icCloseWin
  split <;> simp

@[simp] theorem icModEvent_leg (c : Fin 5) (d : Dev) : (icModEvent c d).leg = d.leg := by
  unfold icModEvent
  split <;> simp

@[simp] theorem icBecome_leg (s : Nat) (resamp : Bool) (d : Dev) : (icBecome s resamp d).leg = d.leg := by simp [icBecome]

@[simp] theorem icFollow_leg (s : Nat) (d : Dev) : (icFollow s d).leg = d.leg := by simp [icFollow]

@[simp] theorem icWake_leg (c : Fin 5) (d : Dev) : (icWake c d).leg = d.leg := by simp [icWake]

@[simp] theorem icBreak_leg (c : Fin 5) (cause : Nat) (d : Dev) : (icBreak c cause d).leg = d.leg := rfl

@[simp] theorem icCheck_leg (c : Fin 5) (bad : Bool) (d : Dev) : (icCheck c bad d).2.leg = d.leg := by simp [icCheck]

@[simp] theorem icAccept_leg (c : Fin 5) (s l : Nat) (d : Dev) : (icAccept c s l d).leg = d.leg := by simp [icAccept]

@[simp] theorem icResample_leg (s : Nat) (d : Dev) : (icResample s d).leg = d.leg := by simp [icResample]

@[simp] theorem icEoi_leg (c : Fin 5) (s : Nat) (d : Dev) : (icEoi c s d).leg = d.leg := by
  unfold icEoi
  split <;> simp

@[simp] theorem icReturn_leg (c : Fin 5) (now : Nat) (d : Dev) : (icReturn c now d).leg = d.leg := by simp [icReturn]

@[simp] theorem icDone_leg (c : Fin 5) (s : Nat) (d : Dev) : (icDone c s d).leg = d.leg := by simp [icDone]

@[simp] theorem icRecord_leg (c : Fin 5) (d : Dev) : (icRecord c d).leg = d.leg := by
  unfold icRecord
  dsimp only
  repeat' split
  all_goals simp -implicitDefEqProofs

@[simp] theorem icModTimeout_leg (c : Fin 5) (d : Dev) : (icModTimeout c d).leg = d.leg := by
  unfold icModTimeout
  split <;> simp

@[simp] theorem icWriteCfg_leg (c : Fin 5) (v : Word) (d : Dev) : (icWriteCfg c v d).leg = d.leg := by simp [icWriteCfg]

@[simp] theorem icWriteRd_leg (c : Fin 5) (v : Word) (d : Dev) : (icWriteRd c v d).leg = d.leg := by simp [icWriteRd]

@[simp] theorem icWriteMod_leg (c : Fin 5) (v : Word) (d : Dev) : (icWriteMod c v d).leg = d.leg := by
  unfold icWriteMod
  split <;> simp

@[simp] theorem iccWrite_leg (by_ : Requester) (c : Fin 5) (r : IccReg) (v : Word) (d : Dev) :
    (iccWrite by_ c r v d).leg = d.leg := by
  unfold iccWrite
  repeat' split
  all_goals simp

@[simp] theorem icMoved_leg (s : Nat) (was : Fin 5) (d : Dev) : (icMoved s was d).leg = d.leg := by simp [icMoved]

@[simp] theorem icEnable_leg (k : Fin 12) (v : Word) (d : Dev) : (icEnable k v d).leg = d.leg := by simp [icEnable]

@[simp] theorem icWrite_leg (r : IcReg) (v : Word) (d : Dev) : (icWrite r v d).leg = d.leg := by
  unfold icWrite
  split <;> simp

@[simp] theorem icRoute_leg (k : Fin 12) (v : Word) (d : Dev) : (icRoute k v d).leg = d.leg := by simp [icRoute]

@[simp] theorem iccReadEff_leg (c : Fin 5) (r : IccReg) (d : Dev) : (iccReadEff c r d).leg = d.leg := by
  unfold iccReadEff
  split <;> simp

@[simp] theorem icCoreReset_leg (c : Fin 5) (d : Dev) : (icCoreReset c d).leg = d.leg := by simp [icCoreReset]

/-! ## Security -/

@[simp] theorem tkClose_leg (result : Nat) (d : Dev) : (tkClose result d).leg = d.leg := by simp -implicitDefEqProofs [tkClose]

@[simp] theorem tkDiscard_leg (result : Nat) (d : Dev) : (tkDiscard result d).leg = d.leg := by
  unfold tkDiscard
  split <;> simp -implicitDefEqProofs

@[simp] theorem tkCatch_leg (d : Dev) : (tkCatch d).leg = d.leg := by simp -implicitDefEqProofs [tkCatch]

@[simp] theorem tkExpire_leg (d : Dev) : (tkExpire d).leg = d.leg := by simp -implicitDefEqProofs [tkExpire]

@[simp] theorem tkReject_leg (f : Fld) (d : Dev) : (tkReject f d).leg = d.leg := rfl

@[simp] theorem tkTake_leg (by_ a : Nat) (v : Word) (j : Fin 8) (d : Dev) : (tkTake by_ a v j d).leg = d.leg := rfl

@[simp] theorem tkStage_leg (by_ k : Nat) (v : Word) (d0 : Dev) : (tkStage by_ k v d0).2.leg = d0.leg := by
  unfold tkStage
  dsimp only
  repeat' split
  all_goals simp -implicitDefEqProofs

@[simp] theorem secWrej_leg (d : Dev) : (secWrej d).leg = d.leg := rfl

@[simp] theorem tkClear_leg (by_ : Nat) (d0 : Dev) : (tkClear by_ d0).leg = d0.leg := by simp -implicitDefEqProofs [tkClear]

@[simp] theorem tkPartyReset_leg (c : Fin 5) (d : Dev) : (tkPartyReset c d).leg = d.leg := by
  simp -implicitDefEqProofs [tkPartyReset]

@[simp] theorem verPick_leg (l : List Nat) (d : Dev) : (verPick l d).2.leg = d.leg := by
  unfold verPick
  split <;> simp

@[simp] theorem verifyNow_leg (b commit blank open_ : Bool) (d : Dev) : (verifyNow b commit blank open_ d).2.leg = d.leg := by
  simp [verifyNow]

@[simp] theorem verRecord_leg (b : Bool) (res : Nat) (d : Dev) : (verRecord b res d).leg = d.leg := by
  unfold verRecord
  split <;> simp

@[simp] theorem verStart_leg (b : Bool) (who : VerFor) (d : Dev) : (verStart b who d).leg = d.leg := rfl

@[simp] theorem verCtl_leg (by_ : Nat) (v : Word) (d : Dev) : (verCtl by_ v d).leg = d.leg := by simp [verCtl]

@[simp] theorem verBlank_leg (d : Dev) : (verBlank d).2.leg = d.leg := by simp [verBlank]

@[simp] theorem programWord_leg (a : Nat) (w : BitVec 128) (ok : Bool) (d : Dev) : (programWord a w ok d).leg = d.leg := by
  simp [programWord]

theorem programKey_leg {h : Header} {ok : Bool × Bool} {d e : Dev} {b : Bool} (hp : programKey h ok d = some (b, e)) :
    e.leg = d.leg := by
  revert hp
  unfold programKey
  dsimp only
  repeat' split
  all_goals grind [programWord_leg]

@[simp] theorem verCommit_leg (b open_ : Bool) (progOk : Bool × Bool) (d : Dev) : (verCommit b open_ progOk d).2.leg = d.leg := by
  unfold verCommit
  dsimp only
  repeat' split
  all_goals try simp
  all_goals grind [programKey_leg, verRecord_leg, verifyNow_leg, Dev.pulse_leg, verBlank_leg]

@[simp] theorem rngRead_leg (by_ : Nat) (d : Dev) : (rngRead by_ d).2.leg = d.leg := by simp [rngRead]

/-! ## System -/

@[simp] theorem sysWriteCtl_leg (v : Word) (d : Dev) : (sysWriteCtl v d).leg = d.leg := by simp [sysWriteCtl]

@[simp] theorem paceDone_leg (d : Dev) : (paceDone d).leg = d.leg := by simp [paceDone]

@[simp] theorem paceLoss_leg (d : Dev) : (paceLoss d).leg = d.leg := by simp [paceLoss]

@[simp] theorem paceSlip_leg (n : Fin 12) (d : Dev) : (paceSlip n d).leg = d.leg := by simp [paceSlip]

@[simp] theorem tempoWindow_leg (counts : Vector Nat 12) (d : Dev) : (tempoWindow counts d).leg = d.leg := by
  simp -implicitDefEqProofs [tempoWindow]

/-! ## Walk -/

@[simp] theorem arrayRead_leg (q : MemReq) (a : Nat) (d : Dev) : (arrayRead q a d).2.leg = d.leg := by
  unfold arrayRead
  split <;> simp

@[simp] theorem arrayReadN_leg (q : MemReq) (a n : Nat) (d : Dev) : (arrayReadN q a n d).2.leg = d.leg := by
  induction n generalizing a d with
  | zero => rfl
  | succ n ih => simp [arrayReadN, ih]

@[simp] theorem readDesc_leg (q : MemReq) (a : Nat) (d : Dev) : (readDesc q a d).2.leg = d.leg := by
  unfold readDesc
  split <;> simp

@[simp] theorem walk_leg (c : Fin 5) (lv : Nat) (isCs : Bool) (sel : BitVec 16) (d : Dev) :
    (walk c lv isCs sel d).2.leg = d.leg := by
  unfold walk
  dsimp only
  repeat' split
  all_goals simp

@[simp] theorem fetch_leg (c : Fin 5) (s : SegSt) (off len : Nat) (d : Dev) : (fetch c s off len d).2.leg = d.leg := by
  unfold fetch
  dsimp only
  repeat' split
  all_goals simp

@[simp] theorem lockup_leg (c : Fin 5) (kind entry detail lv : Nat) (sel : BitVec 16) (pc : Nat) (d : Dev) :
    (lockup c kind entry detail lv sel pc d).leg = d.leg := by
  simp [lockup]

@[simp] theorem countEntry_leg (c : Fin 5) (k : Nat) (d : Dev) : (countEntry c k d).leg = d.leg := by simp [countEntry]

/-- The state that an entry leaves, where it does not wait. -/
theorem enterLevel_leg {c : Fin 5} {k nl ret aofs seg detail : Nat} {d e : Dev}
    (h : enterLevel c k nl ret aofs seg detail d = .entered e ∨ enterLevel c k nl ret aofs seg detail d = .locked e) :
    e.leg = d.leg := by
  revert h
  unfold enterLevel
  dsimp only
  repeat' split
  all_goals grind [walk_leg, fetch_leg, lockup_leg, countEntry_leg, Dev.coreU_leg]

@[simp] theorem park_leg (c : Fin 5) (saveseg savepc : Word) (d : Dev) : (park c saveseg savepc d).leg = d.leg := rfl

@[simp] theorem romOffset_leg (d : Dev) : (romOffset d).2.leg = d.leg := rfl

@[simp] theorem romFault_leg (c : Fin 5) (cause : Nat) (d : Dev) : (romFault c cause d).leg = d.leg := by
  unfold romFault
  dsimp only
  split
  · simp
  · split
    · rfl
    · next h => simpa using enterLevel_leg (.inr h)
    · next h => simpa using enterLevel_leg (.inl h)

@[simp] theorem retlWalk_leg (c : Fin 5) (l : Fin 8) (d : Dev) : (retlWalk c l d).2.leg = d.leg := by simp [retlWalk]

@[simp] theorem pswLoad_leg (p : Word) (d : Dev) : (pswLoad p d).2.leg = d.leg := by simp [pswLoad]

@[simp] theorem retlDone_leg (c : Fin 5) (l : Fin 8) (s : SegSt) (d : Dev) : (retlDone c l s d).leg = d.leg := by
  unfold retlDone
  dsimp only
  repeat' split
  all_goals simp

theorem romInterrupt_leg {c : Fin 5} {k : Nat} {d e : Dev} (h : romInterrupt c k d = some e) : e.leg = d.leg := by
  revert h
  unfold romInterrupt
  dsimp only
  repeat' split
  all_goals grind [retlWalk_leg, romFault_leg, retlDone_leg, icEoi_leg, icWrite_leg, Dev.setB_leg]

@[simp] theorem enter_leg (c : Fin 5) (k nl ret aofs seg detail : Nat) (d : Dev) :
    (enter c k nl ret aofs seg detail d).leg = d.leg := by
  unfold enter
  split
  · rfl
  · next h => exact enterLevel_leg (.inr h)
  · next e h =>
    have he : e.leg = d.leg := enterLevel_leg (.inl h)
    split
    · exact he
    · split
      · cases hr : romInterrupt c k e with
        | none => rfl
        | some x => exact (romInterrupt_leg hr).trans he
      · simpa using he

@[simp] theorem except_leg (c : Fin 5) (k pc ret aofs seg detail : Nat) (d : Dev) :
    (except c k pc ret aofs seg detail d).leg = d.leg := by
  unfold except
  split <;> simp

@[simp] theorem coreIntoReset_leg (c : Fin 5) (d : Dev) : (coreIntoReset c d).leg = d.leg := by simp [coreIntoReset]

@[simp] theorem coreLeavesReset_leg (c : Fin 5) (d : Dev) : (coreLeavesReset c d).leg = d.leg := rfl

@[simp] theorem helmStart_leg (c : Fin 4) (d : Dev) : (helmStart c d).leg = d.leg := by
  unfold helmStart
  dsimp only
  split
  · simp
  · split
    · rfl
    all_goals grind [walk_leg, romFault_leg, Dev.coreU_leg, coreLeavesReset_leg]

/-! ## Reset -/

@[simp] theorem wdStart_leg (n : Fin 5) (d : Dev) : (wdStart n d).leg = d.leg := rfl

@[simp] theorem wdEnable_leg (n : Fin 5) (v : Word) (d : Dev) : (wdEnable n v d).leg = d.leg := by simp [wdEnable]

@[simp] theorem coreReset_leg (c : Fin 5) (d : Dev) : (coreReset c d).leg = d.leg := by simp -implicitDefEqProofs [coreReset]

@[simp] theorem wdExpire_leg (n : Fin 5) (d : Dev) : (wdExpire n d).leg = d.leg := by simp -implicitDefEqProofs [wdExpire]

@[simp] theorem wdReach_leg (n : Fin 5) (d : Dev) : (wdReach n d).leg = d.leg := by
  unfold wdReach
  split <;> simp -implicitDefEqProofs

@[simp] theorem wdWarn_leg (n : Fin 5) (d : Dev) : (wdWarn n d).leg = d.leg := by
  unfold wdWarn
  split <;> simp

@[simp] theorem wdFed_leg (n : Fin 5) (d : Dev) : (wdFed n d).leg = d.leg := by simp -implicitDefEqProofs [wdFed]

@[simp] theorem wdFeed_leg (by_ : Nat) (n : Fin 5) (v : Word) (d : Dev) : (wdFeed by_ n v d).leg = d.leg := by
  simp -implicitDefEqProofs [wdFeed]

@[simp] theorem wdWrite_leg (by_ : Nat) (n : Fin 5) (r : WdReg) (v : Word) (d : Dev) : (wdWrite by_ n r v d).leg = d.leg := by
  unfold wdWrite
  split <;> simp -implicitDefEqProofs

@[simp] theorem resetRelease_leg (head : Bool) (d : Dev) : (resetRelease head d).leg = d.leg := by
  unfold resetRelease
  split <;> simp

@[simp] theorem coreRunWrite_leg (by_ : Nat) (v : Word) (d : Dev) : (coreRunWrite by_ v d).leg = d.leg := by
  simp -implicitDefEqProofs [coreRunWrite]

@[simp] theorem bootWrite_leg (by_ : Nat) (r : SysReg) (v : Word) (d : Dev) : (bootWrite by_ r v d).leg = d.leg := by
  simp [bootWrite]

@[simp] theorem bootStatWrite_leg (by_ : Nat) (v : Word) (d : Dev) : (bootStatWrite by_ v d).leg = d.leg := by
  simp [bootStatWrite]

@[simp] theorem wdRestart_leg (c : Fin 5) (d : Dev) : (wdRestart c d).leg = d.leg := by simp [wdRestart]

@[simp] theorem sPark_leg (d : Dev) : (sPark d).leg = d.leg := rfl

@[simp] theorem sRestart_leg (d : Dev) : (sRestart d).leg = d.leg := by
  unfold sRestart
  dsimp only
  split <;> simp

@[simp] theorem coreResetEnd_leg (c : Fin 5) (d : Dev) : (coreResetEnd c d).leg = d.leg := by
  unfold coreResetEnd
  dsimp only
  repeat' split
  all_goals simp

@[simp] theorem shroudReady_leg (d : Dev) : (shroudReady d).leg = d.leg := by simp [shroudReady]

@[simp] theorem analogReady_leg (d : Dev) : (analogReady d).leg = d.leg := by simp [analogReady]

@[simp] theorem flashReady_leg (d : Dev) : (flashReady d).leg = d.leg := by simp [flashReady]

@[simp] theorem sramReady_leg (d : Dev) : (sramReady d).leg = d.leg := by simp [sramReady]

@[simp] theorem bootVerify_leg (a : List Bool) (d : Dev) : (bootVerify a d).2.leg = d.leg := by
  induction a generalizing d with
  | nil => rfl
  | cons a l ih =>
    unfold bootVerify
    dsimp only
    repeat' split
    all_goals simp -implicitDefEqProofs [ih]

@[simp] theorem bootBadHeader_leg (b : Bool) (d : Dev) : (bootBadHeader b d).leg = d.leg := by
  unfold bootBadHeader
  split <;> simp

@[simp] theorem sEnter_leg (entry : Word) (d : Dev) : (sEnter entry d).leg = d.leg := by
  unfold sEnter
  dsimp only
  split
  · simp
  all_goals grind [walk_leg, romFault_leg, Dev.coreU_leg, Dev.secU_leg]

@[simp] theorem bootRecover_leg (d : Dev) : (bootRecover d).leg = d.leg := rfl

@[simp] theorem sRestartEnd_leg (b open_ : Bool) (d : Dev) : (sRestartEnd b open_ d).leg = d.leg := by
  unfold sRestartEnd
  dsimp only
  split <;> simp

@[simp] theorem verEnd_leg (progOk : Bool × Bool) (d : Dev) : (verEnd progOk d).leg = d.leg := by
  unfold verEnd
  dsimp only
  repeat' split
  all_goals simp

/-! ## RegisterPath -/

@[simp] theorem coreWrite_leg (by_ : Requester) (c : Fin 5) (r : CoreReg) (v : Word) (d : Dev) :
    (coreWrite by_ c r v d).leg = d.leg := by
  unfold coreWrite
  split <;> simp

@[simp] theorem readNow_leg (by_ : Requester) (r : Reg) (d : Dev) : (readNow by_ r d).2.leg = d.leg := by
  unfold readNow
  split <;> simp

@[simp] theorem regWait_leg (by_ : Requester) (r : Reg) (v : Option Word) (d : Dev) : (regWait by_ r v d).leg = d.leg := rfl

@[simp] theorem dropBack_leg (by_ : Requester) (a : Nat) (d : Dev) : (dropBack by_ a d).leg = d.leg := by
  unfold dropBack
  split <;> simp

@[simp] theorem giveBack_leg (by_ : Requester) (a : Nat) (v : Word) (d : Dev) : (giveBack by_ a v d).leg = d.leg := by
  unfold giveBack
  split <;> simp

@[simp] theorem readReg_leg (by_ : Requester) (r : Reg) (d : Dev) : (readReg by_ r d).2.leg = d.leg := by
  unfold readReg
  repeat' split
  all_goals simp

@[simp] theorem wakeTimeout_leg (d : Dev) : (wakeTimeout d).leg = d.leg := by
  unfold wakeTimeout
  split <;> simp

/-! ## Act -/

@[simp] theorem asks_leg (by_ : Requester) (f : Dev → Dev) (d : Dev) (hf : ∀ e, (f e).leg = e.leg) :
    (asks by_ f d).leg = d.leg := by
  unfold asks
  repeat' split
  all_goals simp_all

@[simp] theorem regReadCmd_leg (by_ : Requester) (r : Reg) (d : Dev) : (regReadCmd by_ r d).leg = d.leg := by simp [regReadCmd]

@[simp] theorem readBy_leg (by_ : Requester) (r : Reg) (d : Dev) : (readBy by_ r d).leg = d.leg := by simp [readBy]

/-! ## Operands -/

@[simp] theorem fetchInstr_leg (c : Fin 5) (len : Nat) (d : Dev) : (fetchInstr c len d).2.leg = d.leg := by
  unfold fetchInstr
  split <;> simp

@[simp] theorem obFail_leg (d : Dev) : (obFail d).leg = d.leg := by simp [obFail]

@[simp] theorem obIssue_leg (c : Fin 5) (a : Nat) (d : Dev) : (obIssue c a d).leg = d.leg := by simp [obIssue]

@[simp] theorem storeWord_leg (c : Fin 5) (a : Nat) (mask v : Word) (d : Dev) : (storeWord c a mask v d).leg = d.leg := by
  simp [storeWord]

/-! ## Snapshot -/

@[simp] theorem hostAsk_leg (a : Nat) (d : Dev) : (hostAsk a d).leg = d.leg := by
  unfold hostAsk
  split <;> simp

@[simp] theorem hostWindowRead_leg (a : Nat) (d : Dev) : (hostWindowRead a d).2.leg = d.leg := by simp [hostWindowRead]

@[simp] theorem hostWord_leg (q : MemReq) (a : Nat) (d : Dev) : (hostWord q a d).2.leg = d.leg := by
  unfold hostWord
  dsimp only
  repeat' split
  all_goals simp

@[simp] theorem hostWords_leg (q : MemReq) (a : List Nat) (d : Dev) : (hostWords q a d).2.leg = d.leg := by
  induction a generalizing d with
  | nil => rfl
  | cons a l ih =>
    unfold hostWords
    dsimp only
    all_goals simp -implicitDefEqProofs [ih]

@[simp] theorem capUses_leg (r : Fin 16) (n : Int) (d : Dev) : (capUses r n d).leg = d.leg := rfl

@[simp] theorem capSnapDrop_leg (r : Fin 16) (a : Nat) (s : CapSnap) (d : Dev) : (capSnapDrop r a s d).leg = d.leg := by
  simp [capSnapDrop]

@[simp] theorem capSnapStep_leg (r : Fin 16) (k : Nat) (d : Dev) : (capSnapStep r k d).leg = d.leg := by
  induction k generalizing d with
  | zero => rfl
  | succ k ih =>
    unfold capSnapStep
    split
    · rfl
    · simp [ih]

@[simp] theorem capSnapGo_leg (r : Fin 16) (d : Dev) : (capSnapGo r d).leg = d.leg := by simp [capSnapGo]

@[simp] theorem capSnapAll_leg (d : Dev) : (capSnapAll d).leg = d.leg := by simp [capSnapAll]

@[simp] theorem capSnapStart_leg (r : Fin 16) (stamp : Nat) (tv : Bool) (d : Dev) : (capSnapStart r stamp tv d).leg = d.leg := by
  simp [capSnapStart]

@[simp] theorem capTaskSnap_leg (ch : Nat) (d : Dev) : (capTaskSnap ch d).leg = d.leg := by simp [capTaskSnap]

@[simp] theorem fifoResync_leg (f : Fifo) (d : Dev) : (fifoResync f d).leg = d.leg := by
  unfold fifoResync
  repeat' split
  all_goals simp

/-! ## Commands -/

@[simp] theorem hstDone_leg (c : Cmd) (st : Nat) (data : List Byte) (d : Dev) : (hstDone c st data d).leg = d.leg := by
  simp [hstDone]

@[simp] theorem hstStart_leg (op : Nat) (d : Dev) (f : Cmd → Dev → Dev) (hf : ∀ k e, (f k e).leg = e.leg) :
    (hstStart op d f).leg = d.leg := by
  unfold hstStart
  repeat' split
  all_goals simp_all

@[simp] theorem hstStartAt_leg (op : Nat) (d : Dev) (addrs : Cmd → List Nat) (f : Cmd → Dev → Dev)
    (hf : ∀ k e, (f k e).leg = e.leg) : (hstStartAt op d addrs f).leg = d.leg := by
  unfold hstStartAt
  repeat' split
  all_goals simp_all

@[simp] theorem cmdStatus_leg (d : Dev) : (cmdStatus d).leg = d.leg := by simp [cmdStatus]

@[simp] theorem readReply_leg (c : Cmd) (n : Nat) (d : Dev) : (readReply c n d).leg = d.leg := by simp [readReply]

@[simp] theorem cmdRead_leg (d : Dev) : (cmdRead d).leg = d.leg := by simp [cmdRead]

@[simp] theorem cmdReadBlock_leg (d : Dev) : (cmdReadBlock d).leg = d.leg := by simp [cmdReadBlock]

@[simp] theorem hstWriteAt_leg (op : Nat) (d : Dev) (addrs : Cmd → List Nat) (f : Cmd → Dev → Dev)
    (hf : ∀ k e, (f k e).leg = e.leg) : (hstWriteAt op d addrs f).leg = d.leg := by
  unfold hstWriteAt
  repeat' split
  all_goals simp_all

@[simp] theorem cmdEnumerate_leg (d : Dev) : (cmdEnumerate d).leg = d.leg := by simp [cmdEnumerate]

@[simp] theorem hstEnumCheck_leg (d : Dev) : (hstEnumCheck d).leg = d.leg := by
  unfold hstEnumCheck
  split <;> simp -implicitDefEqProofs

@[simp] theorem hstEnumTimeout_leg (d : Dev) : (hstEnumTimeout d).leg = d.leg := by
  unfold hstEnumTimeout
  split <;> simp -implicitDefEqProofs

@[simp] theorem cmdTimeSync_leg (d : Dev) : (cmdTimeSync d).leg = d.leg := by simp [cmdTimeSync]

@[simp] theorem cmdSnapshot_leg (d : Dev) : (cmdSnapshot d).leg = d.leg := by simp [cmdSnapshot]

@[simp] theorem calReply_leg (k : CalCmd) (d : Dev) : (calReply k d).leg = d.leg := by simp -implicitDefEqProofs [calReply]

@[simp] theorem hstCalCheck_leg (d : Dev) : (hstCalCheck d).leg = d.leg := by
  unfold hstCalCheck
  split <;> simp -implicitDefEqProofs

@[simp] theorem cmdCalibrate_leg (d : Dev) : (cmdCalibrate d).leg = d.leg := by simp [cmdCalibrate]

@[simp] theorem chunkDone_leg (k : ChunkCmd) (st : Nat) (d : Dev) : (chunkDone k st d).leg = d.leg := by
  simp -implicitDefEqProofs [chunkDone]

@[simp] theorem chunkStep_leg (d : Dev) : (chunkStep d).leg = d.leg := by
  unfold chunkStep
  dsimp only
  repeat' split
  all_goals simp -implicitDefEqProofs

@[simp] theorem chunkAfter_leg (d : Dev) : (chunkAfter d).leg = d.leg := by
  unfold chunkAfter
  split <;> simp -implicitDefEqProofs

@[simp] theorem cmdChunk_leg (d : Dev) : (cmdChunk d).leg = d.leg := by simp [cmdChunk]

@[simp] theorem cmdCommit_leg (d : Dev) : (cmdCommit d).leg = d.leg := by simp [cmdCommit]

@[simp] theorem cmdBadOpcode_leg (d : Dev) : (cmdBadOpcode d).leg = d.leg := by
  unfold cmdBadOpcode
  repeat' split
  all_goals simp

@[simp] theorem fwCopy_leg (b : List Byte) (d : Dev) : (fwCopy b d).leg = d.leg := by simp -implicitDefEqProofs [fwCopy]

@[simp] theorem cmdFirmware_leg (d : Dev) : (cmdFirmware d).leg = d.leg := by
  unfold cmdFirmware
  repeat' split
  all_goals simp

@[simp] theorem inRead_leg (q : Inbound) (d : Dev) : (inRead q d).leg = d.leg := by
  unfold inRead
  dsimp only
  repeat' split
  all_goals simp -implicitDefEqProofs

@[simp] theorem pcieWake_leg (d : Dev) : (pcieWake d).leg = d.leg := by simp [pcieWake]

/-- What an open outbound read leaves when it is taken. -/
theorem obTake_leg {d e : Dev} {c : Fin 5} {x : OutRead} (h : obTake d c = some (x, e)) : e.leg = d.leg := by
  simp only [obTake, Option.map_eq_some_iff, Prod.mk.injEq] at h
  obtain ⟨y, -, -, rfl⟩ := h
  simp

@[simp] theorem obComplete_leg (c : Fin 5) (v : Word) (ok poison : Bool) (d : Dev) :
    (obComplete c v ok poison d).leg = d.leg := by
  unfold obComplete
  split
  · rfl
  · next h => simpa using obTake_leg h

@[simp] theorem obTimeout_leg (c : Fin 5) (d : Dev) : (obTimeout c d).leg = d.leg := by
  unfold obTimeout
  split
  · rfl
  · next h => simpa using obTake_leg h

@[simp] theorem pcieClear_leg (d : Dev) : (pcieClear d).leg = d.leg := by simp -implicitDefEqProofs [pcieClear]

@[simp] theorem pcieReset_leg (low : Bool) (d : Dev) : (pcieReset low d).leg = d.leg := by simp [pcieReset]

/-! ## CmpRows -/

@[simp] theorem cmpWinEnd_leg (n : Fin 64) (trip : Bool) (d : Dev) : (cmpWinEnd n trip d).leg = d.leg := by
  unfold cmpWinEnd
  repeat' split
  all_goals simp

/-! ## CoreAlu -/

@[simp] theorem aluPut_leg (c : Fin 5) (a : Fin 16) (o : AluOut) (d : Dev) : (aluPut c a o d).leg = d.leg := rfl

@[simp] theorem aluFlags_leg (c : Fin 5) (o : AluOut) (d : Dev) : (aluFlags c o d).leg = d.leg := rfl

/-! ## CoreMem -/

@[simp] theorem memPost_leg (c : Fin 5) (size : Nat) (d : Dev) (a : MemForm) : (memPost c size d a).leg = d.leg := by
  unfold memPost
  split <;> simp

/-! ## CoreCtl -/

@[simp] theorem jump_leg (c : Fin 5) (target : Nat) (d : Dev) : (jump c target d).leg = d.leg := rfl

/-! ## CoreMul -/

@[simp] theorem productRead_leg (c : Fin 5) (d : Dev) : (productRead c d).2.leg = d.leg := by
  unfold productRead
  split <;> simp

@[simp] theorem mulStart_leg (c : Fin 5) (f : BitVec 64 → BitVec 64) (d : Dev) : (mulStart c f d).leg = d.leg := rfl

/-! ## CoreSys -/

@[simp] theorem sprRead_leg (c : Fin 5) (r : Spr) (d : Dev) : (sprRead c r d).2.leg = d.leg := by
  unfold sprRead
  split <;> simp

/-! ## LinkRows -/

@[simp] theorem lnkAct_leg {f : Dev → Dev} (d : Dev) : (lnkAct f d).leg = (f d).leg := by simp [lnkAct]

@[simp] theorem lnkFrameIn_leg (p : Fin 2) (dst src kind crc : Option Byte) (bytes : List Byte) (aborted : Bool) (d : Dev) :
    (lnkFrameIn p dst src kind crc bytes aborted d).leg = d.leg := by
  unfold lnkFrameIn
  have h := lnkPacket_leg p dst src kind crc bytes aborted d
  split <;> next he => rw [he] at h; simpa using h

/-! ## LoopRows -/

@[simp] theorem leMemCmd_leg (n k : Fin 64) (v : Word) (d : Dev) : (leMemCmd n k v d).leg = d.leg := by simp [leMemCmd]

/-! ## PkgRows -/

@[simp] theorem jtagObserve_leg (d : Dev) : (jtagObserve d).leg = d.leg := rfl

@[simp] theorem jtagTake_leg (f : Dev → Dev) (d : Dev) (hf : ∀ e, (f e).leg = e.leg) : (jtagTake f d).leg = d.leg := by
  unfold jtagTake
  repeat' split
  all_goals simp_all

@[simp] theorem jtagExtest_leg (cells : BitVec 12) (d0 : Dev) : (jtagExtest cells d0).leg = d0.leg := by simp [jtagExtest]

@[simp] theorem jtagSample_leg (cells : BitVec 12) (d0 : Dev) : (jtagSample cells d0).leg = d0.leg := rfl

@[simp] theorem jtagIr_leg (i : JtagIr) (d : Dev) : (jtagIr i d).leg = d.leg := rfl

@[simp] theorem jtagTrst_leg (d : Dev) : (jtagTrst d).leg = d.leg := rfl

@[simp] theorem bankLatch_leg (k : Fin 4) (v33 : Bool) (d : Dev) : (bankLatch k v33 d).leg = d.leg := by
  unfold bankLatch
  repeat' split
  all_goals simp

/-! ## PosRows -/

@[simp] theorem posInputs_leg (n : Fin 8) (a b z : Bool) (t held : Nat) (d : Dev) : (posInputs n a b z t held d).leg = d.leg := by
  simp [posInputs]

@[simp] theorem posTask_leg (ch : Nat) (d : Dev) : (posTask ch d).leg = d.leg := by simp [posTask]

@[simp] theorem posLate_leg (n : Fin 8) (d : Dev) : (posLate n d).leg = d.leg := by
  unfold posLate
  split <;> simp -implicitDefEqProofs

/-! ## ResetRows -/

@[simp] theorem releaseKind_leg (por head : Bool) (d : Dev) : (releaseKind por head d).leg = d.leg := by
  unfold releaseKind
  split <;> simp

/-! ## Idle -/

@[simp] theorem Dev.tick_leg (d : Dev) : (Dev.tick d).leg = d.leg := rfl

end Sys2Proof.Machine
end


section
/-!
SUPPORT. The legs stay apart: no action on the device turns on both switches of a leg (R19, R66, R235), in the order of the model.
-/
set_option Elab.async false
namespace Sys2Proof.Machine
open Sys2Proof

/-- The two switches of a leg are not on together. -/
def LegSt.Apart (g : LegSt) : Prop := ¬ (g.hi.on = true ∧ g.lo.on = true)

/-- No leg has both its switches on: what every step keeps (R19, R66, R235). -/
def Exclusive (v : Vector LegSt 96) : Prop := ∀ n : Fin 96, v[n].Apart

@[simp] theorem Exclusive.ite_leg {c : Prop} [Decidable c] {d e : Vector LegSt 96} (hd : Exclusive d) (he : Exclusive e) :
    Exclusive (if c then d else e) := by split <;> assumption

theorem LegSt.Apart.of_le {g k : LegSt} (h : g.Apart) (hi : k.hi.on = true → g.hi.on = true)
    (lo : k.lo.on = true → g.lo.on = true) : k.Apart := fun ⟨a, b⟩ => h ⟨hi a, lo b⟩

/-- A change of one leg after which that leg's switches are apart. -/
theorem Dev.legU_exclusive_of {d : Dev} {n : Fin 96} {f : LegSt → LegSt} (h : Exclusive d.leg) (hf : (f d.leg[n]).Apart) :
    Exclusive (d.legU n f).leg := by
  intro m
  simp only [Dev.legU, Fin.getElem_fin, Vector.getElem_set]
  split
  · exact hf
  · exact h m

/-- A change of one leg that turns no switch on. -/
@[simp] theorem Dev.legU_exclusive {d : Dev} {n : Fin 96} {f : LegSt → LegSt} (h : Exclusive d.leg)
    (hi : (f d.leg[n]).hi.on = true → d.leg[n].hi.on = true) (lo : (f d.leg[n]).lo.on = true → d.leg[n].lo.on = true) :
    Exclusive (d.legU n f).leg := Dev.legU_exclusive_of h ((h n).of_le hi lo)

theorem Dev.each_exclusive {α : Type} {l : List α} {f : α → Dev → Dev} {d : Dev} (h : Exclusive d.leg)
    (hf : ∀ a ∈ l, ∀ e : Dev, Exclusive e.leg → Exclusive (f a e).leg) : Exclusive (d.each l f).leg := by
  induction l generalizing d with
  | nil => exact h
  | cons a l ih => exact ih (hf a (by simp) d h) fun b hb => hf b (by simp [hb])

@[simp] theorem LegSt.setTr_hi (g : LegSt) (w : Sw) (x : AdtTr) : (g.setTr w x).hi = g.hi := by cases w <;> rfl

@[simp] theorem LegSt.setTr_lo (g : LegSt) (w : Sw) (x : AdtTr) : (g.setTr w x).lo = g.lo := by cases w <;> rfl

/-- A new state of one switch that is on only where the old one was turns nothing on. -/
theorem LegSt.setSw_hi_on {g : LegSt} {w : Sw} {x : SwSt} (hx : x.on = true → (g.sw w).on = true)
    (h : (g.setSw w x).hi.on = true) : g.hi.on = true := by
  cases w
  · exact hx h
  · exact h

theorem LegSt.setSw_lo_on {g : LegSt} {w : Sw} {x : SwSt} (hx : x.on = true → (g.sw w).on = true)
    (h : (g.setSw w x).lo.on = true) : g.lo.on = true := by
  cases w
  · exact h
  · exact hx h

/-- A switch may take any state while the other one is off. -/
theorem LegSt.setSw_apart {g : LegSt} {w : Sw} {x : SwSt} (h : (g.sw w.other).on = false) : (g.setSw w x).Apart := by
  cases w <;> simp_all [LegSt.Apart, LegSt.setSw, LegSt.sw, Sw.other]

/-! ## Ops -/

@[simp] theorem Dev.asOf_exclusive {d : Dev} {t : Nat} {g : Dev → Dev} (hg : ∀ e, Exclusive e.leg → Exclusive (g e).leg)
    (h : Exclusive d.leg) : Exclusive (Dev.asOf d t g).leg := by
  grind [Dev.asOf, Dev.at_leg]

/-! ## Comparator -/

@[simp] theorem adtCrossOne_exclusive {m : Fin 64} {level : Bool} {stampAt ts : Nat} {n : Fin 96} {d : Dev}
    (h : Exclusive d.leg) : Exclusive (adtCrossOne m level stampAt ts n d).leg := by
  unfold adtCrossOne
  dsimp only
  repeat' split
  all_goals simp -implicitDefEqProofs [h]

@[simp] theorem cmpFset_exclusive {n : Fin 64} {r : CmpRun} {ready : Nat} {d : Dev} (h : Exclusive d.leg) :
    Exclusive (cmpFset n r ready d).leg := by
  grind [cmpFset, Dev.bumpFree_leg, Dev.setB_leg, Dev.each_exclusive, adtCrossOne_exclusive, cmpQset_leg]

/-! ## Leg -/

@[simp] theorem legOff_exclusive {n : Fin 96} {w : Sw} {t : Nat} {d : Dev} (h : Exclusive d.leg) :
    Exclusive (legOff n w t d).leg := by
  unfold legOff
  dsimp only
  split
  · rw [cmpLegEdge_leg]
    refine Dev.legU_exclusive h (fun hi => ?_) (fun lo => ?_)
    · refine LegSt.setSw_hi_on (w := w) (x := { (d.leg[n].sw w).turn false t with offAt := some t }) (by simp [SwSt.turn]) ?_
      split at hi <;> simpa using hi
    · refine LegSt.setSw_lo_on (w := w) (x := { (d.leg[n].sw w).turn false t with offAt := some t }) (by simp [SwSt.turn]) ?_
      split at lo <;> simpa using lo
  · exact h

@[simp] theorem adtShut_exclusive {n : Fin 96} {w : Sw} {t : Nat} {d : Dev} (h : Exclusive d.leg) :
    Exclusive (adtShut n w t d).leg := by simp [adtShut, h]

@[simp] theorem legUnpend_exclusive {n : Fin 96} {d : Dev} (h : Exclusive d.leg) : Exclusive (legUnpend n d).leg := by
  unfold legUnpend
  split <;> simp [h]

@[simp] theorem legDark_exclusive {n : Fin 96} {t : Nat} {d : Dev} (h : Exclusive d.leg) : Exclusive (legDark n t d).leg :=
  Dev.legU_exclusive (legOff_exclusive (legOff_exclusive (legUnpend_exclusive h))) id id

@[simp] theorem legBothOff_exclusive {n : Fin 96} {t : Nat} {d : Dev} (h : Exclusive d.leg) :
    Exclusive (legBothOff n t d).leg := adtShut_exclusive (adtShut_exclusive (legDark_exclusive h))

@[simp] theorem legCutCount_exclusive {n : Fin 96} {w : Sw} {d : Dev} (h : Exclusive d.leg) :
    Exclusive (legCutCount n w d).leg := by
  unfold legCutCount
  refine Dev.legU_exclusive ?_ (LegSt.setSw_hi_on ?_) (LegSt.setSw_lo_on ?_)
  · simp [h]
  · exact id
  · exact id

/-- The one place where a switch turns on: the interlock has seen the other one off (R235). -/
@[simp] theorem legOn_exclusive {n : Fin 96} {w : Sw} {t : Nat} {d : Dev} (h : Exclusive d.leg) :
    Exclusive (legOn n w t d).leg := by
  cases other : (d.leg[n].sw w.other).on
  · have turned (x : SwSt) : Exclusive (d.legU n fun g => g.setSw w x).leg := Dev.legU_exclusive_of h (LegSt.setSw_apart other)
    unfold legOn
    dsimp only
    repeat' split
    all_goals simp [h]
    all_goals exact turned _
  · simp only [legOn, other, Bool.true_or, if_true]
    simp [h]

@[simp] theorem legDtFrom_exclusive {n : Fin 96} {t : Nat} {d : Dev} (h : Exclusive d.leg) : Exclusive (legDtFrom n t d).leg := by
  refine Dev.legU_exclusive h ?_ ?_ <;> split <;> exact id

@[simp] theorem legFire_exclusive {n : Fin 96} {d : Dev} (h : Exclusive d.leg) : Exclusive (legFire n d).leg := by
  unfold legFire
  dsimp only
  repeat' split
  all_goals simp -implicitDefEqProofs [h]

@[simp] theorem legCut_exclusive {n : Fin 96} {w : Sw} {d : Dev} (h : Exclusive d.leg) : Exclusive (legCut n w d).leg := by
  unfold legCut
  dsimp only
  repeat' split
  all_goals simp -implicitDefEqProofs [h]

@[simp] theorem legCatch_exclusive {n : Fin 96} {t : Nat} {d : Dev} (h : Exclusive d.leg) : Exclusive (legCatch n t d).leg := by
  grind [legCatch, legFire_exclusive, legCutCount_exclusive, legOff_exclusive]

/-- A dead-time and a cleared mark turn no switch on. -/
@[simp] theorem legPend_exclusive {n : Fin 96} {w : Sw} {base : Nat} {d : Dev} (h : Exclusive d.leg) :
    Exclusive (legPend n w base d).leg := by
  unfold legPend
  refine Dev.legU_exclusive ?_ (LegSt.setSw_hi_on ?_) (LegSt.setSw_lo_on ?_)
  · split
    · exact h
    · exact legUnpend_exclusive h
  · exact id
  · exact id

@[simp] theorem legCmd_exclusive {n : Fin 96} {v : Bool} {t : Nat} {d : Dev} (h : Exclusive d.leg) :
    Exclusive (legCmd n v t d).leg := by
  have caught : Exclusive (legCatch n t d).leg := legCatch_exclusive h
  unfold legCmd
  dsimp only
  split
  · exact caught
  · exact legPend_exclusive (legOff_exclusive (Dev.legU_exclusive caught id id))

@[simp] theorem legEmit_exclusive {n : Fin 96} {e : Edge} {t : Nat} {d : Dev} (hd : Exclusive d.leg) :
    Exclusive (legEmit n e t d).leg := by
  unfold legEmit
  repeat' split
  all_goals simp [hd]

@[simp] theorem legSettle_exclusive {n : Fin 96} {t : Nat} {first : Bool} {d : Dev} (h : Exclusive d.leg) :
    Exclusive (legSettle n t first d).leg := by
  have shown : Exclusive ((legCatch n t d).setF (.leg n .stat) LEG_STAT.STATE (legState (legCatch n t d) n)).leg := by
    simp [h]
  have off (w : Sw) := legOff_exclusive (n := n) (w := w) (t := t) shown
  unfold legSettle
  dsimp only
  repeat' split
  all_goals grind [legPend_exclusive, legUnpend_exclusive, legDark_exclusive, legBothOff_exclusive, Dev.legU_exclusive]

@[simp] theorem legRefresh_exclusive {n : Fin 96} {d : Dev} (h : Exclusive d.leg) : Exclusive (legRefresh n d).leg :=
  legSettle_exclusive h

@[simp] theorem legDtLoad_exclusive {n : Fin 96} {d : Dev} (h : Exclusive d.leg) : Exclusive (legDtLoad n d).leg := by
  unfold legDtLoad
  dsimp only
  repeat' split
  all_goals simp -implicitDefEqProofs [h]

@[simp] theorem legAdapt_exclusive {n : Fin 96} {t : Nat} {d : Dev} (h : Exclusive d.leg) : Exclusive (legAdapt n t d).leg := by
  unfold legAdapt
  dsimp only
  repeat' split
  all_goals simp -implicitDefEqProofs [h]

@[simp] theorem legReefEnd_exclusive {n : Fin 96} {d : Dev} (h : Exclusive d.leg) : Exclusive (legReefEnd n d).leg := by
  simp [legReefEnd, h]

@[simp] theorem legCommitAt_exclusive {n : Fin 96} {vals : LegVals} {tc : Nat} {d0 : Dev} (h : Exclusive d0.leg) :
    Exclusive (legCommitAt n vals tc d0).leg := by
  grind [legCommitAt, legCatch_exclusive, legPut_leg, Dev.legU_exclusive, Dev.setF_leg, Dev.bump_leg, Dev.flag_leg]

@[simp] theorem legCommit_exclusive {n : Fin 96} {vals : LegVals} {d : Dev} (h : Exclusive d.leg) :
    Exclusive (legCommit n vals d).leg := by
  simp [legCommit, h]

@[simp] theorem legDeferred_exclusive {n : Fin 96} {t : Nat} {d : Dev} (h : Exclusive d.leg) :
    Exclusive (legDeferred n t d).leg := by
  grind [legDeferred, Dev.each_exclusive, Dev.legU_exclusive, legCommitAt_exclusive]

@[simp] theorem legLoad_exclusive {n : Fin 96} {b : Fin 32} {d : Dev} (h : Exclusive d.leg) : Exclusive (legLoad n b d).leg := by
  simp [legLoad, h]

@[simp] theorem legLeftOver_exclusive {n : Fin 96} {t : Nat} {d : Dev} (hd : Exclusive d.leg) :
    Exclusive (legLeftOver n t d).leg := by
  unfold legLeftOver
  dsimp only
  repeat' split
  all_goals simp -implicitDefEqProofs [hd]

@[simp] theorem legPeriod_exclusive {n : Fin 96} {b : Fin 32} {t : Nat} {first : Bool} {d0 : Dev} (hd : Exclusive d0.leg) :
    Exclusive (legPeriod n b t first d0).leg := by
  grind [legPeriod, legDtFrom_exclusive, legCatch_exclusive, legLeftOver_exclusive, Dev.legU_exclusive, Dev.setF_leg, Dev.setB_leg,
    legReefEnd_exclusive, legAdapt_exclusive, legSettle_exclusive, legPend_exclusive, legDark_exclusive, legCmd_exclusive,
      legDeferred_exclusive]

@[simp] theorem legTbStop_exclusive {n : Fin 96} {t : Nat} {d0 : Dev} (h : Exclusive d0.leg) :
    Exclusive (legTbStop n t d0).leg := by
  grind [legTbStop, Dev.each_exclusive, legBothOff_exclusive, legCatch_exclusive, legPut_leg, Dev.legU_exclusive, Dev.setB_leg,
    legReefEnd_exclusive, legDtLoad_exclusive, Dev.setF_leg]

@[simp] theorem legReef_exclusive {n : Fin 96} {c : Nat} {d : Dev} (h : Exclusive d.leg) : Exclusive (legReef n c d).leg := by
  simp [legReef, h]

@[simp] theorem legUnreef_exclusive {n : Fin 96} {c : Nat} {d : Dev} (h : Exclusive d.leg) : Exclusive (legUnreef n c d).leg := by
  unfold legUnreef
  repeat' split
  all_goals simp [h]

@[simp] theorem legHold_exclusive {n : Fin 96} {c : Nat} {d : Dev} (h : Exclusive d.leg) : Exclusive (legHold n c d).leg :=
  legRefresh_exclusive h

@[simp] theorem legForceOff_exclusive {n : Fin 96} {d : Dev} (hd : Exclusive d.leg) : Exclusive (legForceOff n d).leg := by
  grind [legForceOff, legRefresh_exclusive, Dev.legU_exclusive, Dev.flag_leg]

@[simp] theorem legRelease_exclusive {n : Fin 96} {d : Dev} (hd : Exclusive d.leg) : Exclusive (legRelease n d).leg := by
  grind [legRelease, Dev.legU_exclusive, legRefresh_exclusive, Dev.setB_leg]

@[simp] theorem legRunSet_exclusive {n : Fin 96} {v : Bool} {d : Dev} (hd : Exclusive d.leg) :
    Exclusive (legRunSet n v d).leg := by
  unfold legRunSet
  dsimp only
  repeat' split
  all_goals simp -implicitDefEqProofs [hd]

@[simp] theorem legWriteCmp_exclusive {n : Fin 96} {c : LegCmp} {v : Word} {d : Dev} (h : Exclusive d.leg) :
    Exclusive (legWriteCmp n c v d).leg := by
  unfold legWriteCmp
  repeat' split
  all_goals simp [h]

@[simp] theorem legCommitStaged_exclusive {n : Fin 96} {d : Dev} (hd : Exclusive d.leg) :
    Exclusive (legCommitStaged n d).leg := by
  grind [legCommitStaged, Dev.legU_exclusive, legCommit_exclusive, legRunSet_exclusive]

@[simp] theorem legWriteCtl_exclusive {n : Fin 96} {v : Word} {d : Dev} (h : Exclusive d.leg) :
    Exclusive (legWriteCtl n v d).leg := by
  unfold legWriteCtl
  extract_lets old off keep differs guard v1 stage runNew runOld d1 on d2 d3 d4 g held c x d5 d6
  have h1 : Exclusive d1.leg := by simpa [d1] using h
  have h2 : Exclusive d2.leg := by
    simp only [d2]
    split <;> simp [h1]
  have h3 : Exclusive d3.leg := by
    simp only [d3]
    repeat' split
    all_goals simp [h2]
  have h4 : Exclusive d4.leg := by
    simp only [d4]
    split <;> simp [h3]
  have hx : Exclusive x.leg := h4
  have h5 : Exclusive d5.leg := by
    simp only [d5]
    repeat' split
    all_goals simp [hx, h4]
  have h6 : Exclusive d6.leg := by
    simp only [d6]
    repeat' split
    all_goals simp [h5]
  repeat' split
  all_goals simp [h6]

@[simp] theorem legWriteDt_exclusive {n : Fin 96} {v : Word} {d : Dev} (h : Exclusive d.leg) :
    Exclusive (legWriteDt n v d).leg := by
  unfold legWriteDt
  dsimp only
  repeat' split
  all_goals simp -implicitDefEqProofs [h]

@[simp] theorem legWriteAdt_exclusive {n : Fin 96} {v : Word} {d : Dev} (h : Exclusive d.leg) :
    Exclusive (legWriteAdt n v d).leg := by
  unfold legWriteAdt
  dsimp only
  repeat' split
  all_goals simp -implicitDefEqProofs [h]

@[simp] theorem legWriteStat_exclusive {n : Fin 96} {v : Word} {d : Dev} (hd : Exclusive d.leg) :
    Exclusive (legWriteStat n v d).leg := by
  unfold legWriteStat
  dsimp only
  repeat' split
  all_goals simp -implicitDefEqProofs [hd]

@[simp] theorem legWrite_exclusive {n : Fin 96} {r : LegReg} {v : Word} {d : Dev} (h : Exclusive d.leg) :
    Exclusive (legWrite n r v d).leg := by
  cases r <;> simp [legWrite, h]

/-! ## Timebase -/

@[simp] theorem tbLoad_exclusive {b : Fin 32} {d : Dev} (h : Exclusive d.leg) : Exclusive (tbLoad b d).leg := by
  grind [tbLoad, Dev.each_exclusive, Dev.tbU_leg, Dev.bumpFree_leg, legLoad_exclusive, Dev.flagIf_leg]

@[simp] theorem tbGo_exclusive {b : Fin 32} {t p : Nat} {d : Dev} (hd : Exclusive d.leg) : Exclusive (tbGo b t p d).leg := by
  grind [tbGo, Dev.at_leg, Dev.setF_leg, Dev.setB_leg, Dev.flag_leg, Dev.tbU_leg, tbDiscipline_leg, tbStartEvent_leg,
    Dev.each_exclusive, legPeriod_exclusive, posPathAll_leg, cmpPathAll_leg]

@[simp] theorem tbArm_exclusive {b : Fin 32} {d : Dev} (hd : Exclusive d.leg) : Exclusive (tbArm b d).leg := by
  unfold tbArm
  repeat' split
  all_goals simp [hd]

@[simp] theorem tbStart_exclusive {b : Fin 32} {d : Dev} (hd : Exclusive d.leg) : Exclusive (tbStart b d).leg := by
  unfold tbStart
  repeat' split
  all_goals simp [hd]

@[simp] theorem tbHalt_exclusive {b : Fin 32} {t : Nat} {d : Dev} (h : Exclusive d.leg) : Exclusive (tbHalt b t d).leg := by
  grind [tbHalt, Dev.each_exclusive, legTbStop_exclusive, Dev.setB_leg, Dev.setF_leg, Dev.tbU_leg, tbLine_leg, posPathAll_leg,
    cmpPathAll_leg, adcTbStopAll_leg]

@[simp] theorem tbStopAt_exclusive {b : Fin 32} {t : Nat} {d : Dev} (h : Exclusive d.leg) : Exclusive (tbStopAt b t d).leg := by
  grind [tbStopAt, Dev.each_exclusive, tbHalt_exclusive, Dev.setB_leg, Dev.tbU_leg, Dev.flag_leg]

@[simp] theorem tbStop_exclusive {b : Fin 32} {d : Dev} (h : Exclusive d.leg) : Exclusive (tbStop b d).leg := by
  unfold tbStop
  dsimp only
  repeat' split
  all_goals simp -implicitDefEqProofs [h]

@[simp] theorem tbPeriod_exclusive {b : Fin 32} {d : Dev} (hd : Exclusive d.leg) : Exclusive (tbPeriod b d).leg := by
  grind [tbPeriod, tbLoad_exclusive, Dev.at_leg, tbStopAt_exclusive, Dev.setF_leg, Dev.bumpFree_leg, Dev.tbU_leg, tbDiscipline_leg,
    tbStartEvent_leg, Dev.each_exclusive, legPeriod_exclusive]

@[simp] theorem tbFollow_exclusive {b : Fin 32} {d : Dev} (hd : Exclusive d.leg) : Exclusive (tbFollow b d).leg := by
  unfold tbFollow
  dsimp only
  repeat' split
  all_goals simp -implicitDefEqProofs [hd]

@[simp] theorem tbChainStart_exclusive {b : Fin 32} {d : Dev} (hd : Exclusive d.leg) : Exclusive (tbChainStart b d).leg := by
  unfold tbChainStart
  repeat' split
  all_goals simp [hd]

@[simp] theorem tbTask_exclusive {ch : Nat} {d : Dev} (hd : Exclusive d.leg) : Exclusive (tbTask ch d).leg := by
  grind [tbTask, Dev.each_exclusive, Dev.asOf_exclusive, Dev.tbU_leg, tbArm_exclusive]

@[simp] theorem tbWriteCtl_exclusive {b : Fin 32} {v : Word} {d : Dev} (hd : Exclusive d.leg) :
    Exclusive (tbWriteCtl b v d).leg := by
  unfold tbWriteCtl
  dsimp only
  repeat' split
  all_goals simp -implicitDefEqProofs [hd]

@[simp] theorem tbWrite_exclusive {b : Fin 32} {r : TbReg} {v : Word} {d : Dev} (hd : Exclusive d.leg) :
    Exclusive (tbWrite b r v d).leg := by
  unfold tbWrite
  repeat' split
  all_goals simp [hd]

@[simp] theorem tbGstart_exclusive {mask : Nat} {d : Dev} (hd : Exclusive d.leg) : Exclusive (tbGstart mask d).leg := by
  grind [tbGstart, Dev.each_exclusive, Dev.asOf_exclusive, Dev.setB_leg, tbStart_exclusive]

@[simp] theorem tbGstop_exclusive {mask : Nat} {d : Dev} (h : Exclusive d.leg) : Exclusive (tbGstop mask d).leg := by
  grind [tbGstop, Dev.each_exclusive, Dev.asOf_exclusive, Dev.setB_leg, tbStop_exclusive]

@[simp] theorem tbgWrite_exclusive {r : TbgReg} {v : Word} {d : Dev} (h : Exclusive d.leg) : Exclusive (tbgWrite r v d).leg := by
  cases r with
  | tbgstart => exact tbGstart_exclusive h
  | tbgstop => exact tbGstop_exclusive h
  | tbrun => exact h
  | legcommit k => exact Dev.each_exclusive h fun _ _ _ => legCommitStaged_exclusive

@[simp] theorem tbPllLoss_exclusive {pllB : Bool} {d : Dev} (h : Exclusive d.leg) : Exclusive (tbPllLoss pllB d).leg := by
  grind [tbPllLoss, Dev.pulse_leg, Dev.flag_leg, tbStopAt_exclusive, Dev.each_exclusive]

@[simp] theorem tbPllLock_exclusive {pllB : Bool} {d : Dev} (hd : Exclusive d.leg) : Exclusive (tbPllLock pllB d).leg := by
  grind [tbPllLock, Dev.each_exclusive, tbArm_exclusive, Dev.tbU_leg]

/-! ## LoopEngine -/

@[simp] theorem leFieldSet_exclusive {on : Bool} {f : LeField} {d : Dev} (h : Exclusive d.leg) :
    Exclusive (leFieldSet on f d).leg := by
  unfold leFieldSet
  dsimp only
  repeat' split
  all_goals simp -implicitDefEqProofs [h]

@[simp] theorem leEnable_exclusive {n : Fin 64} {d : Dev} (h : Exclusive d.leg) : Exclusive (leEnable n d).leg := by
  grind [leEnable, Dev.flag_leg, Dev.each_exclusive, leFieldSet_exclusive, Dev.leU_leg, Dev.setB_leg]

@[simp] theorem leUnder_exclusive {n : Fin 64} {snap : List (LeReg × Word)} {own : LeReg → Bool} {g : Dev → Dev} {d : Dev}
    (hg : ∀ e, Exclusive e.leg → Exclusive (g e).leg) (h : Exclusive d.leg) : Exclusive (leUnder n snap own g d).leg := by
  grind [leUnder, lePutRegs_leg]

@[simp] theorem leCapture_exclusive {n : Fin 64} {d : Dev} (h : Exclusive d.leg) : Exclusive (leCapture n d).leg := by
  grind [leCapture, Dev.leU_leg, Dev.each_exclusive, legCommit_exclusive, Dev.tagBack_leg, lePutPeriod_leg, Dev.raiseIf_leg, capLe_leg]

@[simp] theorem leCaptureAll_exclusive {n : Fin 64} {k : Nat} {d : Dev} (h : Exclusive d.leg) :
    Exclusive (leCaptureAll n k d).leg := by
  induction k generalizing d with
  | zero => exact h
  | succ k ih =>
    unfold leCaptureAll
    split
    · exact h
    · exact ih (leCapture_exclusive h)

@[simp] theorem leDisable_exclusive {n : Fin 64} {d : Dev} (h : Exclusive d.leg) : Exclusive (leDisable n d).leg := by
  have dropped : Exclusive (leAbandon n (if lePaired d n then leAbandon (leMate n) d else d)).leg := by simp [h]
  exact Dev.each_exclusive (leCaptureAll_exclusive dropped) fun _ _ _ => leFieldSet_exclusive

@[simp] theorem leWriteCtl_exclusive {n : Fin 64} {v : Word} {d : Dev} (hd : Exclusive d.leg) :
    Exclusive (leWriteCtl n v d).leg := by
  unfold leWriteCtl
  dsimp only
  repeat' split
  all_goals simp -implicitDefEqProofs [hd]

@[simp] theorem leWrite_exclusive {n : Fin 64} {r : LeReg} {v : Word} {d : Dev} (hd : Exclusive d.leg) :
    Exclusive (leWrite n r v d).leg := by
  unfold leWrite
  repeat' split
  all_goals simp [hd]

/-! ## Fabric -/

@[simp] theorem fabTogether_exclusive {c : Fin 256} {e : Nat} {act : Dev → Dev} {d : Dev}
    (hact : ∀ e, Exclusive e.leg → Exclusive (act e).leg) (h : Exclusive d.leg) : Exclusive (fabTogether c e act d).leg := by
  grind [fabTogether, Dev.asOf_exclusive]

@[simp] theorem fabTask_exclusive {k : TaskKind} {c : Fin 256} {act : Dev → Dev} {d : Dev}
    (hact : ∀ e, Exclusive e.leg → Exclusive (act e).leg) (h : Exclusive d.leg) : Exclusive (fabTask k c act d).leg := by
  grind [fabTask, Dev.at_leg, fabTogether_exclusive]

/-! ## Fault -/

@[simp] theorem legOverCut_exclusive {n : Fin 96} {t : Nat} {d : Dev} (h : Exclusive d.leg) :
    Exclusive (legOverCut n t d).leg := by
  grind [legOverCut, legCutCount_exclusive, legOff_exclusive]

@[simp] theorem legReefNow_exclusive {n : Fin 96} {c : Nat} {d : Dev} (h : Exclusive d.leg) :
    Exclusive (legReefNow n c d).leg := by
  grind [legReefNow, legOverCut_exclusive, legReef_exclusive, legCatch_exclusive]

@[simp] theorem fcAct_exclusive {c : Fin 16} {el legs : Nat} {d : Dev} (h : Exclusive d.leg) :
    Exclusive (fcAct c el legs d).leg := by
  have reefed (l : List (Fin 96)) : Exclusive (d.each l fun n => legReefNow n c.val).leg :=
    Dev.each_exclusive h fun _ _ _ => legReefNow_exclusive
  have held (l : List (Fin 96)) {e : Dev} (he : Exclusive e.leg) : Exclusive (e.each l fun n => legHold n c.val).leg :=
    Dev.each_exclusive he fun _ _ _ => legHold_exclusive
  grind [fcAct, Dev.setF_leg]

@[simp] theorem fcRaise_exclusive {c : Fin 16} {old el : Nat} {wait : Bool} {d : Dev} (hd : Exclusive d.leg) :
    Exclusive (fcRaise c old el wait d).leg := by
  simp [fcRaise, hd]

@[simp] theorem fcOccur_exclusive {c : Fin 16} {ls : List Nat} {d : Dev} (hd : Exclusive d.leg) :
    Exclusive (fcOccur c ls d).leg := by
  unfold fcOccur
  dsimp only
  repeat' split
  all_goals simp -implicitDefEqProofs [hd]

@[simp] theorem fcCapture_exclusive {d0 : Dev} (hd : Exclusive d0.leg) : Exclusive (fcCapture d0).leg := by
  grind [fcCapture, Dev.at_leg, Dev.each_exclusive, Dev.setBit_leg, Dev.fcU_leg, fcOccur_exclusive, fcRecords_leg]

@[simp] theorem fcCycle_exclusive {d : Dev} (hd : Exclusive d.leg) : Exclusive (fcCycle d).leg := by simp [fcCycle, hd]

@[simp] theorem fcAckOne_exclusive {c : Fin 16} {d : Dev} (h : Exclusive d.leg) : Exclusive (fcAckOne c d).leg := by
  grind [fcAckOne, Dev.flag_leg, Dev.each_exclusive, Dev.fcU_leg, Dev.put_leg, legUnreef_exclusive]

@[simp] theorem fcAck_exclusive {v : Word} {d : Dev} (h : Exclusive d.leg) : Exclusive (fcAck v d).leg := by
  grind [fcAck, tollResume_leg, Dev.each_exclusive, fcAckOne_exclusive]

@[simp] theorem shRelease_exclusive {k : Fin 3} {v : Word} {d : Dev} (hd : Exclusive d.leg) :
    Exclusive (shRelease k v d).leg := by
  grind [shRelease, Dev.each_exclusive, legRefresh_exclusive, Dev.setB_leg, Dev.setF_leg, Dev.flag_leg]

@[simp] theorem cmpTrip_exclusive {m : Fin 64} {d : Dev} (h : Exclusive d.leg) : Exclusive (cmpTrip m d).leg := by
  unfold cmpTrip
  split
  · exact h
  · rw [Dev.lineOn_leg]
    exact Dev.each_exclusive (by simp [h]) fun _ _ _ => legHold_exclusive

@[simp] theorem catchUp_exclusive {d : Dev} (h : Exclusive d.leg) : Exclusive (catchUp d).leg := by
  unfold catchUp
  split
  · have caught : Exclusive (d.each (fins 64) tripCatch).leg := Dev.each_exclusive h fun _ _ _ he => by simpa using he
    have tripped (l : List (Fin 64)) := Dev.each_exclusive (l := l) (f := fun m x => x.asOf ((tripDue x m).getD x.now) (cmpTrip m))
      caught fun _ _ _ => Dev.asOf_exclusive fun _ => cmpTrip_exclusive
    exact Dev.each_exclusive (tripped _) fun _ _ _ => legCatch_exclusive
  · exact h

@[simp] theorem fcSetLevel_exclusive {c : Fin 16} {v : Word} {d : Dev} (hd : Exclusive d.leg) :
    Exclusive (fcSetLevel c v d).leg := by
  unfold fcSetLevel
  dsimp only
  repeat' split
  all_goals simp -implicitDefEqProofs [hd]

@[simp] theorem fcSetMap_exclusive {c : Fin 16} {k : Fin 3} {v : Word} {d : Dev} (hd : Exclusive d.leg) :
    Exclusive (fcSetMap c k v d).leg := by
  unfold fcSetMap
  dsimp only
  repeat' split
  all_goals simp -implicitDefEqProofs [hd]

@[simp] theorem shlSet_exclusive {n : Fin 96} {r : ShlReg} {v : Word} {d : Dev} (hd : Exclusive d.leg) :
    Exclusive (shlSet n r v d).leg := by
  grind [shlSet, legOverCut_exclusive, legDtFrom_exclusive, Dev.put_leg, legCatch_exclusive]

@[simp] theorem shtmSet_exclusive {m : Fin 64} {r : ShtmReg} {v : Word} {d : Dev} (hd : Exclusive d.leg) :
    Exclusive (shtmSet m r v d).leg := by
  grind [shtmSet, tripTrack_leg, Dev.put_leg, Dev.each_exclusive, legHold_exclusive, fcAct_exclusive, Dev.fcU_leg]

@[simp] theorem thShutdown_exclusive {d : Dev} (hd : Exclusive d.leg) : Exclusive (thShutdown d).leg := by simp [thShutdown, hd]

@[simp] theorem fcWrite_exclusive {r : FcReg} {v : Word} {d : Dev} (h : Exclusive d.leg) : Exclusive (fcWrite r v d).leg := by
  unfold fcWrite
  repeat' split
  all_goals simp [h]

@[simp] theorem shgWrite_exclusive {r : ShgReg} {v : Word} {d : Dev} (hd : Exclusive d.leg) : Exclusive (shgWrite r v d).leg := by
  unfold shgWrite
  repeat' split
  all_goals simp [hd]

/-! ## Security -/

@[simp] theorem tkCommit_exclusive {r : Reg} {v : Word} {d : Dev} (hd : Exclusive d.leg) : Exclusive (tkCommit r v d).leg := by
  unfold tkCommit
  repeat' split
  all_goals simp [hd]

@[simp] theorem tkApply_exclusive {d : Dev} (hd : Exclusive d.leg) : Exclusive (tkApply d).leg := by
  grind [tkApply, Dev.setF_leg, tkDiscard_leg, Dev.each_exclusive, tkCommit_exclusive, Dev.bump_leg, Dev.flag_leg, tkClose_leg]

@[simp] theorem tkJudge_exclusive {a : Bool} {v : Word} {d : Dev} (hd : Exclusive d.leg) : Exclusive (tkJudge a v d).leg := by
  unfold tkJudge
  repeat' split
  all_goals simp [hd]

@[simp] theorem tkNonceReady_exclusive {d0 : Dev} (hd : Exclusive d0.leg) : Exclusive (tkNonceReady d0).leg := by
  grind [tkNonceReady, tkCatch_leg, Dev.put_leg, Dev.setB_leg, Dev.secU_leg, tkDiscard_leg, tkJudge_exclusive]

@[simp] theorem tkConfirm_exclusive {a : Bool} {v : Word} {d : Dev} (hd : Exclusive d.leg) : Exclusive (tkConfirm a v d).leg := by
  unfold tkConfirm
  dsimp only
  repeat' split
  all_goals simp -implicitDefEqProofs [hd]

@[simp] theorem tkCommitWrite_exclusive {a : Bool} {by_ : Nat} {v : Word} {d0 : Dev} (hd : Exclusive d0.leg) :
    Exclusive (tkCommitWrite a by_ v d0).leg := by
  unfold tkCommitWrite
  dsimp only
  repeat' split
  all_goals simp -implicitDefEqProofs [hd]

@[simp] theorem secWrite_exclusive {by_ : Nat} {r : SecReg} {v : Word} {d : Dev} (hd : Exclusive d.leg) :
    Exclusive (secWrite by_ r v d).leg := by
  unfold secWrite
  repeat' split
  all_goals simp [hd]

/-! ## System -/

@[simp] theorem pllLock_exclusive {pllB : Bool} {d : Dev} (hd : Exclusive d.leg) : Exclusive (pllLock pllB d).leg := by
  unfold pllLock
  dsimp only
  repeat' split
  all_goals simp -implicitDefEqProofs [hd]

@[simp] theorem pllLoss_exclusive {pllB : Bool} {d : Dev} (h : Exclusive d.leg) : Exclusive (pllLoss pllB d).leg := by
  simp [pllLoss, h]

/-! ## Reset -/

/-- A reset leaves every leg in its reset state, with both switches off. -/
@[simp] theorem resetDev_exclusive (k : RstKind) (d : Dev) : Exclusive (resetDev k d).leg := by
  intro n
  have off : (resetDev k d).leg[n] = {} := by simp [resetDev]
  simp [off, LegSt.Apart]

@[simp] theorem deviceReset_exclusive {k : RstKind} {d : Dev} (h : Exclusive d.leg) : Exclusive (deviceReset k d).leg := by
  unfold deviceReset
  repeat' split
  all_goals simp [h]

@[simp] theorem rstCtl_exclusive {by_ : Nat} {v : Word} {d : Dev} (hd : Exclusive d.leg) : Exclusive (rstCtl by_ v d).leg := by
  unfold rstCtl
  dsimp only
  repeat' split
  all_goals simp -implicitDefEqProofs [hd]

@[simp] theorem bootCommit_exclusive {h : Header} {d : Dev} (hd : Exclusive d.leg) : Exclusive (bootCommit h d).leg := by
  grind [bootCommit, Dev.each_exclusive, tkCommit_exclusive, Dev.setF_leg, Dev.put_leg]

@[simp] theorem bootStart_exclusive {b : Bool} {h : Header} {d : Dev} (hd : Exclusive d.leg) :
    Exclusive (bootStart b h d).leg := by
  unfold bootStart
  dsimp only
  simp -implicitDefEqProofs [hd]

@[simp] theorem bootRun_exclusive {d : Dev} (hd : Exclusive d.leg) : Exclusive (bootRun d).leg := by
  grind [bootRun, sEnter_leg, bootBadHeader_leg, bootVerify_leg, bootRecover_leg, bootStart_exclusive]

/-! ## RegisterPath -/

@[simp] theorem sysWrite_exclusive {by_ : Requester} {r : SysReg} {v : Word} {d : Dev} (hd : Exclusive d.leg) :
    Exclusive (sysWrite by_ r v d).leg := by
  unfold sysWrite
  repeat' split
  all_goals simp [hd]

@[simp] theorem writeNow_exclusive {by_ : Requester} {r : Reg} {v : Word} {d : Dev} (h : Exclusive d.leg) :
    Exclusive (writeNow by_ r v d).leg := by
  cases r <;> simp [writeNow, h]

@[simp] theorem writePart_exclusive {by_ : Requester} {r : Reg} {v : Word} {d : Dev} (h : Exclusive d.leg) :
    Exclusive (writePart by_ r v d).leg := by
  have waited : Exclusive (regWait by_ r (some (v &&& heldMask d r)) d).leg := by simpa using h
  unfold writePart
  dsimp only
  repeat' split
  · exact writeNow_exclusive h
  · exact waited
  · exact writeNow_exclusive waited

@[simp] theorem writeReg_exclusive {by_ : Requester} {r : Reg} {v : Word} {d : Dev} (h : Exclusive d.leg) :
    Exclusive (writeReg by_ r v d).leg := by
  simp [writeReg, h]

@[simp] theorem wakeServe_exclusive {w : WaitAcc} {d : Dev} (h : Exclusive d.leg) : Exclusive (wakeServe w d).leg := by
  unfold wakeServe
  dsimp only
  repeat' split
  all_goals simp [h]

@[simp] theorem wakeOpen_exclusive {d : Dev} (hd : Exclusive d.leg) : Exclusive (wakeOpen d).leg := by
  unfold wakeOpen
  repeat' split
  all_goals simp [hd]

/-! ## Act -/

@[simp] theorem timely_exclusive {f : Dev → Dev} {d : Dev} (hf : ∀ e : Dev, Exclusive e.leg → Exclusive (f e).leg)
    (h : Exclusive d.leg) : Exclusive (timely f d).leg := by
  have made := hf d h
  have overtaken : Exclusive ({ catchUp (d.at (f d).now) with now := d.now } : Dev).leg :=
    catchUp_exclusive (d := d.at (f d).now) (by simpa using h)
  unfold timely
  dsimp only
  split
  · exact made
  · exact hf _ overtaken

@[simp] theorem asks_exclusive {by_ : Requester} {f : Dev → Dev} {d : Dev} (hf : ∀ e, Exclusive e.leg → Exclusive (f e).leg)
    (h : Exclusive d.leg) : Exclusive (asks by_ f d).leg := by
  grind [asks, Dev.tagPulse_leg]

@[simp] theorem writeBy_exclusive {by_ : Requester} {r : Reg} {v : Word} {d : Dev} (h : Exclusive d.leg) :
    Exclusive (writeBy by_ r v d).leg := asks_exclusive (fun _ => writeReg_exclusive) h

/-! ## Operands -/

@[simp] theorem storePiece_exclusive {c : Fin 5} {k n v : Nat} {d : Dev} (hd : Exclusive d.leg) :
    Exclusive (storePiece c k n v d).leg := by
  unfold storePiece
  repeat' split
  all_goals simp [hd]

/-! ## Snapshot -/

@[simp] theorem hostWrite_exclusive {a : Nat} {v : Word} {d : Dev} (h : Exclusive d.leg) : Exclusive (hostWrite a v d).leg := by
  unfold hostWrite
  repeat' split
  all_goals simp [h]

@[simp] theorem inWriteWord_exclusive {a : Nat} {be : BitVec 4} {v : Word} {d : Dev} (h : Exclusive d.leg) :
    Exclusive (inWriteWord a be v d).leg := by
  unfold inWriteWord
  repeat' split
  all_goals simp [h]

@[simp] theorem hostIssueN_exclusive {n : Nat} {d : Dev} (h : Exclusive d.leg) : Exclusive (hostIssueN n d).leg := by
  induction n generalizing d with
  | zero => exact h
  | succ n ih =>
    unfold hostIssueN
    repeat' split
    · exact h
    · exact h
    · exact ih (inWriteWord_exclusive (by simpa using h))

@[simp] theorem hostIssueAll_exclusive {d : Dev} (h : Exclusive d.leg) : Exclusive (hostIssueAll d).leg := hostIssueN_exclusive h

@[simp] theorem hostIssue_exclusive {l : List (Nat × BitVec 4 × Word)} {d : Dev} (h : Exclusive d.leg) :
    Exclusive (hostIssue l d).leg := hostIssueAll_exclusive h

@[simp] theorem tagReturned_exclusive {h : Fin 70} {ring : Option (Fin 16)} {d : Dev} (hd : Exclusive d.leg) :
    Exclusive (tagReturned h ring d).leg := by
  unfold tagReturned
  dsimp only
  repeat' split
  all_goals simp -implicitDefEqProofs [hd]

/-! ## Commands -/

@[simp] theorem hstStart_exclusive {op : Nat} {d : Dev} {f : Cmd → Dev → Dev}
    (hf : ∀ k e, Exclusive e.leg → Exclusive (f k e).leg) (h : Exclusive d.leg) : Exclusive (hstStart op d f).leg := by
  grind [hstStart, hstPop_leg]

@[simp] theorem hstStartAt_exclusive {op : Nat} {d : Dev} {addrs : Cmd → List Nat} {f : Cmd → Dev → Dev}
    (hf : ∀ k e, Exclusive e.leg → Exclusive (f k e).leg) (h : Exclusive d.leg) :
    Exclusive (hstStartAt op d addrs f).leg := by
  grind [hstStartAt, hostAsk_leg, hstPop_leg]

@[simp] theorem hstWriteAt_exclusive {op : Nat} {d : Dev} {addrs : Cmd → List Nat} {f : Cmd → Dev → Dev}
    (hf : ∀ k e, Exclusive e.leg → Exclusive (f k e).leg) (h : Exclusive d.leg) :
    Exclusive (hstWriteAt op d addrs f).leg := by
  grind [hstWriteAt, hstPop_leg]

@[simp] theorem cmdWrite_exclusive {d : Dev} (hd : Exclusive d.leg) : Exclusive (cmdWrite d).leg := by
  grind [cmdWrite, hstWriteAt_exclusive, hstDone_leg, hostIssue_exclusive]

@[simp] theorem cmdWriteBlock_exclusive {d : Dev} (hd : Exclusive d.leg) : Exclusive (cmdWriteBlock d).leg := by
  grind [cmdWriteBlock, hstWriteAt_exclusive, hstDone_leg, hostIssue_exclusive]

@[simp] theorem cmdTkStage_exclusive {d : Dev} (hd : Exclusive d.leg) : Exclusive (cmdTkStage d).leg := by
  grind [cmdTkStage, hstStart_exclusive, hstDone_leg, tkStage_leg, tkNonceReady_exclusive]

@[simp] theorem inWrite_exclusive {q : Inbound} {d : Dev} (hd : Exclusive d.leg) : Exclusive (inWrite q d).leg := by
  simp [inWrite, hd]

@[simp] theorem pcieInbound_exclusive {q : Inbound} {d0 : Dev} (hd : Exclusive d0.leg) : Exclusive (pcieInbound q d0).leg := by
  unfold pcieInbound
  repeat' split
  all_goals simp [hd]

/-! ## CmpRows -/

@[simp] theorem cmpRunDone_exclusive {n : Fin 64} {d : Dev} (h : Exclusive d.leg) : Exclusive (cmpRunDone n d).leg := by
  unfold cmpRunDone
  dsimp only
  repeat' split
  all_goals simp -implicitDefEqProofs [h]

/-! ## LegRows -/

@[simp] theorem loadPoint_exclusive {b : Fin 32} {d : Dev} (h : Exclusive d.leg) : Exclusive (loadPoint b d).leg := by
  grind [loadPoint, tbLoad_exclusive, Dev.at_leg]

@[simp] theorem edgeMatch_exclusive {n : Fin 96} {b : Bool} {d : Dev} (hd : Exclusive d.leg) :
    Exclusive (edgeMatch n b d).leg := by
  unfold edgeMatch
  dsimp only
  repeat' split
  all_goals simp -implicitDefEqProofs [hd]

@[simp] theorem deadtimeEnd_exclusive {n : Fin 96} {d : Dev} (h : Exclusive d.leg) : Exclusive (deadtimeEnd n d).leg := by
  grind [deadtimeEnd, legFire_exclusive, Dev.at_leg]

@[simp] theorem legTaskOff_exclusive {ch : Nat} {d : Dev} (hd : Exclusive d.leg) : Exclusive (legTaskOff ch d).leg := by
  grind [legTaskOff, Dev.each_exclusive, legForceOff_exclusive, Dev.at_leg]

/-! ## LinkRows -/

@[simp] theorem lnkAct_exclusive {f : Dev → Dev} {d : Dev} (hf : ∀ e, Exclusive e.leg → Exclusive (f e).leg)
    (h : Exclusive d.leg) : Exclusive (lnkAct f d).leg := by
  grind [lnkAct, hstFlush_leg, hstEnumCheck_leg, lnkPump_leg]

/-! ## Idle -/

@[simp] theorem tickWork_exclusive {d : Dev} (hd : Exclusive d.leg) : Exclusive (tickWork d).leg := by simp [tickWork, hd]

end Sys2Proof.Machine
end


section
/-!
SUPPORT. Instructions, commands and steps keep the legs apart.
-/
set_option Elab.async false
namespace Sys2Proof.Machine
open Sys2Proof

/-- The device that a memory access leaves, however it ends. -/
def Acc.dev {α : Type} : Acc α → Dev
  | .ok _ d => d
  | .exc _ _ _ _ d => d
  | .stall d => d

/-- The device that an instruction's effect leaves, however it ends. -/
def CoreRes.dev : CoreRes → Dev
  | .ok d => d
  | .exc _ _ _ _ d => d
  | .stall d => d

@[simp] theorem Acc.dev_ok {α : Type} (v : α) (d : Dev) : (Acc.ok v d).dev = d := rfl

@[simp] theorem Acc.dev_exc {α : Type} (k o s e : Nat) (d : Dev) : (Acc.exc k o s e d : Acc α).dev = d := rfl

@[simp] theorem Acc.dev_stall {α : Type} (d : Dev) : (Acc.stall d : Acc α).dev = d := rfl

@[simp] theorem CoreRes.dev_ok (d : Dev) : (CoreRes.ok d).dev = d := rfl

@[simp] theorem CoreRes.dev_exc (k o s e : Nat) (d : Dev) : (CoreRes.exc k o s e d).dev = d := rfl

@[simp] theorem CoreRes.dev_stall (d : Dev) : (CoreRes.stall d).dev = d := rfl

@[simp] theorem accThen_leg {α : Type} {f : Dev → Dev} (hf : ∀ d, (f d).leg = d.leg) (a : Acc α) :
    (accThen f a).dev.leg = a.dev.leg := by cases a <;> simp [accThen, hf]

/-- What follows an access starts where the access has left the device. -/
theorem Acc.then_exclusive {α : Type} {a : Acc α} {g : α → Dev → CoreRes} (ha : Exclusive a.dev.leg)
    (hg : ∀ v e, Exclusive e.leg → Exclusive (g v e).dev.leg) : Exclusive (a.then g).dev.leg := by
  cases a with
  | ok v d => exact hg v d ha
  | exc k o s e d => exact ha
  | stall d => exact ha

@[simp] theorem loadWords_leg (q : MemReq) (seg : Nat) (l : List Nat) (d : Dev) : (loadWords q seg l d).dev.leg = d.leg := by
  induction l generalizing d with
  | nil => rfl
  | cons a l ih =>
    have := ih (arrayRead q a d).2
    unfold loadWords
    dsimp only
    repeat' split
    all_goals simp_all

@[simp] theorem obLoad_leg (c : Fin 5) (a n : Nat) (d : Dev) : (obLoad c a n d).dev.leg = d.leg := by
  unfold obLoad
  split <;> simp

@[simp] theorem freeLoad_leg (n : Nat) (d : Dev) : (freeLoad n d).dev.leg = d.leg := by simp [freeLoad]

@[simp] theorem loadPiece_leg (c : Fin 5) (q : MemReq) (seg a n : Nat) (d : Dev) : (loadPiece c q seg a n d).dev.leg = d.leg := by
  have words := loadWords_leg q seg (wordsOf a n) d
  unfold loadPiece
  repeat' split
  all_goals grind [freeLoad_leg, loadWords_leg, obLoad_leg, readReg_leg, Acc.dev_ok, Acc.dev_exc, Acc.dev_stall]

@[simp] theorem loadPieces_leg (c : Fin 5) (q : MemReq) (seg : Nat) (t : Desc) (l : List Piece) (d : Dev) :
    (loadPieces c q seg t l d).dev.leg = d.leg := by
  induction l generalizing d with
  | nil => rfl
  | cons p l ih =>
    have piece := loadPiece_leg c q seg (physOf t p.1) p.2 d
    unfold loadPieces
    repeat' split
    all_goals grind [Acc.dev_ok, Acc.dev_exc, Acc.dev_stall]

@[simp] theorem load_leg (c : Fin 5) (sg : Seg) (q : MemReq) (also : Bool) (off size : Nat) (d : Dev) :
    (load c sg q also off size d).dev.leg = d.leg := by
  unfold load
  dsimp only
  repeat' split
  all_goals simp -implicitDefEqProofs

@[simp] theorem aluY_leg (c : Fin 5) (p : Pre) (b : AluB) (d : Dev) : (aluY c p b d).dev.leg = d.leg := by
  have mem (r : Fin 16) (disp : Int) :=
    load_leg c (dataSeg p r) (reqLoad c) false (dispOff (d.w c r) disp) p.width.bytes d
  cases b <;> grind [aluY, Acc.dev_ok, Acc.dev_exc, Acc.dev_stall]

@[simp] theorem pop_leg (c : Fin 5) (d : Dev) : (pop c d).dev.leg = d.leg := by
  have := load_leg c .ss (reqLoad c) false ((d.w c 15).toNat % 65536) 4 d
  unfold pop
  dsimp only
  split <;> simp_all

@[simp] theorem storePieces_exclusive {c : Fin 5} {t : Desc} {l : List Piece} {v : Nat} {d : Dev} (h : Exclusive d.leg) :
    Exclusive (storePieces c t l v d).leg := by
  induction l generalizing v d with
  | nil => exact h
  | cons p l ih => exact ih (storePiece_exclusive h)

@[simp] theorem storeParts_exclusive {c : Fin 5} {sg : Seg} {off size v : Nat} {d : Dev} (h : Exclusive d.leg) :
    Exclusive (storeParts c sg off size v d).leg := by
  unfold storeParts
  dsimp only
  split <;> simp [h]

@[simp] theorem store_exclusive {c : Fin 5} {sg : Seg} {off size v : Nat} {d : Dev} (h : Exclusive d.leg) :
    Exclusive (store c sg off size v d).dev.leg := by
  unfold store
  dsimp only
  repeat' split
  all_goals simp [h]

@[simp] theorem push_exclusive {c : Fin 5} {v : Word} {d : Dev} (h : Exclusive d.leg) : Exclusive (push c v d).dev.leg :=
  store_exclusive (by simpa using h)

@[simp] theorem pushFar_exclusive {c : Fin 5} {sel off : Word} {d : Dev} (h : Exclusive d.leg) :
    Exclusive (pushFar c sel off d).dev.leg := by
  have first := push_exclusive (c := c) (v := sel) h
  unfold pushFar
  cases hp : push c sel d <;> simp_all

/-- A far jump starts where the walk has left the device. -/
theorem farTo_exclusive {c : Fin 5} {sel : BitVec 16} {off : Nat} {d : Dev} {g : Dev → CoreRes}
    (hg : ∀ e : Dev, Exclusive e.leg → Exclusive (g e).dev.leg) (h : Exclusive d.leg) :
    Exclusive (farTo c sel off d g).dev.leg := by
  have walked : Exclusive (walk c (d.level c) true sel d).2.leg := by simpa using h
  unfold farTo
  split
  · exact h
  · simp_all
  · exact hg _ (by simp_all)

/-- An instruction keeps the legs apart where its effect does: the fetch and the entries of its faults do not touch them. -/
theorem coreRunTags_exclusive {tags : Nat} {c : Fin 5} {legal : Bool} {len : Nat} {body : Dev → CoreRes} {d : Dev}
    (hb : ∀ e : Dev, Exclusive e.leg → Exclusive (body e).dev.leg) (h : Exclusive d.leg) :
    Exclusive (coreRunTags tags c legal len body d).leg := by
  have fetched : Exclusive (fetchInstr c len d).2.leg := by simpa using h
  unfold coreRunTags
  dsimp only
  split
  · exact h
  · generalize fetchInstr c len d = r at fetched
    obtain ⟨f, d1⟩ := r
    have ran := hb ((d1.coreU c (coreNext len)).tagPulse (coreHolder c) (if d.core[c].ldWait.isEmpty then tags else 0))
      (by simpa using fetched)
    cases f with
    | stall => exact h
    | segf e => dsimp only; split <;> simp_all
    | merr e => dsimp only; split <;> simp_all
    | ok =>
      dsimp only
      split
      · simpa using fetched
      · generalize body _ = r at ran
        cases r with
        | ok d2 => dsimp only; split <;> assumption
        | exc k o s e d2 => simpa using ran
        | stall d2 => dsimp only; split <;> assumption

@[simp] theorem coreRun_exclusive {c : Fin 5} {legal : Bool} {len : Nat} {body : Dev → CoreRes} {d : Dev}
    (hb : ∀ e : Dev, Exclusive e.leg → Exclusive (body e).dev.leg) (h : Exclusive d.leg) :
    Exclusive (coreRun c legal len body d).leg := coreRunTags_exclusive hb h

@[simp] theorem coreRunPlain_exclusive {c : Fin 5} {legal : Bool} {len : Nat} {body : Dev → CoreRes} {d : Dev}
    (hb : ∀ e : Dev, Exclusive e.leg → Exclusive (body e).dev.leg) (h : Exclusive d.leg) :
    Exclusive (coreRunPlain c legal len body d).leg := coreRunTags_exclusive hb h

@[simp] theorem regRun_exclusive {c : Fin 5} {p : Pre} {ok : Bool} {u : WidthUse} {len : Nat} {body : Dev → Dev} {d : Dev}
    (hb : ∀ e : Dev, (body e).leg = e.leg) (h : Exclusive d.leg) : Exclusive (regRun c p ok u len body d).leg :=
  coreRun_exclusive (fun e he => by simpa [hb] using he) h

@[simp] theorem plainRun_exclusive {c : Fin 5} {p : Pre} {body : Dev → Dev} {d : Dev} (hb : ∀ e : Dev, (body e).leg = e.leg)
    (h : Exclusive d.leg) : Exclusive (plainRun c p body d).leg :=
  coreRunPlain_exclusive (fun e he => by simpa [hb] using he) h

@[simp] theorem finPut_leg (c : Fin 5) (a : Fin 16) (o : AluOut) (d : Dev) : (finPut c a o d).dev.leg = d.leg := by simp [finPut]

@[simp] theorem finFlags_leg (c : Fin 5) (o : AluOut) (d : Dev) : (finFlags c o d).dev.leg = d.leg := by simp [finFlags]

@[simp] theorem finChecked_leg (c : Fin 5) (a : Fin 16) (o : AluOut) (d : Dev) : (finChecked c a o d).dev.leg = d.leg := by
  unfold finChecked
  repeat' split
  all_goals simp

@[simp] theorem aluRun_exclusive {c : Fin 5} {p : Pre} {a : Fin 16} {b : AluB} {u : WidthUse} {f : Word → Word → AluOut}
    {fin : AluOut → Dev → CoreRes} {d : Dev} (hf : ∀ o e, (fin o e).dev.leg = e.leg) (h : Exclusive d.leg) :
    Exclusive (aluRun c p a b u f fin d).leg :=
  coreRun_exclusive (fun e he => Acc.then_exclusive (by simpa using he) fun v x hx => by simpa [hf] using hx) h

@[simp] theorem loadRun_exclusive {c : Fin 5} {p : Pre} {ok : Bool} {u : WidthUse} {m : MemForm} {size : Nat}
    {g : Nat → Dev → Dev} {d : Dev} (hg : ∀ v e, (g v e).leg = e.leg) (h : Exclusive d.leg) :
    Exclusive (loadRun c p ok u m size g d).leg :=
  coreRun_exclusive (fun e he => Acc.then_exclusive (by simpa using he) fun v x hx => by simpa [hg] using hx) h

@[simp] theorem storeRun_exclusive {c : Fin 5} {p : Pre} {u : WidthUse} {m : MemForm} {size : Nat} {g : Dev → Word} {d : Dev}
    (h : Exclusive d.leg) : Exclusive (storeRun c p u m size g d).leg :=
  coreRun_exclusive (fun e he => Acc.then_exclusive (store_exclusive (by simpa using he)) fun _ _ hx => hx) h

@[simp] theorem shiftRun_exclusive {op : ShiftOp} {c : Fin 5} {p : Pre} {a : Fin 16} {k : ShiftBy} {d : Dev}
    (h : Exclusive d.leg) : Exclusive (shiftRun op c p a k d).leg := by
  cases k <;> exact regRun_exclusive (fun e => by simp) h

@[simp] theorem divRun_exclusive {signed : Bool} {c : Fin 5} {p : Pre} {a b : Fin 16} {d : Dev} (h : Exclusive d.leg) :
    Exclusive (divRun signed c p a b d).leg := by
  refine coreRun_exclusive (fun e he => ?_) h
  dsimp only
  repeat' split
  all_goals simpa using he

@[simp] theorem fpRun_exclusive {c : Fin 5} {p : Pre} {f : Nat → Dev → FpOut} {put : Word → Dev → Dev} {d : Dev}
    (hp : ∀ v e, (put v e).leg = e.leg) (h : Exclusive d.leg) : Exclusive (fpRun c p f put d).leg :=
  regRun_exclusive (fun e => by simp [hp]) h

@[simp] theorem regWriteAt_exclusive {by_ : Requester} {addr v : Word} {d : Dev} (h : Exclusive d.leg) :
    Exclusive (regWriteAt by_ addr v d).leg := by
  refine asks_exclusive (fun e he => ?_) h
  repeat' split
  all_goals simp [he]

/-- Whatever a command answers has its legs apart where the state it ran in had. -/
def Keeps (s : State) (o : Outc) : Prop := ∀ t : State, Exclusive s.leg → o = .next t → Exclusive t.leg

@[simp] theorem settle_exclusive {d : Dev} (h : Exclusive d.leg) : Exclusive (settle d).leg := by simpa using h

theorem keeps_act {f : Dev → Dev} {s : State} (hf : ∀ d : Dev, Exclusive d.leg → Exclusive (f d).leg) : Keeps s (act f s) := by
  intro t h ht
  cases ht
  refine settle_exclusive ?_
  split
  · exact h
  · exact timely_exclusive hf (catchUp_exclusive h)

theorem keeps_actBoard {f : Dev → Dev} {s : State} (hf : ∀ d : Dev, Exclusive d.leg → Exclusive (f d).leg) :
    Keeps s (actBoard f s) := by
  intro t h ht
  cases ht
  refine settle_exclusive ?_
  split
  · exact hf _ h
  · exact timely_exclusive hf (catchUp_exclusive h)

/-- The commands whose effect is an instruction that keeps the legs apart. -/
theorem keeps_coreRun {c : Fin 5} {legal : Bool} {len : Nat} {body : Dev → CoreRes} {s : State}
    (hb : ∀ e : Dev, Exclusive e.leg → Exclusive (body e).dev.leg) : Keeps s (act (coreRun c legal len body) s) :=
  keeps_act fun _ => coreRun_exclusive hb

theorem keeps_coreRunPlain {c : Fin 5} {legal : Bool} {len : Nat} {body : Dev → CoreRes} {s : State}
    (hb : ∀ e : Dev, Exclusive e.leg → Exclusive (body e).dev.leg) : Keeps s (act (coreRunPlain c legal len body) s) :=
  keeps_act fun _ => coreRunPlain_exclusive hb

section

variable {c : Fin 5} {p : Pre} {a b : Fin 16} {s : State}

theorem execXchg_keeps {disp : BitVec 8} : Keeps s (execXchg c p a b disp s) :=
  keeps_coreRun fun _ he => Acc.then_exclusive (by simpa using he) fun _ _ hx => storeParts_exclusive (by simpa using hx)

theorem execSti_keeps {disp : Disp} {v : Word} : Keeps s (execSti c p b disp v s) :=
  keeps_coreRun fun _ he => Acc.then_exclusive (store_exclusive he) fun _ _ hx => hx

theorem execPush_keeps : Keeps s (execPush c p a s) :=
  keeps_coreRun fun _ he => Acc.then_exclusive (push_exclusive he) fun _ _ hx => hx

theorem execPop_keeps : Keeps s (execPop c p a s) :=
  keeps_coreRun fun _ he => Acc.then_exclusive (by simpa using he) fun _ _ hx => by simpa using hx

theorem execCall_keeps {disp : BitVec 16} : Keeps s (execCall c p disp s) :=
  keeps_coreRun fun _ he => Acc.then_exclusive (push_exclusive he) fun _ _ hx => by simpa using hx

theorem execCallr_keeps : Keeps s (execCallr c p a s) :=
  keeps_coreRun fun _ he => Acc.then_exclusive (push_exclusive he) fun _ _ hx => by simpa using hx

theorem execRet_keeps : Keeps s (execRet c p s) :=
  keeps_coreRun fun _ he => Acc.then_exclusive (by simpa using he) fun _ _ hx => by simpa using hx

theorem execJmpf_keeps {imm : BitVec 32} : Keeps s (execJmpf c p imm s) :=
  keeps_coreRunPlain fun _ => farTo_exclusive fun _ he => he

/-- The first pushes only find out whether the stack takes both words: what they leave counts where they fault. -/
theorem execCallf_keeps {imm : BitVec 32} : Keeps s (execCallf c p imm s) := by
  refine keeps_coreRun fun e he => ?_
  dsimp only
  split
  · exact he
  · exact he
  · exact farTo_exclusive (fun x hx => Acc.then_exclusive (pushFar_exclusive hx) fun _ _ hy => hy) he

theorem execRetf_keeps : Keeps s (execRetf c p s) :=
  keeps_coreRun fun _ he => Acc.then_exclusive (by simpa using he) fun _ x hx =>
    Acc.then_exclusive (by simpa using hx) fun _ _ => farTo_exclusive fun _ hy => hy

theorem execMovsg_keeps {sg : Seg} : Keeps s (execMovsg c p a sg s) := by
  refine keeps_coreRun fun e he => ?_
  have walked : Exclusive (walk c (e.level c) false (BitVec.ofNat 16 (e.w c a).toNat) e).2.leg := by simpa using he
  split <;> simp_all [-walk_leg]

theorem execRetl_keeps : Keeps s (execRetl c p s) := by
  refine keeps_coreRunPlain fun e he => ?_
  split
  next hl =>
    have walked : Exclusive (retlWalk c ⟨e.level c, hl⟩ e).2.leg := by simpa using he
    split <;> simp_all
  · exact he

theorem execSync_keeps : Keeps s (execSync c p s) := by
  refine keeps_coreRunPlain fun e he => ?_
  split <;> simpa using he

theorem execSprd_keeps {num : Byte} : Keeps s (execSprd c p a num s) := by
  refine keeps_act fun _ => regRun_exclusive fun e => ?_
  split <;> simp

theorem execSpwr_keeps {num : Byte} : Keeps s (execSpwr c p a num s) := by
  refine keeps_act fun _ => regRun_exclusive fun e => ?_
  split <;> simp

/-- An interrupt entry moves the core alone. -/
theorem execInterruptEntry_keeps : Keeps s (execInterruptEntry c s) := by
  refine keeps_act fun d h => ?_
  split
  · exact h
  · split
    · exact h
    · next src l _ =>
      have taken : Exclusive (icAccept c src l d).leg := by simpa using h
      split
      · exact h
      · next he => exact enterLevel_leg (.inr he) ▸ taken
      · next e he =>
        have entered : Exclusive e.leg := enterLevel_leg (.inl he) ▸ taken
        split
        · exact entered
        · cases hr : romInterrupt c l e with
          | none => exact h
          | some x => exact romInterrupt_leg hr ▸ entered

/-- So does the entry of a pending floating-point exception. -/
theorem execFpExceptionEntry_keeps : Keeps s (execFpExceptionEntry c s) := by
  refine keeps_act fun d h => ?_
  dsimp only
  split
  · exact h
  · split
    · simpa using h
    · split
      · exact h
      · next he => exact (enterLevel_leg (.inr he)).trans (Dev.coreU_leg ..) ▸ h
      · next e he =>
        have entered : Exclusive e.leg := (enterLevel_leg (.inl he)).trans (Dev.coreU_leg ..) ▸ h
        split
        · exact entered
        · simpa using entered

end

@[simp] theorem recoveryReset_exclusive {d : Dev} (h : Exclusive d.leg) : Exclusive (recoveryReset d).leg := by
  unfold recoveryReset
  split
  · exact deviceReset_exclusive (by simpa using h)
  · exact h

/-- Every command keeps the legs apart: the events of the board and the commands that need an argument of their own first, then those
whose effect has its lemma in the simp set. -/
theorem keeps_exec (i : Instr) (s : State) : Keeps s (exec i s) := by
  cases i
  case cmpRawChange n v t => exact keeps_actBoard fun d h => by simp [h]
  case thermalWarning hot => exact keeps_actBoard fun d h => by simp [h]
  case thermalShutdown => exact keeps_actBoard fun d h => by simp [h]
  case supplyThresholdCross k rail => exact keeps_actBoard fun d h => by simp [h]
  case referenceLost => exact keeps_actBoard fun d h => by simp [h]
  case thermalWarningClear => exact keeps_actBoard fun d h => by simp [h]
  case referenceReturn => exact keeps_actBoard fun d h => by simp [h]
  case pcieReset low => exact keeps_actBoard fun d h => by simp [h]
  case jtagExtest cells => exact keeps_actBoard fun d h => by simpa -implicitDefEqProofs using h
  case jtagSamplePreload cells => exact keeps_actBoard fun d h => by simpa -implicitDefEqProofs using h
  case jtagIdcode => exact keeps_actBoard fun d h => by simpa -implicitDefEqProofs using h
  case jtagBypass => exact keeps_actBoard fun d h => by simpa -implicitDefEqProofs using h
  case testReset => exact keeps_actBoard fun d h => by simp [h]
  case ioBankLatch k v33 => exact keeps_actBoard fun d h => by simp [h]
  case posInputChange n a b z t => exact keeps_actBoard fun d h => by simp [h]
  case powerOnReset => exact keeps_actBoard fun d h => by simp [h]
  case porRelease head => exact keeps_actBoard fun d h => by simp [h]
  case pinReset => exact keeps_actBoard fun d h => by simp [h]
  case deviceResetRelease head => exact keeps_actBoard fun d h => by simp [h]
  case xchg => exact execXchg_keeps
  case sti => exact execSti_keeps
  case push => exact execPush_keeps
  case pop => exact execPop_keeps
  case call => exact execCall_keeps
  case callr => exact execCallr_keeps
  case ret => exact execRet_keeps
  case jmpf => exact execJmpf_keeps
  case callf => exact execCallf_keeps
  case retf => exact execRetf_keeps
  case movsg => exact execMovsg_keeps
  case retl => exact execRetl_keeps
  case sync => exact execSync_keeps
  case sprd => exact execSprd_keeps
  case spwr => exact execSpwr_keeps
  case interruptEntry => exact execInterruptEntry_keeps
  case fpExceptionEntry => exact execFpExceptionEntry_keeps
  case tbStartTask => exact keeps_act fun _ => fabTask_exclusive fun _ => tbTask_exclusive
  case forceOffTask => exact keeps_act fun _ => fabTask_exclusive fun _ => legTaskOff_exclusive
  case recoveryReset => exact keeps_act fun _ => recoveryReset_exclusive
  all_goals exact keeps_act fun d h => by simp -implicitDefEqProofs [h]

theorem idle_exclusive {s : State} (h : Exclusive s.leg) : Exclusive (idle s).leg := by
  simp only [idle]
  split
  · simpa using h
  · exact settle_exclusive (timely_exclusive (fun _ => tickWork_exclusive) (catchUp_exclusive h))

/-- A step runs a command or lets a tick pass; both keep the legs apart. -/
theorem step_exclusive {s t : State} (h : Exclusive s.leg) (ht : step s = .next t) : Exclusive t.leg := by
  unfold step at ht
  split at ht
  · cases ht
    exact idle_exclusive h
  next i rest _ => exact keeps_exec i { s with pending := rest } t h ht

end Sys2Proof.Machine
end

section
namespace Sys2Proof.Proofs
open Sys2Proof Sys2Proof.Machine

/-- Settles O56: a switch turns on in `legOn` alone, which finds the other one off; every other action leaves both as they are or turns
them off, so each command and each tick keeps the legs apart. -/
theorem neverBothSwitches : Obligations.NeverBothSwitches := fun _ _ h ht => step_exclusive h ht

end Sys2Proof.Proofs
end


section
/-!
SUPPORT. FIFO_RESYNC of a capture ring's staging buffer (R41) with a line under assembly behind the lines it drops: the records of that
line are placed anew behind a LOSS record (R420), and where they fill the line with it, the line is staged at once.
-/
set_option Elab.async false
namespace Sys2Proof.Machine
open Sys2Proof

/-- A comparator record of four words (R414). -/
def fourWords : List Word := [0x84000000, 0, 0, 0]
def fourWordRec : CapRec := { at_ := 0, ts := 0, body := .long fourWords }

/-- A line that holds n such records. -/
def lineOf (n : Nat) : CapLine := { words := (List.replicate n fourWords).flatten, recs := List.replicate n fourWordRec }

/-- A device after reset whose ring set 0 has room for two lines, one line of four records staged, and an open line of three. -/
def ringHalfOpen : State :=
  { State.reset with toDev := State.reset.toDev.capU 0 fun _ =>
      { descs := [{ addr := 0, len := 128, irq := false }], line := lineOf 3, staged := [lineOf 4] } }

theorem ringHalfOpen_up : Up ringHalfOpen := ⟨rfl, by decide +kernel⟩

theorem ringHalfOpen_linked : ringHalfOpen.hst.perst = false := rfl

theorem fifoResync_ringHalfOpen_now : (fifoResync (.capStage 0) ringHalfOpen.toDev).now = ringHalfOpen.now := by decide +kernel

/-- The open line, now LOSS and three records long, is full and staged. -/
theorem fifoResync_ringHalfOpen_staged : (fifoResync (.capStage 0) ringHalfOpen.toDev).cap[(0 : Fin 16)].staged ≠ [] := by
  decide +kernel

/-- What a command does holds of the device it leaves. -/
theorem Does.settled {i : Instr} {s : State} {P : Dev → Prop} {d : Dev} (h : Does i s P) (ht : exec i s = after s d) : P (settle d) := by
  obtain ⟨t, he, -, hp⟩ := h
  cases ht.symm.trans he
  exact hp

theorem exec_fifoResync_ringHalfOpen :
    exec (.fifoResync (.capStage 0)) ringHalfOpen = after ringHalfOpen (fifoResync (.capStage 0) ringHalfOpen.toDev) :=
  act_free ringHalfOpen_up fifoResync_ringHalfOpen_now

end Sys2Proof.Machine
end

section
namespace Sys2Proof.Proofs
open Sys2Proof Sys2Proof.Machine

/-- Refutes O36: after FIFO_RESYNC of a capture ring's staging buffer the buffer need not be empty. In `ringHalfOpen` the line under
assembly holds three records of four words; the dropped line makes it begin with LOSS (R420), so it is full and staged anew. -/
theorem not_clocksAndPacing : ¬ Obligations.ClocksAndPacing := by
  intro h
  obtain ⟨-, -, -, -, -, -, -, -, -, -, -, -, ⟨-, -, -, capStage⟩, -⟩ :=
    h ringHalfOpen .host 0 0 (Vector.replicate 12 0) 0 0 (.sys .sysctl) { by_ := .host, addr := 0, val := none, since := 0 } false
      ringHalfOpen_up
  have empty := (((capStage 0).2 ringHalfOpen_linked).settled exec_fifoResync_ringHalfOpen).1
  rw [settle_cap] at empty
  exact fifoResync_ringHalfOpen_staged empty

end Sys2Proof.Proofs
end

section
/-!
SUPPORT. The commit write by which both parties have confirmed a stage (R430, R432): what it is judged by, when the rule of the budgets
(R45) fails it, and what a failed one leaves.
-/
set_option Elab.async false
namespace Sys2Proof.Machine
open Sys2Proof

/-- What is done for each of a list leaves a register as it is where it does so for one. -/
theorem Dev.each_get {α : Type} (l : List α) {f : α → Dev → Dev} {r : Reg} (h : ∀ a d, (f a d).get r = d.get r) (d : Dev) :
    (d.each l f).get r = d.get r := by
  induction l generalizing d with
  | nil => rfl
  | cons a l ih => exact (ih _).trans (h a d)

/-! ### The access of a commit write -/

/-- Of the registers, an access changes the use of the requester's tags alone. -/
theorem get_asked {by_ : Requester} {d : Dev} {r : Reg} (h : ∀ k, r ≠ .sys (.taguse k)) : (asked by_ d).get r = d.get r :=
  (Dev.get_setF_ne _ (h _) _ _ : (d.tagTake (reqHolder by_) 1).get r = _)

@[simp] theorem asked_now (by_ : Requester) (d : Dev) : (asked by_ d).now = d.now := rfl
@[simp] theorem asked_core (by_ : Requester) (d : Dev) : (asked by_ d).core = d.core := rfl
@[simp] theorem asked_sec (by_ : Requester) (d : Dev) : (asked by_ d).sec = d.sec := rfl

/-- An access to a security register waits as it did before the requester took its tag. -/
theorem regWaits_asked_sec (by_ : Requester) (d : Dev) (r : SecReg) : regWaits (asked by_ d) (.sec r) = regWaits d (.sec r) := rfl

/-- A write of a security register that acts at once is the block's own write, where that takes no time. -/
theorem act_writeBy_sec {by_ : Requester} {s : State} {r : SecReg} (h : Asks by_ s (.sec r)) {v : Word} {d : Dev}
    (hd : secWrite (reqCode by_) r v (asked by_ s.toDev) = d) (hn : d.now = s.now) :
    act (writeBy by_ (.sec r) v) s = after s d := by
  obtain ⟨⟨up, runs⟩, tag⟩ := h
  have made : writeBy by_ (.sec r) v s.toDev = d := by
    rw [writeBy, asks_eq tag, writeReg_now (by rwa [regWaits_asked_sec]) (by simp [heldMask]), ← hd]
    rfl
  rw [act_free up (by rw [made, hn]), made]
  rfl

/-! ### The rule of the budgets -/

theorem tkEntries_congr {d e : Dev} (count : e.tk TK_STAT.COUNT = d.tk TK_STAT.COUNT)
    (addr : ∀ j, e.get (.sec (.tk_enta j)) = d.get (.sec (.tk_enta j)))
    (val : ∀ j, e.get (.sec (.tk_entv j)) = d.get (.sec (.tk_entv j))) : tkEntries e = tkEntries d := by
  have entry : tkEntry e = tkEntry d := funext fun j => by rw [tkEntry, addr, val]; rfl
  rw [tkEntries, count, entry]
  rfl

theorem tkBudget_congr {d e : Dev} (budgets : ∀ h, e.get (.sys (.tagbud h)) = d.get (.sys (.tagbud h))) :
    tkBudget e = tkBudget d := by
  funext es h
  simp only [tkBudget, Dev.f, budgets]

/-- The value that the stage would write to the budget of holder h. -/
def tkStaged (d : Dev) (h : Fin 70) : Option Word :=
  ((tkEntries d).find? fun e => e.1 == Reg.addr (.sys (.tagbud h))).map (·.2)

theorem tkStaged_congr {d e : Dev} (entries : tkEntries e = tkEntries d) : tkStaged e = tkStaged d := by
  funext h
  rw [tkStaged, entries]
  rfl

/-- The budget a stage leaves is the staged one, or the present one. -/
theorem tkBudget_eq_staged (d : Dev) (h : Fin 70) :
    tkBudget d (tkEntries d) h = TAGBUD.BUDGET.get ((tkStaged d h).getD (d.get (.sys (.tagbud h)))) := by
  have same : (fun e : Nat × Word => decide (e.1 = Reg.addr (.sys (.tagbud h)))) = fun e => e.1 == Reg.addr (.sys (.tagbud h)) := by
    funext e
    exact (beq_eq_decide ..).symm
  unfold tkBudget tkStaged
  rw [same]
  split
  · next e he => rw [he]; rfl
  · next he => rw [he]; rfl

theorem tkEntries_length_le (d : Dev) : (tkEntries d).length ≤ 8 := by
  rw [tkEntries, List.length_map]
  exact (List.length_filter_le ..).trans (by simp [fins])

/-- A stage with a budget entry that breaks the rule of the budgets fails its check (R45). -/
theorem tkFail_of_breaks {d : Dev} {h : Fin 70} (staged : tkStaged d h ≠ none)
    (breaks : 4096 < ((fins 70).map (tkBudget d (tkEntries d))).sum ∨ tkBudget d (tkEntries d) 4 < 16) :
    ∃ j, tkFail d = some j := by
  obtain ⟨e, found⟩ : ∃ e, (tkEntries d).find? (fun e => e.1 == Reg.addr (.sys (.tagbud h))) = some e :=
    Option.ne_none_iff_exists'.mp fun absent => staged (by rw [tkStaged, absent]; rfl)
  have holder : tkHolder e = some h := by
    have place := List.find?_some found
    rw [beq_iff_eq] at place
    rw [tkHolder, place, Reg.ofAddr_addr]
  obtain ⟨p, listed, rfl⟩ : ∃ p ∈ (tkEntries d).zip (List.range 8), p.1 = e := by
    have := List.mem_of_find?_eq_some found
    rwa [← List.map_fst_zip (l₁ := tkEntries d) (l₂ := List.range 8) (by simpa using tkEntries_length_le d), List.mem_map] at this
  have present : (((tkEntries d).zip (List.range 8)).filter fun p => (tkHolder p.1).isSome).isEmpty = false :=
    List.isEmpty_eq_false_iff_exists_mem.mpr ⟨p, List.mem_filter.mpr ⟨listed, by rw [holder]; rfl⟩⟩
  have bad : (decide (4096 < ((fins 70).map (tkBudget d (tkEntries d))).sum) || decide (tkBudget d (tkEntries d) 4 < 16)) = true := by
    simpa using breaks
  simp only [tkFail, present, bad, Bool.not_true, Bool.or_false, Bool.false_eq_true, if_false]
  exact ⟨_, rfl⟩

/-! ### A stage that is discarded -/

/-- The device with the entries of its stage erased. -/
def tkErased (d : Dev) : Dev := d.each (fins 8) fun j d => (d.put (.sec (.tk_enta j)) 0).put (.sec (.tk_entv j)) 0

/-- What TK_STAT reads once a stage has closed with a result. -/
def tkClosedStat (result : Nat) (w : Word) : Word :=
  w |> TK_STAT.OPEN.put 0 |> TK_STAT.SEALED.put 0 |> TK_STAT.ADONE.put 0 |> TK_STAT.BDONE.put 0 |> TK_STAT.COUNT.put 0 |>
    TK_STAT.NBUSY.put 0 |> TK_STAT.RESULT.put result

theorem tkClose_eq (result : Nat) (d : Dev) :
    tkClose result d = (((tkErased d).put (.sec .tk_stat) (tkClosedStat result ((tkErased d).get (.sec .tk_stat)))).setB
      (.sec .tk_nonce) TK_NONCE.VALID false).secU fun x => { x with firstAt := none, waitA := none, waitB := none } := by
  simp only [tkClose, tkErased, tkClosedStat]

theorem Dev.get_secU (d : Dev) (g : SecSt → SecSt) (r : Reg) : (d.secU g).get r = d.get r := by
  rw [Dev.get, Dev.secU_regs]
  rfl

theorem tkErased_now (d : Dev) : (tkErased d).now = d.now := Dev.each_now _ (fun _ _ => by simp) d

theorem get_tkErased_tagbud (d : Dev) (h : Fin 70) : (tkErased d).get (.sys (.tagbud h)) = d.get (.sys (.tagbud h)) :=
  Dev.each_get _ (fun j d => by simp [Dev.get_put_ne]) d

theorem tkClose_now (result : Nat) (d : Dev) : (tkClose result d).now = d.now := by
  simp [tkClose_eq, tkErased_now]

theorem get_tkClose_tagbud (result : Nat) (d : Dev) (h : Fin 70) :
    (tkClose result d).get (.sys (.tagbud h)) = d.get (.sys (.tagbud h)) := by
  rw [tkClose_eq, Dev.get_secU, Dev.setB, Dev.get_setF_ne _ (by simp), Dev.get_put_ne _ (by simp), get_tkErased_tagbud]

theorem get_tkClose_stat (result : Nat) (d : Dev) :
    (tkClose result d).get (.sec .tk_stat) = tkClosedStat result ((tkErased d).get (.sec .tk_stat)) := by
  rw [tkClose_eq, Dev.get_secU, Dev.setB, Dev.get_setF_ne _ (by simp), Dev.get_put_same]

theorem tkClosedStat_open (result : Nat) (w : Word) : TK_STAT.OPEN.bit (tkClosedStat result w) = false := by
  simp (disch := decide) [tkClosedStat, Fld.bit_put_apart, Fld.bit_put]

theorem tkClosedStat_result (result : Nat) (w : Word) : TK_STAT.RESULT.get (tkClosedStat result w) = result % 16 :=
  Fld.get_put (by decide) result _

/-- The device once a stage has failed its check at entry j (R432): discarded, with the index of the entry. -/
def tkFailed (j : Nat) (d : Dev) : Dev := (tkDiscard 4 d).setF (.sec .tk_stat) TK_STAT.FAILJ j

theorem tkApply_of_fail {d : Dev} {j : Nat} (h : tkFail d = some j) : tkApply d = tkFailed j d := by
  rw [tkApply, h]
  rfl

theorem tkFailed_eq (j : Nat) (d : Dev) :
    tkFailed j d = ((((tkClose 4 d).flag (.sec .tk_stat) TK_STAT.FAILF).bump (.sec .tk_cnt) TK_CNT.FAIL_CNT).pulse 412).setF
      (.sec .tk_stat) TK_STAT.FAILJ j := by
  simp only [tkFailed, tkDiscard, tkLine]

theorem Dev.get_pulse (d : Dev) (l : Nat) (r : Reg) : (d.pulse l).get r = d.get r := by
  rw [Dev.get, Dev.pulse_regs]
  rfl

theorem tkFailed_now (j : Nat) (d : Dev) : (tkFailed j d).now = d.now := by
  simp [tkFailed_eq, tkClose_now]

/-- Every budget is as it was. -/
theorem get_tkFailed_tagbud (j : Nat) (d : Dev) (h : Fin 70) :
    (tkFailed j d).get (.sys (.tagbud h)) = d.get (.sys (.tagbud h)) := by
  simp only [tkFailed_eq, Dev.flag, Dev.setB, Dev.bump, Dev.bumpBy, Dev.get_pulse, Dev.get_setF_ne, ne_eq, reduceCtorEq,
    not_false_eq_true, get_tkClose_tagbud]

/-- TK_STAT is as the closed stage leaves it but for FAILF and FAILJ. -/
theorem get_tkFailed_stat (j : Nat) (d : Dev) : (tkFailed j d).get (.sec .tk_stat) =
    TK_STAT.FAILJ.put j (TK_STAT.FAILF.put 1 (tkClosedStat 4 ((tkErased d).get (.sec .tk_stat)))) := by
  rw [tkFailed_eq, Dev.setF, Dev.get_put_same, Dev.get_pulse, Dev.bump, Dev.bumpBy, Dev.get_setF_ne _ (by simp), Dev.flag, Dev.setB,
    Dev.setF, Dev.get_put_same, get_tkClose_stat]
  rfl

theorem tkFailed_open (j : Nat) (d : Dev) : tkOpen (tkFailed j d) = false := by
  rw [tkOpen, Dev.tkB, Dev.b, get_tkFailed_stat, Fld.bit_put_apart (by decide) (by decide) (by decide),
    Fld.bit_put_apart (by decide) (by decide) (by decide), tkClosedStat_open]

theorem tkFailed_result (j : Nat) (d : Dev) : (tkFailed j d).tk TK_STAT.RESULT = 4 := by
  rw [Dev.tk, Dev.f, get_tkFailed_stat, Fld.get_put_apart (by decide) (by decide) (by decide),
    Fld.get_put_apart (by decide) (by decide) (by decide), tkClosedStat_result]

/-! ### A party's confirmation -/

/-- The field of TK_STAT that marks a party's confirmation. -/
def tkMark (a : Bool) : Fld := if a then TK_STAT.ADONE else TK_STAT.BDONE

/-- The device once a party has confirmed: its stage sealed, and marked with the party. -/
def tkConfirmed (a : Bool) (d : Dev) : Dev :=
  (if d.tkB TK_STAT.SEALED then d
    else (d.flag (.sec .tk_stat) TK_STAT.SEALED).secU fun x => { x with firstAt := some d.now }).flag (.sec .tk_stat) (tkMark a)

theorem tkConfirmed_now (a : Bool) (d : Dev) : (tkConfirmed a d).now = d.now := by
  unfold tkConfirmed
  split <;> simp

theorem get_tkConfirmed {a : Bool} {d : Dev} {r : Reg} (h : r ≠ .sec .tk_stat) : (tkConfirmed a d).get r = d.get r := by
  unfold tkConfirmed
  split <;> simp only [Dev.flag, Dev.setB, Dev.get_setF_ne _ h, Dev.get_secU]

/-- What a reading of TK_STAT gives that neither the seal nor the party's mark changes. -/
theorem stat_tkConfirmed {α : Type} {a : Bool} {d : Dev} {g : Word → α} (keepsSeal : ∀ v w, g (TK_STAT.SEALED.put v w) = g w)
    (keepsMark : ∀ v w, g ((tkMark a).put v w) = g w) : g ((tkConfirmed a d).get (.sec .tk_stat)) = g (d.get (.sec .tk_stat)) := by
  unfold tkConfirmed
  split <;> simp only [Dev.flag, Dev.setB, Dev.setF, Dev.get_put_same, Dev.get_secU, keepsSeal, keepsMark]

theorem tkB_tkConfirmed {a : Bool} {d : Dev} {f : Fld} (hf : f.ok = true) (fromSeal : f.apart TK_STAT.SEALED = true)
    (fromMark : f.apart (tkMark a) = true) : (tkConfirmed a d).tkB f = d.tkB f :=
  stat_tkConfirmed (Fld.bit_put_apart hf (by decide) fromSeal) (Fld.bit_put_apart hf (by cases a <;> decide) fromMark)

theorem tkCount_tkConfirmed (a : Bool) (d : Dev) : (tkConfirmed a d).tk TK_STAT.COUNT = d.tk TK_STAT.COUNT :=
  stat_tkConfirmed (Fld.get_put_apart (by decide) (by decide) (by decide))
    (Fld.get_put_apart (by decide) (by cases a <;> decide) (by cases a <;> decide))

/-- The mark of the other party stands. -/
theorem tkOther_tkConfirmed (a : Bool) (d : Dev) : (tkConfirmed a d).tkB (tkMark !a) = d.tkB (tkMark !a) :=
  tkB_tkConfirmed (by cases a <;> decide) (by cases a <;> decide) (by cases a <;> decide)

/-- A confirmation is compared with the nonce at once where it is known. -/
theorem tkConfirm_of_ready {a : Bool} {v : Word} {d : Dev} (ready : d.tkB TK_STAT.NBUSY = false) :
    tkConfirm a v d = tkJudge a v (tkConfirmed a d) := by
  have still : (tkConfirmed a d).tkB TK_STAT.NBUSY = false :=
    (tkB_tkConfirmed (by decide) (by decide) (by cases a <;> decide)).trans ready
  unfold tkConfirmed tkMark at still
  simp [tkConfirm, tkConfirmed, tkMark, still]

/-- The stage is applied or fails where both parties have written the nonce. -/
theorem tkJudge_of_both {a : Bool} {v : Word} {d : Dev} (opened : tkOpen d = true)
    (nonce : v.toNat % 65536 = d.f (.sec .tk_nonce) TK_NONCE.NONCE) (other : d.tkB (tkMark !a) = true) : tkJudge a v d = tkApply d := by
  unfold tkJudge
  cases a <;> simp_all [tkMark]

/-- A stage whose window has not lapsed is kept. -/
theorem tkCatch_of_window {d : Dev} (h : ¬ tkDue d ≤ d.now) : tkCatch d = d := by simp [tkCatch, h]

/-- A core that runs and is not parked confirms, S outside lockdown. -/
theorem tkMute_core {d : Dev} {c : Fin 5} (held : d.core[c].run ≠ .held) (halted : d.core[c].run ≠ .halted)
    (locked : d.core[c].run ≠ .locked) (parked : d.core[c].parked = false) (lockdown : c = 4 → d.b (.fc .fsum) FSUM.LOCKDOWN = false) :
    tkMute d c.val = false := by
  have clear : (c.val == 4 && d.b (.fc .fsum) FSUM.LOCKDOWN) = false := by
    rw [Bool.and_eq_false_imp, beq_iff_eq]
    exact fun h => lockdown (Fin.ext h)
  simp_all [tkMute]

/-- What a stage waits for when the commit write of party A (`a`) or B by requester `who` arrives: the nonce is known and the window
open, the other party has confirmed, and the requester is the party and can confirm. -/
structure TkAwaits (a : Bool) (who : Nat) (v : Word) (d : Dev) : Prop where
  opened : tkOpen d = true
  window : ¬ tkDue d ≤ d.now
  ready : d.tkB TK_STAT.NBUSY = false
  nonce : v.toNat % 65536 = d.f (.sec .tk_nonce) TK_NONCE.NONCE
  party : who = if a then 4 else tkPartyB d
  other : d.tkB (tkMark !a) = true
  twoKeys : a = false → tkBootKey d = false
  awake : tkMute d who = false

/-- The write that completes the commit applies the stage or fails it. -/
theorem tkCommitWrite_of_awaits {a : Bool} {who : Nat} {v : Word} {d : Dev} (h : TkAwaits a who v d) :
    tkCommitWrite a who v d = tkApply (tkConfirmed a d) := by
  have twoKeys : (!a && tkBootKey d) = false := by
    cases a
    · exact h.twoKeys rfl
    · rfl
  have opened : tkOpen (tkConfirmed a d) = true :=
    (tkB_tkConfirmed (by decide) (by decide) (by cases a <;> decide)).trans h.opened
  have nonce : v.toNat % 65536 = (tkConfirmed a d).f (.sec .tk_nonce) TK_NONCE.NONCE := by
    rw [Dev.f, get_tkConfirmed (by simp)]
    exact h.nonce
  calc tkCommitWrite a who v d = tkConfirm a v d := by
        simp [tkCommitWrite, tkCatch_of_window h.window, twoKeys, h.awake, ← h.party, h.opened]
    _ = tkJudge a v (tkConfirmed a d) := tkConfirm_of_ready h.ready
    _ = tkApply (tkConfirmed a d) := tkJudge_of_both opened nonce ((tkOther_tkConfirmed a d).trans h.other)

/-- The budgets that a stage leaves break the rule of the budgets (R45). -/
def TkBreaks (d : Dev) : Prop :=
  (∃ h, tkStaged d h ≠ none) ∧ (4096 < ((fins 70).map (tkBudget d (tkEntries d))).sum ∨ tkBudget d (tkEntries d) 4 < 16)

/-- The rule looks at the stage and the budgets alone. -/
theorem TkBreaks.congr {d e : Dev} (h : TkBreaks d) (entries : tkEntries e = tkEntries d)
    (budgets : ∀ h, e.get (.sys (.tagbud h)) = d.get (.sys (.tagbud h))) : TkBreaks e := by
  rwa [TkBreaks, tkStaged_congr entries, tkBudget_congr budgets, entries]

theorem TkBreaks.asked {d : Dev} (h : TkBreaks d) (by_ : Requester) : TkBreaks (asked by_ d) :=
  h.congr (tkEntries_congr (congrArg TK_STAT.COUNT.get (get_asked (by simp))) (fun _ => get_asked (by simp))
    fun _ => get_asked (by simp)) fun _ => get_asked (by simp)

theorem TkBreaks.confirmed {d : Dev} (h : TkBreaks d) (a : Bool) : TkBreaks (tkConfirmed a d) :=
  h.congr (tkEntries_congr (tkCount_tkConfirmed a d) (fun _ => get_tkConfirmed (by simp)) fun _ => get_tkConfirmed (by simp))
    fun _ => get_tkConfirmed (by simp)

theorem TkAwaits.asked {a : Bool} {who : Nat} {v : Word} {d : Dev} (h : TkAwaits a who v d) (by_ : Requester) :
    TkAwaits a who v (asked by_ d) := by
  obtain ⟨opened, window, ready, nonce, party, other, twoKeys, awake⟩ := h
  constructor <;>
    simpa (disch := simp) only [tkOpen, tkDue, Dev.tkB, Dev.tk, Dev.b, Dev.f, tkPartyB, tkBootKey, tkMute, get_asked, asked_now,
      asked_core, asked_sec]

/-- The write that would complete the commit of a stage that breaks the rule of the budgets fails the stage (R45, R432). -/
theorem tkCommitWrite_of_breaks {a : Bool} {who : Nat} {v : Word} {d : Dev} (h : TkAwaits a who v d) (breaks : TkBreaks d) :
    ∃ j, tkCommitWrite a who v d = tkFailed j (tkConfirmed a d) := by
  obtain ⟨⟨_, staged⟩, rule⟩ := breaks.confirmed a
  obtain ⟨j, fails⟩ := tkFail_of_breaks staged rule
  exact ⟨j, (tkCommitWrite_of_awaits h).trans (tkApply_of_fail fails)⟩

end Sys2Proof.Machine
end

section
namespace Sys2Proof.Proofs
open Sys2Proof Sys2Proof.Machine

/-- Settles O60: the completing write finds the stage's budgets breaking R45, so it discards the stage with RESULT CHECK and applies none of
its entries. -/
theorem budgetRule : Obligations.BudgetRule := by
  unfold Obligations.BudgetRule
  intro s c party v d i staged budget budgets lapsed asks opened window ready nonce who other twoKeys held halted locked parked lockdown
    rule
  have budget_eq : tkBudget d (tkEntries d) = budget := funext (tkBudget_eq_staged d)
  have breaks : TkBreaks d := by
    rw [TkBreaks, budget_eq]
    obtain ⟨stage, sum⟩ | ⟨stage, low⟩ := rule
    · exact ⟨stage, .inl sum⟩
    · exact ⟨⟨4, stage⟩, .inr low⟩
  have awaits : TkAwaits party c.val v d :=
    ⟨opened, window, ready, nonce, who, by cases party <;> exact other, twoKeys, tkMute_core held halted locked parked lockdown⟩
  obtain ⟨j, fails⟩ := tkCommitWrite_of_breaks (awaits.asked (.core c)) (breaks.asked (.core c))
  have untimed : (tkFailed j (tkConfirmed party (asked (.core c) d))).now = s.now := by
    rw [tkFailed_now, tkConfirmed_now, asked_now]
  have answer : exec i s = after s (tkFailed j (tkConfirmed party (asked (.core c) d))) := by
    cases party <;> exact act_writeBy_sec asks fails untimed
  refine ⟨_, answer, rfl, ?_, ?_, fun h => ?_⟩
  · rw [tkOpen, Dev.tkB, Dev.b, Dev.get, settle_regs]
    exact tkFailed_open ..
  · rw [Dev.tk, Dev.f, Dev.get, settle_regs]
    exact tkFailed_result ..
  · rw [Dev.get, settle_regs]
    calc _ = (tkConfirmed party (asked (.core c) d)).get (.sys (.tagbud h)) := get_tkFailed_tagbud ..
      _ = (asked (.core c) d).get (.sys (.tagbud h)) := get_tkConfirmed (by simp)
      _ = d.get (.sys (.tagbud h)) := get_asked (by simp)

end Sys2Proof.Proofs
end

section
/-!
SUPPORT. A stalled sample is finished under the registers of its boundary (R142), each of which is put back afterwards: one that the
sample's snapshot names keeps its value, whatever the sample does to it.
-/
set_option Elab.async false
namespace Sys2Proof.Machine
open Sys2Proof

/-- The one register of a snapshot that the sample does not own is put back. -/
theorem get_leUnder_single {n : Fin 64} {r : LeReg} {w : Word} {own : LeReg → Bool} (h : own r = false) (g : Dev → Dev) (d : Dev) :
    (leUnder n [(r, w)] own g d).get (.le n r) = d.get (.le n r) := by
  simp [leUnder, lePutRegs, Dev.each, h]

/-- So it is where a stalled sample goes on; MANOUT alone may be the sample's own (R133). -/
theorem get_leResume_single {n : Fin 64} {s : LeStall} {d : Dev} {r : LeReg} {w : Word} (stalled : d.le[n].stall = some s)
    (fresh : leFresh d n s = true) (snap : s.snap = [(r, w)]) (own : r ≠ .manout) :
    (leResume n d).get (.le n r) = d.get (.le n r) := by
  simp only [leResume, stalled, fresh, if_true, leFinishStalled, snap]
  exact get_leUnder_single (by simp [own]) _ _

/-- A stalled sample that awaits no operand and whose snapshot names LEn_STAT. -/
def stallOverStat : LeStall where
  m := 0
  sat := false
  at_ := 0
  frR := false
  frF := false
  rx := 0
  fx := 0
  frozen := false
  auto := false
  snap := [(.stat, 0)]
  tags := 0

/-- A device after reset whose engine 0 is stalled so, and shows it. -/
def stalledOverStat : State :=
  { State.reset with
    toDev := (State.reset.toDev.flag (.le 0 .stat) LE_STAT.STALLED).leU 0 fun e => { e with stall := some stallOverStat } }

theorem stalledOverStat_up : Up stalledOverStat := ⟨rfl, by decide +kernel⟩

theorem stalledOverStat_stall : stalledOverStat.le[(0 : Fin 64)].stall = some stallOverStat := rfl

theorem stalledOverStat_fresh : leFresh stalledOverStat.toDev 0 stallOverStat = true := by decide +kernel

theorem leResume_stalledOverStat_now : (leResume 0 stalledOverStat.toDev).now = stalledOverStat.now := by decide +kernel

theorem exec_leWaitResume_stalledOverStat :
    exec (.leWaitResume 0) stalledOverStat = after stalledOverStat (leResume 0 stalledOverStat.toDev) :=
  act_free stalledOverStat_up leResume_stalledOverStat_now

/-- STALLED is as it was. -/
theorem leResume_stalledOverStat_stalled : (leResume 0 stalledOverStat.toDev).b (.le 0 .stat) LE_STAT.STALLED = true := by
  rw [Dev.b, get_leResume_single stalledOverStat_stall stalledOverStat_fresh rfl (by simp)]
  decide +kernel

end Sys2Proof.Machine
end

section
namespace Sys2Proof.Proofs
open Sys2Proof Sys2Proof.Machine

/-- Refutes O40: LE_WAIT_RESUME with fresh operands need not clear STALLED. The statement takes any snapshot of a stalled sample; in
`stalledOverStat` it names LEn_STAT, which is put back as it was after the sample. (The boundary of a sample takes no such snapshot:
`leGoverning` does not name LEn_STAT.) -/
theorem not_loopEngines : ¬ Obligations.LoopEngines := by
  intro h
  obtain ⟨-, -, -, -, -, -, stalls, -⟩ := h stalledOverStat .host 0 0 0 0 stalledOverStat_up
  obtain ⟨resumes, -⟩ := stalls stallOverStat stalledOverStat_stall
  have cleared := ((resumes stalledOverStat_fresh).settled exec_leWaitResume_stalledOverStat).2
  rw [Dev.b, Dev.get_congr (settle_regs _)] at cleared
  exact Bool.false_ne_true (cleared.symm.trans leResume_stalledOverStat_stalled)

end Sys2Proof.Proofs
end

section
/-!
SUPPORT. What one leg's own clockwork leaves as it was: the instant, the timebases, the other legs, and every register but a few of
its own and its shroud's.
-/
set_option Elab.async false
namespace Sys2Proof.Machine
open Sys2Proof

/-- What is done for each of a list leaves a part of the device as it is where it does so for one. -/
theorem Dev.each_kept {α β : Type} {π : Dev → β} {l : List α} {f : α → Dev → Dev} (h : ∀ a ∈ l, ∀ d, π (f a d) = π d) (d : Dev) :
    π (d.each l f) = π d := by
  induction l generalizing d with
  | nil => rfl
  | cons a l ih => exact (ih (fun b hb => h b (by simp [hb])) _).trans (h a (by simp) d)

/-! ### One leg and the others -/

theorem Dev.legU_leg_same (d : Dev) (n : Fin 96) (g : LegSt → LegSt) : (d.legU n g).leg[n] = g d.leg[n] := by
  simp [Dev.legU]

theorem Dev.legU_leg_ne (d : Dev) {n m : Fin 96} (h : m ≠ n) (g : LegSt → LegSt) : (d.legU n g).leg[m] = d.leg[m] := by
  have : n.val ≠ m.val := fun e => h (Fin.ext e.symm)
  simp [Dev.legU, this]

theorem Dev.tbU_tb_same (d : Dev) (b : Fin 32) (g : TbSt → TbSt) : (d.tbU b g).tb[b] = g d.tb[b] := by
  simp [Dev.tbU]

theorem Dev.tbU_tb_ne (d : Dev) {b c : Fin 32} (h : c ≠ b) (g : TbSt → TbSt) : (d.tbU b g).tb[c] = d.tb[c] := by
  have : b.val ≠ c.val := fun e => h (Fin.ext e.symm)
  simp [Dev.tbU, this]

/-- Two devices agree but for leg n and what lies outside timebases, legs, clocks and registers; registers agree but for those in `R`. -/
structure Beside (n : Fin 96) (R : Reg → Bool) (d e : Dev) : Prop where
  now : e.now = d.now
  sys : e.sys = d.sys
  tb : e.tb = d.tb
  lnk : e.lnk = d.lnk
  legs : ∀ m, m ≠ n → e.leg[m] = d.leg[m]
  get : ∀ r, R r = false → e.get r = d.get r

theorem Beside.refl {n : Fin 96} {R : Reg → Bool} (d : Dev) : Beside n R d d := ⟨rfl, rfl, rfl, rfl, fun _ _ => rfl, fun _ _ => rfl⟩

theorem Beside.trans {n : Fin 96} {R : Reg → Bool} {c d e : Dev} (h : Beside n R c d) (k : Beside n R d e) : Beside n R c e :=
  ⟨k.now.trans h.now, k.sys.trans h.sys, k.tb.trans h.tb, k.lnk.trans h.lnk, fun m hm => (k.legs m hm).trans (h.legs m hm),
    fun r hr => (k.get r hr).trans (h.get r hr)⟩

theorem Beside.symm {n : Fin 96} {R : Reg → Bool} {d e : Dev} (h : Beside n R d e) : Beside n R e d :=
  ⟨h.now.symm, h.sys.symm, h.tb.symm, h.lnk.symm, fun m hm => (h.legs m hm).symm, fun r hr => (h.get r hr).symm⟩

theorem Beside.mono {n : Fin 96} {R S : Reg → Bool} (hRS : ∀ r, R r = true → S r = true) {d e : Dev} (h : Beside n R d e) :
    Beside n S d e :=
  ⟨h.now, h.sys, h.tb, h.lnk, h.legs, fun r hr => h.get r (Bool.eq_false_iff.2 fun k => Bool.eq_false_iff.1 hr (hRS r k))⟩

end Sys2Proof.Machine
end

section
/-!
SUPPORT. The clockwork of one leg: what its switches, dead-times, limits and state changes leave as it was. Each action of a chain may be
left out of the relation that it keeps, so `simp` reduces a chain to what it began with.
-/
set_option Elab.async false
namespace Sys2Proof.Machine
open Sys2Proof

theorem tripTrack_keeps {β : Type} {π : Dev → β} (cmp : ∀ d m g, π (Dev.cmpU d m g) = π d) (line : ∀ d l, π (Dev.lineOff d l) = π d)
    (m : Fin 64) (d : Dev) : π (tripTrack m d) = π d := by
  unfold tripTrack
  repeat' split
  all_goals simp [cmp, line]

theorem cmpLegEdgeOne_keeps {β : Type} {π : Dev → β} (cmp : ∀ d m g, π (Dev.cmpU d m g) = π d)
    (line : ∀ d l, π (Dev.lineOff d l) = π d) (n : Fin 96) (bit t : Nat) (m : Fin 64) (d : Dev) :
    π (cmpLegEdgeOne n bit t m d) = π d := by
  unfold cmpLegEdgeOne
  dsimp only
  split
  · rw [tripTrack_keeps cmp line, cmp]
    split <;> simp [cmp]
  · rfl

/-- An output change of a leg moves the comparators' windows and their lines alone. -/
theorem cmpLegEdge_keeps {β : Type} {π : Dev → β} (cmp : ∀ d m g, π (Dev.cmpU d m g) = π d)
    (line : ∀ d l, π (Dev.lineOff d l) = π d) (n : Fin 96) (w : Sw) (on : Bool) (t : Nat) (d : Dev) :
    π (cmpLegEdge n w on t d) = π d := Dev.each_kept (fun m _ d => cmpLegEdgeOne_keeps cmp line n _ t m d) d

@[simp] theorem cmpLegEdge_now (n : Fin 96) (w : Sw) (on : Bool) (t : Nat) (d : Dev) : (cmpLegEdge n w on t d).now = d.now :=
  cmpLegEdge_keeps (fun _ _ _ => rfl) (fun _ _ => rfl) n w on t d

@[simp] theorem cmpLegEdge_regs (n : Fin 96) (w : Sw) (on : Bool) (t : Nat) (d : Dev) : (cmpLegEdge n w on t d).regs = d.regs :=
  cmpLegEdge_keeps (fun _ _ _ => rfl) (fun _ _ => rfl) n w on t d

@[simp] theorem cmpLegEdge_sys (n : Fin 96) (w : Sw) (on : Bool) (t : Nat) (d : Dev) : (cmpLegEdge n w on t d).sys = d.sys :=
  cmpLegEdge_keeps (fun _ _ _ => rfl) (fun _ _ => rfl) n w on t d

@[simp] theorem cmpLegEdge_tb (n : Fin 96) (w : Sw) (on : Bool) (t : Nat) (d : Dev) : (cmpLegEdge n w on t d).tb = d.tb :=
  cmpLegEdge_keeps (fun _ _ _ => rfl) (fun _ _ => rfl) n w on t d

@[simp] theorem cmpLegEdge_lnk (n : Fin 96) (w : Sw) (on : Bool) (t : Nat) (d : Dev) : (cmpLegEdge n w on t d).lnk = d.lnk :=
  cmpLegEdge_keeps (fun _ _ _ => rfl) (fun _ _ => rfl) n w on t d

/-! ### The clockwork of a leg -/

/-- What is written of a leg and its shroud while it follows its commands: LEGn_STAT, and the shroud's hold, flags and count. -/
def runsReg (n : Fin 96) : Reg → Bool
  | .leg m .stat => m == n
  | .shl m .hold => m == n
  | .shl m .stat => m == n
  | .shl m .cnt => m == n
  | _ => false

/-- Every register of a leg and of its shroud. -/
def legReg (n : Fin 96) : Reg → Bool
  | .leg m _ => m == n
  | .shl m _ => m == n
  | _ => false

theorem legReg_of_runsReg {n : Fin 96} (r : Reg) (h : runsReg n r = true) : legReg n r = true := by
  unfold runsReg at h
  split at h
  · exact h
  · exact h
  · exact h
  · exact h
  · cases h

/-- A leg without its command, its switches, its counted dead-time and its measurements: what an edge, a dead-time or a limit leaves. -/
def LegSt.plan (g : LegSt) : LegSt :=
  { g with cmd := false, wait := false, spentA := false, spentB := false, pend := none, pendFrom := 0, hi := {}, lo := {}, trH := {},
           trL := {} }

/-- What leg n does as it follows its commands: its plan stands, and so do its forced turn-off and all registers but those of `runsReg`. -/
structure LegRuns (n : Fin 96) (d e : Dev) : Prop extends Beside n (runsReg n) d e where
  plan : e.leg[n].plan = d.leg[n].plan
  foff : e.b (.leg n .stat) LEG_STAT.FOFF = d.b (.leg n .stat) LEG_STAT.FOFF

theorem LegRuns.refl {n : Fin 96} (d : Dev) : LegRuns n d d := ⟨.refl d, rfl, rfl⟩

theorem LegRuns.trans {n : Fin 96} {c d e : Dev} (h : LegRuns n c d) (k : LegRuns n d e) : LegRuns n c e :=
  ⟨h.toBeside.trans k.toBeside, k.plan.trans h.plan, k.foff.trans h.foff⟩

theorem LegRuns.symm {n : Fin 96} {d e : Dev} (h : LegRuns n d e) : LegRuns n e d := ⟨h.toBeside.symm, h.plan.symm, h.foff.symm⟩

theorem LegRuns.keepsRegs {n : Fin 96} {d e : Dev} (now : e.now = d.now) (sys : e.sys = d.sys) (tb : e.tb = d.tb)
    (lnk : e.lnk = d.lnk) (legs : ∀ m, m ≠ n → e.leg[m] = d.leg[m]) (plan : e.leg[n].plan = d.leg[n].plan) (regs : e.regs = d.regs) :
    LegRuns n d e :=
  ⟨⟨now, sys, tb, lnk, legs, fun r _ => Dev.get_congr regs r⟩, plan, by rw [Dev.b, Dev.b, Dev.get_congr regs]⟩

/-- A part of a chain of actions that keeps the relation may be left out. -/
theorem LegRuns.iff_of {n : Fin 96} {c d e : Dev} (h : LegRuns n d e) : LegRuns n c e ↔ LegRuns n c d :=
  ⟨fun k => k.trans h.symm, fun k => k.trans h⟩

@[simp] theorem LegSt.setTr_plan (g : LegSt) (w : Sw) (x : AdtTr) : (g.setTr w x).plan = g.plan := by cases w <;> rfl
@[simp] theorem LegSt.setSw_plan (g : LegSt) (w : Sw) (x : SwSt) : (g.setSw w x).plan = g.plan := by cases w <;> rfl

/-- The other switch has been off for the least dead-time by instant t. -/
def legFar (n : Fin 96) (w : Sw) (t : Nat) (d : Dev) : Bool :=
  match (d.leg[n].sw w.other).offAt with
  | some x => decide (x + d.f (.shl n .dt) SHL_DT.DTMIN * tuFine ≤ t)
  | none => true

/-- A turn-on that the interlock refuses: both switches off, the leg held by class LEG. -/
def legRefused (n : Fin 96) (t : Nat) (d : Dev) : Dev :=
  (((legHoldBit n 0 (legBothOff n t d)).flag (.shl n .stat) SHL_STAT.ILOCK).setF (.leg n .stat) LEG_STAT.STATE 6).pulse n.val

/-- A turn-on that the interlock and the limit let pass. -/
def legRaised (n : Fin 96) (w : Sw) (t : Nat) (d : Dev) : Dev :=
  cmpLegEdge n w true t (d.legU n fun g => g.setSw w { (g.sw w).turn true t with onAt := t, cut := false })

theorem legOn_eq (n : Fin 96) (w : Sw) (t : Nat) (d : Dev) : legOn n w t d =
    if (d.leg[n].sw w.other).on || !(legFar n w t d) then legRefused n t d
    else if (d.leg[n].sw w).on then d
    else if (legLimit d n w).1 = 0 then legCutCount n w d
    else legRaised n w t d := rfl

section
variable {n : Fin 96} {c d : Dev}

@[simp] theorem legRuns_self : LegRuns n d d ↔ True := iff_true_intro (.refl d)

theorem legRuns_legU {g : LegSt → LegSt} (hg : (g d.leg[n]).plan = d.leg[n].plan) : LegRuns n c (d.legU n g) ↔ LegRuns n c d :=
  LegRuns.iff_of (.keepsRegs rfl rfl rfl rfl (fun _ h => Dev.legU_leg_ne d h g) (by rw [Dev.legU_leg_same, hg]) rfl)

@[simp] theorem legRuns_cmpLegEdge {w : Sw} {on : Bool} {t : Nat} : LegRuns n c (cmpLegEdge n w on t d) ↔ LegRuns n c d :=
  LegRuns.iff_of (.keepsRegs (by simp) (by simp) (by simp) (by simp) (by simp) (by simp) (by simp))

@[simp] theorem legRuns_pulse {l : Nat} : LegRuns n c (d.pulse l) ↔ LegRuns n c d :=
  LegRuns.iff_of (.keepsRegs rfl rfl rfl rfl (fun _ _ => rfl) rfl rfl)

theorem legRuns_setShl {q : ShlReg} {f : Fld} {v : Nat} (h : runsReg n (.shl n q) = true) :
    LegRuns n c (d.setF (.shl n q) f v) ↔ LegRuns n c d :=
  LegRuns.iff_of ⟨⟨rfl, rfl, rfl, rfl, fun _ _ => rfl, fun r hr => Dev.get_setF_ne d (fun e => by simp [e, h] at hr) f v⟩, rfl,
    by rw [Dev.b, Dev.get_setF_ne _ (by simp)]; rfl⟩

theorem legRuns_setStat {f : Fld} {v : Nat} (hf : f.ok = true) (h : LEG_STAT.FOFF.apart f = true) :
    LegRuns n c (d.setF (.leg n .stat) f v) ↔ LegRuns n c d :=
  LegRuns.iff_of ⟨⟨rfl, rfl, rfl, rfl, fun _ _ => rfl, fun r hr => Dev.get_setF_ne d (fun e => by simp [e, runsReg] at hr) f v⟩, rfl,
    by simp [Dev.setF, Fld.bit_put_apart (by decide : LEG_STAT.FOFF.ok = true) hf h, Dev.b]⟩

@[simp] theorem legRuns_setHold {f : Fld} {v : Nat} : LegRuns n c (d.setF (.shl n .hold) f v) ↔ LegRuns n c d :=
  legRuns_setShl (by simp [runsReg])

@[simp] theorem legRuns_setShlStat {f : Fld} {v : Nat} : LegRuns n c (d.setF (.shl n .stat) f v) ↔ LegRuns n c d :=
  legRuns_setShl (by simp [runsReg])

@[simp] theorem legRuns_setCnt {f : Fld} {v : Nat} : LegRuns n c (d.setF (.shl n .cnt) f v) ↔ LegRuns n c d :=
  legRuns_setShl (by simp [runsReg])

@[simp] theorem legRuns_setState {v : Nat} : LegRuns n c (d.setF (.leg n .stat) LEG_STAT.STATE v) ↔ LegRuns n c d :=
  legRuns_setStat (by decide) (by decide)

@[simp] theorem legRuns_setDtclamp {v : Nat} : LegRuns n c (d.setF (.leg n .stat) LEG_STAT.DTCLAMP v) ↔ LegRuns n c d :=
  legRuns_setStat (by decide) (by decide)

@[simp] theorem legRuns_legOff {w : Sw} {t : Nat} : LegRuns n c (legOff n w t d) ↔ LegRuns n c d := by
  unfold legOff
  dsimp only
  split
  · rw [legRuns_cmpLegEdge]
    refine legRuns_legU ?_
    split <;> simp
  · rfl

@[simp] theorem legRuns_adtShut {w : Sw} {t : Nat} : LegRuns n c (adtShut n w t d) ↔ LegRuns n c d := legRuns_legU (by simp)

@[simp] theorem legRuns_legUnpend : LegRuns n c (legUnpend n d) ↔ LegRuns n c d := by
  unfold legUnpend
  split
  · rw [legRuns_adtShut]
    exact legRuns_legU rfl
  · rfl

@[simp] theorem legRuns_legDark {t : Nat} : LegRuns n c (legDark n t d) ↔ LegRuns n c d := by
  unfold legDark
  rw [legRuns_legU (by rfl)]
  simp

@[simp] theorem legRuns_legBothOff {t : Nat} : LegRuns n c (legBothOff n t d) ↔ LegRuns n c d := by simp [legBothOff]

@[simp] theorem legRuns_legHoldBit {k : Nat} : LegRuns n c (legHoldBit n k d) ↔ LegRuns n c d := by
  simp [legHoldBit, Dev.flag, Dev.setB]

@[simp] theorem legRuns_legCutCount {w : Sw} : LegRuns n c (legCutCount n w d) ↔ LegRuns n c d := by
  unfold legCutCount
  dsimp only
  rw [legRuns_legU (by simp)]
  split <;> simp [Dev.flag, Dev.setB, Dev.bump, Dev.bumpBy]

@[simp] theorem legRuns_legRefused {t : Nat} : LegRuns n c (legRefused n t d) ↔ LegRuns n c d := by
  simp [legRefused, Dev.flag, Dev.setB]

@[simp] theorem legRuns_legRaised {w : Sw} {t : Nat} : LegRuns n c (legRaised n w t d) ↔ LegRuns n c d := by
  unfold legRaised
  rw [legRuns_cmpLegEdge]
  exact legRuns_legU (by simp)

@[simp] theorem legRuns_legOn {w : Sw} {t : Nat} : LegRuns n c (legOn n w t d) ↔ LegRuns n c d := by
  rw [legOn_eq]
  repeat' split
  all_goals simp

@[simp] theorem legRuns_legFire : LegRuns n c (legFire n d) ↔ LegRuns n c d := by
  unfold legFire
  split
  · rfl
  · dsimp only
    split <;> simp [Dev.setB]

end

/-- A switch whose on-time limit has been reached by instant t turns off at that of its limit. -/
def legOver (n : Fin 96) (t : Nat) (w : Sw) (d : Dev) : Dev :=
  if (d.leg[n].sw w).on && decide ((d.leg[n].sw w).onAt + (legLimit d n w).1 * tuTick ≤ t) then
    legCutCount n w (legOff n w ((d.leg[n].sw w).onAt + (legLimit d n w).1 * tuTick) d)
  else d

/-- A dead-time that is due by instant t has ended. -/
def legFired (n : Fin 96) (t : Nat) (d : Dev) : Dev :=
  match legDue d n with
  | some x => if x ≤ t then legFire n d else d
  | none => d

theorem legCatch_eq (n : Fin 96) (t : Nat) (d : Dev) : legCatch n t d = legOver n t .l (legOver n t .h (legFired n t d)) := rfl

/-- A force brings on switch w: the other one turns off, and the dead-time of w begins or goes on. -/
def legForced (n : Fin 96) (w : Sw) (t : Nat) (d : Dev) : Dev :=
  let x := legOff n w.other t d
  if (x.leg[n].sw w).on || !(x.tbRun (x.legTb n)) then legUnpend n x
  else if (x.leg[n].pend.map Prod.fst) = some w then x
  else
    let base := match (x.leg[n].sw w.other).offAt with
      | some o => max t o
      | none => t
    legPend n w base x

/-- A leg enters RUN: at a period start the command takes its level; within a period the edges past are spent and the leg waits. -/
def legEnters (n : Fin 96) (t : Nat) (first : Bool) (d : Dev) : Dev :=
  if first then
    legPend n (swOf (legLevel d.leg[n])) t (d.legU n fun g => { g with cmd := legLevel d.leg[n], wait := false })
  else
    d.legU n fun g => { g with wait := true, spentA := g.spentA || decide (g.curA < t), spentB := g.spentB || decide (g.curB < t) }

/-- The leg shows the state that its causes give. -/
def legShow (n : Fin 96) (d : Dev) : Dev := d.setF (.leg n .stat) LEG_STAT.STATE (legState d n)

/-- From what the clockwork has done, a leg goes over to the state that its causes give, if it is another. -/
def legTurns (n : Fin 96) (t : Nat) (first : Bool) (d : Dev) : Dev :=
  if legState d n = legShown d n then legShow n d
  else if legState d n = 3 then legForced n .h t (legShow n d)
  else if legState d n = 4 then legForced n .l t (legShow n d)
  else if legState d n = 1 then legEnters n t first (legDark n t (legShow n d))
  else legBothOff n t (legShow n d)

theorem legSettle_eq (n : Fin 96) (t : Nat) (first : Bool) (d : Dev) : legSettle n t first d = legTurns n t first (legCatch n t d) := rfl

section
variable {n : Fin 96} {c d : Dev}

@[simp] theorem legRuns_legOver {t : Nat} {w : Sw} : LegRuns n c (legOver n t w d) ↔ LegRuns n c d := by
  unfold legOver
  split <;> simp

@[simp] theorem legRuns_legFired {t : Nat} : LegRuns n c (legFired n t d) ↔ LegRuns n c d := by
  unfold legFired
  repeat' split
  all_goals simp

@[simp] theorem legRuns_legCatch {t : Nat} : LegRuns n c (legCatch n t d) ↔ LegRuns n c d := by simp [legCatch_eq]

@[simp] theorem legRuns_legPend {w : Sw} {base : Nat} : LegRuns n c (legPend n w base d) ↔ LegRuns n c d := by
  unfold legPend
  dsimp only
  rw [legRuns_legU (by cases w <;> rfl)]
  split <;> simp

@[simp] theorem legRuns_legCmd {v : Bool} {t : Nat} : LegRuns n c (legCmd n v t d) ↔ LegRuns n c d := by
  unfold legCmd
  dsimp only
  split
  · simp
  · rw [legRuns_legPend, legRuns_legOff, legRuns_legU (by rfl)]
    simp

@[simp] theorem legRuns_legEmit {e : Edge} {t : Nat} : LegRuns n c (legEmit n e t d) ↔ LegRuns n c d := by
  cases e <;>
  · unfold legEmit
    dsimp only
    rw [legRuns_legCmd, legRuns_legU (by rfl)]

@[simp] theorem legRuns_legForced {w : Sw} {t : Nat} : LegRuns n c (legForced n w t d) ↔ LegRuns n c d := by
  unfold legForced
  dsimp only
  repeat' split
  all_goals simp

@[simp] theorem legRuns_legEnters {t : Nat} {first : Bool} : LegRuns n c (legEnters n t first d) ↔ LegRuns n c d := by
  unfold legEnters
  split
  · rw [legRuns_legPend, legRuns_legU (by rfl)]
  · rw [legRuns_legU (by rfl)]

@[simp] theorem legRuns_legShow : LegRuns n c (legShow n d) ↔ LegRuns n c d := by simp [legShow]

@[simp] theorem legRuns_legTurns {t : Nat} {first : Bool} : LegRuns n c (legTurns n t first d) ↔ LegRuns n c d := by
  unfold legTurns
  repeat' split
  all_goals simp

@[simp] theorem legRuns_legSettle {t : Nat} {first : Bool} : LegRuns n c (legSettle n t first d) ↔ LegRuns n c d := by
  simp [legSettle_eq]

@[simp] theorem legRuns_legRefresh : LegRuns n c (legRefresh n d) ↔ LegRuns n c d := by simp [legRefresh]

end

end Sys2Proof.Machine
end

section
/-!
SUPPORT. What the timebases see: the instant, the locks of their PLLs, their state and their registers. Comparators, position channels,
converters, loop engines and the capture engine leave all of it as it is.
-/
set_option Elab.async false
namespace Sys2Proof.Machine
open Sys2Proof

/-- The instant, the locks of the PLLs, the timebases and their registers. -/
structure TbView where
  now : Nat
  pllA : Bool
  pllB : Bool
  tb : Vector TbSt 32
  reg : Fin 32 → TbReg → Word

def Dev.tbs (d : Dev) : TbView := ⟨d.now, d.sys.pllA, d.sys.pllB, d.tb, fun b r => d.get (.tb b r)⟩

/-- The timebases, and the events that wait for the fabric. -/
def Dev.tbsFab (d : Dev) : TbView × FabSt := (d.tbs, d.fab)

theorem Dev.tbs_eq {d e : Dev} (now : e.now = d.now) (sys : e.sys = d.sys) (tb : e.tb = d.tb)
    (get : ∀ b r, e.get (.tb b r) = d.get (.tb b r)) : e.tbs = d.tbs := by
  simp only [Dev.tbs, now, sys, tb, get]

theorem Dev.tbs_congr {d e : Dev} (now : e.now = d.now) (sys : e.sys = d.sys) (tb : e.tb = d.tb) (regs : e.regs = d.regs) :
    e.tbs = d.tbs := Dev.tbs_eq now sys tb fun _ _ => Dev.get_congr regs _

section
variable {d e : Dev} (h : e.tbs = d.tbs)
include h

theorem Dev.now_of_tbs : e.now = d.now := congrArg TbView.now h
theorem Dev.tb_of_tbs : e.tb = d.tb := congrArg TbView.tb h
theorem Dev.pllA_of_tbs : e.sys.pllA = d.sys.pllA := congrArg TbView.pllA h
theorem Dev.pllB_of_tbs : e.sys.pllB = d.sys.pllB := congrArg TbView.pllB h
theorem Dev.get_of_tbs (b : Fin 32) (r : TbReg) : e.get (.tb b r) = d.get (.tb b r) := congrArg (TbView.reg · b r) h
theorem Dev.f_of_tbs (b : Fin 32) (r : TbReg) (f : Fld) : e.f (.tb b r) f = d.f (.tb b r) f := by rw [Dev.f, Dev.get_of_tbs h]; rfl
theorem Dev.b_of_tbs (b : Fin 32) (r : TbReg) (f : Fld) : e.b (.tb b r) f = d.b (.tb b r) f := by rw [Dev.b, Dev.get_of_tbs h]; rfl
theorem Dev.tbRun_of_tbs (b : Fin 32) : e.tbRun b = d.tbRun b := Dev.b_of_tbs h b .stat _
theorem tbB_of_tbs (b : Fin 32) : tbB e b = tbB d b := Dev.b_of_tbs h b .ctl _
theorem tbPll_of_tbs (b : Fin 32) : tbPll e b = tbPll d b := by
  rw [tbPll, tbB_of_tbs h, Dev.pllA_of_tbs h, Dev.pllB_of_tbs h]; rfl

end

theorem Dev.tbs_of_tbsFab {d e : Dev} (h : e.tbsFab = d.tbsFab) : e.tbs = d.tbs := congrArg Prod.fst h
theorem Dev.fab_of_tbsFab {d e : Dev} (h : e.tbsFab = d.tbsFab) : e.fab = d.fab := congrArg Prod.snd h

/-! ### The device's updates -/

section
variable {d : Dev}

@[simp] theorem Dev.put_tbs {r : Reg} (h : ∀ b q, r ≠ .tb b q) (v : Word) : (d.put r v).tbs = d.tbs :=
  Dev.tbs_eq rfl rfl rfl fun b q => Dev.get_put_ne d (h b q).symm v
@[simp] theorem Dev.put_tbsFab {r : Reg} (h : ∀ b q, r ≠ .tb b q) (v : Word) : (d.put r v).tbsFab = d.tbsFab :=
  Prod.ext (Dev.put_tbs h v) rfl
@[simp] theorem Dev.setF_tbs {r : Reg} (h : ∀ b q, r ≠ .tb b q) (f : Fld) (v : Nat) : (d.setF r f v).tbs = d.tbs := Dev.put_tbs h _
@[simp] theorem Dev.setF_tbsFab {r : Reg} (h : ∀ b q, r ≠ .tb b q) (f : Fld) (v : Nat) : (d.setF r f v).tbsFab = d.tbsFab :=
  Dev.put_tbsFab h _
@[simp] theorem Dev.setB_tbs {r : Reg} (h : ∀ b q, r ≠ .tb b q) (f : Fld) (v : Bool) : (d.setB r f v).tbs = d.tbs := Dev.put_tbs h _
@[simp] theorem Dev.setB_tbsFab {r : Reg} (h : ∀ b q, r ≠ .tb b q) (f : Fld) (v : Bool) : (d.setB r f v).tbsFab = d.tbsFab :=
  Dev.put_tbsFab h _
@[simp] theorem Dev.setBit_tbsFab {r : Reg} (h : ∀ b q, r ≠ .tb b q) (i : Nat) (v : Bool) : (d.setBit r i v).tbsFab = d.tbsFab :=
  Dev.put_tbsFab h _
@[simp] theorem Dev.flag_tbs {r : Reg} (h : ∀ b q, r ≠ .tb b q) (f : Fld) : (d.flag r f).tbs = d.tbs := Dev.put_tbs h _
@[simp] theorem Dev.flag_tbsFab {r : Reg} (h : ∀ b q, r ≠ .tb b q) (f : Fld) : (d.flag r f).tbsFab = d.tbsFab := Dev.put_tbsFab h _
@[simp] theorem Dev.bump_tbs {r : Reg} (h : ∀ b q, r ≠ .tb b q) (f : Fld) : (d.bump r f).tbs = d.tbs := Dev.put_tbs h _
@[simp] theorem Dev.bumpBy_tbsFab {r : Reg} (h : ∀ b q, r ≠ .tb b q) (f : Fld) (n : Nat) : (d.bumpBy r f n).tbsFab = d.tbsFab :=
  Dev.put_tbsFab h _
@[simp] theorem Dev.bumpFree_tbs : d.bumpFree.tbs = d.tbs := rfl
@[simp] theorem Dev.bumpFree_tbsFab : d.bumpFree.tbsFab = d.tbsFab := rfl
@[simp] theorem Dev.legU_tbs {n : Fin 96} {g : LegSt → LegSt} : (d.legU n g).tbs = d.tbs := rfl
@[simp] theorem Dev.cmpU_tbs {n : Fin 64} {g : CmpSt → CmpSt} : (d.cmpU n g).tbs = d.tbs := rfl
@[simp] theorem Dev.adcU_tbs {n : Fin 32} {g : AdcSt → AdcSt} : (d.adcU n g).tbs = d.tbs := rfl
@[simp] theorem Dev.posU_tbs {n : Fin 8} {g : PosSt → PosSt} : (d.posU n g).tbs = d.tbs := rfl
@[simp] theorem Dev.capU_tbsFab {r : Fin 16} {g : CapSt → CapSt} : (d.capU r g).tbsFab = d.tbsFab := rfl
@[simp] theorem Dev.leU_tbsFab {n : Fin 64} {g : LeSt → LeSt} : (d.leU n g).tbsFab = d.tbsFab := rfl
@[simp] theorem Dev.send_tbsFab {o : Outbound} : (d.send o).tbsFab = d.tbsFab := rfl
@[simp] theorem Dev.pulse_tbs {l : Nat} : (d.pulse l).tbs = d.tbs := rfl
@[simp] theorem Dev.pulse_tbsFab {l : Nat} : (d.pulse l).tbsFab = d.tbsFab := rfl
@[simp] theorem Dev.lineOff_tbs {l : Nat} : (d.lineOff l).tbs = d.tbs := rfl
@[simp] theorem Dev.tagBack_tbs {h : Fin 70} {n : Nat} : (d.tagBack h n).tbs = d.tbs := rfl
@[simp] theorem Dev.tagTake_tbs {h : Fin 70} {n : Nat} : (d.tagTake h n).tbs = d.tbs := by
  unfold Dev.tagTake
  exact Dev.setF_tbs (r := .sys (.taguse h)) (by simp) _ _
@[simp] theorem Dev.tagTake_tbsFab {h : Fin 70} {n : Nat} : (d.tagTake h n).tbsFab = d.tbsFab := Prod.ext Dev.tagTake_tbs rfl
@[simp] theorem Dev.raise_tbs {p : Nat} : (d.raise p).tbs = d.tbs := Dev.tbs_congr (by simp) (by simp) (by simp) (by simp)
@[simp] theorem Dev.raiseIf_tbs {c : Bool} {p : Nat} : (d.raiseIf c p).tbs = d.tbs := by
  unfold Dev.raiseIf
  split <;> simp
@[simp] theorem Dev.line_tbs {l : Nat} {on : Bool} : (d.line l on).tbs = d.tbs :=
  Dev.tbs_congr (by simp) (by simp) (by simp) (by simp)

@[simp] theorem Dev.ite_tbs (c : Prop) [Decidable c] (d e : Dev) : (if c then d else e).tbs = if c then d.tbs else e.tbs :=
  apply_ite ..
@[simp] theorem Dev.ite_tbsFab (c : Prop) [Decidable c] (d e : Dev) :
    (if c then d else e).tbsFab = if c then d.tbsFab else e.tbsFab := apply_ite ..
@[simp] theorem ite_snd_tbsFab {α : Type} (c : Prop) [Decidable c] (p q : α × Dev) :
    (if c then p else q).2.tbsFab = if c then p.2.tbsFab else q.2.tbsFab := by split <;> rfl

@[simp] theorem Dev.each_tbs {α : Type} {l : List α} {f : α → Dev → Dev} (h : ∀ a ∈ l, ∀ d, (f a d).tbs = d.tbs) :
    (d.each l f).tbs = d.tbs := Dev.each_kept h d
@[simp] theorem Dev.each_tbsFab {α : Type} {l : List α} {f : α → Dev → Dev} (h : ∀ a ∈ l, ∀ d, (f a d).tbsFab = d.tbsFab) :
    (d.each l f).tbsFab = d.tbsFab := Dev.each_kept h d
@[simp] theorem Dev.foldl_tbsFab {α : Type} {l : List α} {f : Dev → α → Dev} (h : ∀ a ∈ l, ∀ d, (f d a).tbsFab = d.tbsFab) :
    (l.foldl f d).tbsFab = d.tbsFab := Dev.each_tbsFab (f := fun a d => f d a) h

/-! ### The capture engine and the operands of loop engines -/

@[simp] theorem Dev.msix_tbsFab (vec : Nat) : (d.msix vec).tbsFab = d.tbsFab := by simp [Dev.msix]
@[simp] theorem capWm_tbsFab (r : Fin 16) : (capWm r d).tbsFab = d.tbsFab := by simp [capWm]
@[simp] theorem capHostErr_tbsFab (r : Fin 16) : (capHostErr r d).tbsFab = d.tbsFab := by simp [capHostErr]
@[simp] theorem capWriteBack_tbsFab (r : Fin 16) : (capWriteBack r d).tbsFab = d.tbsFab := by simp [capWriteBack]
@[simp] theorem capUnreported_tbsFab (r : Fin 16) (before : Bool) (n ts : Nat) : (capUnreported r before n ts d).tbsFab = d.tbsFab := by
  simp [capUnreported]
@[simp] theorem capDrop_tbsFab (r : Fin 16) (before : Bool) (x : CapLine) : (capDrop r before x d).tbsFab = d.tbsFab := by simp [capDrop]
@[simp] theorem capWords_tbsFab (r : Fin 16) (ws : List Word) : (capWords r ws d).2.tbsFab = d.tbsFab := by
  unfold capWords
  split <;> rfl
@[simp] theorem capIssue_tbsFab (r : Fin 16) (x : CapLine) : (capIssue r x d).tbsFab = d.tbsFab := by
  unfold capIssue
  dsimp only
  split <;> simp
@[simp] theorem capNoRoom_tbsFab (r : Fin 16) : (capNoRoom r d).2.tbsFab = d.tbsFab := by simp [capNoRoom]
@[simp] theorem capCloseOne_tbsFab (r : Fin 16) : (capCloseOne r d).tbsFab = d.tbsFab := by simp [capCloseOne]
@[simp] theorem capClose_tbsFab (r : Fin 16) : (capClose r d).tbsFab = d.tbsFab := by simp [capClose]
@[simp] theorem capOpen_tbsFab (r : Fin 16) (at_ : Nat) : (capOpen r at_ d).tbsFab = d.tbsFab := by simp [capOpen]
@[simp] theorem capPut_tbsFab (r : Fin 16) (x : CapRec) (ws : List Word) : (capPut r x ws d).tbsFab = d.tbsFab := by simp [capPut]
@[simp] theorem capPlace_tbsFab (r : Fin 16) (x : CapRec) (ws : List Word) : (capPlace r x ws d).tbsFab = d.tbsFab := by simp [capPlace]
@[simp] theorem capPlacePart_tbsFab (r : Fin 16) (x : CapRec) (ws : List Word) : (capPlacePart r x ws d).tbsFab = d.tbsFab := by
  simp [capPlacePart]
@[simp] theorem capPlaceAdc_tbsFab (r : Fin 16) (x : CapRec) (n : Fin 32) (entry : Nat) (sat tv : Bool) (data : Nat) :
    (capPlaceAdc r x n entry sat tv data d).tbsFab = d.tbsFab := by
  simp [capPlaceAdc]
@[simp] theorem capAgain_tbsFab (r : Fin 16) (x : CapRec) (d : Dev) : (capAgain r x d).tbsFab = d.tbsFab := by
  unfold capAgain
  split <;> simp
@[simp] theorem capRepack_tbsFab (r : Fin 16) : (capRepack r d).tbsFab = d.tbsFab := by simp -implicitDefEqProofs [capRepack]
@[simp] theorem capDropAll_tbsFab (r : Fin 16) (l : List CapLine) : (capDropAll r l d).tbsFab = d.tbsFab := by
  unfold capDropAll
  induction l with
  | nil => rfl
  | cons x l ih => simp [ih]
@[simp] theorem capIssueAll_tbsFab (r : Fin 16) (k : Nat) : (capIssueAll r k d).tbsFab = d.tbsFab := by
  induction k generalizing d with
  | zero => rfl
  | succ k ih =>
    unfold capIssueAll
    repeat' split
    all_goals simp [ih]
@[simp] theorem capPump_tbsFab (r : Fin 16) : (capPump r d).tbsFab = d.tbsFab := by simp [capPump]
@[simp] theorem capTakeIn_tbsFab (r : Fin 16) (ts : Nat) (ws : List Word) : (capTakeIn r ts ws d).tbsFab = d.tbsFab := by
  simp [capTakeIn]
@[simp] theorem capPos_tbsFab (n : Fin 8) (tv : Bool) (u : PosUpd) : (capPos n tv u d).tbsFab = d.tbsFab := by simp [capPos]
@[simp] theorem leOffer_tbsFab (hit : Word → Bool) (x : Word → Word) (n : Fin 64) (d : Dev) : (leOffer hit x n d).tbsFab = d.tbsFab := by
  simp [leOffer]
@[simp] theorem leFromPos_tbsFab (n : Fin 8) (pos cpr : Nat) (spd : Word) : (leFromPos n pos cpr spd d).tbsFab = d.tbsFab := by
  simp [leFromPos, leOfferAll]

/-! ### Comparators, position channels and converters -/

@[simp] theorem cmpWout_tbs (quiet : Bool) (n : Fin 64) : (cmpWout quiet n d).tbs = d.tbs := by simp [cmpWout]
@[simp] theorem cmpShow_tbs (n : Fin 64) : (cmpShow n d).tbs = d.tbs := by simp [cmpShow]
@[simp] theorem cmpPath_tbs (n : Fin 64) (d : Dev) : (cmpPath n d).tbs = d.tbs := by simp [cmpPath]
@[simp] theorem cmpPathAll_tbs (b : Fin 32) : (cmpPathAll b d).tbs = d.tbs := by simp [cmpPathAll]
@[simp] theorem posPathAll_tbs (b : Fin 32) : (posPathAll b d).tbs = d.tbs := by simp [posPathAll, posPath]
@[simp] theorem adcTbStopAll_tbs (b : Fin 32) : (adcTbStopAll b d).tbs = d.tbs := by simp [adcTbStopAll, adcTbStop]

end

/-! ### Triggers: they raise events, and take none back -/

/-- The timebases stand, and the events that waited for the fabric still wait. -/
structure Heard (d e : Dev) : Prop where
  tbs : e.tbs = d.tbs
  raised : ∀ x ∈ d.fab.raised, x ∈ e.fab.raised

theorem Heard.trans {c d e : Dev} (h : Heard c d) (k : Heard d e) : Heard c e :=
  ⟨k.tbs.trans h.tbs, fun x hx => k.raised x (h.raised x hx)⟩

theorem Heard.of_tbsFab {d e : Dev} (h : e.tbsFab = d.tbsFab) : Heard d e :=
  ⟨Dev.tbs_of_tbsFab h, fun x hx => by rwa [Dev.fab_of_tbsFab h]⟩

theorem Heard.raise {d e : Dev} (h : Heard d e) (p : Nat) : Heard d (e.raise p) := by
  refine h.trans ⟨Dev.raise_tbs, fun x hx => ?_⟩
  unfold Dev.raise
  split
  · simp [hx]
  · exact hx

theorem Heard.each {α : Type} {l : List α} {f : α → Dev → Dev} (h : ∀ a d, Heard d (f a d)) (d : Dev) : Heard d (d.each l f) := by
  induction l generalizing d with
  | nil => exact ⟨rfl, fun _ => id⟩
  | cons a l ih => exact (h a d).trans (ih _)

theorem mem_raised_raise (d : Dev) {p : Nat} (h : p < 512) : ∃ x ∈ (d.raise p).fab.raised, x.val = p :=
  ⟨⟨p, h⟩, by simp [Dev.raise, h], rfl⟩

theorem posUpdate_heard (n : Fin 8) (t stamp : Nat) (tv : Bool) (d : Dev) : Heard d (posUpdate n t stamp tv d) := by
  unfold posUpdate
  extract_lets p k spd d1 u d2 d3
  have h1 : Heard d (((d1.put (.pos n .upos) u.pos).flag (.pos n .stat) POS_STAT.UPD).posU n fun p => { p with upd := u }) :=
    ⟨by simp [d1], fun _ => id⟩
  have h2 : Heard d d2 := h1.raise _
  have h3 : Heard d d3 := h2.trans (.of_tbsFab (by simp [d3]))
  split
  · exact h3.trans (.of_tbsFab (by simp))
  · exact h3

theorem posTrigger_heard (n : Fin 8) (tt : Nat) (d : Dev) : Heard d (posTrigger n tt d) := by
  unfold posTrigger
  repeat' split
  · exact ⟨rfl, fun _ => id⟩
  · exact ⟨by simp, fun _ => id⟩
  · exact ⟨by simp, fun _ => id⟩
  · exact posUpdate_heard ..
  · exact ⟨rfl, fun _ => id⟩

theorem adcTrigger_heard (n : Fin 32) (tt : Nat) (d : Dev) : Heard d (adcTrigger n tt d) := by
  unfold adcTrigger
  repeat' split
  · exact ⟨by simp [adcPass], fun _ => id⟩
  · exact ⟨by simp, fun _ => id⟩
  · have h : Heard d ((d.flag (.adc n .stat) ADC_STAT.OVERRUN).bump (.adc n .cnt) ADC_CNT.OVERRUN_CNT) := ⟨by simp, fun _ => id⟩
    exact (h.raise _).trans ⟨rfl, fun _ => id⟩
  · exact ⟨rfl, fun _ => id⟩

end Sys2Proof.Machine
end

section
/-!
SUPPORT. What a leg does at its periods, commits and writes stays within the leg, its registers and its shroud's.
-/
set_option Elab.async false
namespace Sys2Proof.Machine
open Sys2Proof

/-- What leg n does within itself: timebases, other legs and the registers of all else stand. -/
abbrev LegOnly (n : Fin 96) (d e : Dev) : Prop := Beside n (legReg n) d e

theorem LegRuns.only {n : Fin 96} {d e : Dev} (h : LegRuns n d e) : LegOnly n d e := h.toBeside.mono legReg_of_runsReg

theorem Beside.iff_of {n : Fin 96} {R : Reg → Bool} {c d e : Dev} (h : Beside n R d e) : Beside n R c e ↔ Beside n R c d :=
  ⟨fun k => k.trans h.symm, fun k => k.trans h⟩

theorem LegOnly.tbs {n : Fin 96} {d e : Dev} (h : LegOnly n d e) : e.tbs = d.tbs :=
  Dev.tbs_eq h.now h.sys h.tb fun _ _ => h.get _ rfl

/-- After the load point, a commit moves the edges of the next period that it reaches in time. -/
def legNext (n : Fin 96) (tb : TbSt) (lp : Bool) (tc : Nat) (d : Dev) : Dev :=
  if tb.loaded && lp && !(d.b (.leg n .ctl) LEG_CTL.PROF) then
    let place := legPlace d n tb.nxtP tb.corrN
    let s := tb.start + tb.len * tuTick
    let keep (e old : Nat) : Nat := if tc + 58 * tuFine ≤ s + e * tuFine then s + e * tuFine else old
    d.legU n fun g => { g with nxtA := keep place.1 g.nxtA, nxtB := keep place.2.1 g.nxtB }
  else d

/-- A commit moves an edge of the period that has not been emitted, to an instant that it reaches in time or not. -/
def edgeMoves (tc : Nat) (spent : Bool) (t old : Nat) : Bool := !spent && !decide (old < tc) && t != old
def edgeInTime (tc t : Nat) : Bool := decide (tc + 58 * tuFine ≤ t)

/-- A commit moves the edges of the running period. -/
def legMoved (n : Fin 96) (g : LegSt) (tb : TbSt) (p tc : Nat) (d : Dev) : Dev :=
  let place := legPlace d n p tb.corr
  let new (e : Nat) : Nat := tb.start + e * tuFine
  let late := (edgeMoves tc g.spentA (new place.1) g.curA && !edgeInTime tc (new place.1)) ||
    (edgeMoves tc g.spentB (new place.2.1) g.curB && !edgeInTime tc (new place.2.1))
  let d3 := d.legU n fun g =>
    { g with curA := if edgeMoves tc g.spentA (new place.1) g.curA && edgeInTime tc (new place.1) then new place.1 else g.curA,
             curB := if edgeMoves tc g.spentB (new place.2.1) g.curB && edgeInTime tc (new place.2.1) then new place.2.1 else g.curB }
  if late then (d3.flag (.leg n .stat) LEG_STAT.LATE).bump (.leg n .cnt) LEG_CNT.LATE_CNT else d3

/-- A commit reaches a leg in RUN that has had u updates in this period. -/
def legUpdated (n : Fin 96) (g : LegSt) (tb : TbSt) (prof : Bool) (u p tc : Nat) (d : Dev) : Dev :=
  let d2 := d.setF (.leg n .stat) LEG_STAT.UPDN (min 15 (u + 1))
  if prof then d2
  else if 4 < u + 1 then (d2.flag (.leg n .stat) LEG_STAT.UPD_OVER).bump (.leg n .cnt) LEG_CNT.OVER_CNT
  else legNext n tb g.lp tc (legMoved n g tb p tc d2)

theorem legCommitAt_eq (n : Fin 96) (vals : LegVals) (tc : Nat) (d0 : Dev) : legCommitAt n vals tc d0 =
    let d := if d0.tbRun (d0.legTb n) then legCatch n tc d0 else d0
    if !(d0.tbRun (d0.legTb n)) then legPut n vals d
    else if legShown d n ≠ 1 then legNext n d.tb[d0.legTb n] d.leg[n].lp tc (legPut n vals d)
    else legUpdated n d.leg[n] d.tb[d0.legTb n] (d.b (.leg n .ctl) LEG_CTL.PROF) (d.f (.leg n .stat) LEG_STAT.UPDN)
      (d.f (.tb (d0.legTb n) .pact) TB_PACT.P) tc (legPut n vals d) := rfl

section
variable {n : Fin 96} {c d : Dev}

@[simp] theorem legOnly_self : LegOnly n d d ↔ True := iff_true_intro (.refl d)

@[simp] theorem legOnly_legU {g : LegSt → LegSt} : LegOnly n c (d.legU n g) ↔ LegOnly n c d :=
  Beside.iff_of ⟨rfl, rfl, rfl, rfl, fun _ h => Dev.legU_leg_ne d h g, fun _ _ => rfl⟩

theorem legOnly_put {r : Reg} (h : legReg n r = true) {v : Word} : LegOnly n c (d.put r v) ↔ LegOnly n c d :=
  Beside.iff_of ⟨rfl, rfl, rfl, rfl, fun _ _ => rfl, fun q hq => Dev.get_put_ne d (fun e => by simp [e, h] at hq) v⟩

@[simp] theorem legOnly_putLeg {r : LegReg} {v : Word} : LegOnly n c (d.put (.leg n r) v) ↔ LegOnly n c d :=
  legOnly_put (by simp [legReg])
@[simp] theorem legOnly_wrLeg {r : LegReg} {v : Word} : LegOnly n c (d.wr (.leg n r) v) ↔ LegOnly n c d := legOnly_putLeg
@[simp] theorem legOnly_setFLeg {r : LegReg} {f : Fld} {v : Nat} : LegOnly n c (d.setF (.leg n r) f v) ↔ LegOnly n c d := legOnly_putLeg
@[simp] theorem legOnly_setBLeg {r : LegReg} {f : Fld} {v : Bool} : LegOnly n c (d.setB (.leg n r) f v) ↔ LegOnly n c d := legOnly_putLeg
@[simp] theorem legOnly_flagLeg {r : LegReg} {f : Fld} : LegOnly n c (d.flag (.leg n r) f) ↔ LegOnly n c d := legOnly_putLeg
@[simp] theorem legOnly_bumpLeg {r : LegReg} {f : Fld} : LegOnly n c (d.bump (.leg n r) f) ↔ LegOnly n c d := legOnly_putLeg
@[simp] theorem legOnly_setBShl {r : ShlReg} {f : Fld} {v : Bool} : LegOnly n c (d.setB (.shl n r) f v) ↔ LegOnly n c d :=
  legOnly_put (by simp [legReg])
@[simp] theorem legOnly_free {k : Nat} : LegOnly n c { d with free := k } ↔ LegOnly n c d :=
  Beside.iff_of ⟨rfl, rfl, rfl, rfl, fun _ _ => rfl, fun _ _ => rfl⟩
@[simp] theorem legOnly_bumpFree : LegOnly n c d.bumpFree ↔ LegOnly n c d := legOnly_free

theorem legOnly_runs {e : Dev} (h : LegRuns n d e) : LegOnly n c e ↔ LegOnly n c d := h.only.iff_of

@[simp] theorem legOnly_legOff {w : Sw} {t : Nat} : LegOnly n c (legOff n w t d) ↔ LegOnly n c d := legOnly_runs (by simp)
@[simp] theorem legOnly_legDark {t : Nat} : LegOnly n c (legDark n t d) ↔ LegOnly n c d := legOnly_runs (by simp)
@[simp] theorem legOnly_legBothOff {t : Nat} : LegOnly n c (legBothOff n t d) ↔ LegOnly n c d := legOnly_runs (by simp)
@[simp] theorem legOnly_legCatch {t : Nat} : LegOnly n c (legCatch n t d) ↔ LegOnly n c d := legOnly_runs (by simp)
@[simp] theorem legOnly_legPend {w : Sw} {t : Nat} : LegOnly n c (legPend n w t d) ↔ LegOnly n c d := legOnly_runs (by simp)
@[simp] theorem legOnly_legCmd {v : Bool} {t : Nat} : LegOnly n c (legCmd n v t d) ↔ LegOnly n c d := legOnly_runs (by simp)
@[simp] theorem legOnly_legEmit {e : Edge} {t : Nat} : LegOnly n c (legEmit n e t d) ↔ LegOnly n c d := legOnly_runs (by simp)
@[simp] theorem legOnly_legSettle {t : Nat} {first : Bool} : LegOnly n c (legSettle n t first d) ↔ LegOnly n c d :=
  legOnly_runs (by simp)
@[simp] theorem legOnly_legRefresh : LegOnly n c (legRefresh n d) ↔ LegOnly n c d := legOnly_runs (by simp)

@[simp] theorem legOnly_legDtFrom {t : Nat} : LegOnly n c (legDtFrom n t d) ↔ LegOnly n c d := legOnly_legU
@[simp] theorem legOnly_legDtLoad : LegOnly n c (legDtLoad n d) ↔ LegOnly n c d := by simp [legDtLoad]
@[simp] theorem legOnly_legReefEnd : LegOnly n c (legReefEnd n d) ↔ LegOnly n c d := by simp [legReefEnd]

@[simp] theorem legOnly_legAdapt {t : Nat} : LegOnly n c (legAdapt n t d) ↔ LegOnly n c d := by
  have h (x : Dev) : LegOnly n d x → (LegOnly n c x ↔ LegOnly n c d) := Beside.iff_of
  refine h _ ?_
  unfold legAdapt
  extract_lets g replace adt lim lo hi clear v w d1 d2 miss d3 a b e1 missed e2
  have hreplace (x : Dev) : LegOnly n d (replace lo hi x) ↔ LegOnly n d x := by
    simp only [replace]
    split <;> simp
  have h3 : LegOnly n d d3 := by
    simp only [d3]
    split <;> simp [d2, d1]
  have hmissed (m : Bool) (x : Dev) : LegOnly n d (missed m x) ↔ LegOnly n d x := by
    simp only [missed]
    split <;> simp
  repeat' split
  · simp
  · exact .refl d
  · simpa only [hreplace, clear, legOnly_legU, legOnly_free] using h3
  · simp [hreplace, clear, e2, hmissed, e1]

@[simp] theorem legOnly_legPut {l : LegVals} : LegOnly n c (legPut n l d) ↔ LegOnly n c d := by
  unfold legPut
  induction l generalizing d with
  | nil => rfl
  | cons p l ih => simp [ih]

@[simp] theorem legOnly_legNext {tb : TbSt} {lp : Bool} {t : Nat} : LegOnly n c (legNext n tb lp t d) ↔ LegOnly n c d := by
  unfold legNext
  split <;> simp

@[simp] theorem legOnly_legMoved {g : LegSt} {tb : TbSt} {p t : Nat} : LegOnly n c (legMoved n g tb p t d) ↔ LegOnly n c d := by
  unfold legMoved
  dsimp only
  split <;> simp

@[simp] theorem legOnly_legUpdated {g : LegSt} {tb : TbSt} {u p t : Nat} {prof : Bool} :
    LegOnly n c (legUpdated n g tb prof u p t d) ↔ LegOnly n c d := by
  unfold legUpdated
  dsimp only
  repeat' split
  all_goals simp

@[simp] theorem legOnly_legCommitAt {l : LegVals} {t : Nat} : LegOnly n c (legCommitAt n l t d) ↔ LegOnly n c d := by
  rw [legCommitAt_eq]
  cases d.tbRun (d.legTb n) with
  | false => simp
  | true =>
    simp only [if_true, Bool.not_true, Bool.false_eq_true, if_false]
    split <;> simp

@[simp] theorem legOnly_each {α : Type} {l : List α} {f : α → Dev → Dev} (h : ∀ a d, LegOnly n c (f a d) ↔ LegOnly n c d) :
    LegOnly n c (d.each l f) ↔ LegOnly n c d := by
  induction l generalizing d with
  | nil => rfl
  | cons a l ih => exact ih.trans (h a d)

@[simp] theorem legOnly_legDeferred {t : Nat} : LegOnly n c (legDeferred n t d) ↔ LegOnly n c d := by simp [legDeferred]

@[simp] theorem legOnly_legLeftOver {t : Nat} : LegOnly n c (legLeftOver n t d) ↔ LegOnly n c d := by
  unfold legLeftOver
  dsimp only
  repeat' split
  all_goals simp

@[simp] theorem legOnly_legLoad {b : Fin 32} : LegOnly n c (legLoad n b d) ↔ LegOnly n c d := by
  unfold legLoad
  simp

@[simp] theorem legOnly_legPeriod {b : Fin 32} {t : Nat} {first : Bool} : LegOnly n c (legPeriod n b t first d) ↔ LegOnly n c d := by
  have h (x : Dev) : LegOnly n d x → (LegOnly n c x ↔ LegOnly n c d) := Beside.iff_of
  refine h _ ?_
  unfold legPeriod
  extract_lets d0 old wasFull waited d1 rel d2 d3 d4 d5 d6 v d7
  have h0 : LegOnly n d d0 := by
    simp only [d0, legOnly_legDtFrom]
    split <;> simp
  have h1 : LegOnly n d d1 := by
    simp only [d1]
    split <;> simpa using h0
  have h4 : LegOnly n d d4 := by
    simp only [d4, d3, d2, legOnly_legReefEnd, legOnly_legAdapt, legOnly_setFLeg]
    split <;> simpa using h1
  have h6 : LegOnly n d d6 := by
    simp only [d6, d5, legOnly_legSettle]
    split <;> simpa using h4
  simp only [d7, legOnly_legDeferred]
  repeat' split
  all_goals simpa using h6

@[simp] theorem legOnly_legTbStop {t : Nat} : LegOnly n c (legTbStop n t d) ↔ LegOnly n c d := by
  unfold legTbStop
  dsimp only
  repeat' split
  all_goals simp

@[simp] theorem legOnly_legRunSet {v : Bool} : LegOnly n c (legRunSet n v d) ↔ LegOnly n c d := by
  unfold legRunSet
  dsimp only
  split <;> simp

@[simp] theorem legOnly_legCommit {l : LegVals} : LegOnly n c (legCommit n l d) ↔ LegOnly n c d := by
  unfold legCommit
  dsimp only
  split <;> simp

@[simp] theorem legOnly_legCommitStaged : LegOnly n c (legCommitStaged n d) ↔ LegOnly n c d := by
  unfold legCommitStaged
  dsimp only
  repeat' split
  all_goals simp

@[simp] theorem legOnly_legForceOff : LegOnly n c (legForceOff n d) ↔ LegOnly n c d := by simp [legForceOff]

end

/-! ### The legs of a timebase -/

@[simp] theorem legPeriod_tbs (n : Fin 96) (b : Fin 32) (t : Nat) (first : Bool) (d : Dev) : (legPeriod n b t first d).tbs = d.tbs :=
  LegOnly.tbs (n := n) (by simp)

@[simp] theorem legLoad_tbs (n : Fin 96) (b : Fin 32) (d : Dev) : (legLoad n b d).tbs = d.tbs := LegOnly.tbs (n := n) (by simp)

@[simp] theorem legTbStop_tbs (n : Fin 96) (t : Nat) (d : Dev) : (legTbStop n t d).tbs = d.tbs := LegOnly.tbs (n := n) (by simp)

end Sys2Proof.Machine
end

section
/-!
SUPPORT. How a command's clause is shown: the answer of its action where nothing falls due, the write that an access makes, and the
fields that a write of a register leaves.
-/
set_option Elab.async false
namespace Sys2Proof.Machine
open Sys2Proof

/-! ### The answer of a command -/

theorem settle_get (d : Dev) (r : Reg) : (settle d).get r = d.get r := Dev.get_congr (settle_regs d) r
@[simp] theorem settle_f (d : Dev) (r : Reg) (f : Fld) : (settle d).f r f = d.f r f := by rw [Dev.f, settle_get]; rfl
@[simp] theorem settle_b (d : Dev) (r : Reg) (f : Fld) : (settle d).b r f = d.b r f := by rw [Dev.b, settle_get]; rfl
@[simp] theorem settle_tbRun (d : Dev) (b : Fin 32) : (settle d).tbRun b = d.tbRun b := settle_b ..

/-- Nothing falls due before an instant that has passed. -/
theorem calm_max {s : State} {t : Nat} : Calm s (max s.now t) ↔ Calm s t := by
  simp [Calm, Dev.at]

theorem CalmTo.calm {s : State} {u t : Nat} (h : CalmTo s t) (hu : u ≤ t) : Calm s u := h u hu

/-- The clause of a command that passes over nothing. -/
theorem Does.of_act {i : Instr} {s : State} {f : Dev → Dev} {P : Dev → Prop} (answer : exec i s = act f s) (up : Up s)
    (calm : Calm s (f s.toDev).now) (h : P (settle (f s.toDev))) : Does i s P :=
  ⟨_, answer.trans (act_calm up calm), rfl, h⟩

theorem exec_of_act {i : Instr} {s : State} {f : Dev → Dev} {d : Dev} (answer : exec i s = act f s) (up : Up s) (hf : f s.toDev = d)
    (calm : Calm s d.now) : exec i s = after s d := by
  subst hf
  exact answer.trans (act_calm up calm)

/-! ### Writes -/

section
variable {by_ : Requester} {d : Dev}

theorem f_asked {r : Reg} (h : ∀ k, r ≠ .sys (.taguse k)) (f : Fld) : (asked by_ d).f r f = d.f r f := by rw [Dev.f, get_asked h]; rfl
theorem b_asked {r : Reg} (h : ∀ k, r ≠ .sys (.taguse k)) (f : Fld) : (asked by_ d).b r f = d.b r f := by rw [Dev.b, get_asked h]; rfl

@[simp] theorem asked_leg : (asked by_ d).leg = d.leg := rfl
@[simp] theorem asked_tb : (asked by_ d).tb = d.tb := rfl
@[simp] theorem asked_tbs : (asked by_ d).tbs = d.tbs := by simp [asked, Dev.tagPulse]

theorem legTb_asked (n : Fin 96) : (asked by_ d).legTb n = d.legTb n := by rw [Dev.legTb, f_asked (by simp)]; rfl

/-- A register waits for its clock, or not, whether or not the requester holds the tag of its access. -/
theorem regWaits_asked (r : Reg) : regWaits (asked by_ d) r = regWaits d r := by
  have gated : regGated (asked by_ d) = regGated d := by
    funext r
    unfold regGated
    split
    · rw [tbPll_of_tbs asked_tbs]
    · rw [tbPll_of_tbs asked_tbs, legTb_asked]
    · rfl
    · rfl
  unfold regWaits
  rw [gated]
  rfl

end

/-- An access that does not wait makes the block's own write. -/
theorem writeBy_eq {by_ : Requester} {s : State} {r : Reg} (h : Asks by_ s r) {v : Word} (held : v &&& heldMask (asked by_ s.toDev) r = 0) :
    writeBy by_ r v s.toDev = writeNow by_ r v (asked by_ s.toDev) := by
  obtain ⟨⟨-, runs⟩, tag⟩ := h
  rw [writeBy, asks_eq tag, writeReg_now (by rwa [regWaits_asked]) held]

theorem Asks.up {by_ : Requester} {s : State} {r : Reg} (h : Asks by_ s r) : Up s := h.1.1

/-! ### A field of a register that is written -/

/-- A field whose bits a plain write sets. -/
def Access.writes (a : Access) (f : Fld) : Bool := (f.mask &&& a.rw == f.mask) && (f.mask &&& a.w1c == 0) && (f.mask &&& a.w1s == 0)

theorem getLsbD_of_and_eq_zero {a b : Word} (h : (a &&& b == 0) = true) {k : Nat} (ha : a.getLsbD k = true) : b.getLsbD k = false :=
  getLsbD_of_apart (beq_iff_eq.1 h) ha

theorem Fld.getLsbD_mask_of_lt {f : Fld} (hf : f.ok = true) {i : Nat} (hi : i < f.width) : f.mask.getLsbD (f.lo + i) = true := by
  have hk : f.lo + i < 32 := by
    simp only [Fld.ok, Fld.width, decide_eq_true_eq] at hf hi
    omega
  simp [Fld.getLsbD_mask, hk, hi]

theorem getLsbD_plainWrite_of_writes {a : Access} {f : Fld} (hf : f.ok = true) (h : a.writes f = true) (old v : Word) {i : Nat}
    (hi : i < f.width) : (plainWrite a old v).getLsbD (f.lo + i) = v.getLsbD (f.lo + i) := by
  have hm := Fld.getLsbD_mask_of_lt hf hi
  have hk : f.lo + i < 32 := by simp only [Fld.ok, Fld.width, decide_eq_true_eq] at hf hi; omega
  simp only [Access.writes, Bool.and_eq_true] at h
  obtain ⟨⟨hrw, hwc⟩, hws⟩ := h
  have hr : a.rw.getLsbD (f.lo + i) = true := by
    have := congrArg (BitVec.getLsbD · (f.lo + i)) (beq_iff_eq.1 hrw)
    simpa [hm] using this
  rw [getLsbD_plainWrite a old v hk, hr, getLsbD_of_and_eq_zero hwc hm, getLsbD_of_and_eq_zero hws hm]
  simp

theorem Fld.get_congr {f : Fld} {v w : Word} (h : ∀ i, i < f.width → v.getLsbD (f.lo + i) = w.getLsbD (f.lo + i)) : f.get v = f.get w := by
  apply Nat.eq_of_testBit_eq
  intro i
  rw [Fld.testBit_get, Fld.testBit_get]
  by_cases hi : i < f.width
  · rw [h i hi]
  · simp [hi]

theorem Fld.width_pos (f : Fld) : 0 < f.width := Nat.succ_pos _

theorem Fld.get_plainWrite {a : Access} {f : Fld} (hf : f.ok = true) (h : a.writes f = true) (old v : Word) :
    f.get (plainWrite a old v) = f.get v := Fld.get_congr fun _ => getLsbD_plainWrite_of_writes hf h old v

theorem Fld.bit_plainWrite {a : Access} {f : Fld} (hf : f.ok = true) (h : a.writes f = true) (old v : Word) :
    f.bit (plainWrite a old v) = f.bit v := getLsbD_plainWrite_of_writes hf h old v (i := 0) (Fld.width_pos f)

theorem Dev.get_wr_ne (d : Dev) {r q : Reg} (h : q ≠ r) (v : Word) : (d.wr r v).get q = d.get q := Dev.get_put_ne d h _
theorem Dev.get_wr_same (d : Dev) (r : Reg) (v : Word) : (d.wr r v).get r = plainWrite r.access (d.get r) v := Dev.get_put_same d r _

/-! ### Ticks -/

theorem le_gridUp {s : Nat} (hs : 0 < s) (ph t : Nat) : t ≤ gridUp s ph t := by
  unfold gridUp
  split
  · assumption
  · have h := Nat.div_add_mod (t - ph + s - 1) s
    have h2 := Nat.mod_lt (t - ph + s - 1) hs
    rw [Nat.mul_comm] at h
    omega

theorem le_tickUp (x : Bool) (t : Nat) : t ≤ tickUp x t := by
  unfold tickUp
  split <;> exact le_gridUp (by decide) ..

/-- The later of the first ticks of the two grids. -/
def ticksUp (t : Nat) : Nat := max (tickUp false t) (tickUp true t)

theorem tickUp_le_ticksUp (x : Bool) (t : Nat) : tickUp x t ≤ ticksUp t := by
  cases x
  · exact le_max_left ..
  · exact le_max_right ..

theorem le_ticksUp (t : Nat) : t ≤ ticksUp t := (le_tickUp false t).trans (tickUp_le_ticksUp ..)

/-! ### Something done for each of a list -/

/-- What is done for the members of a list before and after one of them. -/
theorem Dev.each_split {α : Type} {l : List α} (hl : l.Nodup) {a : α} (ha : a ∈ l) (f : α → Dev → Dev) (d : Dev) :
    ∃ l1 l2, (∀ b ∈ l1, b ≠ a) ∧ (∀ b ∈ l2, b ≠ a) ∧ d.each l f = (f a (d.each l1 f)).each l2 f := by
  obtain ⟨l1, l2, rfl⟩ := List.append_of_mem ha
  have h := List.nodup_middle.1 hl
  simp only [List.nodup_cons, List.mem_append, not_or] at h
  exact ⟨l1, l2, fun b hb e => h.1.1 (e ▸ hb), fun b hb e => h.1.2 (e ▸ hb), by simp [Dev.each]⟩

/-- A relation that each step keeps holds from first to last. -/
theorem Dev.each_rel {α : Type} {r : Dev → Dev → Prop} (refl : ∀ d, r d d) (trans : ∀ {c d e}, r c d → r d e → r c e) {l : List α}
    {f : α → Dev → Dev} (h : ∀ a ∈ l, ∀ d, r d (f a d)) (d : Dev) : r d (d.each l f) := by
  induction l generalizing d with
  | nil => exact refl d
  | cons a l ih => exact trans (h a (by simp) d) (ih (fun b hb => h b (by simp [hb])) _)

/-- What holds before holds after each, where each step keeps it. -/
theorem Dev.each_inv {α : Type} {p : Dev → Prop} {l : List α} {f : α → Dev → Dev} (h : ∀ a ∈ l, ∀ d, p d → p (f a d)) {d : Dev} (hd : p d) :
    p (d.each l f) := by
  induction l generalizing d with
  | nil => exact hd
  | cons a l ih => exact ih (fun b hb => h b (by simp [hb])) (h a (by simp) d hd)

theorem fins_nodup (n : Nat) : (fins n).Nodup := List.nodup_finRange n
theorem mem_fins {n : Nat} (a : Fin n) : a ∈ fins n := List.mem_finRange a
theorem finsIn_nodup (n v : Nat) : (finsIn n v).Nodup := (fins_nodup n).filter _

theorem mem_finsIn {n : Nat} {v : Word} {a : Fin n} : a ∈ finsIn n v.toNat ↔ v.getLsbD a.val = true := by
  simp [finsIn, mem_fins, bitN, BitVec.getLsbD, Nat.testBit_eq_decide_div_mod_eq]

end Sys2Proof.Machine
end

section
/-!
SUPPORT. What a timebase's start, stop, load point and period start touch: its own state, and of its registers TBn_STAT, TBn_PACT,
TBn_PHERR and TBn_COUNT.
-/
set_option Elab.async false
namespace Sys2Proof.Machine
open Sys2Proof

/-- The registers in which a timebase shows what it does. -/
def tbShows (b : Fin 32) : Fin 32 → TbReg → Bool
  | c, .stat => c == b
  | c, .pact => c == b
  | c, .pherr => c == b
  | c, .count => c == b
  | _, _ => false

/-- Timebase b has done something: the others, the locks of the PLLs, and all registers of timebases but those of `tbShows` stand. -/
structure TbOnly (b : Fin 32) (d e : Dev) : Prop where
  pllA : e.sys.pllA = d.sys.pllA
  pllB : e.sys.pllB = d.sys.pllB
  tb : ∀ c, c ≠ b → e.tb[c] = d.tb[c]
  get : ∀ c r, tbShows b c r = false → e.get (.tb c r) = d.get (.tb c r)

theorem TbOnly.refl {b : Fin 32} (d : Dev) : TbOnly b d d := ⟨rfl, rfl, fun _ _ => rfl, fun _ _ _ => rfl⟩

theorem TbOnly.trans {b : Fin 32} {c d e : Dev} (h : TbOnly b c d) (k : TbOnly b d e) : TbOnly b c e :=
  ⟨k.pllA.trans h.pllA, k.pllB.trans h.pllB, fun a ha => (k.tb a ha).trans (h.tb a ha), fun a r hr => (k.get a r hr).trans (h.get a r hr)⟩

theorem TbOnly.symm {b : Fin 32} {d e : Dev} (h : TbOnly b d e) : TbOnly b e d :=
  ⟨h.pllA.symm, h.pllB.symm, fun a ha => (h.tb a ha).symm, fun a r hr => (h.get a r hr).symm⟩

theorem TbOnly.iff_of {b : Fin 32} {c d e : Dev} (h : TbOnly b d e) : TbOnly b c e ↔ TbOnly b c d :=
  ⟨fun k => k.trans h.symm, fun k => k.trans h⟩

theorem TbOnly.of_tbs {b : Fin 32} {d e : Dev} (h : e.tbs = d.tbs) : TbOnly b d e :=
  ⟨Dev.pllA_of_tbs h, Dev.pllB_of_tbs h, fun c _ => by rw [Dev.tb_of_tbs h], fun c r _ => Dev.get_of_tbs h c r⟩

section
variable {b : Fin 32} {d e : Dev} (h : TbOnly b d e)
include h

theorem TbOnly.ctl (c : Fin 32) : e.get (.tb c .ctl) = d.get (.tb c .ctl) := h.get c .ctl rfl
theorem TbOnly.bCtl (c : Fin 32) (f : Fld) : e.b (.tb c .ctl) f = d.b (.tb c .ctl) f := by rw [Dev.b, h.ctl]; rfl
theorem TbOnly.fCtl (c : Fin 32) (f : Fld) : e.f (.tb c .ctl) f = d.f (.tb c .ctl) f := by rw [Dev.f, h.ctl]; rfl
theorem TbOnly.run {c : Fin 32} (hc : c ≠ b) : e.tbRun c = d.tbRun c := by
  rw [Dev.tbRun, Dev.b, h.get c .stat (by simpa [tbShows] using hc)]; rfl
theorem TbOnly.tbB (c : Fin 32) : tbB e c = tbB d c := h.bCtl c _
theorem TbOnly.tbPll (c : Fin 32) : tbPll e c = tbPll d c := by rw [Machine.tbPll, h.tbB, h.pllA, h.pllB]; rfl

end

section
variable {b : Fin 32} {c d : Dev}

@[simp] theorem tbOnly_self : TbOnly b d d ↔ True := iff_true_intro (.refl d)

theorem tbOnly_tbs {e : Dev} (h : e.tbs = d.tbs) : TbOnly b c e ↔ TbOnly b c d := (TbOnly.of_tbs h).iff_of

@[simp] theorem tbOnly_tbU {g : TbSt → TbSt} : TbOnly b c (d.tbU b g) ↔ TbOnly b c d :=
  TbOnly.iff_of ⟨rfl, rfl, fun _ h => Dev.tbU_tb_ne d h g, fun _ _ _ => rfl⟩

theorem tbOnly_put {r : TbReg} (h : tbShows b b r = true) {v : Word} : TbOnly b c (d.put (.tb b r) v) ↔ TbOnly b c d :=
  TbOnly.iff_of ⟨rfl, rfl, fun _ _ => rfl, fun a q hq => Dev.get_put_ne d (fun e => by cases e; simp [h] at hq) v⟩

@[simp] theorem tbOnly_setF {r : TbReg} (h : tbShows b b r = true) {f : Fld} {v : Nat} : TbOnly b c (d.setF (.tb b r) f v) ↔ TbOnly b c d :=
  tbOnly_put h
@[simp] theorem tbOnly_setStat {f : Fld} {v : Bool} : TbOnly b c (d.setB (.tb b .stat) f v) ↔ TbOnly b c d := tbOnly_put (by simp [tbShows])
@[simp] theorem tbOnly_flagStat {f : Fld} : TbOnly b c (d.flag (.tb b .stat) f) ↔ TbOnly b c d := tbOnly_put (by simp [tbShows])
@[simp] theorem tbOnly_flagIfStat {f : Fld} {x : Bool} : TbOnly b c (d.flagIf x (.tb b .stat) f) ↔ TbOnly b c d := by
  unfold Dev.flagIf
  split <;> simp
@[simp] theorem tbOnly_at {t : Nat} : TbOnly b c (d.at t) ↔ TbOnly b c d :=
  TbOnly.iff_of ⟨rfl, rfl, fun _ _ => rfl, fun _ _ _ => rfl⟩
@[simp] theorem tbOnly_bumpFree : TbOnly b c d.bumpFree ↔ TbOnly b c d := tbOnly_tbs rfl
@[simp] theorem tbOnly_raise {p : Nat} : TbOnly b c (d.raise p) ↔ TbOnly b c d := tbOnly_tbs (by simp)
@[simp] theorem tbLine_tbs : (tbLine b d).tbs = d.tbs := Dev.line_tbs
@[simp] theorem tbOnly_tbLine : TbOnly b c (tbLine b d) ↔ TbOnly b c d := tbOnly_tbs (by simp)

/-- What the discipline of a chain-mode timebase with valid chain time writes: HOLDOVER, PHERR, flags, and LOCKED. -/
def tbMeasured (b : Fin 32) (err : Nat) (sat lost lock : Bool) (d : Dev) : Dev :=
  ((((d.setB (.tb b .stat) TB_STAT.HOLDOVER false).setF (.tb b .pherr) TB_PHERR.ERR err).flagIf sat (.tb b .stat)
    TB_STAT.SLEWSAT).flagIf lost (.tb b .stat) TB_STAT.UNLOCK).setB (.tb b .stat) TB_STAT.LOCKED lock

/-- All that the discipline at a period start does: it keeps the start and the count of periods. -/
theorem tbDiscipline_cases (b : Fin 32) (t : Nat) (d : Dev) :
    tbDiscipline b t d = d ∨ tbDiscipline b t d = d.flag (.tb b .stat) TB_STAT.HOLDOVER ∨
    ∃ (err : Nat) (sat lost lock : Bool) (g : TbSt → TbSt), (∀ s, (g s).start = s.start ∧ (g s).period = s.period) ∧
      tbDiscipline b t d = tbLine b ((tbMeasured b err sat lost lock d).tbU b g) := by
  unfold tbDiscipline
  split
  · exact .inl rfl
  · split
    · exact .inr (.inl rfl)
    · refine .inr (.inr ?_)
      extract_lets p m s e err slew step x
      split
      next corr len _ =>
        exact ⟨_, _, _, _, fun s => { s with corrN := corr, len := len, good := _, locked1 := _ }, fun _ => ⟨rfl, rfl⟩, rfl⟩

@[simp] theorem tbOnly_tbMeasured {err : Nat} {sat lost lock : Bool} : TbOnly b c (tbMeasured b err sat lost lock d) ↔ TbOnly b c d := by
  simp [tbMeasured, tbShows]

@[simp] theorem tbOnly_tbDiscipline {t : Nat} : TbOnly b c (tbDiscipline b t d) ↔ TbOnly b c d := by
  obtain h | h | ⟨err, sat, lost, lock, g, -, h⟩ := tbDiscipline_cases b t d
  all_goals simp [h]

@[simp] theorem tbOnly_tbStartEvent : TbOnly b c (tbStartEvent b d) ↔ TbOnly b c d := by simp [tbStartEvent]

end

/-! ### A start -/

/-- The counter of timebase b stands at 0 on tick t, before its legs and paths follow. -/
def tbBegun (b : Fin 32) (t p : Nat) (d : Dev) : Dev :=
  tbDiscipline b t (tbStartEvent b
    (((((d.at t).flag (.tb b .stat) TB_STAT.RUNNING).setB (.tb b .stat) TB_STAT.WAIT_SYNC false).setF (.tb b .pact) TB_PACT.P p).tbU b
      fun _ => { start := t, prev := t, startTs := (d.at t).stamp t, prevTs := (d.at t).stamp t, len := p, nxtP := p, period := 1 }))

theorem tbGo_tbs (b : Fin 32) (t p : Nat) (d : Dev) : (tbGo b t p d).tbs = (tbBegun b t p d).tbs := by
  have h : tbGo b t p d = posPathAll b (cmpPathAll b ((tbBegun b t p d).each ((tbBegun b t p d).legsOn b) fun n => legPeriod n b t true)) :=
    rfl
  rw [h]
  simp

section
variable {b : Fin 32} {d : Dev} {t : Nat}

@[simp] theorem tbMeasured_now {err : Nat} {sat lost lock : Bool} : (tbMeasured b err sat lost lock d).now = d.now := by simp [tbMeasured]
@[simp] theorem tbMeasured_tb {err : Nat} {sat lost lock : Bool} : (tbMeasured b err sat lost lock d).tb = d.tb := by simp [tbMeasured]

theorem tbMeasured_pact {err : Nat} {sat lost lock : Bool} : (tbMeasured b err sat lost lock d).get (.tb b .pact) = d.get (.tb b .pact) := by
  simp only [tbMeasured, Dev.flagIf, Dev.flag, Dev.setB]
  repeat' split
  all_goals simp [Dev.get_setF_ne]

@[simp] theorem tbDiscipline_now : (tbDiscipline b t d).now = d.now := by
  obtain h | h | ⟨err, sat, lost, lock, g, -, h⟩ := tbDiscipline_cases b t d
  all_goals simp [h, tbLine]

@[simp] theorem tbStartEvent_now : (tbStartEvent b d).now = d.now := by simp [tbStartEvent]
@[simp] theorem tbStartEvent_tb : (tbStartEvent b d).tb = d.tb := by simp [tbStartEvent]

theorem tbDiscipline_of_free (h : tbMode d b ≠ 2) : tbDiscipline b t d = d := by simp [tbDiscipline, h]

theorem tbDiscipline_start : (tbDiscipline b t d).tb[b].start = d.tb[b].start := by
  obtain h | h | ⟨err, sat, lost, lock, g, hg, h⟩ := tbDiscipline_cases b t d
  · rw [h]
  · rw [h]; rfl
  · rw [h, Dev.tb_of_tbs tbLine_tbs, Dev.tbU_tb_same, (hg _).1, tbMeasured_tb]

theorem tbDiscipline_pact : (tbDiscipline b t d).get (.tb b .pact) = d.get (.tb b .pact) := by
  obtain h | h | ⟨err, sat, lost, lock, g, hg, h⟩ := tbDiscipline_cases b t d
  · rw [h]
  · rw [h]; exact Dev.get_setF_ne _ (by simp) _ _
  · rw [h, Dev.get_of_tbs tbLine_tbs]
    exact tbMeasured_pact

/-- A flag of TBn_STAT that the discipline has no part in. -/
def statApart (f : Fld) : Bool :=
  f.ok && f.apart TB_STAT.HOLDOVER && f.apart TB_STAT.SLEWSAT && f.apart TB_STAT.UNLOCK && f.apart TB_STAT.LOCKED

theorem tbMeasured_stat {f : Fld} (hf : statApart f = true) {err : Nat} {sat lost lock : Bool} :
    (tbMeasured b err sat lost lock d).b (.tb b .stat) f = d.b (.tb b .stat) f := by
  simp only [statApart, Bool.and_eq_true] at hf
  obtain ⟨⟨⟨⟨ok, hold⟩, slew⟩, unlock⟩, locked⟩ := hf
  have pherr (x : Dev) (v : Nat) : (x.setF (.tb b .pherr) TB_PHERR.ERR v).b (.tb b .stat) f = x.b (.tb b .stat) f := by
    rw [Dev.b, Dev.get_setF_ne _ (by simp)]; rfl
  simp only [tbMeasured, Dev.flagIf, Dev.flag, Dev.b_setB_apart _ _ ok (by decide : TB_STAT.LOCKED.ok = true) locked]
  repeat' split
  all_goals simp only [Dev.b_setB_apart _ _ ok (by decide : TB_STAT.UNLOCK.ok = true) unlock,
    Dev.b_setB_apart _ _ ok (by decide : TB_STAT.SLEWSAT.ok = true) slew,
    Dev.b_setB_apart _ _ ok (by decide : TB_STAT.HOLDOVER.ok = true) hold, pherr]

theorem tbDiscipline_stat {f : Fld} (hf : statApart f = true) : (tbDiscipline b t d).b (.tb b .stat) f = d.b (.tb b .stat) f := by
  obtain h | h | ⟨err, sat, lost, lock, g, hg, h⟩ := tbDiscipline_cases b t d
  · rw [h]
  · simp only [statApart, Bool.and_eq_true] at hf
    rw [h, Dev.flag, Dev.b_setB_apart _ _ hf.1.1.1.1 (by decide) hf.1.1.1.2]
  · rw [h, Dev.b_of_tbs tbLine_tbs]
    exact tbMeasured_stat hf

theorem tbStartEvent_pstart : (tbStartEvent b d).b (.tb b .stat) TB_STAT.PSTART = true := by
  rw [tbStartEvent, Dev.b_of_tbs Dev.raise_tbs]
  exact Dev.b_flag _ _ (by decide)

theorem tbStartEvent_stat {f : Fld} (hf : f.ok = true) (h : f.apart TB_STAT.PSTART = true) :
    (tbStartEvent b d).b (.tb b .stat) f = d.b (.tb b .stat) f := by
  rw [tbStartEvent, Dev.b_of_tbs Dev.raise_tbs]
  exact Dev.b_setB_apart _ _ hf (by decide) h _

theorem tbStartEvent_get {r : TbReg} (h : r ≠ .stat) : (tbStartEvent b d).get (.tb b r) = d.get (.tb b r) := by
  rw [tbStartEvent, Dev.get_of_tbs Dev.raise_tbs]
  exact Dev.get_setF_ne _ (by simpa using h) _ _

/-- The counter's own registers and state before the events of its start. -/
def tbCounts (b : Fin 32) (t p : Nat) (d : Dev) : Dev :=
  ((((d.at t).flag (.tb b .stat) TB_STAT.RUNNING).setB (.tb b .stat) TB_STAT.WAIT_SYNC false).setF (.tb b .pact) TB_PACT.P p).tbU b
    fun _ => { start := t, prev := t, startTs := (d.at t).stamp t, prevTs := (d.at t).stamp t, len := p, nxtP := p, period := 1 }

theorem tbBegun_eq (b : Fin 32) (t p : Nat) (d : Dev) : tbBegun b t p d = tbDiscipline b t (tbStartEvent b (tbCounts b t p d)) := rfl

@[simp] theorem tbOnly_tbCounts {c : Dev} {p : Nat} : TbOnly b c (tbCounts b t p d) ↔ TbOnly b c d := by simp [tbCounts, tbShows]

theorem Dev.tbU_get {g : TbSt → TbSt} {r : Reg} : (d.tbU b g).get r = d.get r := rfl

theorem tbCounts_run {p : Nat} : (tbCounts b t p d).tbRun b = true := by
  have run : ((d.at t).flag (.tb b .stat) TB_STAT.RUNNING).tbRun b = true := Dev.b_flag _ _ (by decide)
  have wait : (((d.at t).flag (.tb b .stat) TB_STAT.RUNNING).setB (.tb b .stat) TB_STAT.WAIT_SYNC false).tbRun b = true :=
    (Dev.b_setB_apart _ _ (by decide) (by decide) (by decide) _).trans run
  rw [tbCounts, Dev.tbRun, Dev.b, Dev.tbU_get, Dev.get_setF_ne _ (by simp)]
  exact wait

theorem tbCounts_pact {p : Nat} : (tbCounts b t p d).f (.tb b .pact) TB_PACT.P = p % 2 ^ TB_PACT.P.width := by
  rw [tbCounts, Dev.f, Dev.tbU_get]
  exact Dev.f_setF _ _ (by decide) _

theorem tbCounts_start {p : Nat} : (tbCounts b t p d).tb[b].start = t := by rw [tbCounts, Dev.tbU_tb_same]
theorem tbCounts_len {p : Nat} : (tbCounts b t p d).tb[b].len = p := by rw [tbCounts, Dev.tbU_tb_same]

end

section
variable (b : Fin 32) (t p : Nat) (d : Dev)

/-! What a timebase's start leaves. -/

theorem tbGo_only : TbOnly b d (tbGo b t p d) := by
  rw [tbOnly_tbs (tbGo_tbs ..), tbBegun_eq]
  simp

theorem tbGo_now : (tbGo b t p d).now = max d.now t := by
  rw [Dev.now_of_tbs (tbGo_tbs ..), tbBegun_eq, tbDiscipline_now, tbStartEvent_now]
  simp [tbCounts, Dev.at]

theorem tbGo_run : (tbGo b t p d).tbRun b = true := by
  rw [Dev.tbRun_of_tbs (tbGo_tbs ..), tbBegun_eq]
  show (tbDiscipline _ _ _).b _ _ = _
  rw [tbDiscipline_stat (by decide), tbStartEvent_stat (by decide) (by decide)]
  exact tbCounts_run

theorem tbGo_pstart : (tbGo b t p d).b (.tb b .stat) TB_STAT.PSTART = true := by
  rw [Dev.b_of_tbs (tbGo_tbs ..), tbBegun_eq, tbDiscipline_stat (by decide), tbStartEvent_pstart]

theorem tbGo_start : (tbGo b t p d).tb[b].start = t := by
  rw [Dev.tb_of_tbs (tbGo_tbs ..), tbBegun_eq, tbDiscipline_start, tbStartEvent_tb, tbCounts_start]

theorem tbGo_pact : (tbGo b t p d).f (.tb b .pact) TB_PACT.P = p % 2 ^ TB_PACT.P.width := by
  rw [Dev.f_of_tbs (tbGo_tbs ..), tbBegun_eq, Dev.f, tbDiscipline_pact, tbStartEvent_get (by simp)]
  exact tbCounts_pact

theorem tbGo_len (h : tbMode d b ≠ 2) : (tbGo b t p d).tb[b].len = p := by
  have only : TbOnly b d (tbStartEvent b (tbCounts b t p d)) := by simp
  have mode : tbMode (tbStartEvent b (tbCounts b t p d)) b ≠ 2 := by rwa [tbMode, only.fCtl]
  rw [Dev.tb_of_tbs (tbGo_tbs ..), tbBegun_eq, tbDiscipline_of_free mode, tbStartEvent_tb, tbCounts_len]

end

end Sys2Proof.Machine
end

section
/-!
SUPPORT. Timebases are started (R57): by a write of TBn_CTL, by TBGSTART, by a task.
-/
set_option Elab.async false
namespace Sys2Proof.Machine
open Sys2Proof

/-- The clause of a command that is one write. -/
theorem Does.of_write {i : Instr} {s : State} {by_ : Requester} {r : Reg} {v : Word} {P : Dev → Prop}
    (answer : exec i s = act (writeBy by_ r v) s) (h : Asks by_ s r) (held : v &&& heldMask (asked by_ s.toDev) r = 0) {e : Dev}
    (made : writeNow by_ r v (asked by_ s.toDev) = e) (calm : Calm s e.now) (hP : P (settle e)) : Does i s P := by
  subst made
  rw [← writeBy_eq h held] at calm hP
  exact .of_act answer h.up calm hP

theorem exec_of_write {i : Instr} {s : State} {by_ : Requester} {r : Reg} {v : Word}
    (answer : exec i s = act (writeBy by_ r v) s) (h : Asks by_ s r) (held : v &&& heldMask (asked by_ s.toDev) r = 0) {e : Dev}
    (made : writeNow by_ r v (asked by_ s.toDev) = e) (calm : Calm s e.now) : exec i s = after s e :=
  exec_of_act answer h.up ((writeBy_eq h held).trans made) calm

/-! ### The start takes effect -/

/-- Timebase b runs from tick t with a first period of p ticks. -/
structure TbStarted (b : Fin 32) (t p : Nat) (d : Dev) : Prop where
  run : d.tbRun b = true
  en : d.b (.tb b .ctl) TB_CTL.EN = true
  start : d.tb[b].start = t
  past : t ≤ d.now
  pact : d.f (.tb b .pact) TB_PACT.P = p
  len : d.tb[b].len = p
  pstart : d.b (.tb b .stat) TB_STAT.PSTART = true

theorem tbClamp_mod (d : Dev) (b : Fin 32) : tbClamp d b % 2 ^ TB_PACT.P.width = tbClamp d b := by
  apply Nat.mod_eq_of_lt
  have : TB_PACT.P.width = 20 := rfl
  rw [this]
  unfold tbClamp clampN
  omega

section
variable {b : Fin 32} {d : Dev}

/-- A local timebase whose PLL is locked runs from the capturing tick. -/
theorem tbArm_local (pll : tbPll d b = true) (mode : tbMode d b = 0) : tbArm b d =
    tbGo b (tickUp (tbB d b) d.now) (tbClamp d b) (d.flagIf (tbClamp d b != d.f (.tb b .period) TB_PERIOD.PERIOD) (.tb b .stat) TB_STAT.PCLAMP) := by
  simp [tbArm, pll, mode]

theorem tbArm_now_le (b : Fin 32) (d : Dev) : d.now ≤ (tbArm b d).now ∧ (tbArm b d).now ≤ max d.now (tickUp (tbB d b) d.now) := by
  unfold tbArm
  repeat' split
  · simp
  · simp
  · simp
  · simp [tbGo_now]

@[simp] theorem tbOnly_tbGo {c : Dev} {t p : Nat} : TbOnly b c (tbGo b t p d) ↔ TbOnly b c d := (tbGo_only b t p d).iff_of

@[simp] theorem tbOnly_tbArm {c : Dev} : TbOnly b c (tbArm b d) ↔ TbOnly b c d := by
  unfold tbArm
  dsimp only
  repeat' split
  all_goals simp

theorem tbArm_started (pll : tbPll d b = true) (mode : tbMode d b = 0) (en : d.b (.tb b .ctl) TB_CTL.EN = true) :
    TbStarted b (tickUp (tbB d b) d.now) (tbClamp d b) (tbArm b d) := by
  have only : TbOnly b d (tbArm b d) := by simp
  rw [tbArm_local pll mode] at only ⊢
  refine ⟨tbGo_run .., by rw [only.bCtl, en], tbGo_start .., ?_, ?_, tbGo_len _ _ _ _ ?_, tbGo_pstart ..⟩
  · rw [tbGo_now]
    exact le_max_right ..
  · rw [tbGo_pact, tbClamp_mod]
  · have : TbOnly b d (d.flagIf (tbClamp d b != d.f (.tb b .period) TB_PERIOD.PERIOD) (.tb b .stat) TB_STAT.PCLAMP) := by simp
    rw [tbMode, this.fCtl]
    exact ne_of_eq_of_ne mode (by decide)

/-! ### EN is written from 0 to 1 -/

/-- What a write of v makes of TBn_CTL while EN is 0 (R60): the reserved source is not taken. -/
def tbCtlWord (old v : Word) : Word := if TB_CTL.SYNCSRC.get v = 3 then TB_CTL.SYNCSRC.put (TB_CTL.SYNCSRC.get old) v else v

theorem tbCtlWord_bit {f : Fld} (hf : f.ok = true) (h : f.apart TB_CTL.SYNCSRC = true) (old v : Word) : f.bit (tbCtlWord old v) = f.bit v := by
  unfold tbCtlWord
  split
  · exact Fld.bit_put_apart hf (by decide) h _ _
  · rfl

theorem tbCtlWord_of_ne {old v : Word} (h : TB_CTL.SYNCSRC.get v ≠ 3) : tbCtlWord old v = v := if_neg h

theorem tbWriteCtl_start {v : Word} (off : d.b (.tb b .ctl) TB_CTL.EN = false) (en : TB_CTL.EN.bit v = true) :
    tbWriteCtl b v d = tbStart b (d.wr (.tb b .ctl) (tbCtlWord (d.get (.tb b .ctl)) v)) := by
  have en' : TB_CTL.EN.bit (tbCtlWord (d.get (.tb b .ctl)) v) = true := (tbCtlWord_bit (by decide) (by decide) _ _).trans en
  simp only [tbCtlWord] at en'
  have off' : TB_CTL.EN.bit (d.get (.tb b .ctl)) = false := off
  simp [tbWriteCtl, off', tbCtlWord, Dev.flagIf, en']

/-- TBn_CTL has been written. -/
def tbCtlPut (b : Fin 32) (v : Word) (d : Dev) : Dev := d.wr (.tb b .ctl) v

theorem tbCtlPut_b {f : Fld} (hf : f.ok = true) (h : (TbReg.access .ctl).writes f = true) (v : Word) :
    (tbCtlPut b v d).b (.tb b .ctl) f = f.bit v := by
  rw [tbCtlPut, Dev.b, Dev.get_wr_same]
  exact Fld.bit_plainWrite hf h _ _

theorem tbCtlPut_f {f : Fld} (hf : f.ok = true) (h : (TbReg.access .ctl).writes f = true) (v : Word) :
    (tbCtlPut b v d).f (.tb b .ctl) f = f.get v := by
  rw [tbCtlPut, Dev.f, Dev.get_wr_same]
  exact Fld.get_plainWrite hf h _ _

theorem tbCtlPut_get {r : Reg} (h : r ≠ .tb b .ctl) (v : Word) : (tbCtlPut b v d).get r = d.get r := Dev.get_wr_ne d h v

theorem tbCtlPut_run (c : Fin 32) (v : Word) : (tbCtlPut b v d).tbRun c = d.tbRun c := by
  rw [Dev.tbRun, Dev.b, tbCtlPut_get (by simp)]
  rfl

theorem tbCtlPut_clamp (v : Word) : tbClamp (tbCtlPut b v d) b = tbClamp d b := by
  rw [tbClamp, Dev.f, tbCtlPut_get (by simp)]
  rfl

end

end Sys2Proof.Machine
end

section
/-!
SUPPORT. The clauses of the commands that start timebases (R57, R61, R62).
-/
set_option Elab.async false
namespace Sys2Proof.Machine
open Sys2Proof

theorem TbStarted.settle {b : Fin 32} {t p : Nat} {d : Dev} (h : TbStarted b t p d) : TbStarted b t p (settle d) :=
  ⟨by simpa using h.run, by simpa using h.en, by simpa using h.start, by simpa using h.past, by simpa using h.pact, by simpa using h.len,
    by simpa using h.pstart⟩

@[simp] theorem Dev.tbU_tbRun (d : Dev) (b c : Fin 32) (g : TbSt → TbSt) : (d.tbU b g).tbRun c = d.tbRun c := rfl
@[simp] theorem Dev.tbU_ctv (d : Dev) (b : Fin 32) (g : TbSt → TbSt) : (d.tbU b g).ctv = d.ctv := rfl

/-! ### TB_ENABLE -/

section
variable {s : State} {by_ : Requester} {b : Fin 32} {v : Word}

/-- The device that TB_ENABLE's write starts timebase b on. -/
def tbEnabled (by_ : Requester) (b : Fin 32) (v : Word) (d : Dev) : Dev :=
  tbCtlPut b (tbCtlWord (d.get (.tb b .ctl)) (TB_CTL.EN.put 1 v)) (asked by_ d)

theorem tbEnabled_bit {f : Fld} (hf : f.ok = true) (hw : (TbReg.access .ctl).writes f = true) (hs : f.apart TB_CTL.SYNCSRC = true)
    (he : f.apart TB_CTL.EN = true) (d : Dev) : (tbEnabled by_ b v d).b (.tb b .ctl) f = f.bit v := by
  rw [tbEnabled, tbCtlPut_b hf hw, tbCtlWord_bit hf hs, Fld.bit_put_apart hf (by decide) he]

theorem tbEnabled_en (d : Dev) : (tbEnabled by_ b v d).b (.tb b .ctl) TB_CTL.EN = true := by
  rw [tbEnabled, tbCtlPut_b (by decide) (by decide), tbCtlWord_bit (by decide) (by decide), Fld.bit_put (by decide)]
  rfl

theorem tbEnabled_sten (d : Dev) : (tbEnabled by_ b v d).b (.tb b .ctl) TB_CTL.STEN = TB_CTL.STEN.bit v :=
  tbEnabled_bit (by decide) (by decide) (by decide) (by decide) d

theorem tbEnabled_tbB (d : Dev) : tbB (tbEnabled by_ b v d) b = TB_CTL.PLLSEL.bit v :=
  tbEnabled_bit (by decide) (by decide) (by decide) (by decide) d

theorem tbEnabled_pll (d : Dev) : tbPll (tbEnabled by_ b v d) b = if TB_CTL.PLLSEL.bit v then d.sys.pllB else d.sys.pllA := by
  rw [tbPll, tbEnabled_tbB]
  rfl

theorem tbEnabled_run (d : Dev) (c : Fin 32) : (tbEnabled by_ b v d).tbRun c = d.tbRun c := by
  rw [tbEnabled, tbCtlPut_run, Dev.tbRun_of_tbs asked_tbs]

theorem tbEnabled_clamp (d : Dev) : tbClamp (tbEnabled by_ b v d) b = tbClamp d b := by
  rw [tbEnabled, tbCtlPut_clamp, tbClamp, Dev.f_of_tbs asked_tbs]
  rfl

theorem tbEnabled_ctv (d : Dev) : (tbEnabled by_ b v d).ctv = d.ctv := by
  rw [tbEnabled, Dev.ctv, Dev.b, tbCtlPut_get (by simp), get_asked (by simp)]
  rfl

theorem tbEnabled_now (d : Dev) : (tbEnabled by_ b v d).now = d.now := rfl

theorem tbEnabled_word (h : TB_CTL.SYNCSRC.get v ≠ 3) (d : Dev) {f : Fld} (hf : f.ok = true) (hw : (TbReg.access .ctl).writes f = true)
    (he : f.apart TB_CTL.EN = true) : (tbEnabled by_ b v d).f (.tb b .ctl) f = f.get v := by
  have src : TB_CTL.SYNCSRC.get (TB_CTL.EN.put 1 v) ≠ 3 := by rwa [Fld.get_put_apart (by decide) (by decide) (by decide)]
  rw [tbEnabled, tbCtlPut_f hf hw, tbCtlWord_of_ne src, Fld.get_put_apart hf (by decide) he]

theorem tbEnabled_mode (h : TB_CTL.SYNCSRC.get v ≠ 3) (d : Dev) : tbMode (tbEnabled by_ b v d) b = TB_CTL.SYNCSRC.get v :=
  tbEnabled_word h d (by decide) (by decide) (by decide)

theorem tbEnabled_leader (h : TB_CTL.SYNCSRC.get v ≠ 3) (d : Dev) :
    tbLeader (tbEnabled by_ b v d) b = Fin.ofNat 32 (TB_CTL.LEADER.get v) :=
  congrArg _ (tbEnabled_word h d (by decide) (by decide) (by decide))

variable (asks : Asks by_ s (.tb b .ctl)) (off : s.b (.tb b .ctl) TB_CTL.EN = false)
include asks off

theorem tbEnable_does {P : Dev → Prop} (calm : Calm s (tbStart b (tbEnabled by_ b v s.toDev)).now)
    (h : P (settle (tbStart b (tbEnabled by_ b v s.toDev)))) : Does (.tbEnable by_ b v) s P := by
  refine .of_write rfl asks (by simp [heldMask]) ?_ calm h
  have off' : (asked by_ s.toDev).b (.tb b .ctl) TB_CTL.EN = false := (b_asked (by simp) _).trans off
  have en : TB_CTL.EN.bit (TB_CTL.EN.put 1 v) = true := by rw [Fld.bit_put (by decide)]; rfl
  exact (tbWriteCtl_start off' en).trans (by rw [get_asked (by simp)]; rfl)

variable (stopped : s.tbRun b = false)
include stopped

theorem tbEnable_task (sten : TB_CTL.STEN.bit v = true) : Does (.tbEnable by_ b v) s fun t => t.tb[b].arm = .task ∧ t.tbRun b = false := by
  have e : tbStart b (tbEnabled by_ b v s.toDev) = (tbEnabled by_ b v s.toDev).tbU b fun x => { x with arm := .task } := by
    simp [tbStart, tbEnabled_run, stopped, tbEnabled_sten, sten]
  refine tbEnable_does asks off (by rw [e]; exact asks.up.calm (le_refl _)) ?_
  rw [e, settle_tb, Dev.tbU_tb_same, settle_tbRun, Dev.tbU_tbRun]
  exact ⟨rfl, (tbEnabled_run s.toDev b).trans stopped⟩

variable (sten : TB_CTL.STEN.bit v = false)
include sten

theorem tbEnable_arms {P : Dev → Prop} (calm : Calm s (tbArm b (tbEnabled by_ b v s.toDev)).now)
    (h : P (settle (tbArm b (tbEnabled by_ b v s.toDev)))) : Does (.tbEnable by_ b v) s P := by
  have e : tbStart b (tbEnabled by_ b v s.toDev) = tbArm b (tbEnabled by_ b v s.toDev) := by
    simp [tbStart, tbEnabled_run, stopped, tbEnabled_sten, sten]
  rw [← e] at calm h
  exact tbEnable_does asks off calm h

theorem tbEnable_unlocked (pll : (if TB_CTL.PLLSEL.bit v then s.sys.pllB else s.sys.pllA) ≠ true) :
    Does (.tbEnable by_ b v) s fun t => t.tb[b].arm = .pll ∧ t.tbRun b = false := by
  have e : tbArm b (tbEnabled by_ b v s.toDev) = (tbEnabled by_ b v s.toDev).tbU b fun x => { x with arm := .pll } := by
    rw [tbArm, tbEnabled_pll, Bool.eq_false_iff.2 pll]
    rfl
  refine tbEnable_arms asks off stopped sten (by rw [e]; exact asks.up.calm (le_refl _)) ?_
  rw [e, settle_tb, Dev.tbU_tb_same, settle_tbRun, Dev.tbU_tbRun]
  exact ⟨rfl, (tbEnabled_run s.toDev b).trans stopped⟩

/-- A follower or a chain-mode timebase waits for its reference; WAIT_SYNC shows `w`. -/
theorem tbEnable_waits {w : Bool} (e : tbArm b (tbEnabled by_ b v s.toDev) =
      ((tbEnabled by_ b v s.toDev).tbU b fun x => { x with arm := .sync s.now }).setB (.tb b .stat) TB_STAT.WAIT_SYNC w) :
    Does (.tbEnable by_ b v) s fun t =>
      t.tb[b].arm = .sync s.now ∧ t.b (.tb b .stat) TB_STAT.WAIT_SYNC = w ∧ t.tbRun b = false := by
  refine tbEnable_arms asks off stopped sten (by rw [e]; exact asks.up.calm (le_refl _)) ?_
  rw [e, settle_tb, settle_b, settle_tbRun, Dev.b_setB _ _ (by decide)]
  refine ⟨?_, rfl, ?_⟩
  · rw [Dev.setB_tb, Dev.tbU_tb_same]
  · rw [Dev.tbRun, Dev.b_setB_apart _ _ (by decide) (by decide) (by decide)]
    exact (Dev.tbU_tbRun ..).trans ((tbEnabled_run s.toDev b).trans stopped)

variable (pll : (if TB_CTL.PLLSEL.bit v then s.sys.pllB else s.sys.pllA) = true)
include pll

theorem tbEnable_local (calm : CalmTo s (ticksUp s.now)) (src : TB_CTL.SYNCSRC.get v = 0) :
    Does (.tbEnable by_ b v) s (TbStarted b (tickUp (TB_CTL.PLLSEL.bit v) s.now) (tbClamp s.toDev b)) := by
  refine tbEnable_arms asks off stopped sten (calm.calm ?_) (TbStarted.settle ?_)
  · refine (tbArm_now_le ..).2.trans ?_
    rw [tbEnabled_tbB, tbEnabled_now]
    exact max_le (le_ticksUp _) (tickUp_le_ticksUp ..)
  · have h := tbArm_started (d := tbEnabled by_ b v s.toDev) (by rw [tbEnabled_pll, pll]) ((tbEnabled_mode (by simp [src]) _).trans src)
      (tbEnabled_en _)
    rwa [tbEnabled_tbB, tbEnabled_clamp, tbEnabled_now] at h

theorem tbEnable_chain (src : TB_CTL.SYNCSRC.get v = 2) : Does (.tbEnable by_ b v) s fun t =>
    t.tb[b].arm = .sync s.now ∧ t.b (.tb b .stat) TB_STAT.WAIT_SYNC = !s.ctv ∧ t.tbRun b = false := by
  refine tbEnable_waits asks off stopped sten ?_
  have mode : tbMode (tbEnabled by_ b v s.toDev) b = 2 := (tbEnabled_mode (by simp [src]) _).trans src
  simp only [tbArm, tbEnabled_pll, pll, mode, tbEnabled_ctv, tbEnabled_now, Bool.not_true, Bool.false_eq_true, if_false]

theorem tbEnable_follower (src : TB_CTL.SYNCSRC.get v = 1) : Does (.tbEnable by_ b v) s fun t =>
    t.tb[b].arm = .sync s.now ∧ t.b (.tb b .stat) TB_STAT.WAIT_SYNC = !s.tbRun (Fin.ofNat 32 (TB_CTL.LEADER.get v)) ∧
      t.tbRun b = false := by
  refine tbEnable_waits asks off stopped sten ?_
  have mode : tbMode (tbEnabled by_ b v s.toDev) b = 1 := (tbEnabled_mode (by simp [src]) _).trans src
  simp only [tbArm, tbEnabled_pll, pll, mode, tbEnabled_leader (v := v) (by simp [src]), tbEnabled_run, tbEnabled_now, Bool.not_true,
    Bool.false_eq_true, if_false]

end

end Sys2Proof.Machine
end

section
/-!
SUPPORT. Timebases that start together, by TBGSTART or by a task, and followers (R57, R61).
-/
set_option Elab.async false
namespace Sys2Proof.Machine
open Sys2Proof

/-! ### Timebases that start together -/

/-- Timebase b, its registers and the locks of the PLLs stand. -/
structure TbStands (b : Fin 32) (d e : Dev) : Prop where
  pllA : e.sys.pllA = d.sys.pllA
  pllB : e.sys.pllB = d.sys.pllB
  tb : e.tb[b] = d.tb[b]
  get : ∀ r, e.get (.tb b r) = d.get (.tb b r)

theorem TbStands.refl {b : Fin 32} (d : Dev) : TbStands b d d := ⟨rfl, rfl, rfl, fun _ => rfl⟩

theorem TbStands.trans {b : Fin 32} {c d e : Dev} (h : TbStands b c d) (k : TbStands b d e) : TbStands b c e :=
  ⟨k.pllA.trans h.pllA, k.pllB.trans h.pllB, k.tb.trans h.tb, fun r => (k.get r).trans (h.get r)⟩

theorem TbOnly.stands {a b : Fin 32} {d e : Dev} (h : TbOnly a d e) (hab : a ≠ b) : TbStands b d e :=
  ⟨h.pllA, h.pllB, h.tb b hab.symm, fun r => h.get b r (by cases r <;> simp [tbShows, hab.symm])⟩

theorem TbStands.of_tbs {b : Fin 32} {d e : Dev} (h : e.tbs = d.tbs) : TbStands b d e :=
  ⟨Dev.pllA_of_tbs h, Dev.pllB_of_tbs h, by rw [Dev.tb_of_tbs h], fun r => Dev.get_of_tbs h b r⟩

section
variable {b : Fin 32} {d e : Dev} (h : TbStands b d e)
include h

theorem TbStands.bit (r : TbReg) (f : Fld) : e.b (.tb b r) f = d.b (.tb b r) f := by rw [Dev.b, h.get]; rfl
theorem TbStands.fld (r : TbReg) (f : Fld) : e.f (.tb b r) f = d.f (.tb b r) f := by rw [Dev.f, h.get]; rfl
theorem TbStands.run : e.tbRun b = d.tbRun b := h.bit .stat _
theorem TbStands.tbB : tbB e b = tbB d b := h.bit .ctl _
theorem TbStands.mode : tbMode e b = tbMode d b := h.fld .ctl _
theorem TbStands.clamp : tbClamp e b = tbClamp d b := by rw [tbClamp, h.fld]; rfl
theorem TbStands.pll : tbPll e b = tbPll d b := by rw [tbPll, h.tbB, h.pllA, h.pllB]; rfl

/-- Other timebases may start after it. -/
theorem TbStands.started {t p : Nat} (past : d.now ≤ e.now) (k : TbStarted b t p d) : TbStarted b t p e :=
  ⟨h.run.trans k.run, (h.bit ..).trans k.en, (congrArg _ h.tb).trans k.start, k.past.trans past, (h.fld ..).trans k.pact,
    (congrArg _ h.tb).trans k.len, (h.bit ..).trans k.pstart⟩

end

/-- The device with its instant set, back or forth. -/
def Dev.asAt (d : Dev) (t : Nat) : Dev := { d with now := t }

theorem Dev.asOf_eq (d : Dev) (t : Nat) (g : Dev → Dev) : d.asOf t g = (g (d.asAt t)).at d.now := rfl
@[simp] theorem Dev.asAt_now (d : Dev) (t : Nat) : (d.asAt t).now = t := rfl
@[simp] theorem Dev.asAt_get (d : Dev) (t : Nat) (r : Reg) : (d.asAt t).get r = d.get r := rfl
@[simp] theorem Dev.asAt_tb (d : Dev) (t : Nat) : (d.asAt t).tb = d.tb := rfl
theorem Dev.at_now (d : Dev) (t : Nat) : (d.at t).now = max d.now t := rfl
theorem Dev.at_get (d : Dev) (t : Nat) (r : Reg) : (d.at t).get r = d.get r := rfl

theorem TbStands.asAt (b : Fin 32) (d : Dev) (t : Nat) : TbStands b d (d.asAt t) := ⟨rfl, rfl, rfl, fun _ => rfl⟩
theorem TbStands.at (b : Fin 32) (d : Dev) (t : Nat) : TbStands b d (d.at t) := ⟨rfl, rfl, rfl, fun _ => rfl⟩

theorem TbStands.asOf {b : Fin 32} {d x : Dev} {t : Nat} {g : Dev → Dev} (h : TbStands b d x)
    (hg : ∀ y, TbStands b y (g y)) : TbStands b d (x.asOf t g) :=
  ((h.trans (.asAt b x t)).trans (hg _)).trans (.at b _ _)

/-- What has started runs on. -/
theorem TbStarted.at {b : Fin 32} {t p : Nat} {d : Dev} (h : TbStarted b t p d) (u : Nat) : TbStarted b t p (d.at u) :=
  (TbStands.at b d u).started (le_max_left ..) h

/-- One of a group of timebases that are started one after the other: what is done for the others leaves it as it is, and each takes no
longer than to instant T. -/
theorem each_started {b : Fin 32} {l : List (Fin 32)} (nodup : l.Nodup) (mem : b ∈ l) {f : Fin 32 → Dev → Dev} {d : Dev} {T t p : Nat}
    (others : ∀ a, a ≠ b → ∀ x, TbStands b x (f a x)) (times : ∀ a x, x.now ≤ (f a x).now ∧ (f a x).now ≤ max x.now T)
    (starts : ∀ x, TbStands b d x → TbStarted b t p (f b x)) :
    TbStarted b t p (d.each l f) ∧ (d.each l f).now ≤ max d.now T := by
  constructor
  · obtain ⟨l1, l2, h1, h2, e⟩ := Dev.each_split nodup mem f d
    have before : TbStands b d (d.each l1 f) := Dev.each_rel TbStands.refl TbStands.trans (fun a ha x => others a (h1 a ha) x) d
    have after : TbStands b (f b (d.each l1 f)) (d.each l f) := by
      rw [e]
      exact Dev.each_rel TbStands.refl TbStands.trans (fun a ha x => others a (h2 a ha) x) _
    have past : (f b (d.each l1 f)).now ≤ (d.each l f).now := by
      rw [e]
      exact Dev.each_rel (r := fun x y => x.now ≤ y.now) (fun _ => le_refl _) le_trans (fun a _ x => (times a x).1) _
    exact after.started past (starts _ before)
  · exact Dev.each_inv (p := fun x => x.now ≤ max d.now T)
      (fun a _ x hx => (times a x).2.trans (max_le hx (le_max_right ..))) (le_max_left ..)

/-! ### TBGSTART -/

theorem tbStart_now_le (b : Fin 32) (d : Dev) : d.now ≤ (tbStart b d).now ∧ (tbStart b d).now ≤ max d.now (tickUp (tbB d b) d.now) := by
  unfold tbStart
  repeat' split
  · simp
  · simp
  · exact tbArm_now_le b d

theorem tbOnly_tbStart (b : Fin 32) (d : Dev) : TbOnly b d (tbStart b d) := by
  unfold tbStart
  repeat' split
  all_goals simp

/-- TBGSTART starts timebase b, where EN is 0, as of instant t0. -/
def tbGstartOne (t0 : Nat) (b : Fin 32) (x : Dev) : Dev :=
  if x.b (.tb b .ctl) TB_CTL.EN then x else (x.setB (.tb b .ctl) TB_CTL.EN true).asOf t0 (tbStart b)

theorem tbGstart_eq (mask : Nat) (d : Dev) : tbGstart mask d = d.each (finsIn 32 mask) (tbGstartOne d.now) := rfl

theorem tbGstartOne_others {a b : Fin 32} (h : a ≠ b) (t0 : Nat) (x : Dev) : TbStands b x (tbGstartOne t0 a x) := by
  unfold tbGstartOne
  split
  · exact .refl x
  · refine .asOf ⟨rfl, rfl, rfl, fun r => ?_⟩ fun y => (tbOnly_tbStart a y).stands h
    exact Dev.get_setF_ne x (by simp [h.symm]) _ _

theorem max_tickUp_le (x : Bool) (t : Nat) : max t (tickUp x t) ≤ ticksUp t := max_le (le_ticksUp t) (tickUp_le_ticksUp x t)

theorem tbGstartOne_times (t0 : Nat) (b : Fin 32) (x : Dev) :
    x.now ≤ (tbGstartOne t0 b x).now ∧ (tbGstartOne t0 b x).now ≤ max x.now (ticksUp t0) := by
  unfold tbGstartOne
  split
  · simp
  · rw [Dev.asOf_eq, Dev.at_now]
    have h := (tbStart_now_le b ((x.setB (.tb b .ctl) TB_CTL.EN true).asAt t0)).2.trans (max_tickUp_le ..)
    exact ⟨le_max_right .., max_le (h.trans (le_max_right ..)) (le_max_left ..)⟩

section
variable {b : Fin 32} {x : Dev} {t0 : Nat}

/-- EN has been set. -/
theorem setEn_bit (x : Dev) {f : Fld} (hf : f.ok = true) (h : f.apart TB_CTL.EN = true) (v : Bool) :
    (x.setB (.tb b .ctl) TB_CTL.EN v).b (.tb b .ctl) f = x.b (.tb b .ctl) f := Dev.b_setB_apart x _ hf (by decide) h v

theorem setEn_get {r : TbReg} (h : r ≠ .ctl) (v : Bool) : (x.setB (.tb b .ctl) TB_CTL.EN v).get (.tb b r) = x.get (.tb b r) :=
  Dev.get_setF_ne x (by simp [h]) _ _

theorem setEn_run (v : Bool) : (x.setB (.tb b .ctl) TB_CTL.EN v).tbRun b = x.tbRun b := by
  rw [Dev.tbRun, Dev.b, setEn_get (by simp)]
  rfl

theorem tbGstartOne_started (off : x.b (.tb b .ctl) TB_CTL.EN = false) (stopped : x.tbRun b = false)
    (sten : x.b (.tb b .ctl) TB_CTL.STEN = false) (mode : tbMode x b = 0) (pll : tbPll x b = true) :
    TbStarted b (tickUp (tbB x b) t0) (tbClamp x b) (tbGstartOne t0 b x) := by
  have e : tbGstartOne t0 b x = (tbStart b ((x.setB (.tb b .ctl) TB_CTL.EN true).asAt t0)).at x.now := by rw [tbGstartOne, off]; rfl
  rw [e]
  refine .at ?_ _
  have k := TbStands.asAt b (x.setB (.tb b .ctl) TB_CTL.EN true) t0
  have hB : tbB ((x.setB (.tb b .ctl) TB_CTL.EN true).asAt t0) b = tbB x b := k.tbB.trans (setEn_bit x (by decide) (by decide) _)
  have hmode : tbMode ((x.setB (.tb b .ctl) TB_CTL.EN true).asAt t0) b = tbMode x b := by
    rw [k.mode, tbMode, Dev.f, Dev.setB, Dev.setF, Dev.get_put_same, Fld.get_put_apart (by decide) (by decide) (by decide)]
    rfl
  have hpll : tbPll ((x.setB (.tb b .ctl) TB_CTL.EN true).asAt t0) b = tbPll x b := by rw [tbPll, hB]; rfl
  have hclamp : tbClamp ((x.setB (.tb b .ctl) TB_CTL.EN true).asAt t0) b = tbClamp x b := by
    rw [k.clamp, tbClamp, Dev.f, setEn_get (by simp)]
    rfl
  have hsten := (k.bit .ctl TB_CTL.STEN).trans ((setEn_bit x (by decide) (by decide) _).trans sten)
  have hrun := k.run.trans ((setEn_run true).trans stopped)
  have start : tbStart b ((x.setB (.tb b .ctl) TB_CTL.EN true).asAt t0) = tbArm b ((x.setB (.tb b .ctl) TB_CTL.EN true).asAt t0) := by
    simp [tbStart, hrun, hsten]
  have h := tbArm_started (hpll.trans pll) (hmode.trans mode) ((k.bit .ctl TB_CTL.EN).trans (Dev.b_flag x _ (by decide)))
  rwa [hB, hclamp, ← start] at h

end

theorem tbgstart_does {s : State} {by_ : Requester} {b : Fin 32} {v : Word} (calm : CalmTo s (ticksUp s.now))
    (asks : Asks by_ s (.tbg .tbgstart)) (stopped : s.tbRun b = false) (off : s.b (.tb b .ctl) TB_CTL.EN = false)
    (named : v.getLsbD b.val = true) (sten : s.b (.tb b .ctl) TB_CTL.STEN = false) (mode : tbMode s.toDev b = 0)
    (pll : tbPll s.toDev b = true) :
    Does (.tbgstart by_ v) s (TbStarted b (tickUp (tbB s.toDev b) s.now) (tbClamp s.toDev b)) := by
  have h := each_started (d := asked by_ s.toDev) (finsIn_nodup 32 v.toNat) (mem_finsIn.2 named)
    (fun a ha => tbGstartOne_others ha s.now) (tbGstartOne_times s.now) (t := tickUp (tbB s.toDev b) s.now) (p := tbClamp s.toDev b)
    fun x hx => by
      have k := (TbStands.of_tbs asked_tbs).trans hx
      rw [← k.tbB, ← k.clamp]
      exact tbGstartOne_started ((k.bit ..).trans off) (k.run.trans stopped) ((k.bit ..).trans sten) (k.mode.trans mode) (k.pll.trans pll)
  exact .of_write rfl asks (by simp [heldMask]) rfl (calm.calm (h.2.trans (max_le (le_ticksUp _) (le_refl _)))) h.1.settle

/-! ### TB_START_TASK -/

/-- A channel's task starts timebase b, which waited for it, as of instant t0. -/
def tbTaskOne (t0 : Nat) (b : Fin 32) (x : Dev) : Dev := (x.tbU b fun s => { s with arm := .no }).asOf t0 (tbArm b)

/-- Timebase b waits for a task of channel ch. -/
abbrev tbAwaits (ch : Nat) (d : Dev) (b : Fin 32) : Prop :=
  d.tb[b].arm = .task ∧ d.b (.tb b .ctl) TB_CTL.STEN = true ∧ d.f (.tb b .ctl) TB_CTL.STCH = ch

theorem tbTask_eq (ch : Nat) (d : Dev) : tbTask ch d = d.each ((fins 32).filter fun b => tbAwaits ch d b) (tbTaskOne d.now) :=
  rfl

theorem TbStands.tbU {a b : Fin 32} (h : a ≠ b) (d : Dev) (g : TbSt → TbSt) : TbStands b d (d.tbU a g) :=
  ⟨rfl, rfl, Dev.tbU_tb_ne d h.symm g, fun _ => rfl⟩

theorem tbTaskOne_others {a b : Fin 32} (h : a ≠ b) (t0 : Nat) (x : Dev) : TbStands b x (tbTaskOne t0 a x) :=
  .asOf (.tbU h x _) fun y => TbOnly.stands (a := a) (by simp) h

theorem tbTaskOne_times (t0 : Nat) (b : Fin 32) (x : Dev) :
    x.now ≤ (tbTaskOne t0 b x).now ∧ (tbTaskOne t0 b x).now ≤ max x.now (ticksUp t0) := by
  rw [tbTaskOne, Dev.asOf_eq, Dev.at_now]
  have h := (tbArm_now_le b ((x.tbU b fun s => { s with arm := .no }).asAt t0)).2.trans (max_tickUp_le ..)
  exact ⟨le_max_right .., max_le (h.trans (le_max_right ..)) (le_max_left ..)⟩

theorem tbTaskOne_started {b : Fin 32} {x : Dev} {t0 : Nat} (en : x.b (.tb b .ctl) TB_CTL.EN = true) (mode : tbMode x b = 0)
    (pll : tbPll x b = true) : TbStarted b (tickUp (tbB x b) t0) (tbClamp x b) (tbTaskOne t0 b x) := by
  rw [tbTaskOne, Dev.asOf_eq]
  exact .at (tbArm_started (b := b) (d := (x.tbU b fun s => { s with arm := .no }).asAt t0) pll mode en) _

theorem tbTask_started {b : Fin 32} {d : Dev} {ch : Nat} (awaits : tbAwaits ch d b) (en : d.b (.tb b .ctl) TB_CTL.EN = true)
    (mode : tbMode d b = 0) (pll : tbPll d b = true) :
    TbStarted b (tickUp (tbB d b) d.now) (tbClamp d b) (tbTask ch d) ∧ (tbTask ch d).now ≤ ticksUp d.now := by
  have mem : b ∈ (fins 32).filter fun b => tbAwaits ch d b := List.mem_filter.2 ⟨mem_fins b, decide_eq_true awaits⟩
  have h := each_started (d := d) ((fins_nodup 32).filter _) mem (fun a ha => tbTaskOne_others ha d.now) (tbTaskOne_times d.now)
    (t := tickUp (tbB d b) d.now) (p := tbClamp d b) fun x hx => by
      rw [← hx.tbB, ← hx.clamp]
      exact tbTaskOne_started ((hx.bit ..).trans en) (hx.mode.trans mode) (hx.pll.trans pll)
  exact ⟨h.1, h.2.trans (max_le (le_ticksUp _) (le_refl _))⟩

/-- Where a clocked task of channel c finds the device: as of the instant at which its activation is received. -/
def fabFound (k : TaskKind) (c : Fin 256) (e : Nat) (d : Dev) : Dev :=
  let d1 := { d with fab := { d.fab with tasks := d.fab.tasks.erase (k, c, e) } }.at e
  let others := d1.fab.got.filter fun x => !(x.1 == c && x.2.1 == e)
  let more := d1.fab.tasks.any fun x => x.1.clocked && x.2.1 == c && x.2.2 == e
  let got := (fabGot d c e).getD (max d.now e)
  { d1 with fab := { d1.fab with got := if more then (c, e, got) :: others else others }, now := got }

theorem fabTask_clocked {k : TaskKind} {c : Fin 256} {e : Nat} {d : Dev} (h : fabTaskAt d k c = some e) (clocked : k.clocked = true)
    (act : Dev → Dev) : fabTask k c act d = (act (fabFound k c e d)).at (max d.now e) := by
  simp only [fabTask, h, clocked, if_true]
  rfl

theorem fabTask_none {k : TaskKind} {c : Fin 256} {d : Dev} (h : fabTaskAt d k c = none) (act : Dev → Dev) : fabTask k c act d = d := by
  simp [fabTask, h]

theorem tbStartTask_does {s : State} {b : Fin 32} {ch : Fin 256} {e : Nat} (up : Up s) (at_ : fabTaskAt s.toDev .tbStart ch = some e)
    (awaits : tbAwaits ch.val s.toDev b) (en : s.b (.tb b .ctl) TB_CTL.EN = true) (mode : tbMode s.toDev b = 0)
    (pll : tbPll s.toDev b = true)
    (calm : CalmTo s (max (max s.now e) (ticksUp ((fabGot s.toDev ch e).getD (max s.now e))))) :
    Does (.tbStartTask ch) s
      (TbStarted b (tickUp (tbB s.toDev b) ((fabGot s.toDev ch e).getD (max s.now e))) (tbClamp s.toDev b)) := by
  have h := tbTask_started (d := fabFound .tbStart ch e s.toDev) awaits en mode pll
  have made := fabTask_clocked at_ rfl (tbTask ch.val)
  refine .of_act rfl up ?_ ?_
  · rw [made]
    exact calm.calm (max_le (h.2.trans (le_max_right ..)) (le_max_left ..))
  · rw [made]
    exact (h.1.at _).settle

theorem tbStartTask_none {s : State} {ch : Fin 256} (up : Up s) (h : fabTaskAt s.toDev .tbStart ch = none) :
    exec (.tbStartTask ch) s = after s s.toDev := exec_of_act rfl up (fabTask_none h _) (up.calm (le_refl _))

/-! ### FOLLOWER_START -/

theorem tbAligned_first {d : Dev} {b : Fin 32} {t : Nat}
    (h : t < tickUp (tbB d b) (d.tb[tbLeader d b].start + d.f (.tb b .offset) TB_OFFSET.COARSE %
      max 1 (d.f (.tb (tbLeader d b) .pact) TB_PACT.P) * tuTick)) :
    tbAligned d b t = (tickUp (tbB d b) (d.tb[tbLeader d b].start + d.f (.tb b .offset) TB_OFFSET.COARSE %
      max 1 (d.f (.tb (tbLeader d b) .pact) TB_PACT.P) * tuTick), d.f (.tb (tbLeader d b) .pact) TB_PACT.P) := if_pos h

theorem followerStart_does {s : State} {b : Fin 32} {since : Nat} (up : Up s) (arm : s.tb[b].arm = .sync since)
    (stopped : s.tbRun b = false) (en : s.b (.tb b .ctl) TB_CTL.EN = true) (mode : tbMode s.toDev b = 1)
    (other : tbLeader s.toDev b ≠ b) (leads : tbMode s.toDev (tbLeader s.toDev b) ≠ 1) (runs : s.tbRun (tbLeader s.toDev b) = true)
    {at_ : Nat} (hat : at_ = tickUp (tbB s.toDev b) (s.tb[tbLeader s.toDev b].start + s.f (.tb b .offset) TB_OFFSET.COARSE %
      max 1 (s.f (.tb (tbLeader s.toDev b) .pact) TB_PACT.P) * tuTick))
    (pos : 0 < since) (ahead : since ≤ at_) (calm : Calm s at_) :
    Does (.followerStart b) s fun t => t.tbRun b = true ∧ t.tb[b].start = at_ ∧
      t.f (.tb b .pact) TB_PACT.P = s.f (.tb (tbLeader s.toDev b) .pact) TB_PACT.P % 2 ^ TB_PACT.P.width := by
  have odd : tbLeadOdd s.toDev b = false := by simp [tbLeadOdd, other, leads]
  have first := tbAligned_first (d := s.toDev) (b := b) (t := since - 1) (by rw [← hat]; omega)
  rw [← hat] at first
  have made : tbFollow b s.toDev = tbGo b at_ (s.f (.tb (tbLeader s.toDev b) .pact) TB_PACT.P) s.toDev := by
    simp only [tbFollow, arm, mode, stopped, en, odd, runs, first, decide_true, Bool.not_false, Bool.and_self, if_true, Bool.false_eq_true,
      if_false]
  refine .of_act rfl up ?_ ?_
  · rw [made, tbGo_now]
    exact calm_max.2 calm
  · rw [made, settle_tbRun, settle_tb, settle_f]
    exact ⟨tbGo_run .., tbGo_start .., tbGo_pact ..⟩

end Sys2Proof.Machine
end

section
/-!
SUPPORT. CHAIN_TB_START (R62): the search for the first tick at which chain time has reached its goal, and how much chain time the ticks
of that search span.
-/
set_option Elab.async false
namespace Sys2Proof.Machine
open Sys2Proof

/-- The search ends on the first tick whose chain time has reached the goal, where the last tick it may try has. -/
theorem tbReach_spec {d : Dev} {t : Nat} {goal : Int} {lo k : Nat} (reached : goal ≤ d.devTime (t + (lo + 2 ^ k - 1) * tuTick))
    (before : lo ≠ 0 → d.devTime (t + (lo - 1) * tuTick) < goal) :
    tbReach d t goal lo k < lo + 2 ^ k ∧ goal ≤ d.devTime (t + tbReach d t goal lo k * tuTick) ∧
      (tbReach d t goal lo k ≠ 0 → d.devTime (t + (tbReach d t goal lo k - 1) * tuTick) < goal) := by
  induction k generalizing lo with
  | zero => exact ⟨by simp [tbReach], by simpa [tbReach] using reached, before⟩
  | succ k ih =>
    have pos := Nat.two_pow_pos k
    unfold tbReach
    split
    next h =>
      obtain ⟨lt, h⟩ := ih h before
      exact ⟨by omega, h⟩
    next h =>
      have last : lo + 2 ^ k + 2 ^ k - 1 = lo + 2 ^ (k + 1) - 1 := by omega
      obtain ⟨lt, h⟩ := ih (lo := lo + 2 ^ k) (by rwa [last]) fun _ => not_le.1 h
      exact ⟨by omega, h⟩

/-- A phase correction that is applied an eighth of a fine unit a tick falls by no more over any ticks. -/
theorem phaseBy_sub_le (d : Dev) {t u : Nat} (h : t ≤ u) :
    d.phaseBy t - d.phaseBy u ≤ (((u - d.lnk.baseAt) / tuTick : Nat) : Int) - ((t - d.lnk.baseAt) / tuTick : Nat) := by
  have mono : (t - d.lnk.baseAt) / tuTick ≤ (u - d.lnk.baseAt) / tuTick := Nat.div_le_div_right (by omega)
  unfold Dev.phaseBy clampI
  dsimp only
  omega

/-- The ticks of the search span more chain time than the longest period. -/
theorem devTime_span {d : Dev} (runs : d.lnk.runs = true) (base : d.lnk.baseAt ≤ d.now) (rate : -1073742 ≤ d.lnk.rate) {t : Nat}
    (ht : d.now ≤ t) : d.devTime d.now + 3840000 ≤ d.devTime (t + (2 ^ 18 - 1) * tuTick) := by
  have phase := phaseBy_sub_le d (show d.now ≤ t + (2 ^ 18 - 1) * 120 by omega)
  have slope : ((t + (2 ^ 18 - 1) * 120 : Nat) - d.now : Int) * (2 ^ 32 - 1073742) ≤
      ((t + (2 ^ 18 - 1) * 120 : Nat) - d.now : Int) * (2 ^ 32 + d.lnk.rate) :=
    mul_le_mul_of_nonneg_left (by omega) (by omega)
  have split : (((t + (2 ^ 18 - 1) * 120 : Nat) : Int) - d.lnk.baseAt) * (2 ^ 32 + d.lnk.rate) =
      ((d.now : Int) - d.lnk.baseAt) * (2 ^ 32 + d.lnk.rate) +
        ((t + (2 ^ 18 - 1) * 120 : Nat) - d.now : Int) * (2 ^ 32 + d.lnk.rate) := by ring
  simp only [Dev.devTime, Dev.timeQ, runs, if_true, tuTick, tuFine] at *
  generalize d.phaseBy d.now = p at *
  generalize d.phaseBy (t + (2 ^ 18 - 1) * 120) = q at *
  generalize (((t + (2 ^ 18 - 1) * 120 : Nat) : Int) - d.lnk.baseAt) * (2 ^ 32 + d.lnk.rate) = x at *
  generalize ((d.now : Int) - d.lnk.baseAt) * (2 ^ 32 + d.lnk.rate) = y at *
  generalize ((t + (2 ^ 18 - 1) * 120 : Nat) - d.now : Int) * (2 ^ 32 + d.lnk.rate) = z at *
  omega

theorem tbChainStart_does {s : State} {b : Fin 32} {since : Nat} (up : Up s) (arm : s.tb[b].arm = .sync since)
    (stopped : s.tbRun b = false) (en : s.b (.tb b .ctl) TB_CTL.EN = true) (mode : tbMode s.toDev b = 2) (ctv : s.ctv = true)
    (runs : s.lnk.runs = true) (base : s.lnk.baseAt ≤ s.now) (rate : -1073742 ≤ s.lnk.rate)
    (calm : CalmTo s (tickUp (tbB s.toDev b) s.now + 2 ^ 18 * tuTick)) {goal : Int}
    (hgoal : goal = s.devTime s.now +
      ((fineVal (s.get (.tb b .offset)) : Int) - s.devTime s.now) % (24 * tbClamp s.toDev b : Nat)) :
    Does (.chainTbStart b) s fun t => t.tbRun b = true ∧ t.f (.tb b .pact) TB_PACT.P = tbClamp s.toDev b ∧
      ∃ n, t.tb[b].start = tickUp (tbB s.toDev b) s.now + n * tuTick ∧
        goal ≤ s.devTime (tickUp (tbB s.toDev b) s.now + n * tuTick) ∧
        (n ≠ 0 → s.devTime (tickUp (tbB s.toDev b) s.now + (n - 1) * tuTick) < goal) := by
  have range : 320 ≤ tbClamp s.toDev b ∧ tbClamp s.toDev b ≤ 160000 := by
    unfold tbClamp clampN
    omega
  have near : goal ≤ s.devTime s.now + 3840000 := by
    have := Int.emod_lt_of_pos ((fineVal (s.get (.tb b .offset)) : Int) - s.devTime s.now)
      (show (0 : Int) < (24 * tbClamp s.toDev b : Nat) by omega)
    omega
  obtain ⟨lt, found⟩ := tbReach_spec (d := s.toDev) (lo := 0) (k := 18)
    (by simpa using near.trans (devTime_span runs base rate (le_tickUp (tbB s.toDev b) s.now))) (by simp)
  have required : tbRequired s.toDev b s.now =
      tickUp (tbB s.toDev b) s.now + tbReach s.toDev (tickUp (tbB s.toDev b) s.now) goal 0 18 * tuTick := by
    rw [tbRequired, hgoal]
  have made : tbChainStart b s.toDev = tbGo b (tbRequired s.toDev b s.now) (tbClamp s.toDev b)
      (s.flagIf (tbClamp s.toDev b != s.f (.tb b .period) TB_PERIOD.PERIOD) (.tb b .stat) TB_STAT.PCLAMP) := by
    simp only [tbChainStart, arm, mode, stopped, ctv, en, decide_true, Bool.not_false, Bool.and_self, if_true]
  refine .of_act rfl up ?_ ?_
  · rw [made, tbGo_now, Dev.flagIf_now, required]
    exact calm_max.2 (calm.calm (by simp only [tuTick]; omega))
  · rw [made, settle_tbRun, settle_tb, settle_f, required]
    exact ⟨tbGo_run .., by rw [tbGo_pact, tbClamp_mod], _, tbGo_start .., found⟩

end Sys2Proof.Machine
end

section
/-!
SUPPORT. The switches of a leg go off: what that leaves of its command and of the dead-time that is counted.
-/
set_option Elab.async false
namespace Sys2Proof.Machine
open Sys2Proof

/-- What a leg was told: its command, the edges emitted, and the dead-time that is counted. -/
def LegSt.orders (g : LegSt) : Bool × Bool × Bool × Bool × Option (Sw × Nat) × Nat := (g.cmd, g.wait, g.spentA, g.spentB, g.pend, g.pendFrom)

/-- Neither switch is on, and none is to turn on. -/
structure LegSt.Dark (g : LegSt) : Prop where
  pend : g.pend = none
  hi : g.hi.on = false
  lo : g.lo.on = false

@[simp] theorem LegSt.setTr_orders (g : LegSt) (w : Sw) (x : AdtTr) : (g.setTr w x).orders = g.orders := by cases w <;> rfl
@[simp] theorem LegSt.setTr_sw (g : LegSt) (w u : Sw) (x : AdtTr) : (g.setTr w x).sw u = g.sw u := by cases w <;> cases u <;> rfl
@[simp] theorem LegSt.setSw_orders (g : LegSt) (w : Sw) (x : SwSt) : (g.setSw w x).orders = g.orders := by cases w <;> rfl
@[simp] theorem LegSt.setSw_sw (g : LegSt) (w : Sw) (x : SwSt) : (g.setSw w x).sw w = x := by cases w <;> rfl
@[simp] theorem LegSt.setSw_sw_other (g : LegSt) (w : Sw) (x : SwSt) : (g.setSw w x).sw w.other = g.sw w.other := by cases w <;> rfl
@[simp] theorem Sw.other_other (w : Sw) : w.other.other = w := by cases w <;> rfl
theorem Sw.eq_or_other (u w : Sw) : u = w ∨ u = w.other := by cases u <;> cases w <;> simp [Sw.other]

section
variable {n : Fin 96} {d : Dev}

theorem cmpLegEdge_leg_at {w : Sw} {on : Bool} {t : Nat} : (cmpLegEdge n w on t d).leg[n] = d.leg[n] := by rw [cmpLegEdge_leg]

/-- The leg's state after one of its switches has gone off. -/
theorem legOff_leg_at {w : Sw} {t : Nat} : ∃ h : LegSt, (legOff n w t d).leg[n] = h ∧ (h.sw w).on = false ∧
    h.sw w.other = d.leg[n].sw w.other ∧ h.orders = d.leg[n].orders := by
  refine ⟨_, rfl, ?_⟩
  unfold legOff
  dsimp only
  split
  · rw [cmpLegEdge_leg_at, Dev.legU_leg_same]
    split <;> simp [SwSt.turn]
  next h => exact ⟨Bool.eq_false_iff.2 h, rfl, rfl⟩

theorem legOff_same (n : Fin 96) (w : Sw) (t : Nat) (d : Dev) : ((legOff n w t d).leg[n].sw w).on = false := by
  obtain ⟨_, e, h, -⟩ := legOff_leg_at (n := n) (d := d) (w := w) (t := t)
  rw [e, h]

theorem legOff_other (n : Fin 96) (w : Sw) (t : Nat) (d : Dev) : (legOff n w t d).leg[n].sw w.other = d.leg[n].sw w.other := by
  obtain ⟨_, e, -, h, -⟩ := legOff_leg_at (n := n) (d := d) (w := w) (t := t)
  rw [e, h]

theorem legOff_orders (n : Fin 96) (w : Sw) (t : Nat) (d : Dev) : (legOff n w t d).leg[n].orders = d.leg[n].orders := by
  obtain ⟨_, e, -, -, h⟩ := legOff_leg_at (n := n) (d := d) (w := w) (t := t)
  rw [e, h]

theorem legOff_off {u w : Sw} {t : Nat} (h : (d.leg[n].sw u).on = false) : ((legOff n w t d).leg[n].sw u).on = false := by
  obtain rfl | rfl := Sw.eq_or_other u w
  · exact legOff_same ..
  · rw [legOff_other, h]

theorem adtShut_sw (n : Fin 96) (w u : Sw) (t : Nat) (d : Dev) : (adtShut n w t d).leg[n].sw u = d.leg[n].sw u := by
  simp only [adtShut, Dev.legU_leg_same, LegSt.setTr_sw]

theorem adtShut_orders (n : Fin 96) (w : Sw) (t : Nat) (d : Dev) : (adtShut n w t d).leg[n].orders = d.leg[n].orders := by
  simp only [adtShut, Dev.legU_leg_same, LegSt.setTr_orders]

theorem legDue_eq_none : legDue d n = none ↔ d.leg[n].pend = none := by
  unfold legDue
  split
  next h => rw [h]; simp
  next h => rw [h]; simp

theorem legUnpend_sw (n : Fin 96) (u : Sw) (d : Dev) : (legUnpend n d).leg[n].sw u = d.leg[n].sw u := by
  unfold legUnpend
  split
  · rw [adtShut_sw, Dev.legU_leg_same]
    rfl
  · rfl

theorem LegSt.pend_of_orders {g h : LegSt} (e : g.orders = h.orders) : g.pend = h.pend := congrArg (·.2.2.2.2.1) e
theorem LegSt.cmd_of_orders {g h : LegSt} (e : g.orders = h.orders) : g.cmd = h.cmd := congrArg (·.1) e
theorem LegSt.spentA_of_orders {g h : LegSt} (e : g.orders = h.orders) : g.spentA = h.spentA := congrArg (·.2.2.1) e
theorem LegSt.spentB_of_orders {g h : LegSt} (e : g.orders = h.orders) : g.spentB = h.spentB := congrArg (·.2.2.2.1) e

/-- No dead-time is counted any more; the rest of what the leg was told stands. -/
theorem legUnpend_orders (n : Fin 96) (d : Dev) : (legUnpend n d).leg[n].orders = { d.leg[n] with pend := none }.orders := by
  unfold legUnpend
  split
  · rw [adtShut_orders, Dev.legU_leg_same]
  next h =>
    have none : d.leg[n].pend = none := by
      cases hp : d.leg[n].pend with
      | none => rfl
      | some x =>
        cases hd : legDue d n with
        | none => rw [← hp, legDue_eq_none.1 hd]
        | some t => exact absurd hd (h x.1 x.2 t hp)
    simp only [LegSt.orders, none]

theorem legUnpend_pend (n : Fin 96) (d : Dev) : (legUnpend n d).leg[n].pend = none := LegSt.pend_of_orders (legUnpend_orders n d)

theorem legDark_orders (n : Fin 96) (t : Nat) (d : Dev) : (legDark n t d).leg[n].orders = { d.leg[n] with pend := none }.orders := by
  rw [← legUnpend_orders, legDark, Dev.legU_leg_same]
  exact (legOff_orders ..).trans (legOff_orders ..)

theorem legDark_dark (n : Fin 96) (t : Nat) (d : Dev) : (legDark n t d).leg[n].Dark := by
  refine ⟨LegSt.pend_of_orders (legDark_orders n t d), ?_, ?_⟩
  · rw [legDark, Dev.legU_leg_same]
    exact legOff_off (u := .h) (legOff_same n .h ..)
  · rw [legDark, Dev.legU_leg_same]
    exact legOff_same n .l ..

theorem adtShut_dark {w : Sw} {t : Nat} (h : d.leg[n].Dark) : (adtShut n w t d).leg[n].Dark :=
  ⟨(LegSt.pend_of_orders (adtShut_orders ..)).trans h.pend, (congrArg SwSt.on (adtShut_sw n w .h t d)).trans h.hi,
    (congrArg SwSt.on (adtShut_sw n w .l t d)).trans h.lo⟩

theorem legBothOff_dark (n : Fin 96) (t : Nat) (d : Dev) : (legBothOff n t d).leg[n].Dark := adtShut_dark (adtShut_dark (legDark_dark ..))

end

/-! ### A leg whose timebase stops -/

theorem Dev.legU_dark {n : Fin 96} {d : Dev} {g : LegSt → LegSt} (hg : ∀ x, (g x).pend = x.pend ∧ (g x).hi = x.hi ∧ (g x).lo = x.lo)
    (h : d.leg[n].Dark) : (d.legU n g).leg[n].Dark := by
  rw [Dev.legU_leg_same]
  obtain ⟨pend, hi, lo⟩ := hg d.leg[n]
  exact ⟨pend.trans h.pend, by rw [hi, h.hi], by rw [lo, h.lo]⟩

theorem legDtLoad_dark {n : Fin 96} {d : Dev} (h : d.leg[n].Dark) : (legDtLoad n d).leg[n].Dark :=
  Dev.legU_dark (fun _ => ⟨rfl, rfl, rfl⟩) (by simpa [Dev.setF, Dev.put] using h)

theorem legReefEnd_dark {n : Fin 96} {d : Dev} (h : d.leg[n].Dark) : (legReefEnd n d).leg[n].Dark := by
  rw [legReefEnd, Dev.setB_leg]
  exact Dev.legU_dark (fun _ => ⟨rfl, rfl, rfl⟩) h

theorem legTbStop_dark (n : Fin 96) (t : Nat) (d : Dev) : (legTbStop n t d).leg[n].Dark := by
  unfold legTbStop
  extract_lets l d0 d1 rel d2 d3 d4
  have h0 : d0.leg[n].Dark := by
    simp only [d0]
    rw [Dev.each_leg fun _ _ _ => legPut_leg ..]
    exact legBothOff_dark ..
  have h3 : d3.leg[n].Dark := by
    have h : d2.leg[n].Dark := Dev.legU_dark (fun _ => ⟨rfl, rfl, rfl⟩) (Dev.legU_dark (fun _ => ⟨rfl, rfl, rfl⟩) h0)
    simp only [d3]
    split <;> exact h
  have h4 : d4.leg[n].Dark := by
    refine legReefEnd_dark ?_
    split
    · exact legDtLoad_dark h3
    · exact h3
  exact h4

/-- A dark leg stays so while timebases stop. -/
theorem legTbStop_dark_kept (n : Fin 96) {m : Fin 96} (t : Nat) {d : Dev} (h : d.leg[m].Dark) : (legTbStop n t d).leg[m].Dark := by
  by_cases e : m = n
  · subst e
    exact legTbStop_dark ..
  · have only : LegOnly n d (legTbStop n t d) := by simp
    rwa [only.legs m e]

end Sys2Proof.Machine
end

section
/-!
SUPPORT. Timebases stop (R58): by a write of TBn_CTL, by TBGSTOP, at a period start.
-/
set_option Elab.async false
namespace Sys2Proof.Machine
open Sys2Proof

/-- Timebase b is shown as stopped, on tick t, and its legs with it. -/
def tbCleared (b : Fin 32) (t : Nat) (s : TbSt) (d1 : Dev) : Dev :=
  let d2 := ((d1.setB (.tb b .stat) TB_STAT.RUNNING false).setB (.tb b .stat) TB_STAT.LOCKED false).setB (.tb b .stat) TB_STAT.HOLDOVER false
  let d3 := d2.setF (.tb b .count) TB_COUNT.COUNT (min ((t - s.start) / tuTick) (s.len - 1))
  (d3.tbU b fun s => { start := s.start, prev := s.prev, startTs := s.startTs, prevTs := s.prevTs, len := s.len, nxtP := s.nxtP }).each
    (d3.legsOn b) legShow

theorem tbHalt_eq (b : Fin 32) (t : Nat) (d : Dev) : tbHalt b t d = if !d.tbRun b then d
    else tbLine b (posPathAll b (cmpPathAll b (adcTbStopAll b (tbCleared b t d.tb[b] (d.each (d.legsOn b) fun n => legTbStop n t))))) := rfl

@[simp] theorem legShow_now (n : Fin 96) (d : Dev) : (legShow n d).now = d.now := by simp [legShow]
@[simp] theorem legShow_leg (n : Fin 96) (d : Dev) : (legShow n d).leg = d.leg := by simp [legShow]
@[simp] theorem legShow_tbs (n : Fin 96) (d : Dev) : (legShow n d).tbs = d.tbs := by simp [legShow]

section
variable {b : Fin 32} {t : Nat} {d : Dev}

theorem tbCleared_now (s : TbSt) : (tbCleared b t s d).now = d.now := by simp [tbCleared, Dev.each_now _ legShow_now]

theorem tbCleared_leg (s : TbSt) : (tbCleared b t s d).leg = d.leg := by simp [tbCleared]

theorem tbCleared_only (s : TbSt) : TbOnly b d (tbCleared b t s d) := by
  unfold tbCleared
  dsimp only
  rw [tbOnly_tbs (Dev.each_tbs fun _ _ _ => legShow_tbs ..)]
  simp [tbShows]

theorem tbCleared_run (s : TbSt) : (tbCleared b t s d).tbRun b = false := by
  unfold tbCleared
  dsimp only
  rw [Dev.tbRun_of_tbs (Dev.each_tbs fun _ _ _ => legShow_tbs ..), Dev.tbU_tbRun, Dev.tbRun, Dev.b, Dev.get_setF_ne _ (by simp)]
  exact (Dev.b_setB_apart _ _ (by decide) (by decide) (by decide) _).trans
    ((Dev.b_setB_apart _ _ (by decide) (by decide) (by decide) _).trans (Dev.b_setB _ _ (by decide) _))

theorem tbHalt_of_stopped (h : d.tbRun b = false) : tbHalt b t d = d := by simp [tbHalt_eq, h]

theorem tbHalt_tbs (h : d.tbRun b = true) :
    (tbHalt b t d).tbs = (tbCleared b t d.tb[b] (d.each (d.legsOn b) fun n => legTbStop n t)).tbs := by
  rw [tbHalt_eq, h]
  simp

theorem tbHalt_leg_eq (h : d.tbRun b = true) : (tbHalt b t d).leg = (d.each (d.legsOn b) fun n => legTbStop n t).leg := by
  rw [tbHalt_eq, h, Bool.not_true, if_neg Bool.false_ne_true, tbLine, Dev.line_leg, posPathAll_leg, cmpPathAll_leg, adcTbStopAll_leg,
    tbCleared_leg]

@[simp] theorem tbHalt_now : (tbHalt b t d).now = d.now := by
  cases h : d.tbRun b with
  | false => rw [tbHalt_of_stopped h]
  | true => rw [Dev.now_of_tbs (tbHalt_tbs h), tbCleared_now, Dev.now_of_tbs (Dev.each_tbs fun _ _ _ => legTbStop_tbs ..)]

theorem tbHalt_run : (tbHalt b t d).tbRun b = false := by
  cases h : d.tbRun b with
  | false => rw [tbHalt_of_stopped h, h]
  | true => rw [Dev.tbRun_of_tbs (tbHalt_tbs h), tbCleared_run]

@[simp] theorem tbOnly_tbHalt {c : Dev} : TbOnly b c (tbHalt b t d) ↔ TbOnly b c d := by
  cases h : d.tbRun b with
  | false => rw [tbHalt_of_stopped h]
  | true =>
    rw [tbOnly_tbs (tbHalt_tbs h), (tbCleared_only _).iff_of, tbOnly_tbs (Dev.each_tbs fun _ _ _ => legTbStop_tbs ..)]

/-- The legs of a timebase that stops are dark, and a leg that is dark stays so. -/
theorem tbHalt_dark {m : Fin 96} (run : d.tbRun b = true) (h : d.legTb m = b) : (tbHalt b t d).leg[m].Dark := by
  have mem : m ∈ d.legsOn b := List.mem_filter.2 ⟨mem_fins m, decide_eq_true h⟩
  have nodup : (d.legsOn b).Nodup := (fins_nodup 96).filter _
  obtain ⟨l1, l2, -, -, e⟩ := Dev.each_split nodup mem (fun n => legTbStop n t) d
  rw [tbHalt_leg_eq run]
  have dark := legTbStop_dark m t (d.each l1 fun n => legTbStop n t)
  rw [e]
  exact Dev.each_inv (p := fun x => x.leg[m].Dark) (fun a _ _ hx => legTbStop_dark_kept a t hx) dark

theorem tbHalt_dark_kept {m : Fin 96} (h : d.leg[m].Dark) : (tbHalt b t d).leg[m].Dark := by
  cases run : d.tbRun b with
  | false => rwa [tbHalt_of_stopped run]
  | true =>
    rw [tbHalt_leg_eq run]
    exact Dev.each_inv (p := fun x => x.leg[m].Dark) (fun a _ _ hx => legTbStop_dark_kept a t hx) h

end

/-! ### What stops leave of any timebase -/

/-- TBn_CTL stands, and a timebase that is stopped stays so. -/
structure TbStill (c : Fin 32) (d e : Dev) : Prop where
  ctl : e.get (.tb c .ctl) = d.get (.tb c .ctl)
  run : d.tbRun c = false → e.tbRun c = false

theorem TbStill.refl {c : Fin 32} (d : Dev) : TbStill c d d := ⟨rfl, id⟩
theorem TbStill.trans {a : Fin 32} {c d e : Dev} (h : TbStill a c d) (k : TbStill a d e) : TbStill a c e :=
  ⟨k.ctl.trans h.ctl, fun x => k.run (h.run x)⟩

theorem TbOnly.still {b c : Fin 32} {d e : Dev} (h : TbOnly b d e) (run : d.tbRun b = false → e.tbRun b = false) : TbStill c d e :=
  ⟨h.ctl c, by
    by_cases hc : c = b
    · rwa [hc]
    · rw [h.run hc]
      exact id⟩

theorem TbStill.bit {c : Fin 32} {d e : Dev} (h : TbStill c d e) (f : Fld) : e.b (.tb c .ctl) f = d.b (.tb c .ctl) f := by
  rw [Dev.b, h.ctl]; rfl

theorem tbHalt_still (b c : Fin 32) (t : Nat) (d : Dev) : TbStill c d (tbHalt b t d) :=
  TbOnly.still (b := b) (by simp) fun _ => tbHalt_run

theorem setStat_still (b c : Fin 32) {f : Fld} (hf : f.ok = true) (h : TB_STAT.RUNNING.apart f = true) (v : Bool) (d : Dev) :
    TbStill c d (d.setB (.tb b .stat) f v) :=
  TbOnly.still (b := b) (by simp) ((Dev.b_setB_apart d _ (by decide) hf h v).trans)

theorem tbU_still (b c : Fin 32) (g : TbSt → TbSt) (d : Dev) : TbStill c d (d.tbU b g) := TbOnly.still (b := b) (by simp) id

/-- A running follower of a timebase that stops stops with it, and waits again. -/
def tbFollowerStop (t : Nat) (f : Fin 32) (d : Dev) : Dev :=
  ((tbHalt f t d).tbU f fun s => { s with arm := if d.b (.tb f .ctl) TB_CTL.EN then .sync t else .no }).setB
    (.tb f .stat) TB_STAT.WAIT_SYNC (d.b (.tb f .ctl) TB_CTL.EN)

/-- A timebase stops, and its running followers with it. -/
def tbAllStop (b : Fin 32) (t : Nat) (d : Dev) : Dev := (tbHalt b t d).each (tbFollowers d b) (tbFollowerStop t)

/-- A follower that has not reached its first period waits for its leader's next start. -/
def tbWaits (f : Fin 32) (d : Dev) : Dev := d.flag (.tb f .stat) TB_STAT.WAIT_SYNC

@[simp] theorem tbWaits_now (f : Fin 32) (d : Dev) : (tbWaits f d).now = d.now := by simp [tbWaits]
@[simp] theorem tbWaits_leg (f : Fin 32) (d : Dev) : (tbWaits f d).leg = d.leg := by simp [tbWaits]

theorem tbStopAt_eq (b : Fin 32) (t : Nat) (d : Dev) : tbStopAt b t d = (tbAllStop b t d).each ((fins 32).filter fun f => f ≠ b ∧
      tbMode d f = 1 ∧ tbLeader d f = b ∧ tbSyncing d.tb[f].arm = true) tbWaits := rfl

theorem tbFollowerStop_still (t : Nat) (f c : Fin 32) (d : Dev) : TbStill c d (tbFollowerStop t f d) :=
  ((tbHalt_still f c t d).trans (tbU_still f c _ _)).trans (setStat_still f c (by decide) (by decide) _ _)

@[simp] theorem tbFollowerStop_now (t : Nat) (f : Fin 32) (d : Dev) : (tbFollowerStop t f d).now = d.now := by simp [tbFollowerStop]

theorem tbFollowerStop_dark {t : Nat} {f : Fin 32} {d : Dev} {m : Fin 96} (h : d.leg[m].Dark) : (tbFollowerStop t f d).leg[m].Dark := by
  rw [tbFollowerStop, Dev.setB_leg, Dev.tbU_leg]
  exact tbHalt_dark_kept h

section
variable (b : Fin 32) (t : Nat) (d : Dev)

@[simp] theorem tbStopAt_now : (tbStopAt b t d).now = d.now := by
  rw [tbStopAt_eq, Dev.each_now _ tbWaits_now, tbAllStop, Dev.each_now _ (tbFollowerStop_now t), tbHalt_now]

/-- After timebase b itself has stopped. -/
theorem tbStopAt_after (c : Fin 32) : TbStill c (tbHalt b t d) (tbStopAt b t d) := by
  rw [tbStopAt_eq]
  exact (Dev.each_rel .refl .trans (fun f _ x => tbFollowerStop_still t f c x) (tbHalt b t d) : TbStill c _ (tbAllStop b t d)).trans
    (Dev.each_rel .refl .trans (fun f _ x => setStat_still f c (by decide) (by decide) true x) _)

theorem tbStopAt_still (c : Fin 32) : TbStill c d (tbStopAt b t d) := (tbHalt_still b c t d).trans (tbStopAt_after b t d c)

theorem tbStopAt_run : (tbStopAt b t d).tbRun b = false := (tbStopAt_after b t d b).run tbHalt_run

theorem tbStopAt_dark {m : Fin 96} (run : d.tbRun b = true) (h : d.legTb m = b) : (tbStopAt b t d).leg[m].Dark := by
  rw [tbStopAt_eq, Dev.each_leg fun _ _ _ => tbWaits_leg ..]
  exact Dev.each_inv (p := fun x => x.leg[m].Dark) (fun _ _ _ hx => tbFollowerStop_dark hx) (tbHalt_dark run h)

end

/-! ### A stop is asked for -/

section
variable {b : Fin 32} {d : Dev}

theorem tbStop_still (b c : Fin 32) (d : Dev) : TbStill c d (tbStop b d) := by
  unfold tbStop
  split
  · split
    · exact ⟨(tbStopAt_still b _ _ c).ctl, (tbStopAt_still b (tickUp (tbB d b) d.now) (d.at (tickUp (tbB d b) d.now)) c).run⟩
    · exact tbU_still b c _ d
  · exact (tbU_still b c _ d).trans (setStat_still b c (by decide) (by decide) _ _)

theorem tbStop_now_le (b : Fin 32) (d : Dev) : d.now ≤ (tbStop b d).now ∧ (tbStop b d).now ≤ max d.now (tickUp (tbB d b) d.now) := by
  unfold tbStop
  repeat' split
  · simp [Dev.at]
  · simp
  · simp

theorem tbStop_run (mode : d.b (.tb b .ctl) TB_CTL.STOPMODE = true) : (tbStop b d).tbRun b = false := by
  cases run : d.tbRun b with
  | false => exact (tbStop_still b b d).run run
  | true =>
    simp only [tbStop, run, mode, if_true]
    exact tbStopAt_run ..

end

/-! ### TB_DISABLE -/

section
variable {s : State} {by_ : Requester} {b : Fin 32} {v : Word}

/-- What a write of v with EN = 0 makes of TBn_CTL (R60). -/
def tbStopWord (old v : Word) : Word :=
  let keep (f : Fld) (w : Word) : Word := f.put (f.get old) w
  let v1 := if TB_CTL.EN.bit old then keep TB_CTL.PLLSEL (keep TB_CTL.SYNCSRC (keep TB_CTL.LEADER v)) else v
  tbCtlWord old v1

theorem tbStopWord_bit {f : Fld} (hf : f.ok = true) (src : f.apart TB_CTL.SYNCSRC = true) (pll : f.apart TB_CTL.PLLSEL = true)
    (lead : f.apart TB_CTL.LEADER = true) (old v : Word) : f.bit (tbStopWord old v) = f.bit v := by
  unfold tbStopWord
  rw [tbCtlWord_bit hf src]
  split
  · rw [Fld.bit_put_apart hf (by decide) pll, Fld.bit_put_apart hf (by decide) src, Fld.bit_put_apart hf (by decide) lead]
  · rfl

theorem tbWriteCtl_eq (b : Fin 32) (v : Word) (d : Dev) : ∃ guard, tbWriteCtl b v d =
    let w := tbStopWord (d.get (.tb b .ctl)) v
    let d1 := (d.wr (.tb b .ctl) w).flagIf guard (.tb b .stat) TB_STAT.CFG_REJ
    let en := TB_CTL.EN.bit (d.get (.tb b .ctl))
    if TB_CTL.EN.bit w && !en then tbStart b d1 else if (en || d.tbRun b) && !TB_CTL.EN.bit w then tbStop b d1 else d1 := ⟨_, rfl⟩

theorem tbWriteCtl_stop {d : Dev} (run : d.tbRun b = true) (off : TB_CTL.EN.bit v = false) :
    ∃ guard, tbWriteCtl b v d = tbStop b ((d.wr (.tb b .ctl) (tbStopWord (d.get (.tb b .ctl)) v)).flagIf guard (.tb b .stat) TB_STAT.CFG_REJ) := by
  obtain ⟨guard, h⟩ := tbWriteCtl_eq b v d
  refine ⟨guard, h.trans ?_⟩
  have off' := (tbStopWord_bit (f := TB_CTL.EN) (by decide) (by decide) (by decide) (by decide) (d.get (.tb b .ctl)) v).trans off
  simp only [off', run, Bool.false_and, Bool.false_eq_true, if_false, Bool.not_false, Bool.or_true, Bool.and_true, if_true]

/-- The device on which TB_DISABLE's write stops timebase b. -/
def tbDisabled (by_ : Requester) (b : Fin 32) (v : Word) (guard : Bool) (d : Dev) : Dev :=
  (tbCtlPut b (tbStopWord (d.get (.tb b .ctl)) (TB_CTL.EN.put 0 v)) (asked by_ d)).flagIf guard (.tb b .stat) TB_STAT.CFG_REJ

variable (d : Dev) (guard : Bool)

theorem tbDisabled_bit {f : Fld} (hf : f.ok = true) (hw : (TbReg.access .ctl).writes f = true) (src : f.apart TB_CTL.SYNCSRC = true)
    (pll : f.apart TB_CTL.PLLSEL = true) (lead : f.apart TB_CTL.LEADER = true) :
    (tbDisabled by_ b v guard d).b (.tb b .ctl) f = f.bit (TB_CTL.EN.put 0 v) := by
  have h : TbOnly b (tbCtlPut b (tbStopWord (d.get (.tb b .ctl)) (TB_CTL.EN.put 0 v)) (asked by_ d)) (tbDisabled by_ b v guard d) := by
    simp [tbDisabled]
  rw [h.bCtl, tbCtlPut_b hf hw, tbStopWord_bit hf src pll lead]

theorem tbDisabled_en : (tbDisabled by_ b v guard d).b (.tb b .ctl) TB_CTL.EN = false := by
  rw [tbDisabled_bit d guard (by decide) (by decide) (by decide) (by decide) (by decide), Fld.bit_put (by decide)]
  rfl

theorem tbDisabled_stopmode : (tbDisabled by_ b v guard d).b (.tb b .ctl) TB_CTL.STOPMODE = TB_CTL.STOPMODE.bit v := by
  rw [tbDisabled_bit d guard (by decide) (by decide) (by decide) (by decide) (by decide), Fld.bit_put_apart (by decide) (by decide) (by decide)]

theorem tbDisabled_run : (tbDisabled by_ b v guard d).tbRun b = d.tbRun b := by
  have put : (tbCtlPut b (tbStopWord (d.get (.tb b .ctl)) (TB_CTL.EN.put 0 v)) (asked by_ d)).tbRun b = d.tbRun b := by
    rw [tbCtlPut_run, Dev.tbRun_of_tbs asked_tbs]
  rw [tbDisabled, Dev.flagIf]
  split
  · exact (Dev.b_setB_apart _ _ (by decide) (by decide) (by decide) _).trans put
  · exact put

theorem tbDisabled_now : (tbDisabled by_ b v guard d).now = d.now := by simp [tbDisabled, tbCtlPut, Dev.wr]

theorem tbDisabled_legTb (m : Fin 96) : (tbDisabled by_ b v guard d).legTb m = d.legTb m := by
  have get : (tbDisabled by_ b v guard d).get (.leg m .ctl) = d.get (.leg m .ctl) := by
    rw [tbDisabled, Dev.flagIf]
    split
    · rw [Dev.flag, Dev.setB, Dev.get_setF_ne _ (by simp), tbCtlPut_get (by simp), get_asked (by simp)]
    · rw [tbCtlPut_get (by simp), get_asked (by simp)]
  rw [Dev.legTb, Dev.f, get]
  rfl

variable {d guard} (run : s.tbRun b = true)
include run

theorem tbDisable_made : ∃ guard, writeNow by_ (.tb b .ctl) (TB_CTL.EN.put 0 v) (asked by_ s.toDev) =
    tbStop b (tbDisabled by_ b v guard s.toDev) := by
  obtain ⟨guard, h⟩ := tbWriteCtl_stop (v := TB_CTL.EN.put 0 v) ((Dev.tbRun_of_tbs (asked_tbs (by_ := by_)) b).trans run)
    (by rw [Fld.bit_put (by decide)]; rfl)
  refine ⟨guard, h.trans ?_⟩
  rw [get_asked (by simp)]
  rfl

variable (asks : Asks by_ s (.tb b .ctl))
include asks

theorem tbDisable_later (mode : TB_CTL.STOPMODE.bit v = false) : Does (.tbDisable by_ b v) s fun t =>
    t.tb[b].stopRq = true ∧ t.tbRun b = true ∧ t.b (.tb b .ctl) TB_CTL.EN = false := by
  obtain ⟨guard, made⟩ := tbDisable_made (by_ := by_) (v := v) run
  have e : tbStop b (tbDisabled by_ b v guard s.toDev) = (tbDisabled by_ b v guard s.toDev).tbU b fun x => { x with stopRq := true } := by
    simp only [tbStop, tbDisabled_run, run, tbDisabled_stopmode, mode, if_true, Bool.false_eq_true, if_false]
  refine .of_write rfl asks (by simp [heldMask]) (made.trans e) (asks.up.calm (by rw [Dev.tbU_now, tbDisabled_now])) ?_
  rw [settle_tb, Dev.tbU_tb_same, settle_tbRun, Dev.tbU_tbRun, tbDisabled_run, settle_b, Dev.b, Dev.tbU_get]
  exact ⟨rfl, run, tbDisabled_en ..⟩

theorem tbDisable_now (calm : CalmTo s (ticksUp s.now)) (mode : TB_CTL.STOPMODE.bit v = true) : Does (.tbDisable by_ b v) s fun t =>
    t.tbRun b = false ∧ t.b (.tb b .ctl) TB_CTL.EN = false ∧
      ∀ m : Fin 96, s.legTb m = b → t.leg[m].hi.on = false ∧ t.leg[m].lo.on = false := by
  obtain ⟨guard, made⟩ := tbDisable_made (by_ := by_) (v := v) run
  have run' := (tbDisabled_run (by_ := by_) (b := b) (v := v) s.toDev guard).trans run
  have mode' := (tbDisabled_stopmode (by_ := by_) (b := b) (v := v) s.toDev guard).trans mode
  refine .of_write rfl asks (by simp [heldMask]) made (calm.calm ?_) ⟨?_, ?_, fun m hm => ?_⟩
  · refine (tbStop_now_le ..).2.trans ?_
    rw [tbDisabled_now]
    exact max_tickUp_le ..
  · rw [settle_tbRun]
    exact tbStop_run mode'
  · rw [settle_b, (tbStop_still b b _).bit]
    exact tbDisabled_en ..
  · simp only [settle_leg, tbStop, run', mode', if_true]
    have dark := tbStopAt_dark b (tickUp (tbB (tbDisabled by_ b v guard s.toDev) b) (tbDisabled by_ b v guard s.toDev).now)
      ((tbDisabled by_ b v guard s.toDev).at (tickUp (tbB (tbDisabled by_ b v guard s.toDev) b) (tbDisabled by_ b v guard s.toDev).now))
      run' ((tbDisabled_legTb s.toDev guard m).trans hm)
    exact ⟨dark.hi, dark.lo⟩

end

/-! ### TBGSTOP -/

/-- TBGSTOP stops timebase b, where it runs or is to run, as of instant t0. -/
def tbGstopOne (t0 : Nat) (b : Fin 32) (x : Dev) : Dev :=
  if x.b (.tb b .ctl) TB_CTL.EN || x.tbRun b then (x.setB (.tb b .ctl) TB_CTL.EN false).asOf t0 (tbStop b) else x

theorem tbGstop_eq (mask : Nat) (d : Dev) : tbGstop mask d = d.each (finsIn 32 mask) (tbGstopOne d.now) := rfl

theorem TbStill.asOf {b : Fin 32} {d x : Dev} {t : Nat} {g : Dev → Dev} (h : TbStill b d x) (hg : ∀ y, TbStill b y (g y)) :
    TbStill b d (x.asOf t g) := by
  have k := h.trans ((⟨rfl, id⟩ : TbStill b x (x.asAt t)).trans (hg _))
  exact ⟨k.ctl, k.run⟩

theorem tbGstopOne_others {a b : Fin 32} (h : a ≠ b) (t0 : Nat) (x : Dev) : TbStill b x (tbGstopOne t0 a x) := by
  unfold tbGstopOne
  split
  · refine .asOf ⟨Dev.get_setF_ne x (by simp [h.symm]) _ _, fun run => ?_⟩ fun y => tbStop_still a b y
    rw [Dev.tbRun, Dev.b, Dev.setB, Dev.get_setF_ne x (by simp)]
    exact run
  · exact .refl x

theorem tbGstopOne_times (t0 : Nat) (b : Fin 32) (x : Dev) : (tbGstopOne t0 b x).now ≤ max x.now (ticksUp t0) := by
  unfold tbGstopOne
  split
  · rw [Dev.asOf_eq, Dev.at_now]
    have h := (tbStop_now_le b ((x.setB (.tb b .ctl) TB_CTL.EN false).asAt t0)).2.trans (max_tickUp_le ..)
    exact max_le (h.trans (le_max_right ..)) (le_max_left ..)
  · exact le_max_left ..

theorem tbGstopOne_stops (t0 : Nat) (b : Fin 32) (x : Dev) : (tbGstopOne t0 b x).b (.tb b .ctl) TB_CTL.EN = false ∧
    (x.b (.tb b .ctl) TB_CTL.STOPMODE = true → (tbGstopOne t0 b x).tbRun b = false) := by
  unfold tbGstopOne
  split
  next =>
    rw [Dev.asOf_eq]
    constructor
    · exact ((tbStop_still b b _).bit _).trans (Dev.b_setB x _ (by decide) false)
    · intro mode
      exact tbStop_run (d := (x.setB (.tb b .ctl) TB_CTL.EN false).asAt t0) ((setEn_bit x (by decide) (by decide) false).trans mode)
  next h =>
    simp only [Bool.or_eq_true, not_or, Bool.not_eq_true] at h
    exact ⟨h.1, fun _ => h.2⟩

theorem tbgstop_does {s : State} {by_ : Requester} {b : Fin 32} {v : Word} (calm : CalmTo s (ticksUp s.now))
    (asks : Asks by_ s (.tbg .tbgstop)) (named : v.getLsbD b.val = true) : Does (.tbgstop by_ v) s fun t =>
      t.b (.tb b .ctl) TB_CTL.EN = false ∧ (s.b (.tb b .ctl) TB_CTL.STOPMODE = true → t.tbRun b = false) := by
  have made : writeNow by_ (.tbg .tbgstop) v (asked by_ s.toDev) = (asked by_ s.toDev).each (finsIn 32 v.toNat) (tbGstopOne s.now) := rfl
  refine .of_write rfl asks (by simp [heldMask]) made (calm.calm ?_) ?_
  · exact Dev.each_inv (p := fun x => x.now ≤ ticksUp s.now)
      (fun a _ x hx => (tbGstopOne_times ..).trans (max_le hx (le_refl _))) (le_ticksUp _)
  · rw [settle_b, settle_tbRun]
    obtain ⟨l1, l2, h1, h2, e⟩ := Dev.each_split (finsIn_nodup 32 v.toNat) (mem_finsIn.2 named) (tbGstopOne s.now) (asked by_ s.toDev)
    have before : TbStill b (asked by_ s.toDev) ((asked by_ s.toDev).each l1 (tbGstopOne s.now)) :=
      Dev.each_rel .refl .trans (fun a ha x => tbGstopOne_others (h1 a ha) _ x) _
    have after := Dev.each_rel (r := TbStill b) .refl .trans (fun a ha x => tbGstopOne_others (h2 a ha) s.now x)
      (tbGstopOne s.now b ((asked by_ s.toDev).each l1 (tbGstopOne s.now)))
    obtain ⟨en, run⟩ := tbGstopOne_stops s.now b ((asked by_ s.toDev).each l1 (tbGstopOne s.now))
    rw [e]
    exact ⟨(after.bit _).trans en, fun mode => after.run (run ((before.bit _).trans ((b_asked (by simp) _).trans mode)))⟩

end Sys2Proof.Machine
end

section
/-!
SUPPORT. The load point, the period start and the event compares of a timebase (R52, R56, R72, R92).
-/
set_option Elab.async false
namespace Sys2Proof.Machine
open Sys2Proof

/-! ### The load point -/

/-- Where a leg's edges lie rests on its own registers, and on TBn_CTL and TBn_OFFSET of its timebase. -/
theorem legPlace_congr {n : Fin 96} {d e : Dev} (leg : ∀ r, e.get (.leg n r) = d.get (.leg n r))
    (ctl : ∀ b, e.get (.tb b .ctl) = d.get (.tb b .ctl)) (offset : ∀ b, e.get (.tb b .offset) = d.get (.tb b .offset)) :
    legPlace e n = legPlace d n := by
  funext p corr
  simp only [legPlace, tbVoff, Dev.legTb, Dev.b, Dev.f, leg, ctl, offset]
  rfl

theorem legLoad_legs (n : Fin 96) (b : Fin 32) (d : Dev) {m : Fin 96} (h : m ≠ n) : (legLoad n b d).leg[m] = d.leg[m] := by
  have only : LegOnly n d (legLoad n b d) := by simp
  exact only.legs m h

theorem legLoad_regs (n : Fin 96) (b : Fin 32) (d : Dev) : (legLoad n b d).regs = d.regs := rfl
theorem legLoad_tb (n : Fin 96) (b : Fin 32) (d : Dev) : (legLoad n b d).tb = d.tb := rfl

/-- The edges and RUN of leg m's next period are fixed. -/
structure LegLoaded (m : Fin 96) (due : Nat) (place : Nat × Nat × Bool) (run : Bool) (g : LegSt) : Prop where
  lp : g.lp = true
  nxtA : g.nxtA = due + place.1 * tuFine
  nxtB : g.nxtB = due + place.2.1 * tuFine
  runN : g.runN = run

theorem legLoad_loaded (m : Fin 96) (b : Fin 32) (d : Dev) : LegLoaded m (d.tb[b].start + d.tb[b].len * tuTick)
    (legPlace d m d.tb[b].nxtP d.tb[b].corrN) (d.b (.leg m .ctl) LEG_CTL.RUN) (legLoad m b d).leg[m] := by
  unfold legLoad
  rw [Dev.legU_leg_same]
  exact ⟨rfl, rfl, rfl, rfl⟩

/-- At the load point the next period of every leg of the timebase is fixed. -/
theorem each_legLoad {b : Fin 32} {l : List (Fin 96)} (nodup : l.Nodup) {m : Fin 96} (mem : m ∈ l) (d : Dev) :
    LegLoaded m (d.tb[b].start + d.tb[b].len * tuTick) (legPlace d m d.tb[b].nxtP d.tb[b].corrN) (d.b (.leg m .ctl) LEG_CTL.RUN)
      (d.each l fun n => legLoad n b).leg[m] := by
  obtain ⟨l1, l2, -, h2, e⟩ := Dev.each_split nodup mem (fun n => legLoad n b) d
  have regs : (d.each l1 fun n => legLoad n b).regs = d.regs := Dev.each_kept (fun n _ x => legLoad_regs n b x) d
  have tb : (d.each l1 fun n => legLoad n b).tb = d.tb := Dev.each_kept (fun n _ x => legLoad_tb n b x) d
  have h := legLoad_loaded m b (d.each l1 fun n => legLoad n b)
  rw [tb, Dev.b, legPlace_congr (fun _ => Dev.get_congr regs _) (fun _ => Dev.get_congr regs _) (fun _ => Dev.get_congr regs _),
    Dev.get_congr regs] at h
  have after : (d.each l fun n => legLoad n b).leg[m] = (legLoad m b (d.each l1 fun n => legLoad n b)).leg[m] := by
    rw [e]
    exact Dev.each_kept (π := fun x => x.leg[m]) (fun n hn x => legLoad_legs n b x (h2 n hn).symm) _
  rw [after]
  exact h

/-- The period of TBn_PERIOD is noted where it is out of range. -/
def tbClamped (b : Fin 32) (d : Dev) : Dev :=
  d.flagIf (tbClamp d b != d.f (.tb b .period) TB_PERIOD.PERIOD) (.tb b .stat) TB_STAT.PCLAMP

section
variable {b : Fin 32} {d : Dev}

@[simp] theorem tbClamped_tb : (tbClamped b d).tb = d.tb := by simp [tbClamped]
@[simp] theorem tbClamped_now : (tbClamped b d).now = d.now := by simp [tbClamped]

theorem tbClamped_get {r : Reg} (h : r ≠ .tb b .stat) : (tbClamped b d).get r = d.get r := by
  unfold tbClamped Dev.flagIf
  split
  · exact Dev.get_setF_ne d h _ _
  · rfl

theorem tbLoad_eq (run : d.tbRun b = true) (open_ : d.tb[b].loaded = false) (mode : tbMode d b ≠ 1) : tbLoad b d =
    ((tbClamped b d).tbU b fun s => { s with nxtP := tbClamp d b, loaded := true }).each (d.legsOn b) fun n => legLoad n b := by
  simp only [tbLoad, run, open_, mode, Bool.not_true, Bool.or_self, Bool.false_eq_true, if_false]
  rfl

theorem tbLoad_of_loaded (h : d.tb[b].loaded = true) : tbLoad b d = d := by
  simp only [tbLoad, h, Bool.or_true, if_true]

theorem tbDue_of_free (mode : tbMode d b ≠ 1) : tbDue d b = d.tb[b].start + d.tb[b].len * tuTick := by
  simp [tbDue, mode]

theorem tbLoad_tb (run : d.tbRun b = true) (open_ : d.tb[b].loaded = false) (mode : tbMode d b ≠ 1) :
    (tbLoad b d).tb[b] = { d.tb[b] with nxtP := tbClamp d b, loaded := true } := by
  rw [tbLoad_eq run open_ mode, Dev.each_kept (π := Dev.tb) fun n _ x => legLoad_tb n b x, Dev.tbU_tb_same, tbClamped_tb]

/-- The device at its load point, before its legs follow. -/
def tbFixed (b : Fin 32) (d : Dev) : Dev := (tbClamped b d).tbU b fun s => { s with nxtP := tbClamp d b, loaded := true }

theorem tbFixed_tb (b : Fin 32) (d : Dev) : (tbFixed b d).tb[b] = { d.tb[b] with nxtP := tbClamp d b, loaded := true } := by
  rw [tbFixed, Dev.tbU_tb_same, tbClamped_tb]

theorem tbFixed_get {r : Reg} (h : r ≠ .tb b .stat) : (tbFixed b d).get r = d.get r := tbClamped_get h

/-- The legs at the load point of their timebase. -/
theorem tbLoad_legs {m : Fin 96} (run : d.tbRun b = true) (open_ : d.tb[b].loaded = false) (mode : tbMode d b ≠ 1) (hm : d.legTb m = b) :
    LegLoaded m (d.tb[b].start + d.tb[b].len * tuTick) (legPlace d m (tbClamp d b) d.tb[b].corrN) (d.b (.leg m .ctl) LEG_CTL.RUN)
      (tbLoad b d).leg[m] := by
  have mem : m ∈ d.legsOn b := List.mem_filter.2 ⟨mem_fins m, decide_eq_true hm⟩
  have nodup : (d.legsOn b).Nodup := (fins_nodup 96).filter _
  have h := each_legLoad (b := b) nodup mem (tbFixed b d)
  have place : legPlace (tbFixed b d) m = legPlace d m :=
    legPlace_congr (fun _ => tbFixed_get (by simp)) (fun _ => tbFixed_get (by simp)) fun _ => tbFixed_get (by simp)
  rw [tbFixed_tb, Dev.b, tbFixed_get (by simp), place] at h
  rw [tbLoad_eq run open_ mode]
  exact h

@[simp] theorem tbLoad_now (b : Fin 32) (d : Dev) : (tbLoad b d).now = d.now := by
  unfold tbLoad
  dsimp only
  repeat' split
  · rfl
  all_goals
    rw [Dev.each_now _ fun n x => Dev.now_of_tbs (legLoad_tbs n b x)]
    simp

theorem tbOnly_tbLoad (b : Fin 32) (d : Dev) : TbOnly b d (tbLoad b d) := by
  unfold tbLoad
  dsimp only
  repeat' split
  · exact .refl d
  all_goals
    rw [tbOnly_tbs (Dev.each_tbs fun n _ x => legLoad_tbs n b x)]
    simp

end

section
variable {s : State} {b : Fin 32}

theorem loadPoint_stopped (up : Up s) (stopped : s.tbRun b = false) : exec (.loadPoint b) s = after s s.toDev :=
  exec_of_act rfl up (by simp [loadPoint, stopped]) (up.calm (le_refl _))

theorem loadPoint_does (up : Up s) (run : s.tbRun b = true) (open_ : s.tb[b].loaded = false) (mode : tbMode s.toDev b ≠ 1) {due : Nat}
    (hdue : due = s.tb[b].start + s.tb[b].len * tuTick) (calm : Calm s (due - 3 * tuTick)) : Does (.loadPoint b) s fun t =>
      t.tb[b].loaded = true ∧ t.tb[b].nxtP = tbClamp s.toDev b ∧ t.now = max s.now (due - 3 * tuTick) ∧ ∀ m : Fin 96, s.legTb m = b →
        LegLoaded m due (legPlace s.toDev m (tbClamp s.toDev b) s.tb[b].corrN) (s.b (.leg m .ctl) LEG_CTL.RUN) t.leg[m] := by
  have made : loadPoint b s.toDev = tbLoad b (s.at (due - 3 * tuTick)) := by
    simp only [loadPoint, run, open_, tbDue_of_free mode, ← hdue, Bool.not_true, Bool.or_self, Bool.false_eq_true, if_false]
  have now : (tbLoad b (s.at (due - 3 * tuTick))).now = max s.now (due - 3 * tuTick) := tbLoad_now ..
  refine .of_act rfl up (by rw [made, now]; exact calm_max.2 calm) ?_
  rw [made, settle_tb, settle_now, settle_leg, now, tbLoad_tb (d := s.at (due - 3 * tuTick)) run open_ mode]
  refine ⟨rfl, rfl, rfl, fun m hm => ?_⟩
  have h := tbLoad_legs (d := s.at (due - 3 * tuTick)) run open_ mode hm
  have place : legPlace (s.at (due - 3 * tuTick)) m = legPlace s.toDev m :=
    legPlace_congr (fun _ => Dev.at_get ..) (fun _ => Dev.at_get ..) fun _ => Dev.at_get ..
  rw [place, Dev.at_tb, ← hdue] at h
  exact h

/-! ### The period start -/

theorem periodStart_stopped (up : Up s) (stopped : s.tbRun b = false) : exec (.periodStart b) s = after s s.toDev :=
  exec_of_act rfl up (by simp [tbPeriod, stopped]) (up.calm (le_refl _))

/-- The state of timebase b once the load point of a period has been passed, at the latest at its end. -/
theorem tbLoad_passed {d : Dev} (run : d.tbRun b = true) (mode : tbMode d b ≠ 1) :
    (tbLoad b d).tb[b] = { d.tb[b] with nxtP := if d.tb[b].loaded then d.tb[b].nxtP else tbClamp d b, loaded := true } := by
  cases h : d.tb[b].loaded with
  | false => exact tbLoad_tb run h mode
  | true =>
    rw [tbLoad_of_loaded h]
    simp only [if_true, ← h]

/-- A period of p ticks starts at instant t. -/
def tbBegins (b : Fin 32) (t : Nat) (d : Dev) : Dev :=
  tbStartEvent b ((d.setF (.tb b .pact) TB_PACT.P d.tb[b].nxtP).tbU b fun s =>
    { s with prev := s.start, start := t, prevTs := s.startTs, startTs := d.stamp t, len := d.tb[b].nxtP, period := s.period + 1,
             loaded := false, corr := d.tb[b].corrN, corrN := d.tb[b].corrN, evDone := Vector.replicate 4 false })

theorem tbPeriod_eq {d : Dev} (run : d.tbRun b = true) (defined : (tbLoad b d).tb[b].undef = false) (mode : tbMode d b ≠ 2) :
    tbPeriod b d = if (tbLoad b d).tb[b].stopRq then tbStopAt b (tbDue (tbLoad b d) b) ((tbLoad b d).at (tbDue (tbLoad b d) b))
      else (tbBegins b (tbDue (tbLoad b d) b) ((tbLoad b d).at (tbDue (tbLoad b d) b))).each
        ((tbBegins b (tbDue (tbLoad b d) b) ((tbLoad b d).at (tbDue (tbLoad b d) b))).legsOn b)
        fun n => legPeriod n b (tbDue (tbLoad b d) b) false := by
  have only : TbOnly b d (tbBegins b (tbDue (tbLoad b d) b) ((tbLoad b d).at (tbDue (tbLoad b d) b))) := by
    simp [tbBegins, tbShows, tbOnly_tbLoad]
  have free : tbMode (tbBegins b (tbDue (tbLoad b d) b) ((tbLoad b d).at (tbDue (tbLoad b d) b))) b ≠ 2 := by rwa [tbMode, only.fCtl]
  have calm := tbDiscipline_of_free (t := tbDue (tbLoad b d) b) free
  simp only [tbPeriod, run, defined, Bool.not_true, Bool.false_eq_true, if_false]
  rw [← calm]
  rfl

theorem periodStart_does (up : Up s) (run : s.tbRun b = true) (mode : tbMode s.toDev b = 0) (defined : s.tb[b].undef = false) {due : Nat}
    (hdue : due = s.tb[b].start + s.tb[b].len * tuTick) (calm : Calm s due) :
    (s.tb[b].stopRq = false → Does (.periodStart b) s fun t => t.tb[b].start = due ∧ t.now = max s.now due ∧
      t.f (.tb b .pact) TB_PACT.P = (if s.tb[b].loaded then s.tb[b].nxtP else tbClamp s.toDev b) % 2 ^ TB_PACT.P.width ∧
      t.tb[b].period = s.tb[b].period + 1 ∧ t.tb[b].loaded = false ∧ t.b (.tb b .stat) TB_STAT.PSTART = true) ∧
    (s.tb[b].stopRq = true → Does (.periodStart b) s fun t => t.tbRun b = false ∧ t.now = max s.now due) := by
  have loaded := tbLoad_passed run (show tbMode s.toDev b ≠ 1 by simp [mode])
  have only := tbOnly_tbLoad b s.toDev
  have hd : tbDue (tbLoad b s.toDev) b = due := by
    rw [tbDue_of_free (by rw [tbMode, only.fCtl]; exact ne_of_eq_of_ne mode (by decide)), loaded, hdue]
  have at_now : ((tbLoad b s.toDev).at due).now = max s.now due := by rw [Dev.at_now, tbLoad_now]
  have made := tbPeriod_eq run (by rw [loaded]; exact defined) (show tbMode s.toDev b ≠ 2 by simp [mode])
  rw [hd] at made
  constructor
  · intro rq
    rw [loaded, rq, if_neg Bool.false_ne_true] at made
    have tbs := congrArg Dev.tbs made
    rw [Dev.each_tbs fun n _ x => legPeriod_tbs n b due false x] at tbs
    have now : (tbPeriod b s.toDev).now = max s.now due := by rw [Dev.now_of_tbs tbs, tbBegins, tbStartEvent_now]; exact at_now
    refine .of_act rfl up (by rw [now]; exact calm_max.2 calm) ?_
    rw [settle_tb, settle_now, settle_f, settle_b, now, Dev.tb_of_tbs tbs, Dev.f_of_tbs tbs, Dev.b_of_tbs tbs, tbBegins, tbStartEvent_tb,
      Dev.tbU_tb_same, tbStartEvent_pstart, Dev.f, tbStartEvent_get (by simp), Dev.tbU_get]
    refine ⟨rfl, rfl, ?_, congrArg (·.period + 1) loaded, rfl, rfl⟩
    exact (Dev.f_setF _ _ (by decide) _).trans (congrArg (·.nxtP % 2 ^ TB_PACT.P.width) loaded)
  · intro rq
    rw [loaded, rq, if_pos rfl] at made
    have now : (tbPeriod b s.toDev).now = max s.now due := by rw [made, tbStopAt_now, at_now]
    refine .of_act rfl up (by rw [now]; exact calm_max.2 calm) ?_
    rw [settle_tbRun, settle_now, now, made]
    exact ⟨tbStopAt_run .., rfl⟩

/-! ### Event compares -/

variable {k : Fin 4}

theorem evcmpMatch_stopped (up : Up s) (stopped : s.tbRun b = false) : exec (.evcmpMatch b k) s = after s s.toDev :=
  exec_of_act rfl up (by simp [tbEvcmp, stopped]) (up.calm (le_refl _))

/-- Compare k of timebase b has matched on tick t, before its triggers. -/
def tbMatched (b : Fin 32) (k : Fin 4) (t : Nat) (d : Dev) : Dev :=
  let d0 := (d.at t).tbU b fun s => { s with evDone := s.evDone.set k true, evAt := s.evAt.set k (some t) }
  (d0.setF (.tb b .stat) TB_STAT.EVF (d0.f (.tb b .stat) TB_STAT.EVF ||| 2 ^ k.val)).raise (32 + 32 * k.val + b.val)

theorem tbEvcmp_heard {d : Dev} (run : d.tbRun b = true) (en : TB_EVCMP.EN.bit (d.get (.tb b (.evcmp k))) = true)
    (fresh : d.tb[b].evDone[k] = false) : Heard (tbMatched b k (tbEvTick d b k) d) (tbEvcmp b k d) := by
  simp only [tbEvcmp, run, en, fresh, Bool.not_false, Bool.and_self, if_true]
  exact (Heard.each (fun n x => adcTrigger_heard n _ x) (tbMatched b k (tbEvTick d b k) d)).trans
    (Heard.each (fun n x => posTrigger_heard n _ x) _)

theorem tbMatched_now (t : Nat) (d : Dev) : (tbMatched b k t d).now = max d.now t := by simp [tbMatched, Dev.at]

theorem tbMatched_done (t : Nat) (d : Dev) : (tbMatched b k t d).tb[b].evDone[k] = true := by
  rw [tbMatched, Dev.raise_tb, Dev.setF_tb, Dev.tbU_tb_same]
  simp

theorem tbMatched_evf (t : Nat) (d : Dev) : ((tbMatched b k t d).f (.tb b .stat) TB_STAT.EVF).testBit k.val = true := by
  rw [tbMatched, Dev.f_of_tbs Dev.raise_tbs, Dev.f_setF _ _ (by decide), Nat.testBit_mod_two_pow]
  simp [show TB_STAT.EVF.width = 4 from rfl]

theorem evcmpMatch_does (up : Up s) (run : s.tbRun b = true) (en : s.b (.tb b (.evcmp k)) TB_EVCMP.EN = true)
    (fresh : s.tb[b].evDone[k] = false) (calm : Calm s (tbEvTick s.toDev b k)) : Does (.evcmpMatch b k) s fun t =>
      t.tb[b].evDone[k] = true ∧ (t.f (.tb b .stat) TB_STAT.EVF).testBit k.val = true ∧
      (∃ x ∈ t.fab.raised, x.val = 32 + 32 * k.val + b.val) ∧ t.now = max s.now (tbEvTick s.toDev b k) := by
  have heard := tbEvcmp_heard run en fresh
  have now : (tbEvcmp b k s.toDev).now = max s.now (tbEvTick s.toDev b k) := by rw [Dev.now_of_tbs heard.tbs, tbMatched_now]
  refine .of_act rfl up (by rw [now]; exact calm_max.2 calm) ?_
  rw [settle_tb, settle_f, settle_fab, settle_now, now, Dev.tb_of_tbs heard.tbs, Dev.f_of_tbs heard.tbs]
  obtain ⟨x, hx, e⟩ := mem_raised_raise (((s.at (tbEvTick s.toDev b k)).tbU b fun y =>
    { y with evDone := y.evDone.set k true, evAt := y.evAt.set k (some (tbEvTick s.toDev b k)) }).setF (.tb b .stat) TB_STAT.EVF
      (s.f (.tb b .stat) TB_STAT.EVF ||| 2 ^ k.val)) (p := 32 + 32 * k.val + b.val) (by omega)
  exact ⟨tbMatched_done .., tbMatched_evf .., ⟨x, heard.raised x hx, e⟩, rfl⟩

end

end Sys2Proof.Machine
end

section
namespace Sys2Proof.Proofs
open Sys2Proof Sys2Proof.Machine

/-- A timebase that has been started holds what the statement asks of it. -/
theorem started_facts {b : Fin 32} {t p : Nat} {d : Dev} (h : TbStarted b t p d) : d.tbRun b = true ∧
    d.b (.tb b .ctl) TB_CTL.EN = true ∧ d.tb[b].start = t ∧ t ≤ d.now ∧ d.f (.tb b .pact) TB_PACT.P = p ∧ d.tb[b].len = p ∧
    d.b (.tb b .stat) TB_STAT.PSTART = true := ⟨h.run, h.en, h.start, h.past, h.pact, h.len, h.pstart⟩

theorem does_mono {i : Instr} {s : State} {P Q : Dev → Prop} (h : Does i s P) (hPQ : ∀ d, P d → Q d) : Does i s Q := by
  obtain ⟨t, he, hp, hd⟩ := h
  exact ⟨t, he, hp, hPQ _ hd⟩

/-- Settles O37: each command's clause is one of the lemmas above, which go from the command's action on the device to what holds after
it. -/
theorem timebases : Obligations.Timebases := by
  unfold Obligations.Timebases
  intro s by_ b k v ch up d bit mode clamp p locked starts off due ticks
  refine ⟨fun calm asks off => ?_, fun calm asks run => ?_, fun calm asks off named sten src pll => ?_, fun calm asks named _ => ?_,
    fun e at_ arm en sten stch src pll => ?_, tbStartTask_none up, fun since arm stopped en => ⟨?_, ?_⟩, fun stopped => ?_,
    fun run open_ src calm => ?_, fun run src defined calm => ?_, evcmpMatch_does up⟩
  · refine ⟨fun sten src pll => ?_, fun sten pll => ?_, fun sten => ?_, fun sten src pll => ?_, fun sten src pll => ?_⟩
    · exact does_mono (tbEnable_local asks off.2 off.1 sten pll calm src) fun _ => started_facts
    · exact tbEnable_unlocked asks off.2 off.1 sten pll
    · exact tbEnable_task asks off.2 off.1 sten
    · exact tbEnable_chain asks off.2 off.1 sten pll src
    · exact tbEnable_follower asks off.2 off.1 sten pll src
  · exact ⟨tbDisable_later run asks, tbDisable_now run asks calm⟩
  · exact does_mono (tbgstart_does calm asks off.1 off.2 named sten src pll) fun _ => started_facts
  · exact tbgstop_does calm asks named
  · intro got calm
    exact does_mono (tbStartTask_does up at_ ⟨arm, sten, stch⟩ en src pll calm) fun _ => started_facts
  · intro l lp at_ src other leads runs pos ahead calm
    exact followerStart_does up arm stopped en src other leads runs rfl pos ahead calm
  · intro now goal first calm src ctv runs base rate _
    exact tbChainStart_does up arm stopped en src ctv runs base rate calm rfl
  · exact ⟨loadPoint_stopped up stopped, periodStart_stopped up stopped, evcmpMatch_stopped up stopped⟩
  · refine does_mono (loadPoint_does up run open_ src rfl calm) fun t h => ?_
    obtain ⟨loaded, nxtP, now, legs⟩ := h
    exact ⟨loaded, nxtP, now, fun m hm => ⟨(legs m hm).lp, (legs m hm).nxtA, (legs m hm).nxtB, (legs m hm).runN⟩⟩
  · exact periodStart_does up run src defined rfl calm

end Sys2Proof.Proofs
end

section
/-!
SUPPORT. What edges, dead-times, limits and the interlock do to a leg's switches and registers (R66, R67, R69, R71, R235, R236).
-/
set_option Elab.async false
namespace Sys2Proof.Machine
open Sys2Proof

/-! ### Registers -/

section
variable {n : Fin 96} {d : Dev}

@[simp] theorem legOff_regs (n : Fin 96) (w : Sw) (t : Nat) (d : Dev) : (legOff n w t d).regs = d.regs := by
  unfold legOff
  dsimp only
  split <;> simp

@[simp] theorem adtShut_regs (n : Fin 96) (w : Sw) (t : Nat) (d : Dev) : (adtShut n w t d).regs = d.regs := rfl

@[simp] theorem legUnpend_regs (n : Fin 96) (d : Dev) : (legUnpend n d).regs = d.regs := by
  unfold legUnpend
  split <;> simp

@[simp] theorem legDark_regs (n : Fin 96) (t : Nat) (d : Dev) : (legDark n t d).regs = d.regs := by simp [legDark]
@[simp] theorem legBothOff_regs (n : Fin 96) (t : Nat) (d : Dev) : (legBothOff n t d).regs = d.regs := by simp [legBothOff]

@[simp] theorem legPend_regs (n : Fin 96) (w : Sw) (t : Nat) (d : Dev) : (legPend n w t d).regs = d.regs := by
  unfold legPend
  dsimp only
  split <;> simp

@[simp] theorem legForced_regs (n : Fin 96) (w : Sw) (t : Nat) (d : Dev) : (legForced n w t d).regs = d.regs := by
  unfold legForced
  dsimp only
  repeat' split
  all_goals simp

@[simp] theorem legRaised_regs (n : Fin 96) (w : Sw) (t : Nat) (d : Dev) : (legRaised n w t d).regs = d.regs := by simp [legRaised]

@[simp] theorem Dev.legU_get (d : Dev) (n : Fin 96) (g : LegSt → LegSt) (r : Reg) : (d.legU n g).get r = d.get r := rfl

theorem Dev.b_congr {d e : Dev} (h : e.regs = d.regs) (r : Reg) (f : Fld) : e.b r f = d.b r f := by rw [Dev.b, Dev.get_congr h]; rfl
theorem Dev.f_congr {d e : Dev} (h : e.regs = d.regs) (r : Reg) (f : Fld) : e.f r f = d.f r f := by rw [Dev.f, Dev.get_congr h]; rfl

/-! ### Limits and dead-times rest on registers -/

theorem legDt_congr {e : Dev} (dtact : e.get (.leg n .dtact) = d.get (.leg n .dtact))
    (prof : e.b (.leg n .ctl) LEG_CTL.PROF = d.b (.leg n .ctl) LEG_CTL.PROF) (dt : e.get (.shl n .dt) = d.get (.shl n .dt)) :
    legDt e n = legDt d n := by
  funext w
  simp only [legDt, Dev.f, dtact, prof, dt]

theorem legLimit_congr {e : Dev} (tonh : e.get (.shl n .tonh) = d.get (.shl n .tonh)) (tonl : e.get (.shl n .tonl) = d.get (.shl n .tonl))
    (reef : e.get (.shl n .reef) = d.get (.shl n .reef)) (hold : legReefed e n = legReefed d n) : legLimit e n = legLimit d n := by
  funext w
  simp only [legLimit, Dev.f, tonh, tonl, reef, hold]
  rfl

theorem legDue_congr {e : Dev} (pend : e.leg[n].pend = d.leg[n].pend) (pendFrom : e.leg[n].pendFrom = d.leg[n].pendFrom)
    (dt : legDt e n = legDt d n) : legDue e n = legDue d n := by
  rw [legDue, legDue, pend, pendFrom, dt]

/-! ### The switches -/

/-- What is kept of a switch's last cut does not turn it on or off. -/
theorem LegSt.setSw_uncut_on (g : LegSt) (w u : Sw) : ((g.setSw w { g.sw w with cut := false }).sw u).on = (g.sw u).on := by
  obtain rfl | rfl := Sw.eq_or_other u w
  · rw [LegSt.setSw_sw]
  · rw [LegSt.setSw_sw_other]

/-- The dead-time that is counted is none of the switches' state. -/
theorem LegSt.sw_pend (g : LegSt) (u : Sw) (p : Option (Sw × Nat)) (t : Nat) : ({ g with pend := p, pendFrom := t } : LegSt).sw u = g.sw u := by
  cases u <;> rfl

theorem legPend_leg (w : Sw) (base : Nat) : ∃ h : LegSt, (legPend n w base d).leg[n] = h ∧ h.pend = some (w, base) ∧ h.cmd = d.leg[n].cmd ∧
    h.spentA = d.leg[n].spentA ∧ h.spentB = d.leg[n].spentB ∧ ∀ u, (h.sw u).on = (d.leg[n].sw u).on := by
  refine ⟨_, rfl, ?_⟩
  have unpend : ∃ x : Dev, x.leg[n].cmd = d.leg[n].cmd ∧ x.leg[n].spentA = d.leg[n].spentA ∧ x.leg[n].spentB = d.leg[n].spentB ∧
      (∀ u, x.leg[n].sw u = d.leg[n].sw u) ∧
      legPend n w base d = x.legU n fun g => { g.setSw w { g.sw w with cut := false } with pend := some (w, base), pendFrom := base } := by
    unfold legPend
    dsimp only
    split
    · exact ⟨d, rfl, rfl, rfl, fun _ => rfl, rfl⟩
    · have h := legUnpend_orders n d
      exact ⟨_, (LegSt.cmd_of_orders h :), (LegSt.spentA_of_orders h :), (LegSt.spentB_of_orders h :), fun u => legUnpend_sw n u d, rfl⟩
  obtain ⟨x, cmd, spentA, spentB, sw, e⟩ := unpend
  rw [e, Dev.legU_leg_same]
  have orders := LegSt.setSw_orders x.leg[n] w { x.leg[n].sw w with cut := false }
  refine ⟨rfl, (LegSt.cmd_of_orders orders).trans cmd, (LegSt.spentA_of_orders orders).trans spentA,
    (LegSt.spentB_of_orders orders).trans spentB, fun u => ?_⟩
  rw [← sw]
  rw [LegSt.sw_pend, LegSt.setSw_uncut_on]

theorem legCutCount_leg (n : Fin 96) (w : Sw) (d : Dev) :
    (legCutCount n w d).leg[n] = d.leg[n].setSw w { d.leg[n].sw w with cut := true } := by
  unfold legCutCount
  dsimp only
  rw [Dev.legU_leg_same]
  split <;> rfl

theorem legRaised_leg (n : Fin 96) (w : Sw) (t : Nat) (d : Dev) :
    (legRaised n w t d).leg[n] = d.leg[n].setSw w { (d.leg[n].sw w).turn true t with onAt := t, cut := false } := by
  rw [legRaised, cmpLegEdge_leg_at, Dev.legU_leg_same]

theorem legRefused_leg (n : Fin 96) (t : Nat) (d : Dev) : (legRefused n t d).leg = (legBothOff n t d).leg := by
  simp [legRefused, legHoldBit]

theorem legRefused_dark (n : Fin 96) (t : Nat) (d : Dev) : (legRefused n t d).leg[n].Dark := by
  rw [legRefused_leg]
  exact legBothOff_dark ..

theorem LegSt.Dark.sw {g : LegSt} (h : g.Dark) (w : Sw) : (g.sw w).on = false := by
  cases w
  · exact h.hi
  · exact h.lo

/-- The interlock never lets both switches be on. -/
theorem legOn_one_off (n : Fin 96) (w : Sw) (t : Nat) (d : Dev) :
    ((legOn n w t d).leg[n].sw w).on = false ∨ ((legOn n w t d).leg[n].sw w.other).on = false := by
  rw [legOn_eq]
  split
  · exact .inl ((legRefused_dark ..).sw w)
  next h =>
    have other : (d.leg[n].sw w.other).on = false := by
      simp only [Bool.or_eq_true, not_or, Bool.not_eq_true] at h
      exact h.1
    split
    · exact .inr other
    · split
      · rw [legCutCount_leg, LegSt.setSw_sw_other]
        exact .inr other
      · rw [legRaised_leg, LegSt.setSw_sw_other]
        exact .inr other

theorem LegSt.not_both_on {g : LegSt} {w : Sw} (h : (g.sw w).on = false ∨ (g.sw w.other).on = false) :
    ¬ (g.hi.on = true ∧ g.lo.on = true) := by
  rintro ⟨hi, lo⟩
  cases w <;> simp [LegSt.sw, Sw.other, hi, lo] at h

end

/-! ### The output stage -/

theorem SwSt.turn_stage (s : SwSt) (x : Bool) (t : Nat) : (s.turn x t).stage (t + 8 * tuTick) = x := by
  simp [SwSt.turn, SwSt.stage, tuStage]

theorem SwSt.turn_stage_before {s : SwSt} (h : s.way = []) (x : Bool) {t u : Nat} (hu : u < t + 8 * tuTick) :
    (s.turn x t).stage u = !x := by
  have : ¬ t + tuStage ≤ u := by
    simp only [tuStage]
    omega
  simp [SwSt.turn, SwSt.stage, h, this]

/-! ### A leg to which nothing happens -/

/-- By instant t neither a dead-time of leg n has ended nor has an on-time limit been reached. -/
structure LegStill (n : Fin 96) (t : Nat) (d : Dev) : Prop where
  due : ∀ x, legDue d n = some x → t < x
  limit : ∀ w, (d.leg[n].sw w).on = true → t < (d.leg[n].sw w).onAt + (legLimit d n w).1 * tuTick

section
variable {n : Fin 96} {t : Nat} {d : Dev}

theorem legFired_of_still (h : ∀ x, legDue d n = some x → t < x) : legFired n t d = d := by
  unfold legFired
  split
  next x e => rw [if_neg (not_le.2 (h x e))]
  next => rfl

theorem legOver_of_still {w : Sw} (h : (d.leg[n].sw w).on = true → t < (d.leg[n].sw w).onAt + (legLimit d n w).1 * tuTick) :
    legOver n t w d = d := by
  unfold legOver
  rw [if_neg]
  simp only [Bool.and_eq_true, decide_eq_true_eq, not_and, not_le]
  exact h

theorem legCatch_of_still (h : LegStill n t d) : legCatch n t d = d := by
  rw [legCatch_eq, legFired_of_still h.due, legOver_of_still (h.limit .h), legOver_of_still (h.limit .l)]

/-- Stillness rests on the dead-time that is counted, the switches and the registers of dead-times and limits. -/
theorem LegStill.congr {e : Dev} (h : LegStill n t d) (pend : e.leg[n].pend = d.leg[n].pend) (pendFrom : e.leg[n].pendFrom = d.leg[n].pendFrom)
    (sw : ∀ w, e.leg[n].sw w = d.leg[n].sw w) (dt : legDt e n = legDt d n) (limit : legLimit e n = legLimit d n) : LegStill n t e := by
  constructor
  · rw [legDue_congr pend pendFrom dt]
    exact h.due
  · intro w
    rw [sw, limit]
    exact h.limit w

end

end Sys2Proof.Machine
end

section
/-!
SUPPORT. The commands of a leg's clockwork: EDGE_MATCH (R66), DEADTIME_END (R67, R69, R235), ON_TIME_CUT (R236).
-/
set_option Elab.async false
namespace Sys2Proof.Machine
open Sys2Proof

/-! ### Edges -/

section
variable {n : Fin 96} {t : Nat} {d : Dev}

theorem LegStill.at (h : LegStill n t d) (u : Nat) : LegStill n t (d.at u) := h.congr rfl rfl (fun _ => rfl) rfl rfl

theorem LegStill.legU (h : LegStill n t d) {f : LegSt → LegSt} (pend : ∀ g, (f g).pend = g.pend) (pendFrom : ∀ g, (f g).pendFrom = g.pendFrom)
    (sw : ∀ g w, (f g).sw w = g.sw w) : LegStill n t (d.legU n f) := by
  refine h.congr ?_ ?_ (fun w => ?_) rfl rfl
  · rw [Dev.legU_leg_same, pend]
  · rw [Dev.legU_leg_same, pendFrom]
  · rw [Dev.legU_leg_same, sw]

/-- A command has taken level v at instant t. -/
structure LegTold (v : Bool) (t : Nat) (g h : LegSt) : Prop where
  cmd : h.cmd = v
  spentA : h.spentA = g.spentA
  spentB : h.spentB = g.spentB
  off : (h.sw (swOf v).other).on = false
  pend : h.pend = some (swOf v, t)

theorem legCmd_told {v : Bool} (still : LegStill n t d) (shown : legShown d n ≠ 6) (turns : d.leg[n].cmd ≠ v) :
    LegTold v t d.leg[n] (legCmd n v t d).leg[n] := by
  have made : legCmd n v t d = legPend n (swOf v) t (legOff n (swOf v).other t (d.legU n fun g => { g with cmd := v, wait := false })) := by
    simp only [legCmd, legCatch_of_still still, shown, turns, decide_false, Bool.false_and, Bool.or_false, Bool.false_eq_true, if_false]
  have orders := legOff_orders n (swOf v).other t (d.legU n fun g => { g with cmd := v, wait := false })
  have off := legOff_same n (swOf v).other t (d.legU n fun g => { g with cmd := v, wait := false })
  obtain ⟨h, e, pend, cmd, spentA, spentB, on⟩ :=
    legPend_leg (n := n) (d := legOff n (swOf v).other t (d.legU n fun g => { g with cmd := v, wait := false })) (swOf v) t
  rw [made, e]
  rw [Dev.legU_leg_same] at orders
  exact ⟨cmd.trans (LegSt.cmd_of_orders orders :), spentA.trans (LegSt.spentA_of_orders orders :),
    spentB.trans (LegSt.spentB_of_orders orders :), (on _).trans off, pend⟩

/-- Edge A or B has been emitted, and no other thing of the leg. -/
def legSpent (n : Fin 96) (b : Bool) (d : Dev) : Dev :=
  d.legU n fun g => if b then { g with spentB := true } else { g with spentA := true }

theorem legSpent_still (h : LegStill n t d) (b : Bool) : LegStill n t (legSpent n b d) := by
  cases b
  · exact h.legU (fun _ => rfl) (fun _ => rfl) fun _ w => by cases w <;> rfl
  · exact h.legU (fun _ => rfl) (fun _ => rfl) fun _ w => by cases w <;> rfl

/-- The instant of edge A or B of the running period. -/
def LegSt.cur (g : LegSt) (b : Bool) : Nat := if b then g.curB else g.curA
def LegSt.spent (g : LegSt) (b : Bool) : Bool := if b then g.spentB else g.spentA

theorem edgeMatch_eq {b : Bool} (run : d.tbRun (d.legTb n) = true) (shown : legShown d n = 1) (full : d.leg[n].full = false)
    (apart : d.leg[n].curA ≠ d.leg[n].curB) (unspent : d.leg[n].spent b = false) :
    edgeMatch n b d = legCmd n (!b) (d.leg[n].cur b) (legSpent n b (d.at (d.leg[n].cur b))) := by
  have unspent' : (if b then d.leg[n].spentB else d.leg[n].spentA) = false := unspent
  have made : edgeMatch n b d = legEmit n (if b then .b else .a) (d.leg[n].cur b) (d.at (d.leg[n].cur b)) := by
    simp only [edgeMatch, run, shown, unspent', bne_self_eq_false, Bool.not_true, Bool.or_self, Bool.false_eq_true, if_false]
    rfl
  rw [made]
  cases b with
  | false =>
    have rise : (d.leg[n].full || decide (d.leg[n].curA ≠ d.leg[n].curB)) = true := by rw [decide_eq_true apart, Bool.or_true]
    exact congrArg (fun v => legCmd n v d.leg[n].curA (legSpent n false (d.at d.leg[n].curA))) rise
  | true => exact congrArg (fun v => legCmd n v d.leg[n].curB (legSpent n true (d.at d.leg[n].curB))) full

end

theorem edgeMatch_does {s : State} {n : Fin 96} {b : Bool} (up : Up s) (run : s.tbRun (s.legTb n) = true) (shown : legShown s.toDev n = 1)
    (full : s.leg[n].full = false) (apart : s.leg[n].curA ≠ s.leg[n].curB) (unspent : s.leg[n].spent b = false) (cmd : s.leg[n].cmd = b)
    (still : LegStill n (s.leg[n].cur b) s.toDev) (calm : Calm s (s.leg[n].cur b)) : Does (.edgeMatch n b) s fun t =>
      t.leg[n].cmd = (!b) ∧ t.leg[n].spent b = true ∧ (t.leg[n].sw (swOf (!b)).other).on = false ∧
      t.leg[n].pend = some (swOf (!b), s.leg[n].cur b) ∧ t.now = max s.now (s.leg[n].cur b) := by
  have made := edgeMatch_eq run shown full apart unspent
  have runs : LegRuns n (legSpent n b (s.at (s.leg[n].cur b))) (edgeMatch n b s.toDev) := by rw [made]; simp
  have now : (edgeMatch n b s.toDev).now = max s.now (s.leg[n].cur b) := runs.now
  have told := legCmd_told (v := !b) (legSpent_still (still.at (s.leg[n].cur b)) b) (ne_of_eq_of_ne shown (by decide))
    (by rw [legSpent, Dev.legU_leg_same]; cases b <;> simpa using cmd)
  rw [← made, legSpent, Dev.legU_leg_same] at told
  refine .of_act rfl up (by rw [now]; exact calm_max.2 calm) ?_
  rw [settle_leg, settle_now]
  refine ⟨told.cmd, ?_, told.off, told.pend, now⟩
  cases b
  · exact told.spentA
  · exact told.spentB

/-! ### Dead-times -/

section
variable {n : Fin 96} {w : Sw} {t : Nat} {d : Dev}

theorem legFar_iff : legFar n w t d = true ↔
    ∀ x, (d.leg[n].sw w.other).offAt = some x → x + d.f (.shl n .dt) SHL_DT.DTMIN * tuFine ≤ t := by
  unfold legFar
  split
  next x e =>
    rw [e, decide_eq_true_iff]
    exact ⟨fun h y hy => Option.some.inj hy ▸ h, fun h => h x rfl⟩
  next e =>
    rw [e]
    exact ⟨fun _ _ h => (nomatch h), fun _ => rfl⟩

theorem mem_insLine (l : Nat) (ls : List Nat) : l ∈ insLine l ls := by
  induction ls with
  | nil => simp [insLine]
  | cons x ls ih =>
    unfold insLine
    split
    next h => simp [h]
    · split <;> simp [ih]

theorem legRefused_get {n : Fin 96} {t : Nat} {d : Dev} {r : Reg} (h : r ≠ .leg n .stat) :
    (legRefused n t d).get r = ((legHoldBit n 0 (legBothOff n t d)).flag (.shl n .stat) SHL_STAT.ILOCK).get r := by
  rw [legRefused, Dev.get_congr (Dev.pulse_regs ..), Dev.get_setF_ne _ h]

theorem legRefused_held (n : Fin 96) (t : Nat) (d : Dev) : (legRefused n t d).b (.shl n .hold) SHL_HOLD.HELD = true := by
  rw [Dev.b, legRefused_get (by simp), Dev.flag, Dev.setB, Dev.get_setF_ne _ (by simp), legHoldBit]
  exact Dev.b_flag _ _ (by decide)

theorem legRefused_ilock (n : Fin 96) (t : Nat) (d : Dev) : (legRefused n t d).b (.shl n .stat) SHL_STAT.ILOCK = true := by
  rw [Dev.b, legRefused_get (by simp)]
  exact Dev.b_flag _ _ (by decide)

theorem legRefused_state (n : Fin 96) (t : Nat) (d : Dev) : (legRefused n t d).f (.leg n .stat) LEG_STAT.STATE = 6 := by
  rw [legRefused, Dev.f_congr (Dev.pulse_regs ..), Dev.f_setF _ _ (by decide)]
  rfl

theorem legRefused_pulse (n : Fin 96) (t : Nat) (d : Dev) : n.val ∈ (legRefused n t d).fc.fresh := mem_insLine ..

/-- A dead-time of switch w, counted from o, is due. -/
theorem legDue_of_pend {o : Nat} (pend : d.leg[n].pend = some (w, o)) :
    legDue d n = some (max d.leg[n].pendFrom (o + (legDt d n w).2 * tuFine)) := by
  rw [legDue, pend]

/-- A dead-time has elapsed: none is counted any more, and the shroud's clamp is noted. -/
def legElapsed (n : Fin 96) (w : Sw) (t : Nat) (d : Dev) : Dev :=
  (legUnpend n (d.at t)).setB (.leg n .stat) LEG_STAT.DTCLAMP ((legDt d n w).1 != (legDt d n w).2)

theorem deadtimeEnd_eq {o due : Nat} (pend : d.leg[n].pend = some (w, o)) (run : d.tbRun (d.legTb n) = true)
    (hdue : due = max d.leg[n].pendFrom (o + (legDt d n w).2 * tuFine)) : deadtimeEnd n d = legOn n w due (legElapsed n w due d) := by
  have due_ := legDue_of_pend pend
  rw [← hdue] at due_
  have dt : legDt (d.at due) n = legDt d n := rfl
  have pend' : (d.at due).leg[n].pend = some (w, o) := pend
  simp only [deadtimeEnd, due_, legFire, pend', dt]
  rw [hdue]
  exact if_pos run

theorem legElapsed_regs (r : Reg) (h : r ≠ .leg n .stat) : (legElapsed n w t d).get r = d.get r := by
  rw [legElapsed, Dev.setB, Dev.get_setF_ne _ h]
  exact Dev.get_congr (legUnpend_regs n (d.at t)) r

theorem legElapsed_leg : (legElapsed n w t d).leg = (legUnpend n (d.at t)).leg := by rw [legElapsed, Dev.setB_leg]

theorem legElapsed_sw (u : Sw) : (legElapsed n w t d).leg[n].sw u = d.leg[n].sw u := by
  rw [legElapsed_leg]
  exact legUnpend_sw n u (d.at t)

theorem legElapsed_runs : LegRuns n (d.at t) (legElapsed n w t d) := by simp [legElapsed, Dev.setB]

theorem legElapsed_far : legFar n w t (legElapsed n w t d) = legFar n w t d := by
  rw [legFar, legElapsed_sw, Dev.f, legElapsed_regs _ (by simp)]
  rfl

theorem legElapsed_limit : legLimit (legElapsed n w t d) n = legLimit d n :=
  legLimit_congr (legElapsed_regs _ (by simp)) (legElapsed_regs _ (by simp)) (legElapsed_regs _ (by simp))
    (by rw [legReefed, Dev.b, legElapsed_regs _ (by simp)]; rfl)

end

section
variable {s : State} {n : Fin 96} {w : Sw} {o due : Nat}

theorem deadtimeEnd_none (up : Up s) (h : s.leg[n].pend = none) : exec (.deadtimeEnd n) s = after s s.toDev :=
  exec_of_act rfl up (by rw [deadtimeEnd, legDue_eq_none.2 h]) (up.calm (le_refl _))

variable (up : Up s) (pend : s.leg[n].pend = some (w, o)) (run : s.tbRun (s.legTb n) = true)
  (hdue : due = max s.leg[n].pendFrom (o + (legDt s.toDev n w).2 * tuFine)) (calm : Calm s due)
include up pend run hdue calm

theorem deadtimeEnd_free (other : (s.leg[n].sw w.other).on = false)
    (far : ∀ x, (s.leg[n].sw w.other).offAt = some x → x + s.f (.shl n .dt) SHL_DT.DTMIN * tuFine ≤ due)
    (limit : (legLimit s.toDev n w).1 ≠ 0) (off : (s.leg[n].sw w).on = false) : Does (.deadtimeEnd n) s fun t =>
      (t.leg[n].sw w).on = true ∧ (t.leg[n].sw w).onAt = due ∧ (t.leg[n].sw w.other).on = false ∧ t.leg[n].pend = none ∧
      t.now = max s.now due ∧ t.b (.leg n .stat) LEG_STAT.DTCLAMP = ((legDt s.toDev n w).1 != (legDt s.toDev n w).2) := by
  have far' : legFar n w due s.toDev = true := legFar_iff.2 far
  have made : deadtimeEnd n s.toDev = legRaised n w due (legElapsed n w due s.toDev) := by
    rw [deadtimeEnd_eq pend run hdue, legOn_eq, legElapsed_sw, legElapsed_sw, legElapsed_far, legElapsed_limit, other, far', off]
    simp only [limit, Bool.not_true, Bool.or_self, Bool.false_eq_true, if_false]
  have runs : LegRuns n (s.at due) (deadtimeEnd n s.toDev) := by rw [made, legRuns_legRaised]; exact legElapsed_runs
  have now : (deadtimeEnd n s.toDev).now = max s.now due := runs.now
  refine .of_act rfl up (by rw [now]; exact calm_max.2 calm) ?_
  rw [settle_leg, settle_now, settle_b, now, made, legRaised_leg, LegSt.setSw_sw, LegSt.setSw_sw_other, legElapsed_sw w.other,
    Dev.b_congr (legRaised_regs ..)]
  refine ⟨rfl, rfl, other, ?_, rfl, Dev.b_setB _ _ (by decide) _⟩
  rw [LegSt.pend_of_orders (LegSt.setSw_orders ..), legElapsed_leg]
  exact legUnpend_pend ..

theorem deadtimeEnd_held (unfree : ¬ ((s.leg[n].sw w.other).on = false ∧
    ∀ x, (s.leg[n].sw w.other).offAt = some x → x + s.f (.shl n .dt) SHL_DT.DTMIN * tuFine ≤ due)) : Does (.deadtimeEnd n) s fun t =>
      t.leg[n].hi.on = false ∧ t.leg[n].lo.on = false ∧ t.b (.shl n .hold) SHL_HOLD.HELD = true ∧
      t.b (.shl n .stat) SHL_STAT.ILOCK = true ∧ t.f (.leg n .stat) LEG_STAT.STATE = 6 ∧ n.val ∈ t.fc.fresh := by
  have violated : ((s.leg[n].sw w.other).on || !(legFar n w due s.toDev)) = true := by
    rw [← legFar_iff (d := s.toDev)] at unfree
    by_contra h
    simp only [Bool.or_eq_true, Bool.not_eq_true', not_or, Bool.not_eq_true, Bool.not_eq_false] at h
    exact unfree h
  have made : deadtimeEnd n s.toDev = legRefused n due (legElapsed n w due s.toDev) := by
    rw [deadtimeEnd_eq pend run hdue, legOn_eq, legElapsed_sw, legElapsed_far, if_pos violated]
  have runs : LegRuns n (s.at due) (deadtimeEnd n s.toDev) := by rw [made, legRuns_legRefused]; exact legElapsed_runs
  have now : (deadtimeEnd n s.toDev).now = max s.now due := runs.now
  have dark := legRefused_dark n due (legElapsed n w due s.toDev)
  refine .of_act rfl up (by rw [now]; exact calm_max.2 calm) ?_
  rw [settle_leg, settle_b, settle_b, settle_f, settle_fc, made, dark.hi, dark.lo]
  exact ⟨rfl, rfl, legRefused_held .., legRefused_ilock .., legRefused_state .., legRefused_pulse ..⟩

end

/-! ### Cuts -/

theorem legCutCount_flag (n : Fin 96) (w : Sw) (d : Dev) :
    (legCutCount n w d).b (.shl n .stat) (if (legLimit d n w).2 then SHL_STAT.REEFCUT else SHL_STAT.TONCUT) = true := by
  unfold legCutCount
  dsimp only
  rw [Dev.b, Dev.legU_get, Dev.bump, Dev.bumpBy, Dev.get_setF_ne _ (by simp)]
  split
  · exact Dev.b_flag _ _ (by decide)
  · exact Dev.b_flag _ _ (by decide)

section
variable {s : State} {n : Fin 96} {low : Bool} {w : Sw} (hw : w = if low then .l else .h) (up : Up s)
include hw up

theorem onTimeCut_none (off : (s.leg[n].sw w).on = false) : exec (.onTimeCut n low) s = after s s.toDev := by
  refine exec_of_act (f := legCut n w) (by rw [hw]; rfl) up ?_ (up.calm (le_refl _))
  rw [legCut, off, if_neg Bool.false_ne_true]

theorem onTimeCut_does (on : (s.leg[n].sw w).on = true) (calm : Calm s ((s.leg[n].sw w).onAt + (legLimit s.toDev n w).1 * tuTick)) :
    Does (.onTimeCut n low) s fun t => (t.leg[n].sw w).on = false ∧ (t.leg[n].sw w).cut = true ∧
      t.b (.shl n .stat) (if (legLimit s.toDev n w).2 then SHL_STAT.REEFCUT else SHL_STAT.TONCUT) = true := by
  obtain ⟨t, ht⟩ : ∃ t, t = (s.leg[n].sw w).onAt + (legLimit s.toDev n w).1 * tuTick := ⟨_, rfl⟩
  rw [← ht] at calm
  have made : legCut n w s.toDev = legCutCount n w (legOff n w (s.at t).now (s.at t)) := by rw [legCut, on, if_pos rfl, ht]
  have runs : LegRuns n (s.at t) (legCut n w s.toDev) := by rw [made]; simp
  have now : (legCut n w s.toDev).now = max s.now t := runs.now
  have limit : legLimit (legOff n w (s.at t).now (s.at t)) n = legLimit s.toDev n :=
    have get := Dev.get_congr (legOff_regs n w (s.at t).now (s.at t))
    legLimit_congr (get _) (get _) (get _) (by rw [legReefed, Dev.b, get]; rfl)
  have flag := legCutCount_flag n w (legOff n w (s.at t).now (s.at t))
  rw [limit] at flag
  refine .of_act (f := legCut n w) (by rw [hw]; rfl) up (by rw [now]; exact calm_max.2 calm) ?_
  rw [settle_leg, settle_b, made, legCutCount_leg, LegSt.setSw_sw]
  exact ⟨legOff_same .., rfl, flag⟩

end

end Sys2Proof.Machine
end

section
/-!
SUPPORT. Writes of LEGn_CTL that change RUN or FORCE alone (R78, R84).
-/
set_option Elab.async false
namespace Sys2Proof.Machine
open Sys2Proof

/-! ### The parts of a write -/

/-- LEGn_CTL has been written, RUN as it stood. -/
def legCtlPut (n : Fin 96) (v : Word) (d : Dev) : Dev := d.wr (.leg n .ctl) (LEG_CTL.RUN.put (LEG_CTL.RUN.get (d.get (.leg n .ctl))) v)

/-- A waiting write of LEGn_DT takes effect on a stopped timebase (R81). -/
def legDtNow (n : Fin 96) (d : Dev) : Dev := if !(d.tbRun (d.legTb n)) && d.leg[n].dtWr then legDtLoad n d else d

/-- A new RUN is staged, or takes effect as R78 says. -/
def legRunPut (n : Fin 96) (old v : Word) (d : Dev) : Dev :=
  if LEG_CTL.STAGE.bit v then
    (if LEG_CTL.RUN.bit v != LEG_CTL.RUN.bit old then d.legU n fun g => { g with stRun := some (LEG_CTL.RUN.bit v) } else d)
  else if LEG_CTL.RUN.bit v != LEG_CTL.RUN.bit old then legRunSet n (LEG_CTL.RUN.bit v) d else d

/-- A new FORCE waits for a period start, or takes effect at once (R84). -/
def legForcePut (n : Fin 96) (old v : Word) (d : Dev) : Dev :=
  if LEG_CTL.FORCE.get v != LEG_CTL.FORCE.get old then
    if LEG_CTL.FSYNC.bit v && d.tbRun (d.legTb n) then d.legU n fun g => { g with forceP := true }
    else legRefresh n (d.legU n fun g => { g with force := LEG_CTL.FORCE.get v, forceP := false })
  else legRefresh n d

/-- Words that agree in what LEGn_CTL keeps of a leg that is not OFF, and in STAGE. -/
structure CtlKept (old v : Word) : Prop where
  tb : LEG_CTL.TB.get v = LEG_CTL.TB.get old
  polh : LEG_CTL.POLH.get v = LEG_CTL.POLH.get old
  poll : LEG_CTL.POLL.get v = LEG_CTL.POLL.get old
  prof : LEG_CTL.PROF.get v = LEG_CTL.PROF.get old
  stage : LEG_CTL.STAGE.bit v = LEG_CTL.STAGE.bit old

theorem Fld.bit_eq_of_get_eq {f : Fld} {v w : Word} (h : f.get v = f.get w) : f.bit v = f.bit w := by
  have k := congrArg (Nat.testBit · 0) h
  simp only [Fld.testBit_get, Fld.width_pos f, decide_true, Bool.true_and, Nat.add_zero] at k
  exact k

theorem legWriteCtl_kept {n : Fin 96} {v : Word} {d : Dev} (h : CtlKept (d.get (.leg n .ctl)) v) : legWriteCtl n v d =
    legForcePut n (d.get (.leg n .ctl)) v (legRunPut n (d.get (.leg n .ctl)) v (legDtNow n (legCtlPut n v d))) := by
  obtain ⟨tb, polh, poll, prof, stage⟩ := h
  unfold legWriteCtl
  extract_lets old off keep differs guard v1 stage' runNew runOld d1 on d1' d1'' d1''' g held c x d2 d3
  have hguard : guard = false := by simp [guard, differs, old, tb, polh, poll, prof]
  have hv1 : v1 = v := by
    simp only [v1, keep, old, ← tb, ← polh, ← poll, ← prof, Fld.put_get (by decide : LEG_CTL.TB.ok = true),
      Fld.put_get (by decide : LEG_CTL.POLH.ok = true), Fld.put_get (by decide : LEG_CTL.POLL.ok = true),
      Fld.put_get (by decide : LEG_CTL.PROF.ok = true), ite_self]
  have h1 : d1 = legCtlPut n v d := by simp [d1, hguard, hv1, Dev.flagIf, keep, old, legCtlPut]
  have h1' : d1' = d1 := by simp [d1', hv1, old, tb]
  have h1'' : d1'' = d1 := by simp [d1'', hv1, old, Fld.bit_eq_of_get_eq prof, h1']
  have h1''' : d1''' = legDtNow n (legCtlPut n v d) := by
    simp only [d1''', h1'', on, h1]
    rfl
  have h2 : d2 = d1''' := by simp [d2, stage', hv1, old, stage]
  have h3 : d3 = legRunPut n old v d2 := by
    simp only [d3, stage', runNew, runOld, hv1]
    rfl
  rw [hv1, h3, h2, h1''']
  rfl

end Sys2Proof.Machine
end

section
/-!
SUPPORT. LEG_RUN_WRITE (R78) and LEG_FORCE_WRITE (R84).
-/
set_option Elab.async false
namespace Sys2Proof.Machine
open Sys2Proof

/-- The clause of a command that is one write, of a word that rests on the device. -/
theorem Does.of_writeOf {i : Instr} {s : State} {f : Dev → Dev} {by_ : Requester} {r : Reg} {v : Word} {P : Dev → Prop} {e : Dev}
    (answer : exec i s = act f s) (asks : Asks by_ s r) (held : v &&& heldMask (asked by_ s.toDev) r = 0)
    (writes : f s.toDev = writeBy by_ r v s.toDev) (made : writeNow by_ r v (asked by_ s.toDev) = e) (calm : Calm s e.now)
    (hP : P (settle e)) : Does i s P := by
  have h : f s.toDev = e := writes.trans ((writeBy_eq asks held).trans made)
  rw [← h] at calm hP
  exact .of_act answer asks.up calm hP

/-! ### What following the commands leaves -/

section
variable {n : Fin 96} {d e : Dev} (h : LegRuns n d e)
include h

theorem LegRuns.ctl (f : Fld) : e.b (.leg n .ctl) f = d.b (.leg n .ctl) f := by rw [Dev.b, h.get _ rfl]; rfl
theorem LegRuns.ctlF (f : Fld) : e.f (.leg n .ctl) f = d.f (.leg n .ctl) f := by rw [Dev.f, h.get _ rfl]; rfl
theorem LegRuns.run : e.leg[n].run = d.leg[n].run := (congrArg LegSt.run h.plan :)
theorem LegRuns.force : e.leg[n].force = d.leg[n].force := (congrArg LegSt.force h.plan :)
theorem LegRuns.stRun : e.leg[n].stRun = d.leg[n].stRun := (congrArg LegSt.stRun h.plan :)

end

/-! ### The device after the register has been written -/

section
variable {n : Fin 96} {v : Word} {c d : Dev}

@[simp] theorem legOnly_legCtlPut : LegOnly n c (legCtlPut n v d) ↔ LegOnly n c d := legOnly_wrLeg

@[simp] theorem legOnly_legDtNow : LegOnly n c (legDtNow n d) ↔ LegOnly n c d := by
  unfold legDtNow
  split <;> simp

@[simp] theorem legOnly_legRunPut {old : Word} : LegOnly n c (legRunPut n old v d) ↔ LegOnly n c d := by
  unfold legRunPut
  repeat' split
  all_goals simp

@[simp] theorem legOnly_legForcePut {old : Word} : LegOnly n c (legForcePut n old v d) ↔ LegOnly n c d := by
  unfold legForcePut
  repeat' split
  all_goals simp

/-- LEGn_CTL has been written, and a waiting dead-time has come into use. -/
def legCtlWritten (n : Fin 96) (v : Word) (d : Dev) : Dev := legDtNow n (legCtlPut n v d)

theorem legCtlPut_leg : (legCtlPut n v d).leg = d.leg := by simp [legCtlPut, Dev.wr]

theorem legCtlPut_get {r : Reg} (h : r ≠ .leg n .ctl) : (legCtlPut n v d).get r = d.get r := Dev.get_wr_ne d h _

theorem legDtNow_get {r : Reg} (h : r ≠ .leg n .dtact) : (legDtNow n d).get r = d.get r := by
  unfold legDtNow
  split
  · rw [legDtLoad, Dev.legU_get, Dev.get_setF_ne _ h, Dev.get_setF_ne _ h]
  · rfl

theorem legDtNow_leg : (legDtNow n d).leg[n] = { d.leg[n] with dtWr := (legDtNow n d).leg[n].dtWr } := by
  unfold legDtNow
  split
  · rw [legDtLoad, Dev.legU_leg_same, Dev.setF_leg, Dev.setF_leg]
  · rfl

theorem legDtNow_running (run : d.tbRun (d.legTb n) = true) : legDtNow n d = d := by
  rw [legDtNow, run, Bool.not_true, Bool.false_and, if_neg Bool.false_ne_true]

theorem legCtlWritten_get {r : Reg} (ctl : r ≠ .leg n .ctl) (dtact : r ≠ .leg n .dtact) : (legCtlWritten n v d).get r = d.get r :=
  (legDtNow_get dtact).trans (legCtlPut_get ctl)

theorem legCtlWritten_leg : (legCtlWritten n v d).leg[n] = { d.leg[n] with dtWr := (legCtlWritten n v d).leg[n].dtWr } := by
  have h := legDtNow_leg (n := n) (d := legCtlPut n v d)
  rwa [legCtlPut_leg] at h

theorem legCtlPut_f {f : Fld} (hf : f.ok = true) (hw : (LegReg.access .ctl).writes f = true) (hr : f.apart LEG_CTL.RUN = true) :
    (legCtlPut n v d).f (.leg n .ctl) f = f.get v := by
  rw [legCtlPut, Dev.f, Dev.get_wr_same]
  exact (Fld.get_plainWrite hf hw _ _).trans (Fld.get_put_apart hf (by decide) hr _ _)

theorem legCtlPut_b {f : Fld} (hf : f.ok = true) (hw : (LegReg.access .ctl).writes f = true) (hr : f.apart LEG_CTL.RUN = true) :
    (legCtlPut n v d).b (.leg n .ctl) f = f.bit v := Fld.bit_eq_of_get_eq (legCtlPut_f hf hw hr)

theorem legCtlPut_legTb (tb : LEG_CTL.TB.get v = d.f (.leg n .ctl) LEG_CTL.TB) : (legCtlPut n v d).legTb n = d.legTb n := by
  rw [Dev.legTb, Dev.legTb, legCtlPut_f (by decide) (by decide) (by decide), tb]

theorem legCtlPut_tbRun (b : Fin 32) : (legCtlPut n v d).tbRun b = d.tbRun b := by
  rw [Dev.tbRun, Dev.b, legCtlPut_get (by simp)]
  rfl

theorem legCtlWritten_ctl (f : Fld) : (legCtlWritten n v d).f (.leg n .ctl) f = (legCtlPut n v d).f (.leg n .ctl) f := by
  rw [Dev.f, legCtlWritten, legDtNow_get (by simp)]
  rfl

theorem legCtlWritten_run : (legCtlWritten n v d).b (.leg n .ctl) LEG_CTL.RUN = d.b (.leg n .ctl) LEG_CTL.RUN := by
  rw [Dev.b, legCtlWritten, legDtNow_get (by simp), legCtlPut, Dev.get_wr_same]
  refine (Fld.bit_plainWrite (a := LegReg.access .ctl) (by decide) (by decide) _ _).trans ?_
  rw [Fld.bit_put (by decide), Fld.testBit_get]
  rfl

variable (tb : LEG_CTL.TB.get v = d.f (.leg n .ctl) LEG_CTL.TB)
include tb

theorem legCtlWritten_tbRun : (legCtlWritten n v d).tbRun ((legCtlWritten n v d).legTb n) = d.tbRun (d.legTb n) := by
  have run (b : Fin 32) : (legCtlWritten n v d).tbRun b = d.tbRun b := by
    rw [Dev.tbRun, Dev.b, legCtlWritten_get (by simp) (by simp)]
    rfl
  rw [run, Dev.legTb, legCtlWritten_ctl]
  exact congrArg d.tbRun (legCtlPut_legTb tb)

theorem legCtlWritten_running (run : d.tbRun (d.legTb n) = true) : legCtlWritten n v d = legCtlPut n v d :=
  legDtNow_running (by rw [legCtlPut_tbRun, legCtlPut_legTb tb, run])

end

/-! ### RUN -/

theorem writeNow_legCtl (by_ : Requester) (n : Fin 96) (v : Word) (d : Dev) : writeNow by_ (.leg n .ctl) v d = legWriteCtl n v d := rfl

section
variable {n : Fin 96} {on : Bool} {d : Dev}

theorem legRunSet_ctl : (legRunSet n on d).b (.leg n .ctl) LEG_CTL.RUN = on := by
  have set := Dev.b_setB d (.leg n .ctl) (g := LEG_CTL.RUN) (by decide) on
  unfold legRunSet
  dsimp only
  split
  · exact set
  · have runs : LegRuns n ((d.setB (.leg n .ctl) LEG_CTL.RUN on).legU n fun g => { g with run := on }) (legRefresh n
      ((d.setB (.leg n .ctl) LEG_CTL.RUN on).legU n fun g => { g with run := on })) := by simp
    rw [runs.ctl, Dev.b, Dev.legU_get]
    exact set

theorem legRunSet_stopped (run : d.tbRun (d.legTb n) = false) : (legRunSet n on d).leg[n].run = on := by
  have runs : LegRuns n ((d.setB (.leg n .ctl) LEG_CTL.RUN on).legU n fun g => { g with run := on }) (legRefresh n
    ((d.setB (.leg n .ctl) LEG_CTL.RUN on).legU n fun g => { g with run := on })) := by simp
  have made : legRunSet n on d = legRefresh n ((d.setB (.leg n .ctl) LEG_CTL.RUN on).legU n fun g => { g with run := on }) := by
    rw [legRunSet, run, if_neg Bool.false_ne_true]
  rw [made, runs.run, Dev.legU_leg_same]

theorem legRunSet_running (run : d.tbRun (d.legTb n) = true) : (legRunSet n on d).leg = d.leg := by
  rw [legRunSet, run, if_pos rfl, Dev.setB_leg]

/-- The word of LEGn_CTL with another RUN. -/
def runWord (on : Bool) (old : Word) : Word := LEG_CTL.RUN.put (b2n on) old

theorem runWord_kept (on : Bool) (old : Word) : CtlKept old (runWord on old) :=
  ⟨Fld.get_put_apart (by decide) (by decide) (by decide) _ _, Fld.get_put_apart (by decide) (by decide) (by decide) _ _,
    Fld.get_put_apart (by decide) (by decide) (by decide) _ _, Fld.get_put_apart (by decide) (by decide) (by decide) _ _,
    Fld.bit_put_apart (by decide) (by decide) (by decide) _ _⟩

theorem runWord_run (on : Bool) (old : Word) : LEG_CTL.RUN.bit (runWord on old) = on := by
  rw [runWord, Fld.bit_put (by decide)]
  cases on <;> rfl

theorem legWriteCtl_run (n : Fin 96) (on : Bool) (d : Dev) : legWriteCtl n (runWord on (d.get (.leg n .ctl))) d = legRefresh n
    (legRunPut n (d.get (.leg n .ctl)) (runWord on (d.get (.leg n .ctl))) (legCtlWritten n (runWord on (d.get (.leg n .ctl))) d)) := by
  have force : LEG_CTL.FORCE.get (runWord on (d.get (.leg n .ctl))) = LEG_CTL.FORCE.get (d.get (.leg n .ctl)) :=
    Fld.get_put_apart (by decide) (by decide) (by decide) _ _
  rw [legWriteCtl_kept (runWord_kept ..), legForcePut, force, bne_self_eq_false, if_neg Bool.false_ne_true]
  rfl

/-- A new RUN that is not staged. -/
theorem legRunPut_plain {old : Word} (stage : LEG_CTL.STAGE.bit old = false) :
    legRunPut n old (runWord on old) d = if on != LEG_CTL.RUN.bit old then legRunSet n on d else d := by
  rw [legRunPut, (runWord_kept on old).stage, stage, if_neg Bool.false_ne_true, runWord_run]

end

section
variable {s : State} {by_ : Requester} {n : Fin 96} {on : Bool} (asks : Asks by_ s (.leg n .ctl))
include asks

/-- LEG_RUN_WRITE's clause, of the leg before it follows its causes. -/
theorem legRunWrite_of {P : Dev → Prop} (h : ∀ q, q = asked by_ s.toDev → ∀ e, LegRuns n (legRunPut n (q.get (.leg n .ctl))
      (runWord on (q.get (.leg n .ctl))) (legCtlWritten n (runWord on (q.get (.leg n .ctl))) q)) e → P (settle e)) :
    Does (.legRunWrite by_ n on) s P := by
  have old : (asked by_ s.toDev).get (.leg n .ctl) = s.get (.leg n .ctl) := get_asked (by simp)
  have made := legWriteCtl_run n on (asked by_ s.toDev)
  have only : LegOnly n (asked by_ s.toDev) (legWriteCtl n (runWord on ((asked by_ s.toDev).get (.leg n .ctl))) (asked by_ s.toDev)) := by
    rw [made]
    simp [legCtlWritten]
  refine .of_writeOf (v := runWord on (s.get (.leg n .ctl))) rfl asks (by simp [heldMask]) rfl
    (e := legWriteCtl n (runWord on ((asked by_ s.toDev).get (.leg n .ctl))) (asked by_ s.toDev)) (by rw [old, writeNow_legCtl])
    (asks.up.calm (by rw [only.now, asked_now])) (h _ rfl _ ?_)
  rw [made]
  simp

variable (stage : s.b (.leg n .ctl) LEG_CTL.STAGE = false)

theorem legRunWrite_staged (stage : s.b (.leg n .ctl) LEG_CTL.STAGE = true) (new : on ≠ s.b (.leg n .ctl) LEG_CTL.RUN) :
    Does (.legRunWrite by_ n on) s fun t => t.leg[n].stRun = some on ∧ t.b (.leg n .ctl) LEG_CTL.RUN = s.b (.leg n .ctl) LEG_CTL.RUN := by
  refine legRunWrite_of asks fun q hq e runs => ?_
  have hstage : LEG_CTL.STAGE.bit (q.get (.leg n .ctl)) = true := by rw [hq, get_asked (by simp)]; exact stage
  have hnew : (on != LEG_CTL.RUN.bit (q.get (.leg n .ctl))) = true := by rw [hq, get_asked (by simp)]; exact bne_iff_ne.2 new
  have put (d : Dev) : legRunPut n (q.get (.leg n .ctl)) (runWord on (q.get (.leg n .ctl))) d = d.legU n fun g => { g with stRun := some on } := by
    rw [legRunPut, (runWord_kept on _).stage, hstage, if_pos rfl, runWord_run, hnew, if_pos rfl]
  rw [put] at runs
  rw [settle_leg, settle_b, runs.stRun, runs.ctl, Dev.legU_leg_same, Dev.b, Dev.legU_get]
  exact ⟨rfl, legCtlWritten_run.trans (by rw [hq, b_asked (by simp)])⟩

include stage

/-- RUN is as it was written. -/
theorem legRunWrite_plain {P : Dev → Prop} (h : ∀ x e, x.leg[n] = { s.leg[n] with dtWr := x.leg[n].dtWr } →
      x.tbRun (x.legTb n) = s.tbRun (s.legTb n) →
      LegRuns n (if on != s.b (.leg n .ctl) LEG_CTL.RUN then legRunSet n on x else x) e → P (settle e)) :
    Does (.legRunWrite by_ n on) s fun t => t.b (.leg n .ctl) LEG_CTL.RUN = on ∧ P t := by
  refine legRunWrite_of asks fun q hq e runs => ?_
  have old : q.get (.leg n .ctl) = s.get (.leg n .ctl) := by rw [hq, get_asked (by simp)]
  have hrun : (legCtlWritten n (runWord on (q.get (.leg n .ctl))) q).b (.leg n .ctl) LEG_CTL.RUN = s.b (.leg n .ctl) LEG_CTL.RUN :=
    legCtlWritten_run.trans (by rw [hq, b_asked (by simp)])
  rw [legRunPut_plain (by rw [old]; exact stage)] at runs
  constructor
  · rw [settle_b, runs.ctl]
    split
    · exact legRunSet_ctl
    next h =>
      rw [hrun]
      rw [old] at h
      exact (by simpa using h : on = LEG_CTL.RUN.bit (s.get (.leg n .ctl))).symm
  · refine h (legCtlWritten n (runWord on (q.get (.leg n .ctl))) q) e ?_ ?_ ?_
    · rw [legCtlWritten_leg, hq, asked_leg]
    · rw [legCtlWritten_tbRun (runWord_kept on _).tb, hq, legTb_asked, Dev.tbRun_of_tbs asked_tbs]
    · rwa [old] at runs ⊢

theorem legRunWrite_stopped (run : s.tbRun (s.legTb n) = false) : Does (.legRunWrite by_ n on) s fun t =>
    t.b (.leg n .ctl) LEG_CTL.RUN = on ∧ (on ≠ s.b (.leg n .ctl) LEG_CTL.RUN → t.leg[n].run = on) :=
  legRunWrite_plain asks stage fun x e _ hrun runs => by
    intro new
    rw [if_pos (bne_iff_ne.2 new)] at runs
    rw [settle_leg, runs.run, legRunSet_stopped (hrun.trans run)]

theorem legRunWrite_running (run : s.tbRun (s.legTb n) = true) : Does (.legRunWrite by_ n on) s fun t =>
    t.b (.leg n .ctl) LEG_CTL.RUN = on ∧ t.leg[n].run = s.leg[n].run :=
  legRunWrite_plain asks stage fun x e leg hrun runs => by
    have hx : x.leg[n].run = s.leg[n].run := by rw [leg]
    have running : x.tbRun (x.legTb n) = true := hrun.trans run
    rw [settle_leg, runs.run]
    split
    · have kept : (legRunSet n on x).leg = x.leg := legRunSet_running running
      exact (congrArg (fun l : Vector LegSt 96 => l[n].run) kept).trans hx
    · exact hx

end

end Sys2Proof.Machine
end

section
/-!
SUPPORT. LEG_FORCE_WRITE (R84): what the clockwork that catches up leaves of a leg's shown state, and where a force brings its switches.
-/
set_option Elab.async false
namespace Sys2Proof.Machine
open Sys2Proof

/-! ### Catching up does not hold a leg -/

section
variable {n : Fin 96} {t : Nat} {d : Dev}

/-- The leg's hold register stands, and the state that it shows. -/
structure LegShows (n : Fin 96) (d e : Dev) : Prop where
  hold : e.get (.shl n .hold) = d.get (.shl n .hold)
  shown : legShown e n = legShown d n

theorem LegShows.refl (d : Dev) : LegShows n d d := ⟨rfl, rfl⟩
theorem LegShows.trans {c d e : Dev} (h : LegShows n c d) (k : LegShows n d e) : LegShows n c e :=
  ⟨k.hold.trans h.hold, k.shown.trans h.shown⟩
theorem LegShows.of_get {d e : Dev} (h : ∀ r, r ≠ .shl n .stat → r ≠ .shl n .cnt → e.get r = d.get r) : LegShows n d e :=
  ⟨h _ (by simp) (by simp), by rw [legShown, Dev.f, h _ (by simp) (by simp)]; rfl⟩

theorem legCutCount_get {w : Sw} {r : Reg} (stat : r ≠ .shl n .stat) (cnt : r ≠ .shl n .cnt) : (legCutCount n w d).get r = d.get r := by
  unfold legCutCount
  dsimp only
  rw [Dev.legU_get, Dev.bump, Dev.bumpBy, Dev.get_setF_ne _ cnt]
  split <;> exact Dev.get_setF_ne _ stat _ _

theorem legOver_get {w : Sw} {r : Reg} (stat : r ≠ .shl n .stat) (cnt : r ≠ .shl n .cnt) : (legOver n t w d).get r = d.get r := by
  unfold legOver
  split
  · rw [legCutCount_get stat cnt, Dev.get_congr (legOff_regs ..)]
  · rfl

/-- A dead-time that ends on a stopped timebase turns nothing on. -/
theorem legFire_shows (stopped : d.tbRun (d.legTb n) = false) : LegShows n d (legFire n d) := by
  unfold legFire
  split
  · exact .refl d
  next w base _ =>
    have regs : (legUnpend n d).regs = d.regs := legUnpend_regs n d
    dsimp only
    rw [stopped, if_neg Bool.false_ne_true]
    constructor
    · rw [Dev.setB, Dev.get_setF_ne _ (by simp), Dev.get_congr regs]
    · rw [legShown, Dev.setB, Dev.f, Dev.setF, Dev.get_put_same, Fld.get_put_apart (by decide) (by decide) (by decide), Dev.get_congr regs]
      rfl

/-- What has become due by instant t does not hold a leg, where no dead-time has ended, or none can turn a switch on. -/
theorem legCatch_shows (h : (∀ x, legDue d n = some x → t < x) ∨ d.tbRun (d.legTb n) = false) : LegShows n d (legCatch n t d) := by
  have fired : LegShows n d (legFired n t d) := by
    rcases h with still | stopped
    · rw [legFired_of_still still]
      exact .refl d
    · unfold legFired
      repeat' split
      · exact legFire_shows stopped
      · exact .refl d
      · exact .refl d
  rw [legCatch_eq]
  exact (fired.trans (.of_get fun _ => legOver_get)).trans (.of_get fun _ => legOver_get)

/-! ### A forced leg -/

theorem legForced_off (n : Fin 96) (w : Sw) (t : Nat) (d : Dev) : ((legForced n w t d).leg[n].sw w.other).on = false := by
  have off := legOff_same n w.other t d
  unfold legForced
  dsimp only
  split
  · rw [legUnpend_sw, off]
  · split
    · exact off
    · obtain ⟨h, e, -, -, -, -, on⟩ := legPend_leg (n := n) (d := legOff n w.other t d) w
        (match ((legOff n w.other t d).leg[n].sw w.other).offAt with
          | some o => max t o
          | none => t)
      exact ((congrArg (fun g : LegSt => (g.sw w.other).on) e).trans (on w.other)).trans off

theorem legState_forced (held : d.b (.shl n .hold) SHL_HOLD.HELD = false) (foff : d.b (.leg n .stat) LEG_STAT.FOFF = false)
    (force : d.leg[n].force ≠ 0) : legState d n = d.leg[n].force + 1 := by
  have force' : (d.leg[n].force != 0) = true := bne_iff_ne.2 force
  simp only [legState, held, foff, force', Bool.false_eq_true, if_false, if_true]

theorem legShow_state (n : Fin 96) (d : Dev) : (legShow n d).f (.leg n .stat) LEG_STAT.STATE = legState d n % 8 :=
  Dev.f_setF _ _ (by decide) _

/-- Where a force of LEGn_CTL has brought a leg. -/
structure LegForcedTo (f : Nat) (n : Fin 96) (e : Dev) : Prop where
  state : e.f (.leg n .stat) LEG_STAT.STATE = f + 1
  both : f = 1 → e.leg[n].hi.on = false ∧ e.leg[n].lo.on = false
  high : f = 2 → e.leg[n].lo.on = false
  low : f = 3 → e.leg[n].hi.on = false

theorem legTurns_forced {f : Nat} {first : Bool} (state : legState d n = f + 1) (hf : 1 ≤ f) (hf3 : f ≤ 3) (shown : legShown d n ≠ f + 1) :
    LegForcedTo f n (legTurns n t first d) := by
  have show_ : (legShow n d).f (.leg n .stat) LEG_STAT.STATE = f + 1 := by rw [legShow_state, state]; omega
  obtain rfl | rfl | rfl : f = 1 ∨ f = 2 ∨ f = 3 := by omega
  · have made : legTurns n t first d = legBothOff n t (legShow n d) := by simp [legTurns, shown.symm, state]
    have dark := legBothOff_dark n t (legShow n d)
    rw [made]
    exact ⟨(Dev.f_congr (legBothOff_regs ..) ..).trans show_, fun _ => ⟨dark.hi, dark.lo⟩, by simp, by simp⟩
  · have made : legTurns n t first d = legForced n .h t (legShow n d) := by simp [legTurns, shown.symm, state]
    rw [made]
    exact ⟨(Dev.f_congr (legForced_regs ..) ..).trans show_, by simp, fun _ => legForced_off n .h t (legShow n d), by simp⟩
  · have made : legTurns n t first d = legForced n .l t (legShow n d) := by simp [legTurns, shown.symm, state]
    rw [made]
    exact ⟨(Dev.f_congr (legForced_regs ..) ..).trans show_, by simp, by simp, fun _ => legForced_off n .l t (legShow n d)⟩

/-- A leg that is neither held nor forced off by a task follows its force at once. -/
theorem legRefresh_forced (held : d.b (.shl n .hold) SHL_HOLD.HELD = false) (foff : d.b (.leg n .stat) LEG_STAT.FOFF = false)
    (force : d.leg[n].force ≠ 0) (force3 : d.leg[n].force ≤ 3) (shown : legShown d n ≠ d.leg[n].force + 1)
    (still : (∀ x, legDue d n = some x → d.now < x) ∨ d.tbRun (d.legTb n) = false) : LegForcedTo d.leg[n].force n (legRefresh n d) := by
  have runs : LegRuns n d (legCatch n d.now d) := by simp
  have shows_ := legCatch_shows still
  rw [legRefresh, legSettle_eq]
  refine legTurns_forced ?_ (Nat.one_le_iff_ne_zero.2 force) force3 (by rwa [shows_.shown])
  rw [← runs.force]
  exact legState_forced (by rw [Dev.b, shows_.hold]; exact held) (runs.foff.trans foff) (by rwa [runs.force])

end

/-! ### LEG_FORCE_WRITE -/

/-- The word of LEGn_CTL with another FORCE and FSYNC. -/
def forceWord (force : Fin 4) (fsync : Bool) (old : Word) : Word := old |> LEG_CTL.FORCE.put force.val |> LEG_CTL.FSYNC.put (b2n fsync)

section
variable {force : Fin 4} {fsync : Bool} {old : Word}

theorem forceWord_get {f : Fld} (hf : f.ok = true) (hforce : f.apart LEG_CTL.FORCE = true) (hfsync : f.apart LEG_CTL.FSYNC = true) :
    f.get (forceWord force fsync old) = f.get old :=
  (Fld.get_put_apart hf (by decide) hfsync _ _).trans (Fld.get_put_apart hf (by decide) hforce _ _)

theorem forceWord_kept (force : Fin 4) (fsync : Bool) (old : Word) : CtlKept old (forceWord force fsync old) :=
  ⟨forceWord_get (by decide) (by decide) (by decide), forceWord_get (by decide) (by decide) (by decide),
    forceWord_get (by decide) (by decide) (by decide), forceWord_get (by decide) (by decide) (by decide),
    Fld.bit_eq_of_get_eq (forceWord_get (by decide) (by decide) (by decide))⟩

theorem forceWord_force (force : Fin 4) (fsync : Bool) (old : Word) : LEG_CTL.FORCE.get (forceWord force fsync old) = force.val := by
  rw [forceWord, Fld.get_put_apart (by decide) (by decide) (by decide), Fld.get_put (by decide)]
  exact Nat.mod_eq_of_lt force.isLt

theorem forceWord_fsync (force : Fin 4) (fsync : Bool) (old : Word) : LEG_CTL.FSYNC.bit (forceWord force fsync old) = fsync := by
  rw [forceWord, Fld.bit_put (by decide)]
  cases fsync <;> rfl

/-- Once its word has been written, a leg waits for the period start or follows its new force. -/
def legForceTaken (n : Fin 96) (force : Fin 4) (fsync : Bool) (d : Dev) : Dev :=
  if fsync && d.tbRun (d.legTb n) then d.legU n fun g => { g with forceP := true }
  else legRefresh n (d.legU n fun g => { g with force := force.val, forceP := false })

theorem legWriteCtl_force {n : Fin 96} {d : Dev} (new : force.val ≠ LEG_CTL.FORCE.get (d.get (.leg n .ctl))) :
    legWriteCtl n (forceWord force fsync (d.get (.leg n .ctl))) d =
      legForceTaken n force fsync (legCtlWritten n (forceWord force fsync (d.get (.leg n .ctl))) d) := by
  have run : LEG_CTL.RUN.bit (forceWord force fsync (d.get (.leg n .ctl))) = LEG_CTL.RUN.bit (d.get (.leg n .ctl)) :=
    Fld.bit_eq_of_get_eq (forceWord_get (by decide) (by decide) (by decide))
  have plain (x : Dev) : legRunPut n (d.get (.leg n .ctl)) (forceWord force fsync (d.get (.leg n .ctl))) x = x := by
    simp only [legRunPut, run, bne_self_eq_false, Bool.false_eq_true, if_false, ite_self]
  have new' : (force.val != LEG_CTL.FORCE.get (d.get (.leg n .ctl))) = true := bne_iff_ne.2 new
  rw [legWriteCtl_kept (forceWord_kept ..), plain, legForcePut, forceWord_force, forceWord_fsync, new', if_pos rfl]
  rfl

end

section
variable {s : State} {by_ : Requester} {n : Fin 96} {force : Fin 4} {fsync : Bool} (asks : Asks by_ s (.leg n .ctl))
  (new : force.val ≠ s.f (.leg n .ctl) LEG_CTL.FORCE)
include asks new

/-- The device as LEG_FORCE_WRITE has written LEGn_CTL, before the leg takes the force. -/
structure ForceWritten (n : Fin 96) (force : Fin 4) (s : State) (x : Dev) : Prop where
  now : x.now = s.now
  leg : x.leg[n] = { s.leg[n] with dtWr := x.leg[n].dtWr }
  run : x.tbRun (x.legTb n) = s.tbRun (s.legTb n)
  force : x.f (.leg n .ctl) LEG_CTL.FORCE = force.val
  get : ∀ r, r ≠ .leg n .ctl → r ≠ .leg n .dtact → (∀ k, r ≠ .sys (.taguse k)) → x.get r = s.get r
  dt : s.tbRun (s.legTb n) = true → legDt x n = legDt s.toDev n

/-- LEG_FORCE_WRITE's clause, of the device as it has been written. -/
theorem legForceWrite_of {P : Dev → Prop} (h : ∀ x, ForceWritten n force s x → P (settle (legForceTaken n force fsync x))) :
    Does (.legForceWrite by_ n force fsync) s P := by
  obtain ⟨q, hq⟩ : ∃ q, q = asked by_ s.toDev := ⟨_, rfl⟩
  have old : q.get (.leg n .ctl) = s.get (.leg n .ctl) := by rw [hq, get_asked (by simp)]
  obtain ⟨v, hv⟩ : ∃ v, v = forceWord force fsync (q.get (.leg n .ctl)) := ⟨_, rfl⟩
  have kept := forceWord_kept force fsync (q.get (.leg n .ctl))
  rw [← hv] at kept
  have made : legWriteCtl n v q = legForceTaken n force fsync (legCtlWritten n v q) := by
    rw [hv]
    exact legWriteCtl_force (by rw [old]; exact new)
  have only : LegOnly n q (legCtlWritten n v q) := by simp [legCtlWritten]
  have taken : LegOnly n q (legForceTaken n force fsync (legCtlWritten n v q)) := by
    unfold legForceTaken
    split <;> simpa using only
  refine .of_writeOf (v := forceWord force fsync (s.get (.leg n .ctl))) rfl asks (by simp [heldMask]) rfl
    (e := legForceTaken n force fsync (legCtlWritten n v q)) ?_ (asks.up.calm (by rw [taken.now, hq, asked_now])) (h _ ⟨?_, ?_, ?_, ?_, ?_, ?_⟩)
  · rw [writeNow_legCtl, ← hq, ← old, ← hv, made]
  · rw [only.now, hq, asked_now]
  · rw [legCtlWritten_leg, hq, asked_leg]
  · rw [legCtlWritten_tbRun kept.tb, hq, legTb_asked, Dev.tbRun_of_tbs asked_tbs]
  · rw [legCtlWritten_ctl, legCtlPut_f (by decide) (by decide) (by decide), hv, forceWord_force]
  · intro r ctl dtact tags
    rw [legCtlWritten_get ctl dtact, hq, get_asked tags]
  · intro run
    have run' : q.tbRun (q.legTb n) = true := by rw [hq, legTb_asked, Dev.tbRun_of_tbs asked_tbs, run]
    rw [legCtlWritten_running kept.tb run']
    refine legDt_congr ?_ ?_ ?_
    · rw [legCtlPut_get (by simp), hq, get_asked (by simp)]
    · rw [legCtlPut_b (by decide) (by decide) (by decide), Fld.bit_eq_of_get_eq kept.prof, old]
      rfl
    · rw [legCtlPut_get (by simp), hq, get_asked (by simp)]

theorem legForceWrite_word : Does (.legForceWrite by_ n force fsync) s fun t => t.f (.leg n .ctl) LEG_CTL.FORCE = force.val := by
  refine legForceWrite_of asks new fun x hx => ?_
  rw [settle_f, legForceTaken]
  split
  · rw [Dev.f, Dev.legU_get]
    exact hx.force
  · have runs : LegRuns n (x.legU n fun g => { g with force := force.val, forceP := false })
      (legRefresh n (x.legU n fun g => { g with force := force.val, forceP := false })) := by simp
    rw [runs.ctlF, Dev.f, Dev.legU_get]
    exact hx.force

theorem legForceWrite_later (run : s.tbRun (s.legTb n) = true) : Does (.legForceWrite by_ n force true) s fun t =>
    t.leg[n].forceP = true ∧ t.leg[n].force = s.leg[n].force := by
  refine legForceWrite_of asks new fun x hx => ?_
  have leg : x.leg[n].force = s.leg[n].force := by rw [hx.leg]
  rw [settle_leg, legForceTaken, hx.run, run, Bool.and_self, if_pos rfl, Dev.legU_leg_same]
  exact ⟨rfl, leg⟩

theorem legForceWrite_now (held : s.b (.shl n .hold) SHL_HOLD.HELD = false) (foff : s.b (.leg n .stat) LEG_STAT.FOFF = false)
    (still : ∀ x, legDue s.toDev n = some x → s.now < x) (on : force.val ≠ 0) (shown : legShown s.toDev n ≠ force.val + 1) :
    Does (.legForceWrite by_ n force false) s fun t => t.leg[n].force = force.val ∧ LegForcedTo force.val n t := by
  refine legForceWrite_of asks new fun x hx => ?_
  obtain ⟨y, hy⟩ : ∃ y, y = x.legU n fun g => { g with force := force.val, forceP := false } := ⟨_, rfl⟩
  have leg : y.leg[n] = { x.leg[n] with force := force.val, forceP := false } := by rw [hy, Dev.legU_leg_same]
  have get (r : Reg) : y.get r = x.get r := by rw [hy, Dev.legU_get]
  have hforce : y.leg[n].force = force.val := by rw [leg]
  have made : legForceTaken n force false x = legRefresh n y := by rw [legForceTaken, Bool.false_and, if_neg Bool.false_ne_true, hy]
  have runs : LegRuns n y (legRefresh n y) := by simp
  have forced := legRefresh_forced (n := n) (d := y) (by rw [Dev.b, get, hx.get _ (by simp) (by simp) (by simp)]; exact held)
    (by rw [Dev.b, get, hx.get _ (by simp) (by simp) (by simp)]; exact foff) (by rwa [hforce]) (by rw [hforce]; omega)
    (by rw [legShown, Dev.f, get, hx.get _ (by simp) (by simp) (by simp), hforce]; exact shown) ?_
  · rw [hforce] at forced
    rw [settle_leg, made, runs.force, hforce]
    exact ⟨rfl, by rw [settle_f]; exact forced.state, by rw [settle_leg]; exact forced.both, by rw [settle_leg]; exact forced.high,
      by rw [settle_leg]; exact forced.low⟩
  · have run : y.tbRun (y.legTb n) = s.tbRun (s.legTb n) := by rw [← hx.run, hy]; rfl
    cases hrun : s.tbRun (s.legTb n) with
    | false => exact .inr (run.trans hrun)
    | true =>
      have dt : legDt y n = legDt s.toDev n := by rw [← hx.dt hrun, hy]; rfl
      have due : legDue y n = legDue s.toDev n := legDue_congr (by rw [leg, hx.leg]) (by rw [leg, hx.leg]) dt
      have now : y.now = s.now := by rw [← hx.now, hy]; rfl
      rw [due, now]
      exact .inl still

end

end Sys2Proof.Machine
end

section
/-!
SUPPORT. LEG_COMPARE_WRITE (R72, R76, R77).
-/
set_option Elab.async false
namespace Sys2Proof.Machine
open Sys2Proof

/-! ### Commits -/

section
variable {n : Fin 96} {l : LegVals} {tc : Nat} {d : Dev}

theorem legCommit_deferred {b : Fin 32} (hb : d.legTb n = b) (run : d.tbRun b = true)
    (due : d.tb[b].start + d.tb[b].len * tuTick ≤ tickUp (tbB d b) d.now) :
    legCommit n l d = d.legU n fun g => { g with defer := g.defer ++ [l] } := by
  subst hb
  rw [legCommit, run, decide_eq_true due, Bool.and_self, if_pos rfl]

theorem legCommit_at {b : Fin 32} (hb : d.legTb n = b)
    (h : d.tbRun b = true → tickUp (tbB d b) d.now < d.tb[b].start + d.tb[b].len * tuTick) :
    legCommit n l d = legCommitAt n l (tickUp (tbB d b) d.now) d := by
  subst hb
  rw [legCommit, if_neg]
  rw [Bool.and_eq_true, decide_eq_true_eq]
  exact fun k => absurd (h k.1) (not_lt.2 k.2)

theorem legCommitAt_stopped (stopped : d.tbRun (d.legTb n) = false) : legCommitAt n l tc d = legPut n l d := by
  rw [legCommitAt_eq, stopped]
  rfl

theorem legCommit_stopped (stopped : d.tbRun (d.legTb n) = false) : legCommit n l d = legPut n l d := by
  rw [legCommit_at rfl fun run => absurd (stopped.symm.trans run) Bool.false_ne_true, legCommitAt_stopped stopped]

/-- A commit in RUN, not the fifth of its period, at an instant at which nothing has fallen due. -/
theorem legCommitAt_running {b : Fin 32} (hb : d.legTb n = b) (run : d.tbRun b = true) (shown : legShown d n = 1)
    (prof : d.b (.leg n .ctl) LEG_CTL.PROF = false) (updn : d.f (.leg n .stat) LEG_STAT.UPDN < 4) (still : LegStill n tc d) :
    legCommitAt n l tc d = legNext n d.tb[b] d.leg[n].lp tc (legMoved n d.leg[n] d.tb[b] (d.f (.tb b .pact) TB_PACT.P) tc
      ((legPut n l d).setF (.leg n .stat) LEG_STAT.UPDN (d.f (.leg n .stat) LEG_STAT.UPDN + 1))) := by
  subst hb
  have min_ : min 15 (d.f (.leg n .stat) LEG_STAT.UPDN + 1) = d.f (.leg n .stat) LEG_STAT.UPDN + 1 := by omega
  rw [legCommitAt_eq, run]
  simp only [if_true, Bool.not_true, Bool.false_eq_true, if_false, legCatch_of_still still, shown, ne_eq, not_true_eq_false]
  rw [legUpdated, prof, if_neg Bool.false_ne_true, if_neg (by omega), min_]

/-! ### The edges that a commit moves -/

theorem legNext_get {tb : TbSt} {lp : Bool} (r : Reg) : (legNext n tb lp tc d).get r = d.get r := by
  unfold legNext
  split
  · exact Dev.legU_get ..
  · rfl

theorem legNext_curA {tb : TbSt} {lp : Bool} : (legNext n tb lp tc d).leg[n].curA = d.leg[n].curA := by
  unfold legNext
  split
  · rw [Dev.legU_leg_same]
  · rfl

/-- Where edge A lies after a commit that reaches it in time. -/
def legNewA (n : Fin 96) (tb : TbSt) (p : Nat) (d : Dev) : Nat := tb.start + (legPlace d n p tb.corr).1 * tuFine

theorem legPlace_fst {p : Nat} {corr : Int} (prof : d.b (.leg n .ctl) LEG_CTL.PROF = false) : (legPlace d n p corr).1 =
    (((fineVal (d.get (.leg n .cmpa)) : Int) + (fineVal (d.get (.leg n .phase)) + tbVoff d (d.legTb n) corr)) % (24 * p : Nat)).toNat := by
  rw [legPlace, prof, if_neg Bool.false_ne_true]

variable {g : LegSt} {tb : TbSt} {p : Nat}

theorem legMoved_get {r : Reg} (stat : r ≠ .leg n .stat) (cnt : r ≠ .leg n .cnt) : (legMoved n g tb p tc d).get r = d.get r := by
  unfold legMoved
  dsimp only
  split
  · rw [Dev.bump, Dev.bumpBy, Dev.get_setF_ne _ cnt, Dev.flag, Dev.setB, Dev.get_setF_ne _ stat, Dev.legU_get]
  · exact Dev.legU_get ..

theorem legMoved_updn : (legMoved n g tb p tc d).f (.leg n .stat) LEG_STAT.UPDN = d.f (.leg n .stat) LEG_STAT.UPDN := by
  unfold legMoved
  dsimp only
  split
  · rw [Dev.f, Dev.bump, Dev.bumpBy, Dev.get_setF_ne _ (by simp), Dev.flag, Dev.setB, Dev.setF, Dev.get_put_same,
      Fld.get_put_apart (by decide) (by decide) (by decide), Dev.legU_get]
    rfl
  · rw [Dev.f, Dev.legU_get]
    rfl

theorem edgeMoves_of_ahead {spent : Bool} {t old : Nat} (unspent : spent = false) (ahead : tc ≤ old) : edgeMoves tc spent t old = (t != old) := by
  simp [edgeMoves, unspent, ahead]

/-- Edge A after a commit. -/
theorem legMoved_edge : (legMoved n g tb p tc d).leg[n].curA =
    if edgeMoves tc d.leg[n].spentA (legNewA n tb p d) d.leg[n].curA && edgeInTime tc (legNewA n tb p d) then legNewA n tb p d
    else d.leg[n].curA := by
  unfold legMoved
  extract_lets place new late d3
  have h3 : d3.leg[n].curA = if edgeMoves tc d.leg[n].spentA (legNewA n tb p d) d.leg[n].curA && edgeInTime tc (legNewA n tb p d) then
      legNewA n tb p d else d.leg[n].curA := by
    simp only [d3]
    rw [Dev.legU_leg_same]
    rfl
  clear_value d3
  split <;> exact h3

theorem legMoved_curA (unspent : d.leg[n].spentA = false) (ahead : tc ≤ d.leg[n].curA) : (legMoved n g tb p tc d).leg[n].curA =
    if tc + 58 * tuFine ≤ legNewA n tb p d then legNewA n tb p d else d.leg[n].curA := by
  rw [legMoved_edge, edgeMoves_of_ahead unspent ahead, edgeInTime]
  by_cases same : legNewA n tb p d = d.leg[n].curA
  · rw [same, ite_self, ite_self]
  · rw [bne_iff_ne.2 same, Bool.true_and]
    simp only [decide_eq_true_eq]

theorem legMoved_late (unspent : g.spentA = false) (ahead : tc ≤ g.curA) (new : legNewA n tb p d ≠ g.curA)
    (late : legNewA n tb p d < tc + 58 * tuFine) : (legMoved n g tb p tc d).b (.leg n .stat) LEG_STAT.LATE = true := by
  have miss : (edgeMoves tc g.spentA (legNewA n tb p d) g.curA && !edgeInTime tc (legNewA n tb p d)) = true := by
    rw [edgeMoves_of_ahead unspent ahead, edgeInTime, bne_iff_ne.2 new, decide_eq_false (not_le.2 late)]
    rfl
  simp only [legNewA] at miss
  unfold legMoved
  dsimp only
  rw [miss, Bool.true_or, if_pos rfl, Dev.b, Dev.bump, Dev.bumpBy, Dev.get_setF_ne _ (by simp)]
  exact Dev.b_flag _ _ (by decide)

end

/-! ### LEG_COMPARE_WRITE -/

/-- A value of a compare is staged. -/
def legStage (which : LegCmp) (v : Word) (g : LegSt) : LegSt :=
  match which with
  | .cmpa => { g with stA := some v }
  | .cmpb => { g with stB := some v }
  | .phase => { g with stPh := some v }

section
variable {s : State} {by_ : Requester} {n : Fin 96} {which : LegCmp} {v : Word}

theorem legOwned_asked : legOwned (asked by_ s.toDev) n which = legOwned s.toDev n which := by
  unfold legOwned
  rw [f_asked (by simp)]

/-- A write of a compare that no loop engine owns and that is not staged is a commit. -/
theorem legWriteCmp_commits {d : Dev} (free : legOwned d n which = false) (stage : d.b (.leg n .ctl) LEG_CTL.STAGE = false) :
    legWriteCmp n which v d = legCommit n [(legCmpReg which, v)] d := by
  unfold legWriteCmp
  rw [free, if_neg Bool.false_ne_true, stage, if_neg Bool.false_ne_true]

theorem writeNow_legCmp (d : Dev) : writeNow by_ (.leg n (legCmpReg which)) v d = legWriteCmp n which v d := by cases which <;> rfl

section
variable (asks : Asks by_ s (.leg n (legCmpReg which)))
include asks

theorem legCompareWrite_of {e : Dev} (made : legWriteCmp n which v (asked by_ s.toDev) = e) (now : e.now = s.now) :
    exec (.legCompareWrite by_ n which v) s = after s e :=
  exec_of_write rfl asks (by simp [heldMask]) ((writeNow_legCmp _).trans made) (asks.up.calm (le_of_eq now))

theorem legCompareWrite_owned (owned : legOwned s.toDev n which = true) : exec (.legCompareWrite by_ n which v) s =
    after s ((asked by_ s.toDev).flag (.leg n .stat) LEG_STAT.OWNED_WR) :=
  legCompareWrite_of asks (by unfold legWriteCmp; rw [legOwned_asked, owned, if_pos rfl]) rfl

variable (free : legOwned s.toDev n which = false)
include free

theorem legCompareWrite_staged (stage : s.b (.leg n .ctl) LEG_CTL.STAGE = true) : exec (.legCompareWrite by_ n which v) s =
    after s ((asked by_ s.toDev).legU n (legStage which v)) := by
  refine legCompareWrite_of asks ?_ rfl
  unfold legWriteCmp
  rw [legOwned_asked, free, if_neg Bool.false_ne_true, b_asked (by simp), stage, if_pos rfl]
  cases which <;> rfl

variable (stage : s.b (.leg n .ctl) LEG_CTL.STAGE = false)
include stage

theorem legCompareWrite_stopped (stopped : s.tbRun (s.legTb n) = false) : exec (.legCompareWrite by_ n which v) s =
    after s ((asked by_ s.toDev).wr (.leg n (legCmpReg which)) v) := by
  refine legCompareWrite_of asks ?_ rfl
  rw [legWriteCmp_commits (legOwned_asked.trans free) ((b_asked (by simp) _).trans stage),
    legCommit_stopped (by rw [legTb_asked, Dev.tbRun_of_tbs asked_tbs, stopped])]
  rfl

end

section
variable {tc : Nat} (asks : Asks by_ s (.leg n .cmpa)) (free : legOwned s.toDev n .cmpa = false)
  (stage : s.b (.leg n .ctl) LEG_CTL.STAGE = false) (run : s.tbRun (s.legTb n) = true) (htc : tc = tickUp (tbB s.toDev (s.legTb n)) s.now)
include asks free stage run htc

theorem legCompareWrite_deferred (due : s.tb[s.legTb n].start + s.tb[s.legTb n].len * tuTick ≤ tc) :
    exec (.legCompareWrite by_ n .cmpa v) s = after s ((asked by_ s.toDev).legU n fun x => { x with defer := x.defer ++ [[(.cmpa, v)]] }) := by
  refine legCompareWrite_of (which := .cmpa) asks ?_ rfl
  rw [legWriteCmp_commits (legOwned_asked.trans free) ((b_asked (by simp) _).trans stage), legCommit_deferred (legTb_asked n)]
  · rfl
  · rw [Dev.tbRun_of_tbs asked_tbs, run]
  · rw [tbB_of_tbs asked_tbs, asked_now, ← htc]
    exact due

theorem legCompareWrite_moves (shown : legShown s.toDev n = 1) (prof : s.b (.leg n .ctl) LEG_CTL.PROF = false)
    (updn : s.f (.leg n .stat) LEG_STAT.UPDN < 4) (still : LegStill n tc s.toDev) (unspent : s.leg[n].spentA = false)
    (ahead : tc ≤ s.leg[n].curA) (due : tc < s.tb[s.legTb n].start + s.tb[s.legTb n].len * tuTick) {new : Nat}
    (hnew : new = s.tb[s.legTb n].start + (((fineVal (plainWrite (LegReg.access .cmpa) (s.get (.leg n .cmpa)) v) : Int) +
      (fineVal (s.get (.leg n .phase)) + tbVoff s.toDev (s.legTb n) s.tb[s.legTb n].corr)) %
        (24 * s.f (.tb (s.legTb n) .pact) TB_PACT.P : Nat)).toNat * tuFine) :
    Does (.legCompareWrite by_ n .cmpa v) s fun t =>
      t.get (.leg n .cmpa) = plainWrite (LegReg.access .cmpa) (s.get (.leg n .cmpa)) v ∧
      t.f (.leg n .stat) LEG_STAT.UPDN = s.f (.leg n .stat) LEG_STAT.UPDN + 1 ∧
      t.leg[n].curA = (if tc + 58 * tuFine ≤ new then new else s.leg[n].curA) ∧
      (new ≠ s.leg[n].curA → new < tc + 58 * tuFine → t.b (.leg n .stat) LEG_STAT.LATE = true) := by
  obtain ⟨q, hq⟩ : ∃ q, q = asked by_ s.toDev := ⟨_, rfl⟩
  have get {r : Reg} (h : ∀ k, r ≠ .sys (.taguse k)) : q.get r = s.get r := by rw [hq, get_asked h]
  have f {r : Reg} (h : ∀ k, r ≠ .sys (.taguse k)) (f : Fld) : q.f r f = s.f r f := by rw [Dev.f, get h]; rfl
  have tb : q.tb = s.tb := by rw [hq, asked_tb]
  have leg : q.leg = s.leg := by rw [hq, asked_leg]
  have legTb : q.legTb n = s.legTb n := by rw [hq, legTb_asked]
  have htc' : tickUp (tbB q (s.legTb n)) q.now = tc := by rw [hq, tbB_of_tbs asked_tbs, asked_now, htc]
  have run' : q.tbRun (s.legTb n) = true := by rw [hq, Dev.tbRun_of_tbs asked_tbs, run]
  have prof' : q.b (.leg n .ctl) LEG_CTL.PROF = false := by rw [Dev.b, get (by simp)]; exact prof
  have still' : LegStill n tc q := still.congr (by rw [leg]) (by rw [leg]) (by rw [leg]; exact fun _ => rfl)
    (legDt_congr (get (by simp)) (prof'.trans prof.symm) (get (by simp)))
    (legLimit_congr (get (by simp)) (get (by simp)) (get (by simp)) (by rw [legReefed, Dev.b, get (by simp)]; rfl))
  obtain ⟨y, hy⟩ : ∃ y, y = (q.wr (.leg n .cmpa) v).setF (.leg n .stat) LEG_STAT.UPDN (q.f (.leg n .stat) LEG_STAT.UPDN + 1) := ⟨_, rfl⟩
  obtain ⟨e, he⟩ : ∃ e, e = legMoved n q.leg[n] q.tb[s.legTb n] (q.f (.tb (s.legTb n) .pact) TB_PACT.P) tc y := ⟨_, rfl⟩
  have made : legWriteCmp n .cmpa v q = legNext n q.tb[s.legTb n] q.leg[n].lp tc e := by
    rw [legWriteCmp_commits (by rw [hq, legOwned_asked, free]) (by rw [Dev.b, get (by simp)]; exact stage),
      legCommit_at legTb (by rw [htc', tb]; exact fun _ => due), htc',
      legCommitAt_running legTb run' (by rw [legShown, f (by simp)]; exact shown) prof' (by rwa [f (by simp)]) still', he, hy]
    rfl
  have only : LegOnly n q (legNext n q.tb[s.legTb n] q.leg[n].lp tc e) := by simp [he, hy]
  have yget {r : Reg} (h : r ≠ .leg n .stat) (k : r ≠ .leg n .cmpa) : y.get r = q.get r := by
    rw [hy, Dev.get_setF_ne _ h, Dev.get_wr_ne _ k]
  have ycmpa : y.get (.leg n .cmpa) = plainWrite (LegReg.access .cmpa) (s.get (.leg n .cmpa)) v := by
    rw [hy, Dev.get_setF_ne _ (by simp), Dev.get_wr_same, get (by simp)]
    rfl
  have yleg : y.leg[n] = s.leg[n] := by rw [hy, Dev.setF_leg, Dev.wr, Dev.put_leg, leg]
  have place : legNewA n q.tb[s.legTb n] (q.f (.tb (s.legTb n) .pact) TB_PACT.P) y = new := by
    have ytb : y.legTb n = s.legTb n := by rw [← legTb, Dev.legTb, Dev.f, yget (by simp) (by simp)]; rfl
    have voff (corr : Int) : tbVoff y (s.legTb n) corr = tbVoff s.toDev (s.legTb n) corr := by
      rw [tbVoff, Dev.f, Dev.f, yget (by simp) (by simp), yget (by simp) (by simp), get (by simp), get (by simp)]
      rfl
    rw [legNewA, legPlace_fst (by rw [Dev.b, yget (by simp) (by simp)]; exact prof'), ycmpa, yget (by simp) (by simp), get (by simp), ytb, voff,
      tb, f (by simp), hnew]
  refine .of_write (e := legNext n q.tb[s.legTb n] q.leg[n].lp tc e) rfl asks (by simp [heldMask]) ?_
    (asks.up.calm (by rw [only.now, hq, asked_now])) ?_
  · rw [writeNow_legCmp (which := .cmpa), ← hq, made]
  rw [settle_get, settle_f, settle_leg, settle_b, legNext_get, Dev.f, legNext_get, legNext_curA, Dev.b, legNext_get, he]
  refine ⟨(legMoved_get (by simp) (by simp)).trans ycmpa, legMoved_updn.trans ?_, ?_, fun moved late => ?_⟩
  · have lt : s.f (.leg n .stat) LEG_STAT.UPDN + 1 < 2 ^ LEG_STAT.UPDN.width := by
      rw [show LEG_STAT.UPDN.width = 4 from rfl]
      omega
    rw [hy, Dev.f_setF _ _ (by decide), f (by simp), Nat.mod_eq_of_lt lt]
  · rw [legMoved_curA (by rw [yleg, unspent]) (by rw [yleg]; exact ahead), place, yleg]
  · exact legMoved_late (by rw [leg, unspent]) (by rw [leg]; exact ahead) (by rw [place, leg]; exact moved) (by rw [place]; exact late)

end
end

end Sys2Proof.Machine
end

section
/-!
SUPPORT. LEGCOMMIT (R77, R79): the legs whose PLL is not locked wait, and the others commit what is staged.
-/
set_option Elab.async false
namespace Sys2Proof.Machine
open Sys2Proof

/-! ### The bits that wait -/

theorem testBit_packBits (l : List Bool) (i : Nat) : (packBits l).testBit i = l.getD i false := by
  induction l generalizing i with
  | nil => simp [packBits]
  | cons b l ih =>
    have h : packBits (b :: l) = b2n b + 2 * packBits l := rfl
    cases i with
    | zero =>
      rw [h]
      cases b <;> simp [b2n, Nat.add_mod]
    | succ i =>
      have half : (b2n b + 2 * packBits l) / 2 = packBits l := by
        cases b
        · simp [b2n]
        · rw [show b2n true = 1 from rfl]
          omega
      rw [h, Nat.testBit_succ, half, ih]
      rfl

theorem getLsbD_maskOf {n k : Nat} {p : Fin n → Bool} {i : Nat} (hi : i < 32) (h : 32 * k + i < n) :
    (maskOf n k p).getLsbD i = p ⟨32 * k + i, h⟩ := by
  rw [maskOf, w32, BitVec.getLsbD_ofNat, testBit_packBits]
  simp [hi, h]

section
variable {by_ : Requester} {d : Dev} {k : Fin 3} {n : Fin 96}

theorem heldMask_legcommit_eq (d : Dev) (k : Fin 3) :
    heldMask d (.tbg (.legcommit k)) = maskOf 96 k.val fun n => !tbPll d (d.legTb n) := rfl

theorem heldMask_legcommit (hk : n.val / 32 = k.val) :
    (heldMask d (.tbg (.legcommit k))).getLsbD (n.val % 32) = !tbPll d (d.legTb n) := by
  have hn : 32 * k.val + n.val % 32 = n.val := by omega
  have h := getLsbD_maskOf (n := 96) (k := k.val) (p := fun m => !tbPll d (d.legTb m)) (Nat.mod_lt n.val (by decide))
    (show 32 * k.val + n.val % 32 < 96 by omega)
  have hm : (⟨32 * k.val + n.val % 32, by omega⟩ : Fin 96) = n := Fin.ext hn
  rwa [hm, ← heldMask_legcommit_eq] at h

theorem heldMask_legcommit_asked : heldMask (asked by_ d) (.tbg (.legcommit k)) = heldMask d (.tbg (.legcommit k)) := by
  have h : (fun n : Fin 96 => !tbPll (asked by_ d) ((asked by_ d).legTb n)) = fun n => !tbPll d (d.legTb n) := by
    funext n
    rw [legTb_asked, tbPll_of_tbs asked_tbs]
  rw [heldMask_legcommit_eq, heldMask_legcommit_eq, h]

end

/-! ### What other legs' commits leave of a leg -/

/-- The state and the registers of leg n, and the timebases. -/
def Dev.legView (n : Fin 96) (d : Dev) : TbView × LegSt × (LegReg → Word) := (d.tbs, d.leg[n], fun r => d.get (.leg n r))

theorem LegOnly.view {m n : Fin 96} (hn : n ≠ m) {d e : Dev} (h : LegOnly m d e) : e.legView n = d.legView n := by
  have get : (fun r => e.get (.leg n r)) = fun r => d.get (.leg n r) := funext fun r => h.get _ (by simpa [legReg] using hn)
  rw [Dev.legView, h.tbs, h.legs n hn, get]
  rfl

section
variable {n : Fin 96} {d e : Dev} (h : e.legView n = d.legView n)
include h

theorem tbs_of_legView : e.tbs = d.tbs := congrArg (·.1) h
theorem leg_of_legView : e.leg[n] = d.leg[n] := congrArg (·.2.1) h
theorem get_of_legView (r : LegReg) : e.get (.leg n r) = d.get (.leg n r) := congrArg (·.2.2 r) h
theorem legTb_of_legView : e.legTb n = d.legTb n := by rw [Dev.legTb, Dev.f, get_of_legView h]; rfl

end

theorem each_legCommitStaged_view {n : Fin 96} {l : List (Fin 96)} (h : ∀ m ∈ l, m ≠ n) (d : Dev) :
    (d.each l legCommitStaged).legView n = d.legView n :=
  Dev.each_kept (fun m hm x => LegOnly.view (h m hm).symm (by simp)) d

/-- The legs that a LEGCOMMIT names. -/
def legsNamed (k : Fin 3) (v : Word) : List (Fin 96) := (fins 96).filter fun n => n.val / 32 = k.val ∧ v.getLsbD (n.val % 32) = true

theorem mem_legsNamed {k : Fin 3} {v : Word} {n : Fin 96} : n ∈ legsNamed k v ↔ n.val / 32 = k.val ∧ v.getLsbD (n.val % 32) = true := by
  simp [legsNamed, mem_fins]

theorem writeNow_legcommit (by_ : Requester) (k : Fin 3) (v : Word) (d : Dev) :
    writeNow by_ (.tbg (.legcommit k)) v d = d.each (legsNamed k v) legCommitStaged := rfl

/-! ### What a leg commits -/

section
variable {n : Fin 96} {d : Dev}

theorem runsReg_leg {m : Fin 96} {r : LegReg} (h : r ≠ .stat) : runsReg n (.leg m r) = false := by
  cases r <;> simp_all [runsReg]

theorem legRunSet_leg_get {on : Bool} {r : LegReg} (ctl : r ≠ .ctl) (stat : r ≠ .stat) :
    (legRunSet n on d).get (.leg n r) = d.get (.leg n r) := by
  have set : (d.setB (.leg n .ctl) LEG_CTL.RUN on).get (.leg n r) = d.get (.leg n r) := Dev.get_setF_ne _ (by simp [ctl]) _ _
  unfold legRunSet
  dsimp only
  split
  · exact set
  · have runs : LegRuns n ((d.setB (.leg n .ctl) LEG_CTL.RUN on).legU n fun g => { g with run := on }) (legRefresh n
      ((d.setB (.leg n .ctl) LEG_CTL.RUN on).legU n fun g => { g with run := on })) := by simp
    rw [runs.get _ (runsReg_leg stat), Dev.legU_get]
    exact set

theorem legRunSet_stA {on : Bool} : (legRunSet n on d).leg[n].stA = d.leg[n].stA := by
  unfold legRunSet
  dsimp only
  split
  · exact congrArg (fun l : Vector LegSt 96 => l[n].stA) (Dev.setB_leg ..)
  · have runs : LegRuns n ((d.setB (.leg n .ctl) LEG_CTL.RUN on).legU n fun g => { g with run := on }) (legRefresh n
      ((d.setB (.leg n .ctl) LEG_CTL.RUN on).legU n fun g => { g with run := on })) := by simp
    have stA := congrArg LegSt.stA runs.plan
    rw [Dev.legU_leg_same, Dev.setB_leg] at stA
    exact stA

theorem legPut_get_ne {l : LegVals} {r : LegReg} (h : ∀ p ∈ l, p.1 ≠ r) : (legPut n l d).get (.leg n r) = d.get (.leg n r) := by
  induction l generalizing d with
  | nil => rfl
  | cons p l ih =>
    have hp : Reg.leg n r ≠ .leg n p.1 := by
      rw [ne_eq, Reg.leg.injEq, not_and]
      exact fun _ e => h p (by simp) e.symm
    exact (ih fun q hq => h q (by simp [hq])).trans (Dev.get_wr_ne d hp _)

/-- A staged value of edge A takes effect at once on a stopped timebase. -/
theorem legCommitStaged_cmpa {x : Word} (staged : d.leg[n].stA = some x) (stopped : d.tbRun (d.legTb n) = false) :
    (legCommitStaged n d).leg[n].stA = none ∧
      (legCommitStaged n d).get (.leg n .cmpa) = plainWrite (LegReg.access .cmpa) (d.get (.leg n .cmpa)) x := by
  obtain ⟨d0, h0⟩ : ∃ d0, d0 = d.legU n fun g => { g with stA := none, stB := none, stPh := none, stRun := none } := ⟨_, rfl⟩
  obtain ⟨d1, h1⟩ : ∃ d1, d1 =
      legPut n (legStaged .cmpa (some x) ++ legStaged .cmpb d.leg[n].stB ++ legStaged .phase d.leg[n].stPh) d0 := ⟨_, rfl⟩
  have leg1 : d1.leg[n].stA = none := by
    rw [h1, legPut_leg, h0, Dev.legU_leg_same]
  have get1 : d1.get (.leg n .cmpa) = plainWrite (LegReg.access .cmpa) (d.get (.leg n .cmpa)) x := by
    have rest : d1 = legPut n (legStaged .cmpb d.leg[n].stB ++ legStaged .phase d.leg[n].stPh) (d0.wr (.leg n .cmpa) x) := h1
    rw [rest, legPut_get_ne ?_, Dev.get_wr_same, h0, Dev.legU_get]
    · rfl
    · intro p hp
      rcases List.mem_append.1 hp with hp | hp
      · obtain ⟨_, -, rfl⟩ : ∃ y, d.leg[n].stB = some y ∧ (LegReg.cmpb, y) = p := by simpa [legStaged] using hp
        simp
      · obtain ⟨_, -, rfl⟩ : ∃ y, d.leg[n].stPh = some y ∧ (LegReg.phase, y) = p := by simpa [legStaged] using hp
        simp
  have made : legCommitStaged n d = match d.leg[n].stRun with
      | some v => legRunSet n v d1
      | none => d1 := by
    have stopped0 : d0.tbRun (d0.legTb n) = false := by rw [h0]; exact stopped
    unfold legCommitStaged
    dsimp only
    rw [staged, Option.isNone_some, Bool.false_and, Bool.false_and, Bool.false_and, if_neg Bool.false_ne_true, ← h0,
      legCommit_stopped stopped0, ← h1] <;> rfl
  rw [made]
  split
  · rw [legRunSet_stA, legRunSet_leg_get (by simp) (by simp)]
    exact ⟨leg1, get1⟩
  · exact ⟨leg1, get1⟩

end

/-! ### LEGCOMMIT -/

section
variable {s : State} {by_ : Requester} {k : Fin 3} {v : Word} {n : Fin 96} (asks : Asks by_ s (.tbg (.legcommit k)))
include asks

theorem legcommit_made : writeBy by_ (.tbg (.legcommit k)) v s.toDev = writePart by_ (.tbg (.legcommit k)) v (asked by_ s.toDev) := by
  rw [writeBy, asks_eq asks.2]
  rfl

theorem legcommit_waits (some_ : v ≠ 0) (all : v &&& heldMask s.toDev (.tbg (.legcommit k)) = v) : exec (.legcommit by_ k v) s =
    after s { asked by_ s.toDev with sys := { (asked by_ s.toDev).sys with waits := (asked by_ s.toDev).sys.waits ++
      [{ by_ := by_, addr := w32 (Reg.addr (.tbg (.legcommit k))), val := some v, since := s.now }] } } := by
  refine exec_of_act rfl asks.up ?_ (asks.up.calm (le_refl _))
  rw [legcommit_made asks, writePart, heldMask_legcommit_asked, all, if_neg some_, if_pos (BitVec.and_not_self ..)]
  rfl

/-- A leg that LEGCOMMIT does not name stands, whichever of the others wait. -/
theorem legcommit_others (unnamed : v.getLsbD (n.val % 32) = false) : Does (.legcommit by_ k v) s fun t =>
    t.leg[n] = s.leg[n] ∧ t.get (.leg n .cmpa) = s.get (.leg n .cmpa) ∧ t.get (.leg n .ctl) = s.get (.leg n .ctl) := by
  obtain ⟨q, hq⟩ : ∃ q, q = asked by_ s.toDev := ⟨_, rfl⟩
  have one {u : Word} (hu : u.getLsbD (n.val % 32) = false) (x : Dev) (hx : x.legView n = q.legView n) :
      (writeNow by_ (.tbg (.legcommit k)) u x).legView n = q.legView n := by
    rw [writeNow_legcommit]
    refine (each_legCommitStaged_view (fun m hm e => ?_) x).trans hx
    rw [mem_legsNamed, e, hu] at hm
    exact absurd hm.2 Bool.false_ne_true
  have view : (writePart by_ (.tbg (.legcommit k)) v q).legView n = q.legView n := by
    unfold writePart
    dsimp only
    repeat' split
    · exact one unnamed q rfl
    · rfl
    · exact one (by rw [BitVec.getLsbD_and, unnamed, Bool.false_and]) _ rfl
  have now : (writePart by_ (.tbg (.legcommit k)) v q).now = s.now := by rw [Dev.now_of_tbs (tbs_of_legView view), hq, asked_now]
  have made := legcommit_made (v := v) asks
  rw [← hq] at made
  refine .of_act rfl asks.up (by rw [made]; exact asks.up.calm (le_of_eq now)) ?_
  rw [made, settle_leg, settle_get, settle_get, leg_of_legView view, get_of_legView view, get_of_legView view, hq, asked_leg,
    get_asked (by simp), get_asked (by simp)]
  exact ⟨rfl, rfl, rfl⟩

theorem legcommit_stopped (hk : n.val / 32 = k.val) (free : v &&& heldMask s.toDev (.tbg (.legcommit k)) = 0)
    (named : v.getLsbD (n.val % 32) = true) {x : Word} (staged : s.leg[n].stA = some x) (stopped : s.tbRun (s.legTb n) = false) :
    Does (.legcommit by_ k v) s fun t =>
      t.leg[n].stA = none ∧ t.get (.leg n .cmpa) = plainWrite (LegReg.access .cmpa) (s.get (.leg n .cmpa)) x := by
  obtain ⟨q, hq⟩ : ∃ q, q = asked by_ s.toDev := ⟨_, rfl⟩
  have nodup : (legsNamed k v).Nodup := (fins_nodup 96).filter _
  obtain ⟨l1, l2, h1, h2, e⟩ := Dev.each_split nodup (mem_legsNamed.2 ⟨hk, named⟩) legCommitStaged q
  have before := each_legCommitStaged_view h1 q
  have after := each_legCommitStaged_view h2 (legCommitStaged n (q.each l1 legCommitStaged))
  rw [← e] at after
  obtain ⟨stA, cmpa⟩ := legCommitStaged_cmpa (n := n) (d := q.each l1 legCommitStaged) (x := x)
    (by rw [leg_of_legView before, hq, asked_leg, staged])
    (by rw [legTb_of_legView before, Dev.tbRun_of_tbs (tbs_of_legView before), hq, legTb_asked, Dev.tbRun_of_tbs asked_tbs, stopped])
  have now : (q.each (legsNamed k v) legCommitStaged).now = s.now := by
    rw [Dev.each_kept (π := Dev.now) fun m _ x => ?_, hq, asked_now]
    have only : LegOnly m x (legCommitStaged m x) := by simp
    exact only.now
  refine .of_write (e := q.each (legsNamed k v) legCommitStaged) rfl asks (by rw [heldMask_legcommit_asked, free])
    (by rw [writeNow_legcommit, hq]) (asks.up.calm (le_of_eq now)) ?_
  rw [settle_leg, settle_get, leg_of_legView after, get_of_legView after, stA, cmpa, get_of_legView before, hq, get_asked (by simp)]
  exact ⟨rfl, rfl⟩

end

end Sys2Proof.Machine
end

section
/-!
SUPPORT. FORCE_OFF_TASK and FOFF_RELEASE_REQUEST (R85).
-/
set_option Elab.async false
namespace Sys2Proof.Machine
open Sys2Proof

/-! ### Catching up either leaves the shown state or holds a dark leg -/

/-- From d, leg n shows what it showed, or it has become HELD and dark. -/
def LegHeldOr (n : Fin 96) (d e : Dev) : Prop := legShown e n = legShown d n ∨ (legShown e n = 6 ∧ e.leg[n].Dark)

section
variable {n : Fin 96} {w : Sw} {t : Nat} {d : Dev}

theorem legShown_congr {e : Dev} (h : e.get (.leg n .stat) = d.get (.leg n .stat)) : legShown e n = legShown d n := by
  rw [legShown, Dev.f, h]
  rfl

theorem legOn_heldOr (n : Fin 96) (w : Sw) (t : Nat) (d : Dev) : LegHeldOr n d (legOn n w t d) := by
  rw [legOn_eq]
  repeat' split
  · exact .inr ⟨legRefused_state .., legRefused_dark ..⟩
  · exact .inl rfl
  · exact .inl (legShown_congr (legCutCount_get (by simp) (by simp)))
  · exact .inl (legShown_congr (Dev.get_congr (legRaised_regs ..) _))

theorem legFire_heldOr (n : Fin 96) (d : Dev) : LegHeldOr n d (legFire n d) := by
  cases stopped : d.tbRun (d.legTb n) with
  | false => exact .inl (legFire_shows stopped).shown
  | true =>
    unfold legFire
    split
    · exact .inl rfl
    next w base _ =>
      have shown : legShown ((legUnpend n d).setB (.leg n .stat) LEG_STAT.DTCLAMP ((legDt d n w).1 != (legDt d n w).2)) n = legShown d n := by
        rw [legShown, Dev.setB, Dev.f, Dev.setF, Dev.get_put_same, Fld.get_put_apart (by decide) (by decide) (by decide),
          Dev.get_congr (legUnpend_regs n d)]
        rfl
      dsimp only
      rw [stopped, if_pos rfl, LegHeldOr, ← shown]
      exact legOn_heldOr ..

theorem legOver_of_dark (h : d.leg[n].Dark) : legOver n t w d = d := by
  rw [legOver, h.sw w, Bool.false_and, if_neg Bool.false_ne_true]

theorem LegHeldOr.over {c : Dev} (h : LegHeldOr n c d) : LegHeldOr n c (legOver n t w d) := by
  rcases h with shown | ⟨held, dark⟩
  · exact .inl ((legShown_congr (legOver_get (by simp) (by simp))).trans shown)
  · rw [legOver_of_dark dark]
    exact .inr ⟨held, dark⟩

theorem legCatch_heldOr (n : Fin 96) (t : Nat) (d : Dev) : LegHeldOr n d (legCatch n t d) := by
  have fired : LegHeldOr n d (legFired n t d) := by
    unfold legFired
    repeat' split
    · exact legFire_heldOr n d
    · exact .inl rfl
    · exact .inl rfl
  rw [legCatch_eq]
  exact fired.over.over

/-! ### A task forces a leg off -/

theorem legState_foff (h : d.b (.leg n .stat) LEG_STAT.FOFF = true) : legState d n = 5 ∨ legState d n = 6 := by
  simp only [legState, h, if_true]
  split <;> simp

/-- A leg that is forced off, or HELD besides, is dark once its causes have been followed. -/
theorem legTurns_dark {first : Bool} (off : legState d n = 5 ∨ legState d n = 6) (h : legShown d n = legState d n → d.leg[n].Dark) :
    (legTurns n t first d).leg[n].Dark := by
  by_cases same : legShown d n = legState d n
  · have made : legTurns n t first d = legShow n d := if_pos same.symm
    have leg : (legShow n d).leg = d.leg := legShow_leg n d
    have leg_at : (legShow n d).leg[n] = d.leg[n] := congrArg (fun l : Vector LegSt 96 => l[n]) leg
    rw [made, leg_at]
    exact h same
  · have made : legTurns n t first d = legBothOff n t (legShow n d) := by
      rcases off with off | off
      · rw [off] at same
        simp [legTurns, off, Ne.symm same]
      · rw [off] at same
        simp [legTurns, off, Ne.symm same]
    rw [made]
    exact legBothOff_dark ..

/-- Leg n is in EVENT_OFF, and dark. -/
structure LegEventOff (n : Fin 96) (d : Dev) : Prop where
  foff : d.b (.leg n .stat) LEG_STAT.FOFF = true
  dark : d.leg[n].Dark

theorem legForceOff_eventOff (h5 : legShown d n ≠ 5) (h6 : legShown d n ≠ 6) : LegEventOff n (legForceOff n d) := by
  obtain ⟨z, hz⟩ : ∃ z, z = (d.flag (.leg n .stat) LEG_STAT.FOFF).legU n fun g => { g with relReq := false } := ⟨_, rfl⟩
  have foff : z.b (.leg n .stat) LEG_STAT.FOFF = true := by
    rw [hz, Dev.b, Dev.legU_get]
    exact Dev.b_flag _ _ (by decide)
  have shown : legShown z n = legShown d n := by
    rw [hz, legShown, Dev.f, Dev.legU_get, Dev.flag, Dev.setB, Dev.setF, Dev.get_put_same, Fld.get_put_apart (by decide) (by decide) (by decide)]
    rfl
  have made : legForceOff n d = legTurns n z.now false (legCatch n z.now z) := by rw [legForceOff, legRefresh, legSettle_eq, ← hz]
  have runs : LegRuns n z (legForceOff n d) := by rw [made]; simp
  have caught : LegRuns n z (legCatch n z.now z) := by simp
  have off := legState_foff (caught.foff.trans foff)
  refine ⟨runs.foff.trans foff, ?_⟩
  rw [made]
  refine legTurns_dark off fun same => ?_
  rcases legCatch_heldOr n z.now z with kept | ⟨-, dark⟩
  · rw [kept, shown] at same
    rcases off with off | off
    · exact absurd (same.trans off) h5
    · exact absurd (same.trans off) h6
  · exact dark

/-! ### FORCE_OFF_TASK -/

/-- The state and the registers of leg n. -/
def Dev.legSeen (n : Fin 96) (d : Dev) : LegSt × (LegReg → Word) := (d.leg[n], fun r => d.get (.leg n r))

theorem LegEventOff.of_seen {e : Dev} (h : e.legSeen n = d.legSeen n) (k : LegEventOff n d) : LegEventOff n e := by
  have leg : e.leg[n] = d.leg[n] := congrArg (·.1) h
  have stat : e.get (.leg n .stat) = d.get (.leg n .stat) := congrArg (·.2 .stat) h
  exact ⟨by rw [Dev.b, stat]; exact k.foff, by rw [leg]; exact k.dark⟩

/-- A leg is forced off as of instant t0, on the next tick of its PLL. -/
def legOffOn (t0 : Nat) (b : Bool) (n : Fin 96) (y : Dev) : Dev := legForceOff n (y.at (tickUp b t0))

/-- The legs on PLL b that a task of channel ch forces off. -/
def legsOffBy (ch : Nat) (d : Dev) (b : Bool) : List (Fin 96) :=
  (fins 96).filter fun n => d.b (.leg n .ctl) LEG_CTL.FOEN && d.f (.leg n .ctl) LEG_CTL.FOCH == ch && tbB d (d.legTb n) == b

/-- The legs on one PLL, then those on the other. -/
def legsOffFrom (ch : Nat) (b : Bool) (d : Dev) : Dev :=
  (d.each (legsOffBy ch d b) (legOffOn d.now b)).each (legsOffBy ch d (!b)) (legOffOn d.now (!b))

theorem legTaskOff_eq (ch : Nat) (d : Dev) : legTaskOff ch d = legsOffFrom ch (!decide (tickUp false d.now ≤ tickUp true d.now)) d := by
  by_cases h : tickUp false d.now ≤ tickUp true d.now
  · rw [decide_eq_true h]
    exact if_pos h
  · rw [decide_eq_false h]
    exact if_neg h

theorem legOffOn_seen {m : Fin 96} (h : n ≠ m) (t0 : Nat) (b : Bool) (y : Dev) : (legOffOn t0 b m y).legSeen n = y.legSeen n := by
  have only : LegOnly m (y.at (tickUp b t0)) (legOffOn t0 b m y) := by simp [legOffOn]
  exact congrArg Prod.snd (only.view h)

theorem legOffOn_now (t0 : Nat) (b : Bool) (m : Fin 96) (y : Dev) : (legOffOn t0 b m y).now = max y.now (tickUp b t0) := by
  have only : LegOnly m (y.at (tickUp b t0)) (legOffOn t0 b m y) := by simp [legOffOn]
  exact only.now

theorem legsOffFrom_now (ch : Nat) (b : Bool) (d : Dev) : (legsOffFrom ch b d).now ≤ ticksUp d.now := by
  have step (x : Bool) (m : Fin 96) (y : Dev) (hy : y.now ≤ ticksUp d.now) : (legOffOn d.now x m y).now ≤ ticksUp d.now := by
    rw [legOffOn_now]
    exact max_le hy (tickUp_le_ticksUp ..)
  exact Dev.each_inv (p := fun y => y.now ≤ ticksUp d.now) (fun m _ y hy => step (!b) m y hy)
    (Dev.each_inv (p := fun y => y.now ≤ ticksUp d.now) (fun m _ y hy => step b m y hy) (le_ticksUp d.now))

variable {ch : Nat}

theorem mem_legsOffBy (en : d.b (.leg n .ctl) LEG_CTL.FOEN = true) (foch : d.f (.leg n .ctl) LEG_CTL.FOCH = ch) {b : Bool} :
    n ∈ legsOffBy ch d b ↔ tbB d (d.legTb n) = b := by
  simp [legsOffBy, mem_fins, en, foch]

theorem each_legOffOn_seen {l : List (Fin 96)} (h : n ∉ l) (t0 : Nat) (b : Bool) (x : Dev) :
    (x.each l (legOffOn t0 b)).legSeen n = x.legSeen n :=
  Dev.each_kept (fun m hm y => legOffOn_seen (fun e => h (by rwa [e])) t0 b y) x

theorem each_legOffOn_eventOff {l : List (Fin 96)} (nodup : l.Nodup) (mem : n ∈ l) {t0 : Nat} {b : Bool} {x : Dev} (h5 : legShown x n ≠ 5)
    (h6 : legShown x n ≠ 6) : LegEventOff n (x.each l (legOffOn t0 b)) := by
  obtain ⟨l1, l2, h1, h2, e⟩ := Dev.each_split nodup mem (legOffOn t0 b) x
  have before := each_legOffOn_seen (fun hm => h1 n hm rfl) t0 b x
  have after := each_legOffOn_seen (fun hm => h2 n hm rfl) t0 b (legOffOn t0 b n (x.each l1 (legOffOn t0 b)))
  have shown : legShown ((x.each l1 (legOffOn t0 b)).at (tickUp b t0)) n = legShown x n :=
    legShown_congr (congrArg (·.2 .stat) before)
  rw [e]
  exact (legForceOff_eventOff (by rwa [shown]) (by rwa [shown])).of_seen after

theorem legsOffFrom_eventOff (en : d.b (.leg n .ctl) LEG_CTL.FOEN = true) (foch : d.f (.leg n .ctl) LEG_CTL.FOCH = ch)
    (h5 : legShown d n ≠ 5) (h6 : legShown d n ≠ 6) (b : Bool) : LegEventOff n (legsOffFrom ch b d) := by
  have nodup (x : Bool) : (legsOffBy ch d x).Nodup := (fins_nodup 96).filter _
  by_cases first : tbB d (d.legTb n) = b
  · have second : n ∉ legsOffBy ch d (!b) := by rw [mem_legsOffBy en foch, first]; simp
    exact (each_legOffOn_eventOff (nodup b) ((mem_legsOffBy en foch).2 first) h5 h6).of_seen (each_legOffOn_seen second ..)
  · have notFirst : n ∉ legsOffBy ch d b := by rwa [mem_legsOffBy en foch]
    have mem : n ∈ legsOffBy ch d (!b) := (mem_legsOffBy en foch).2 (by cases b <;> simpa using first)
    have shown : legShown (d.each (legsOffBy ch d b) (legOffOn d.now b)) n = legShown d n :=
      legShown_congr (congrArg (·.2 .stat) (each_legOffOn_seen notFirst d.now b d))
    exact each_legOffOn_eventOff (nodup (!b)) mem (by rwa [shown]) (by rwa [shown])

end

theorem forceOffTask_does {s : State} {n : Fin 96} {ch : Fin 256} {e : Nat} (up : Up s) (at_ : fabTaskAt s.toDev .forceOff ch = some e)
    (en : s.b (.leg n .ctl) LEG_CTL.FOEN = true) (foch : s.f (.leg n .ctl) LEG_CTL.FOCH = ch.val)
    (calm : CalmTo s (max (max s.now e) (ticksUp ((fabGot s.toDev ch e).getD (max s.now e)))))
    (h5 : legShown s.toDev n ≠ 5) (h6 : legShown s.toDev n ≠ 6) : Does (.forceOffTask ch) s fun t =>
      t.b (.leg n .stat) LEG_STAT.FOFF = true ∧ t.leg[n].hi.on = false ∧ t.leg[n].lo.on = false := by
  obtain ⟨x, hx⟩ : ∃ x, x = fabFound .forceOff ch e s.toDev := ⟨_, rfl⟩
  have now : x.now = (fabGot s.toDev ch e).getD (max s.now e) := by rw [hx]; rfl
  have seen : x.legSeen n = s.legSeen n := by rw [hx]; rfl
  have get (r : LegReg) : x.get (.leg n r) = s.get (.leg n r) := congrArg (·.2 r) seen
  obtain ⟨b, hb⟩ : ∃ b, legTaskOff ch.val x = legsOffFrom ch.val b x := ⟨_, legTaskOff_eq ch.val x⟩
  have made : fabTask .forceOff ch (legTaskOff ch.val) s.toDev = (legsOffFrom ch.val b x).at (max s.now e) := by
    rw [fabTask_clocked at_ rfl, ← hx, hb]
  have off : LegEventOff n (legsOffFrom ch.val b x) := legsOffFrom_eventOff (by rw [Dev.b, get]; exact en) (by rw [Dev.f, get]; exact foch)
    (by rw [legShown_congr (get .stat)]; exact h5) (by rw [legShown_congr (get .stat)]; exact h6) b
  refine .of_act (f := fabTask .forceOff ch (legTaskOff ch.val)) rfl up ?_ ?_
  · rw [made]
    refine calm.calm (max_le ?_ (le_max_left ..))
    rw [← now]
    exact (legsOffFrom_now ch.val b x).trans (le_max_right ..)
  · rw [made, settle_b, settle_leg]
    exact ⟨off.foff, off.dark.hi, off.dark.lo⟩

/-! ### FOFF_RELEASE_REQUEST -/

section
variable {s : State} {by_ : Requester} {n : Fin 96} (asks : Asks by_ s (.leg n .stat)) (foff : s.b (.leg n .stat) LEG_STAT.FOFF = true)

/-- A write of 0 leaves LEGn_STAT as it is. -/
theorem plainWrite_stat_zero (old : Word) : plainWrite (LegReg.access .stat) old 0 = old := by
  have h : plainWrite (LegReg.access .stat) old 0 = old &&& BitVec.allOnes 32 &&& BitVec.allOnes 32 := by
    simp [plainWrite, LegReg.access]
  rw [h, BitVec.and_allOnes, BitVec.and_allOnes]

/-- A write of FOFF alone clears no flag. -/
theorem legWriteStat_foff (n : Fin 96) (d : Dev) : ∃ e, legWriteStat n LEG_STAT.FOFF.mask d = legRelease n e ∧ (∀ r, e.get r = d.get r) ∧
    e.now = d.now ∧ e.leg = d.leg := by
  have none : LEG_STAT.FOFF.put 0 LEG_STAT.FOFF.mask = 0 := by decide
  have bit : LEG_STAT.FOFF.bit LEG_STAT.FOFF.mask = true := by decide
  refine ⟨d.wr (.leg n .stat) 0, ?_, fun r => ?_, rfl, rfl⟩
  · rw [legWriteStat, none, bit, if_pos rfl]
  · by_cases h : r = .leg n .stat
    · rw [h, Dev.get_wr_same]
      exact plainWrite_stat_zero _
    · exact Dev.get_wr_ne d h 0

include asks foff

theorem foffRelease_running (run : s.tbRun (s.legTb n) = true) : Does (.foffReleaseRequest by_ n) s fun t =>
    t.leg[n].relReq = true ∧ t.b (.leg n .stat) LEG_STAT.FOFF = true := by
  obtain ⟨x, made, get, now, -⟩ := legWriteStat_foff n (asked by_ s.toDev)
  have get' {r : Reg} (h : ∀ k, r ≠ .sys (.taguse k)) : x.get r = s.get r := (get r).trans (get_asked h)
  have foff' : x.b (.leg n .stat) LEG_STAT.FOFF = true := by rw [Dev.b, get' (by simp)]; exact foff
  have run' : x.tbRun (x.legTb n) = true := by rw [Dev.tbRun, Dev.legTb, Dev.b, Dev.f, get' (by simp), get' (by simp)]; exact run
  have rel : legRelease n x = x.legU n fun g => { g with relReq := true } := by rw [legRelease, foff', if_pos rfl, run', if_pos rfl]
  refine .of_write (e := x.legU n fun g => { g with relReq := true }) rfl asks (by simp [heldMask]) (made.trans rel)
    (asks.up.calm (by rw [Dev.legU_now, now, asked_now])) ?_
  rw [settle_leg, settle_b, Dev.legU_leg_same, Dev.b, Dev.legU_get]
  exact ⟨rfl, foff'⟩

theorem foffRelease_stopped (stopped : s.tbRun (s.legTb n) = false) : Does (.foffReleaseRequest by_ n) s fun t =>
    t.b (.leg n .stat) LEG_STAT.FOFF = false := by
  obtain ⟨x, made, get, now, -⟩ := legWriteStat_foff n (asked by_ s.toDev)
  have get' {r : Reg} (h : ∀ k, r ≠ .sys (.taguse k)) : x.get r = s.get r := (get r).trans (get_asked h)
  have foff' : x.b (.leg n .stat) LEG_STAT.FOFF = true := by rw [Dev.b, get' (by simp)]; exact foff
  have run' : x.tbRun (x.legTb n) = false := by rw [Dev.tbRun, Dev.legTb, Dev.b, Dev.f, get' (by simp), get' (by simp)]; exact stopped
  obtain ⟨y, hy⟩ : ∃ y, y = (x.setB (.leg n .stat) LEG_STAT.FOFF false).legU n fun g => { g with relReq := false } := ⟨_, rfl⟩
  have rel : legRelease n x = legRefresh n y := by rw [legRelease, foff', if_pos rfl, run', if_neg Bool.false_ne_true, hy]
  have runs : LegRuns n y (legRefresh n y) := by simp
  have cleared : y.b (.leg n .stat) LEG_STAT.FOFF = false := by
    rw [hy, Dev.b, Dev.legU_get]
    exact Dev.b_setB _ _ (by decide) _
  refine .of_write (e := legRefresh n y) rfl asks (by simp [heldMask]) (made.trans rel)
    (asks.up.calm (by rw [runs.now, hy, Dev.legU_now, Dev.setB_now, now, asked_now])) ?_
  rw [settle_b, runs.foff, cleared]

end

end Sys2Proof.Machine
end

section
namespace Sys2Proof.Proofs
open Sys2Proof Sys2Proof.Machine

/-- Settles O38: each command's clause is one of the lemmas above, which go from the command's action on the leg to what holds after it. -/
theorem legs : Obligations.Legs := by
  unfold Obligations.Legs
  intro s by_ n v w on ch up d g b shown held q foff staging limit still lastReg
  have quiet {t : Nat} (h : still t) : LegStill n t s.toDev := ⟨h.1, h.2⟩
  refine ⟨fun t => LegSt.not_both_on (legOn_one_off n w t d), fun x t => ⟨SwSt.turn_stage .., fun way u => SwSt.turn_stage_before way x⟩,
    fun run shown full apart _ => ⟨fun unspent cmd still calm => ?_, fun unspent cmd still calm => ?_⟩, deadtimeEnd_none up,
    fun o pend run => ?_, onTimeCut_does rfl up, onTimeCut_none rfl up,
    fun asks => ⟨legRunWrite_stopped asks, legRunWrite_running asks, legRunWrite_staged asks, fun force new held foff still => ⟨?_, ?_, ?_⟩⟩,
    fun which asks => ⟨legCompareWrite_owned asks, fun free stage => ?_, legCompareWrite_stopped asks⟩,
    ?_,
    fun k hk asks => ⟨legcommit_waits asks, fun _ => (heldMask_legcommit hk).trans ?_,
      fun free named x => legcommit_stopped asks hk free named, legcommit_others asks⟩,
    fun e at_ en foch => ?_, fun asks foff => ⟨foffRelease_running asks foff, foffRelease_stopped asks foff⟩⟩
  · exact edgeMatch_does (b := false) up run shown full apart unspent cmd (quiet still) calm
  · exact edgeMatch_does (b := true) up run shown full apart unspent cmd (quiet still) calm
  · intro raw dt due free calm
    refine ⟨fun free some_ off => ?_, deadtimeEnd_held up pend run rfl calm⟩
    exact deadtimeEnd_free up pend run rfl calm free.1 free.2 (left_ne_zero_of_mul some_) off
  · exact fun fsync => legForceWrite_word asks new
  · intro force_ne other
    refine does_mono (legForceWrite_now asks new held foff (quiet still).due force_ne other) fun t h => ?_
    exact ⟨h.1, h.2.state, h.2.both, h.2.high, h.2.low⟩
  · exact legForceWrite_later asks new
  · rw [legCompareWrite_staged asks free stage]
    cases which <;> rfl
  · intro tc new asks free stage run shown prof updn still unspent ahead due
    exact ⟨legCompareWrite_deferred asks free stage run rfl,
      fun before => legCompareWrite_moves asks free stage run rfl shown prof updn (quiet still) unspent ahead before rfl⟩
  · rw [tbPll]
    split <;> rfl
  · intro got calm h5 h6
    exact forceOffTask_does up at_ en foch calm h5 h6

end Sys2Proof.Proofs
end

section
/-!
SUPPORT. What shows of one converter: its state, its registers, its bits in READY1 and ADCCALSKIP, its error lines, and the timebases it
follows. The capture engine, the offers to loop engines and the host's replies leave all of it as it is.
-/
set_option Elab.async false
namespace Sys2Proof.Machine
open Sys2Proof

/-- Converter m as others find it, with the timebases. `line` holds of its lines 128 + m, 160 + m and 192 + m that wait for the
collector. -/
structure AdcView where
  tbs : TbView
  st : AdcSt
  reg : AdcReg → Word
  ready : Bool
  skipped : Bool
  line : Nat → Bool

/-- Line l is one of those of converter m. -/
def adcLine (m : Fin 32) (l : Nat) : Bool := decide (128 ≤ l ∧ l < 224 ∧ l % 32 = m.val)

def Dev.adcView (m : Fin 32) (d : Dev) : AdcView where
  tbs := d.tbs
  st := d.adc[m]
  reg r := d.get (.adc m r)
  ready := (d.get (.sys (.ready 1))).getLsbD m.val
  skipped := (d.get (.adcg .adccalskip)).getLsbD m.val
  line l := adcLine m l && decide (l ∈ d.fc.fresh)

/-- A register that does not show in the view of converter m. -/
structure AdcHides (m : Fin 32) (r : Reg) : Prop where
  tb : ∀ b q, r ≠ .tb b q
  adc : ∀ q, r ≠ .adc m q
  skip : r ≠ .adcg .adccalskip
  ready : ∀ k, r ≠ .sys (.ready k)

@[simp] theorem adcHides_iff (m : Fin 32) (r : Reg) :
    AdcHides m r ↔ (∀ b q, r ≠ .tb b q) ∧ (∀ q, r ≠ .adc m q) ∧ r ≠ .adcg .adccalskip ∧ ∀ k, r ≠ .sys (.ready k) :=
  ⟨fun ⟨tb, adc, skip, ready⟩ => ⟨tb, adc, skip, ready⟩, fun ⟨tb, adc, skip, ready⟩ => ⟨tb, adc, skip, ready⟩⟩

theorem mem_insLine_iff {a l : Nat} {ls : List Nat} : a ∈ insLine l ls ↔ a = l ∨ a ∈ ls := by
  induction ls with
  | nil => simp [insLine]
  | cons x ls ih =>
    unfold insLine
    split
    · next h => simp [h]
    · split
      · simp
      · rw [List.mem_cons, ih, List.mem_cons]
        exact or_left_comm

section
variable {m : Fin 32} {d e : Dev}

theorem Dev.adcView_eq (tbs : e.tbs = d.tbs) (st : e.adc[m] = d.adc[m]) (get : ∀ r, ¬ AdcHides m r → e.get r = d.get r)
    (fresh : ∀ l, adcLine m l = true → (l ∈ e.fc.fresh ↔ l ∈ d.fc.fresh)) : e.adcView m = d.adcView m := by
  have line : (fun l => adcLine m l && decide (l ∈ e.fc.fresh)) = fun l => adcLine m l && decide (l ∈ d.fc.fresh) := by
    funext l
    cases h : adcLine m l with
    | false => rfl
    | true => simp [fresh l h]
  simp only [Dev.adcView, tbs, st, line, get (.sys (.ready 1)) (by simp), get (.adcg .adccalskip) (by simp), fun r => get (.adc m r) (by simp)]

theorem Dev.adcView_congr (now : e.now = d.now) (sys : e.sys = d.sys) (tb : e.tb = d.tb) (adc : e.adc = d.adc) (regs : e.regs = d.regs)
    (fc : e.fc = d.fc) : e.adcView m = d.adcView m :=
  Dev.adcView_eq (Dev.tbs_congr now sys tb regs) (by rw [adc]) (fun r _ => Dev.get_congr regs r) (fun _ _ => by rw [fc])

section
variable (h : e.adcView m = d.adcView m)
include h

theorem tbs_of_adcView : e.tbs = d.tbs := congrArg AdcView.tbs h
theorem adc_of_adcView : e.adc[m] = d.adc[m] := congrArg AdcView.st h
theorem get_of_adcView (r : AdcReg) : e.get (.adc m r) = d.get (.adc m r) := congrArg (AdcView.reg · r) h
theorem f_of_adcView (r : AdcReg) (f : Fld) : e.f (.adc m r) f = d.f (.adc m r) f := by rw [Dev.f, get_of_adcView h]; rfl
theorem b_of_adcView (r : AdcReg) (f : Fld) : e.b (.adc m r) f = d.b (.adc m r) f := by rw [Dev.b, get_of_adcView h]; rfl
theorem ready_of_adcView : (e.get (.sys (.ready 1))).getLsbD m.val = (d.get (.sys (.ready 1))).getLsbD m.val := congrArg AdcView.ready h
theorem skipped_of_adcView : (e.get (.adcg .adccalskip)).getLsbD m.val = (d.get (.adcg .adccalskip)).getLsbD m.val :=
  congrArg AdcView.skipped h
theorem fresh_of_adcView {l : Nat} (hl : adcLine m l = true) : l ∈ e.fc.fresh ↔ l ∈ d.fc.fresh := by
  simpa [Dev.adcView, hl] using congrArg (AdcView.line · l) h

end

/-! ### The device's updates -/

@[simp] theorem Dev.put_adcView {r : Reg} (h : AdcHides m r) (v : Word) : (d.put r v).adcView m = d.adcView m :=
  Dev.adcView_eq (Dev.put_tbs h.tb v) rfl (fun _ hq => Dev.get_put_ne d (fun e => hq (by rwa [e])) v) fun _ _ => Iff.rfl
@[simp] theorem Dev.wr_adcView {r : Reg} (h : AdcHides m r) (v : Word) : (d.wr r v).adcView m = d.adcView m := Dev.put_adcView h _
@[simp] theorem Dev.setF_adcView {r : Reg} (h : AdcHides m r) (f : Fld) (v : Nat) : (d.setF r f v).adcView m = d.adcView m :=
  Dev.put_adcView h _
@[simp] theorem Dev.setB_adcView {r : Reg} (h : AdcHides m r) (f : Fld) (v : Bool) : (d.setB r f v).adcView m = d.adcView m :=
  Dev.put_adcView h _
@[simp] theorem Dev.flag_adcView {r : Reg} (h : AdcHides m r) (f : Fld) : (d.flag r f).adcView m = d.adcView m := Dev.put_adcView h _
@[simp] theorem Dev.bumpBy_adcView {r : Reg} (h : AdcHides m r) (f : Fld) (k : Nat) : (d.bumpBy r f k).adcView m = d.adcView m :=
  Dev.put_adcView h _
@[simp] theorem Dev.bump_adcView {r : Reg} (h : AdcHides m r) (f : Fld) : (d.bump r f).adcView m = d.adcView m := Dev.put_adcView h _
@[simp] theorem Dev.setBit_adcView {r : Reg} (h : AdcHides m r) (i : Nat) (v : Bool) : (d.setBit r i v).adcView m = d.adcView m :=
  Dev.put_adcView h _
@[simp] theorem Dev.flagIf_adcView {r : Reg} (h : AdcHides m r) (c : Bool) (f : Fld) : (d.flagIf c r f).adcView m = d.adcView m := by
  unfold Dev.flagIf
  split
  · exact Dev.flag_adcView h f
  · rfl

theorem Dev.pulse_adcView {l : Nat} (h : adcLine m l = false) : (d.pulse l).adcView m = d.adcView m :=
  Dev.adcView_eq rfl rfl (fun _ _ => rfl) fun k hk => by
    have : k ≠ l := fun e => by simp [e, h] at hk
    simp [Dev.pulse, mem_insLine_iff, this]
@[simp] theorem Dev.pulse_adcView_of_le {l : Nat} (h : 224 ≤ l) : (d.pulse l).adcView m = d.adcView m :=
  Dev.pulse_adcView (by simp [adcLine]; omega)
@[simp] theorem Dev.raise_adcView {p : Nat} : (d.raise p).adcView m = d.adcView m :=
  Dev.adcView_congr (by simp) (by simp) (by simp) (by simp) (by simp) (by simp)
@[simp] theorem Dev.tagTake_adcView {k : Fin 70} {i : Nat} : (d.tagTake k i).adcView m = d.adcView m :=
  Dev.adcView_eq Dev.tagTake_tbs rfl (fun r hr => Dev.get_setF_ne _ (fun e => hr (by simp [e])) _ _) fun _ _ => Iff.rfl
@[simp] theorem Dev.tagBack_adcView {k : Fin 70} {i : Nat} : (d.tagBack k i).adcView m = d.adcView m := rfl
@[simp] theorem Dev.bumpFree_adcView : d.bumpFree.adcView m = d.adcView m := rfl
@[simp] theorem Dev.free_adcView {k : Nat} : Dev.adcView m { d with free := k } = d.adcView m := rfl
@[simp] theorem Dev.capU_adcView {r : Fin 16} {g : CapSt → CapSt} : (d.capU r g).adcView m = d.adcView m := rfl
@[simp] theorem Dev.leU_adcView {n : Fin 64} {g : LeSt → LeSt} : (d.leU n g).adcView m = d.adcView m := rfl
@[simp] theorem Dev.send_adcView {o : Outbound} : (d.send o).adcView m = d.adcView m := rfl
@[simp] theorem Dev.hstU_adcView {g : HstSt → HstSt} : (d.hstU g).adcView m = d.adcView m := rfl
@[simp] theorem Dev.hst_adcView {x : HstSt} : Dev.adcView m { d with hst := x } = d.adcView m := rfl
@[simp] theorem Dev.portU_adcView {p : Fin 2} {g : PortSt → PortSt} : (d.portU p g).adcView m = d.adcView m := rfl
@[simp] theorem Dev.replyLeft_adcView {i : Iface} {b : List Byte} {t : Nat} : (d.replyLeft i b t).adcView m = d.adcView m := by
  unfold Dev.replyLeft
  repeat' split
  all_goals rfl

@[simp] theorem Dev.ite_adcView (c : Prop) [Decidable c] (d e : Dev) :
    (if c then d else e).adcView m = if c then d.adcView m else e.adcView m := apply_ite ..
@[simp] theorem ite_snd_adcView {α : Type} (c : Prop) [Decidable c] (p q : α × Dev) :
    (if c then p else q).2.adcView m = if c then p.2.adcView m else q.2.adcView m := by split <;> rfl
@[simp] theorem Dev.each_adcView {α : Type} {l : List α} {f : α → Dev → Dev} (h : ∀ a ∈ l, ∀ d, (f a d).adcView m = d.adcView m) :
    (d.each l f).adcView m = d.adcView m := Dev.each_kept h d
@[simp] theorem Dev.foldl_adcView {α : Type} {l : List α} {f : Dev → α → Dev} (h : ∀ a ∈ l, ∀ d, (f d a).adcView m = d.adcView m) :
    (l.foldl f d).adcView m = d.adcView m := Dev.each_adcView (f := fun a d => f d a) h

/-! ### The capture engine and the operands of loop engines -/

@[simp] theorem Dev.msix_adcView {v : Nat} : (d.msix v).adcView m = d.adcView m := by simp [Dev.msix]
@[simp] theorem capWm_adcView {r : Fin 16} : (capWm r d).adcView m = d.adcView m := by simp [capWm]
@[simp] theorem capHostErr_adcView {r : Fin 16} : (capHostErr r d).adcView m = d.adcView m := by simp [capHostErr]
@[simp] theorem capWriteBack_adcView {r : Fin 16} : (capWriteBack r d).adcView m = d.adcView m := by simp [capWriteBack]
@[simp] theorem capUnreported_adcView {r : Fin 16} {before : Bool} {k ts : Nat} : (capUnreported r before k ts d).adcView m = d.adcView m := by
  simp [capUnreported]
@[simp] theorem capDrop_adcView {r : Fin 16} {before : Bool} {x : CapLine} : (capDrop r before x d).adcView m = d.adcView m := by
  simp [capDrop]
@[simp] theorem capWords_adcView {r : Fin 16} {ws : List Word} : (capWords r ws d).2.adcView m = d.adcView m := by
  unfold capWords
  split <;> rfl
@[simp] theorem capIssue_adcView {r : Fin 16} {x : CapLine} : (capIssue r x d).adcView m = d.adcView m := by
  unfold capIssue
  dsimp only
  split <;> simp
@[simp] theorem capNoRoom_adcView {r : Fin 16} : (capNoRoom r d).2.adcView m = d.adcView m := by simp [capNoRoom]
@[simp] theorem capCloseOne_adcView {r : Fin 16} : (capCloseOne r d).adcView m = d.adcView m := by simp [capCloseOne]
@[simp] theorem capClose_adcView {r : Fin 16} : (capClose r d).adcView m = d.adcView m := by simp [capClose]
@[simp] theorem capOpen_adcView {r : Fin 16} {t : Nat} : (capOpen r t d).adcView m = d.adcView m := by simp [capOpen]
@[simp] theorem capPut_adcView {r : Fin 16} {x : CapRec} {ws : List Word} : (capPut r x ws d).adcView m = d.adcView m := by simp [capPut]
@[simp] theorem capPlace_adcView {r : Fin 16} {x : CapRec} {ws : List Word} : (capPlace r x ws d).adcView m = d.adcView m := by
  simp [capPlace]
@[simp] theorem capPlacePart_adcView {r : Fin 16} {x : CapRec} {ws : List Word} : (capPlacePart r x ws d).adcView m = d.adcView m := by
  simp [capPlacePart]
@[simp] theorem capPlaceAdc_adcView {r : Fin 16} {x : CapRec} {n : Fin 32} {entry data : Nat} {sat tv : Bool} :
    (capPlaceAdc r x n entry sat tv data d).adcView m = d.adcView m := by
  simp [capPlaceAdc]
@[simp] theorem capAgain_adcView {r : Fin 16} {x : CapRec} {d : Dev} : (capAgain r x d).adcView m = d.adcView m := by
  unfold capAgain
  split <;> simp
@[simp] theorem capRepack_adcView {r : Fin 16} : (capRepack r d).adcView m = d.adcView m := by simp -implicitDefEqProofs [capRepack]
@[simp] theorem capDropAll_adcView {r : Fin 16} {l : List CapLine} : (capDropAll r l d).adcView m = d.adcView m := by
  unfold capDropAll
  induction l with
  | nil => rfl
  | cons x l ih => simp [ih]
@[simp] theorem capIssueAll_adcView {r : Fin 16} {k : Nat} : (capIssueAll r k d).adcView m = d.adcView m := by
  induction k generalizing d with
  | zero => rfl
  | succ k ih =>
    unfold capIssueAll
    repeat' split
    all_goals simp [ih]
@[simp] theorem capPump_adcView {r : Fin 16} : (capPump r d).adcView m = d.adcView m := by simp [capPump]
@[simp] theorem capAdc_adcView {n : Fin 32} {entry data ts : Nat} {sat tv : Bool} :
    (capAdc n entry sat tv data ts d).adcView m = d.adcView m := by
  simp [capAdc]
@[simp] theorem leFromAdc_adcView {n : Fin 32} {entry data : Nat} {diff : Bool} :
    (leFromAdc n entry diff data d).adcView m = d.adcView m := by
  simp [leFromAdc, leOfferAll, leOffer]

/-! ### Replies to the host -/

@[simp] theorem lnkPumpN_adcView {p : Fin 2} {k : Nat} : (lnkPumpN p k d).adcView m = d.adcView m := by
  induction k generalizing d with
  | zero => rfl
  | succ k ih =>
    unfold lnkPumpN
    dsimp only
    repeat' split
    all_goals simp only [ih, Dev.replyLeft_adcView]
    all_goals rfl
@[simp] theorem lnkPump_adcView : (lnkPump d).adcView m = d.adcView m := by simp [lnkPump]
@[simp] theorem lnkSend_adcView {p : Fin 2} {f : Frame} {fwd : Bool} : (lnkSend p f fwd d).adcView m = d.adcView m := by simp [lnkSend]
@[simp] theorem lnkNoRoute_adcView : (lnkNoRoute d).adcView m = d.adcView m := by simp [lnkNoRoute]
@[simp] theorem lnkSendPacket_adcView {p : Fin 2} {f : Frame} {fwd : Bool} : (lnkSendPacket p f fwd d).adcView m = d.adcView m := by
  simp [lnkSendPacket]
@[simp] theorem lnkBroadcast_adcView {send : Fin 2 → Dev → Dev} (h : ∀ p d, (send p d).adcView m = d.adcView m) :
    (lnkBroadcast send d).adcView m = d.adcView m := by
  simp [lnkBroadcast, h]
@[simp] theorem lnkOwnPacket_adcView {dst kind : Nat} {bytes : List Byte} : (lnkOwnPacket dst kind bytes d).adcView m = d.adcView m := by
  unfold lnkOwnPacket
  dsimp only
  repeat' split
  all_goals simp
@[simp] theorem hmbLoad_adcView : (hmbLoad d).adcView m = d.adcView m := by
  unfold hmbLoad
  split <;> simp
@[simp] theorem hstQueue_adcView {i : Iface} {dst : Nat} {b : List Byte} : (hstQueue i dst b d).adcView m = d.adcView m := by
  unfold hstQueue
  split <;> simp
@[simp] theorem hstReply_adcView {h : CmdHdr} {status : Nat} {data : List Byte} : (hstReply h status data d).adcView m = d.adcView m := by
  simp [hstReply, hstPut]
@[simp] theorem hstLateN_adcView {k : Nat} : (hstLateN k d).adcView m = d.adcView m := by
  induction k generalizing d with
  | zero => rfl
  | succ k ih =>
    unfold hstLateN
    split <;> simp [ih]
@[simp] theorem hstFlushN_adcView {k : Nat} : (hstFlushN k d).adcView m = d.adcView m := by
  induction k generalizing d with
  | zero => rfl
  | succ k ih =>
    unfold hstFlushN
    repeat' split
    all_goals simp [ih, hstPop]
@[simp] theorem hstFlush_adcView : (hstFlush d).adcView m = d.adcView m := by simp [hstFlush]
@[simp] theorem hstCalCheck_adcView : (hstCalCheck d).adcView m = d.adcView m := by
  unfold hstCalCheck
  split <;> simp [calReply]

/-- The controller's following of its sources does not show. -/
@[simp] theorem settle_adcView : (settle d).adcView m = d.adcView m :=
  Dev.adcView_congr (by simp) (by simp) (by simp) (by simp) (by simp) (by simp)

end

end Sys2Proof.Machine
end

section
/-!
SUPPORT. A converter acts within itself: what the others show stands, so that what a command does to several converters is what it does
to each.
-/
set_option Elab.async false
namespace Sys2Proof.Machine
open Sys2Proof

theorem Dev.adcU_adc_same (d : Dev) (n : Fin 32) (g : AdcSt → AdcSt) : (d.adcU n g).adc[n] = g d.adc[n] := by simp [Dev.adcU]

theorem Dev.adcU_adc_ne (d : Dev) {n m : Fin 32} (h : n ≠ m) (g : AdcSt → AdcSt) : (d.adcU n g).adc[m] = d.adc[m] := by
  have : n.val ≠ m.val := fun e => h (Fin.ext e)
  simp [Dev.adcU, this]

section
variable {n m : Fin 32} {d : Dev}

theorem Dev.adcU_adcView (h : n ≠ m) (g : AdcSt → AdcSt) : (d.adcU n g).adcView m = d.adcView m :=
  Dev.adcView_eq rfl (Dev.adcU_adc_ne d h g) (fun _ _ => rfl) fun _ _ => Iff.rfl

/-- A line of a converter's class is no line of another converter. -/
theorem Dev.pulse_adcView_ne (h : n ≠ m) {k : Nat} (hk : k % 32 = 0) : (d.pulse (k + n.val)).adcView m = d.adcView m := by
  have : n.val ≠ m.val := fun e => h (Fin.ext e)
  refine Dev.pulse_adcView ?_
  simp only [adcLine, decide_eq_false_iff_not]
  omega

/-- A bit of ADCCALSKIP is no bit of another converter. -/
theorem Dev.setSkip_adcView (h : n ≠ m) (v : Bool) : (d.setBit (.adcg .adccalskip) n.val v).adcView m = d.adcView m := by
  have apart : ¬ (n.val ≤ m.val ∧ m.val < n.val + Fld.width ⟨n.val, n.val⟩) := by
    have : n.val ≠ m.val := fun e => h (Fin.ext e)
    simp only [Fld.width]
    omega
  have bit : ((d.setBit (.adcg .adccalskip) n.val v).get (.adcg .adccalskip)).getLsbD m.val =
      (d.get (.adcg .adccalskip)).getLsbD m.val := by
    rw [Dev.setBit, Dev.setB, Dev.setF, Dev.get_put_same, Fld.getLsbD_put, if_neg apart]
    simp [m.isLt]
  have get (r : Reg) (hr : r ≠ .adcg .adccalskip) : (d.setBit (.adcg .adccalskip) n.val v).get r = d.get r := Dev.get_setF_ne d hr _ _
  have tbs : (d.setBit (.adcg .adccalskip) n.val v).tbs = d.tbs := Dev.put_tbs (by simp) _
  simp only [Dev.adcView, tbs, bit, get (.sys (.ready 1)) (by simp), fun r => get (.adc m r) (by simp)]
  rfl

/-! ### One converter beside another -/

section
variable (h : n ≠ m)
include h

theorem adcRunSet_adcView (v : Bool) : (adcRunSet n v d).adcView m = d.adcView m := Dev.setB_adcView (by simp [h]) _ _

theorem adcGo_adcView (t : Nat) : (adcGo n t d).adcView m = d.adcView m := by rw [adcGo, adcRunSet_adcView h, Dev.adcU_adcView h]

theorem adcStart_adcView : (adcStart n d).adcView m = d.adcView m := by
  unfold adcStart
  repeat' split
  all_goals simp only [Dev.adcU_adcView h, adcGo_adcView h, adcRunSet_adcView h]

theorem adcEnable_adcView : (adcEnable n d).adcView m = d.adcView m := by
  unfold adcEnable
  split
  · exact Dev.adcU_adcView h _
  · exact adcStart_adcView h

theorem adcDisable_adcView : (adcDisable n d).adcView m = d.adcView m := by
  unfold adcDisable
  dsimp only
  split
  · rw [Dev.adcU_adcView h, Dev.adcU_adcView h]
  all_goals rw [adcRunSet_adcView h, Dev.setB_adcView (by simp [h]), Dev.adcU_adcView h, Dev.adcU_adcView h]

theorem adcWriteCtl_adcView (v : Word) : (adcWriteCtl n v d).adcView m = d.adcView m := by
  unfold adcWriteCtl
  extract_lets old en locked keep differs guard v1 v2 v3 calRej v4 d1
  have h1 : d1.adcView m = d.adcView m := by
    simp only [d1]
    rw [Dev.flagIf_adcView (by simp [h]), Dev.wr_adcView (by simp [h])]
  split
  · rw [adcEnable_adcView h, h1]
  · split
    · rw [adcDisable_adcView h, h1]
    · exact h1

theorem adcGstartOne_adcView : (adcGstartOne n d).adcView m = d.adcView m := by
  unfold adcGstartOne
  repeat' split
  · exact Dev.flag_adcView (by simp [h]) _
  · exact adcEnable_adcView h
  · exact adcWriteCtl_adcView h _

theorem adcGstopOne_adcView : (adcGstopOne n d).adcView m = d.adcView m := by
  unfold adcGstopOne
  split
  · rw [adcDisable_adcView h, Dev.setB_adcView (by simp [h])]
  · rfl

theorem adcTrigger_adcView (t : Nat) : (adcTrigger n t d).adcView m = d.adcView m := by
  unfold adcTrigger
  repeat' split
  · rw [adcPass, Dev.flag_adcView (by simp [h]), Dev.adcU_adcView h]
  · rw [Dev.flag_adcView (by simp [h]), Dev.adcU_adcView h]
  · rw [Dev.pulse_adcView_ne h rfl, Dev.raise_adcView, Dev.bump_adcView (by simp [h]), Dev.flag_adcView (by simp [h])]
  · rfl

/-- A calibration that fails. -/
theorem adcCalDone_adcView (gain offset : Nat) : (adcCalDone n false gain offset d).adcView m = d.adcView m := by
  simp only [adcCalDone, Bool.false_eq_true, if_false]
  rw [Dev.pulse_adcView_ne h rfl, Dev.setBit_adcView (by simp), Dev.flag_adcView (by simp [h]), Dev.raise_adcView,
    Dev.flag_adcView (by simp [h]), Dev.setB_adcView (by simp [h]), Dev.adcU_adcView h]

theorem adcCalOne_adcView : (adcCalOne n d).adcView m = d.adcView m := by
  unfold adcCalOne
  repeat' split
  · rw [Dev.flag_adcView (by simp [h]), Dev.adcU_adcView h]
  · exact adcCalDone_adcView h 0 0
  · exact Dev.setSkip_adcView h true

end

/-! ### Something done to each of several converters -/

theorem each_adcView_of_notMem {l : List (Fin 32)} (hm : m ∉ l) {f : Fin 32 → Dev → Dev}
    (others : ∀ n, n ≠ m → ∀ d, (f n d).adcView m = d.adcView m) : (d.each l f).adcView m = d.adcView m :=
  Dev.each_adcView fun n hn d => others n (fun e => hm (e ▸ hn)) d

/-- One of several converters shows what is done to it on a device in which it showed what it showed at first. -/
theorem each_adcView_of_mem {l : List (Fin 32)} (nodup : l.Nodup) (mem : m ∈ l) {f : Fin 32 → Dev → Dev}
    (others : ∀ n, n ≠ m → ∀ d, (f n d).adcView m = d.adcView m) (d : Dev) :
    ∃ x, x.adcView m = d.adcView m ∧ (d.each l f).adcView m = (f m x).adcView m := by
  obtain ⟨l1, l2, h1, h2, made⟩ := Dev.each_split nodup mem f d
  refine ⟨d.each l1 f, each_adcView_of_notMem (fun hm => h1 m hm rfl) others, ?_⟩
  rw [made]
  exact each_adcView_of_notMem (fun hm => h2 m hm rfl) others

end

end Sys2Proof.Machine
end

section
/-!
SUPPORT. Legs, comparators, timebases, the shroud and the link's clock leave the converters' state and registers as they are.
-/
set_option Elab.async false
namespace Sys2Proof.Machine
open Sys2Proof

/-- The converters: their states and their registers. -/
def Dev.adcs (d : Dev) : Vector AdcSt 32 × (Fin 32 → AdcReg → Word) := (d.adc, fun n r => d.get (.adc n r))

theorem Dev.adcs_eq {d e : Dev} (adc : e.adc = d.adc) (get : ∀ n r, e.get (.adc n r) = d.get (.adc n r)) : e.adcs = d.adcs := by
  simp only [Dev.adcs, adc, get]

section
variable {d e : Dev} (h : e.adcs = d.adcs)
include h

theorem adc_of_adcs : e.adc = d.adc := congrArg Prod.fst h
theorem get_of_adcs (n : Fin 32) (r : AdcReg) : e.get (.adc n r) = d.get (.adc n r) := congrArg (·.2 n r) h
theorem f_of_adcs (n : Fin 32) (r : AdcReg) (f : Fld) : e.f (.adc n r) f = d.f (.adc n r) f := by rw [Dev.f, get_of_adcs h]; rfl
theorem b_of_adcs (n : Fin 32) (r : AdcReg) (f : Fld) : e.b (.adc n r) f = d.b (.adc n r) f := by rw [Dev.b, get_of_adcs h]; rfl

end

/-! ### The clockwork of a leg -/

section
variable {n : Fin 96} {w : Sw} {t : Nat} {d : Dev}

@[simp] theorem cmpLegEdge_adc {on : Bool} : (cmpLegEdge n w on t d).adc = d.adc :=
  cmpLegEdge_keeps (fun _ _ _ => rfl) (fun _ _ => rfl) n w on t d
@[simp] theorem legOff_adc : (legOff n w t d).adc = d.adc := by
  unfold legOff
  dsimp only
  split <;> simp
@[simp] theorem adtShut_adc : (adtShut n w t d).adc = d.adc := rfl
@[simp] theorem legUnpend_adc : (legUnpend n d).adc = d.adc := by
  unfold legUnpend
  split <;> rfl
@[simp] theorem legDark_adc : (legDark n t d).adc = d.adc := by simp [legDark]
@[simp] theorem legBothOff_adc : (legBothOff n t d).adc = d.adc := by simp [legBothOff]
@[simp] theorem legCutCount_adc : (legCutCount n w d).adc = d.adc := by
  unfold legCutCount
  dsimp only
  split <;> simp
@[simp] theorem legOn_adc : (legOn n w t d).adc = d.adc := by
  rw [legOn_eq]
  repeat' split
  all_goals simp [legRefused, legHoldBit, legRaised]
@[simp] theorem legFire_adc : (legFire n d).adc = d.adc := by
  unfold legFire
  split
  · rfl
  · dsimp only
    split <;> simp
@[simp] theorem legOver_adc : (legOver n t w d).adc = d.adc := by
  unfold legOver
  split <;> simp
@[simp] theorem legFired_adc : (legFired n t d).adc = d.adc := by
  unfold legFired
  repeat' split
  all_goals simp
@[simp] theorem legCatch_adc : (legCatch n t d).adc = d.adc := by simp [legCatch_eq]
@[simp] theorem legPend_adc : (legPend n w t d).adc = d.adc := by
  unfold legPend
  dsimp only
  split <;> simp
@[simp] theorem legCmd_adc {v : Bool} : (legCmd n v t d).adc = d.adc := by
  unfold legCmd
  dsimp only
  split <;> simp
@[simp] theorem legEmit_adc {e : Edge} : (legEmit n e t d).adc = d.adc := by cases e <;> simp [legEmit]
@[simp] theorem legForced_adc : (legForced n w t d).adc = d.adc := by
  unfold legForced
  dsimp only
  repeat' split
  all_goals simp
@[simp] theorem legTurns_adc {first : Bool} : (legTurns n t first d).adc = d.adc := by
  unfold legTurns
  repeat' split
  all_goals simp [legShow]
  unfold legEnters
  split <;> simp
@[simp] theorem legSettle_adc {first : Bool} : (legSettle n t first d).adc = d.adc := by simp [legSettle_eq]
@[simp] theorem legHold_adc {c : Nat} : (legHold n c d).adc = d.adc := by simp [legHold, legRefresh, legHoldBit]

/-! ### A leg at a period start -/

@[simp] theorem legAdapt_adc : (legAdapt n t d).adc = d.adc := by
  unfold legAdapt
  extract_lets g replace adt lim lo hi clear v w d1 d2 miss d3 a b e1 missed e2
  have replaced (x : Dev) : (replace lo hi x).adc = x.adc := by
    simp only [replace]
    split <;> rfl
  have missed_adc (m : Bool) (x : Dev) : (missed m x).adc = x.adc := by
    simp only [missed]
    split <;> rfl
  repeat' split
  · rfl
  · rfl
  · rw [replaced]
    simp only [clear, d3]
    split <;> rfl
  · rw [replaced]
    simp [clear, e2, missed_adc, e1]
@[simp] theorem legPut_adc {l : LegVals} : (legPut n l d).adc = d.adc := by
  unfold legPut
  induction l generalizing d with
  | nil => rfl
  | cons p l ih => simp [ih]
@[simp] theorem legNext_adc {tb : TbSt} {lp : Bool} : (legNext n tb lp t d).adc = d.adc := by
  unfold legNext
  split <;> rfl
@[simp] theorem legMoved_adc {g : LegSt} {tb : TbSt} {p : Nat} : (legMoved n g tb p t d).adc = d.adc := by
  unfold legMoved
  dsimp only
  split <;> rfl
@[simp] theorem legUpdated_adc {g : LegSt} {tb : TbSt} {prof : Bool} {u p : Nat} : (legUpdated n g tb prof u p t d).adc = d.adc := by
  unfold legUpdated
  dsimp only
  repeat' split
  all_goals simp
@[simp] theorem legCommitAt_adc {l : LegVals} : (legCommitAt n l t d).adc = d.adc := by
  rw [legCommitAt_eq]
  dsimp only
  repeat' split
  all_goals simp
@[simp] theorem legLeftOver_adc : (legLeftOver n t d).adc = d.adc := by
  unfold legLeftOver
  dsimp only
  repeat' split
  all_goals simp
theorem legPeriod_adc {b : Fin 32} {first : Bool} : (legPeriod n b t first d).adc = d.adc := by
  unfold legPeriod
  extract_lets d0 old wasFull waited d1 rel d2 d3 d4 d5 d6 v d7
  have h0 : d0.adc = d.adc := by
    simp only [d0, legDtFrom, Dev.legU_adc]
    split <;> simp
  have h1 : d1.adc = d.adc := by
    simp only [d1]
    split <;> exact h0
  have h4 : d4.adc = d.adc := by
    simp only [d4, d3, d2, legReefEnd, Dev.setB_adc, Dev.legU_adc, legAdapt_adc, Dev.setF_adc]
    split <;> exact h1
  have h6 : d6.adc = d.adc := by
    simp only [d6, d5, legSettle_adc]
    split <;> exact h4
  have h7 : d7.adc = d.adc := by
    simp only [d7]
    repeat' split
    all_goals simpa using h6
  unfold legDeferred
  exact (Dev.each_kept (π := Dev.adc) (fun _ _ _ => legCommitAt_adc) _).trans h7

end

/-- What a leg does within itself leaves the converters' registers. -/
theorem LegOnly.adcs {n : Fin 96} {d e : Dev} (h : LegOnly n d e) (adc : e.adc = d.adc) : e.adcs = d.adcs :=
  Dev.adcs_eq adc fun _ _ => h.get _ rfl

/-! ### The device's updates, and what acts beside the converters -/

section
variable {d : Dev}

@[simp] theorem Dev.put_adcs {r : Reg} (h : ∀ n q, r ≠ .adc n q) (v : Word) : (d.put r v).adcs = d.adcs :=
  Dev.adcs_eq rfl fun n q => Dev.get_put_ne d (h n q).symm v
@[simp] theorem Dev.setF_adcs {r : Reg} (h : ∀ n q, r ≠ .adc n q) (f : Fld) (v : Nat) : (d.setF r f v).adcs = d.adcs := Dev.put_adcs h _
@[simp] theorem Dev.setB_adcs {r : Reg} (h : ∀ n q, r ≠ .adc n q) (f : Fld) (v : Bool) : (d.setB r f v).adcs = d.adcs := Dev.put_adcs h _
@[simp] theorem Dev.flag_adcs {r : Reg} (h : ∀ n q, r ≠ .adc n q) (f : Fld) : (d.flag r f).adcs = d.adcs := Dev.put_adcs h _
@[simp] theorem Dev.flagIf_adcs {r : Reg} (h : ∀ n q, r ≠ .adc n q) (c : Bool) (f : Fld) : (d.flagIf c r f).adcs = d.adcs := by
  unfold Dev.flagIf
  split
  · exact Dev.flag_adcs h f
  · rfl
theorem Dev.adcs_congr {d e : Dev} (adc : e.adc = d.adc) (regs : e.regs = d.regs) : e.adcs = d.adcs :=
  Dev.adcs_eq adc fun _ _ => Dev.get_congr regs _
@[simp] theorem Dev.raise_adcs {p : Nat} : (d.raise p).adcs = d.adcs := Dev.adcs_congr (by simp) (by simp)
@[simp] theorem Dev.line_adcs {l : Nat} {on : Bool} : (d.line l on).adcs = d.adcs := Dev.adcs_congr (by simp) (by simp)
@[simp] theorem Dev.lineOn_adcs {l : Nat} : (d.lineOn l).adcs = d.adcs := Dev.adcs_congr (by simp) (by simp)
@[simp] theorem Dev.lineOff_adcs {l : Nat} : (d.lineOff l).adcs = d.adcs := rfl
@[simp] theorem Dev.pulse_adcs {l : Nat} : (d.pulse l).adcs = d.adcs := rfl
@[simp] theorem Dev.at_adcs {t : Nat} : (d.at t).adcs = d.adcs := rfl
@[simp] theorem Dev.tbU_adcs {b : Fin 32} {g : TbSt → TbSt} : (d.tbU b g).adcs = d.adcs := rfl
@[simp] theorem Dev.cmpU_adcs {n : Fin 64} {g : CmpSt → CmpSt} : (d.cmpU n g).adcs = d.adcs := rfl
@[simp] theorem Dev.lnkU_adcs {g : LnkSt → LnkSt} : (d.lnkU g).adcs = d.adcs := rfl
@[simp] theorem Dev.ite_adcs (c : Prop) [Decidable c] (d e : Dev) : (if c then d else e).adcs = if c then d.adcs else e.adcs := apply_ite ..
@[simp] theorem Dev.each_adcs {α : Type} {l : List α} {f : α → Dev → Dev} (h : ∀ a ∈ l, ∀ d, (f a d).adcs = d.adcs) :
    (d.each l f).adcs = d.adcs := Dev.each_kept h d

@[simp] theorem legPeriod_adcs {n : Fin 96} {b : Fin 32} {t : Nat} {first : Bool} : (legPeriod n b t first d).adcs = d.adcs :=
  LegOnly.adcs (n := n) (by simp) legPeriod_adc
@[simp] theorem legCatch_adcs {n : Fin 96} {t : Nat} : (legCatch n t d).adcs = d.adcs := LegOnly.adcs (n := n) (by simp) legCatch_adc
@[simp] theorem legHold_adcs {n : Fin 96} {c : Nat} : (legHold n c d).adcs = d.adcs :=
  LegOnly.adcs (n := n) (legOnly_legRefresh.2 (LegRuns.only (by simp))) legHold_adc

/-! ### The start of a timebase -/

@[simp] theorem tbDiscipline_adcs {b : Fin 32} {t : Nat} : (tbDiscipline b t d).adcs = d.adcs := by
  obtain h | h | ⟨err, sat, lost, lock, g, -, h⟩ := tbDiscipline_cases b t d
  all_goals simp [h, tbLine, tbMeasured]
@[simp] theorem tbGo_adcs {b : Fin 32} {t p : Nat} : (tbGo b t p d).adcs = d.adcs := by
  simp [tbGo, tbStartEvent, posPathAll, posPath, cmpPathAll, cmpPath, cmpShow, cmpWout]
@[simp] theorem tbArm_adcs {b : Fin 32} : (tbArm b d).adcs = d.adcs := by
  unfold tbArm
  split
  · rfl
  · split <;> simp
@[simp] theorem tbPllLock_adcs {pllB : Bool} : (tbPllLock pllB d).adcs = d.adcs := by simp [tbPllLock]
@[simp] theorem lnkPllLock_adcs : (lnkPllLock d).adcs = d.adcs := by simp [lnkPllLock, lnkService, lnkValid]

/-! ### What the shroud has done (R19) -/

@[simp] theorem cmpTrip_adcs {m : Fin 64} : (cmpTrip m d).adcs = d.adcs := by
  unfold cmpTrip
  split <;> simp
theorem Dev.asOf_adcs {t : Nat} {f : Dev → Dev} (h : ∀ x, (f x).adcs = x.adcs) : (d.asOf t f).adcs = d.adcs := h _
@[simp] theorem tripCatch_adcs {m : Fin 64} : (tripCatch m d).adcs = d.adcs := by
  unfold tripCatch
  split
  · exact Dev.asOf_adcs fun x => tripTrack_keeps (π := Dev.adcs) (fun _ _ _ => rfl) (fun _ _ => rfl) m x
  · rfl
@[simp] theorem catchUp_adcs : (catchUp d).adcs = d.adcs := by
  unfold catchUp
  split
  · simp [Dev.asOf_adcs]
  · rfl

end

end Sys2Proof.Machine
end

section
/-!
SUPPORT. What a converter's start and stop change of it (R101, R103), and the word that a write of ADCn_CTL leaves (R121).
-/
set_option Elab.async false
namespace Sys2Proof.Machine
open Sys2Proof

/-! ### Flags -/

theorem Dev.b_setB_ne (d : Dev) {r q : Reg} (h : q ≠ r) (f g : Fld) (v : Bool) : (d.setB r f v).b q g = d.b q g := by
  rw [Dev.b, Dev.setB, Dev.get_setF_ne d h]; rfl

theorem Fld.get_lt (f : Fld) (w : Word) : f.get w < 2 ^ f.width := Nat.mod_lt _ (by simp)

/-- A field of one bit reads as its flag. -/
theorem Fld.bit_of_get_one {f : Fld} {w : Word} (h : f.get w = 1) : f.bit w = true := by
  have := congrArg (·.testBit 0) h
  simp only [Fld.testBit_get, Fld.width_pos f, decide_true, Bool.true_and, Nat.add_zero] at this
  exact this

theorem Fld.bit_of_get_zero {f : Fld} {w : Word} (h : f.get w = 0) : f.bit w = false := by
  have := congrArg (·.testBit 0) h
  simp only [Fld.testBit_get, Fld.width_pos f, decide_true, Bool.true_and, Nat.add_zero] at this
  exact this

/-! ### A start and a stop -/

/-- A flag of ADCn_STAT that starts and stops have no part in. -/
def adcApart (f : Fld) : Bool := f.ok && f.apart ADC_STAT.RUNNING && f.apart ADC_STAT.PEND

/-- Of the registers, converter n has changed RUNNING and PEND alone. -/
structure AdcRuns (n : Fin 32) (d e : Dev) : Prop where
  get : ∀ r, r ≠ .adc n .stat → e.get r = d.get r
  flag : ∀ f, adcApart f = true → e.b (.adc n .stat) f = d.b (.adc n .stat) f

section
variable {n : Fin 32} {c d e : Dev}

theorem AdcRuns.refl (d : Dev) : AdcRuns n d d := ⟨fun _ _ => rfl, fun _ _ => rfl⟩

theorem AdcRuns.trans (h : AdcRuns n c d) (k : AdcRuns n d e) : AdcRuns n c e :=
  ⟨fun r hr => (k.get r hr).trans (h.get r hr), fun f hf => (k.flag f hf).trans (h.flag f hf)⟩

theorem AdcRuns.b (h : AdcRuns n d e) {r : Reg} (hr : r ≠ .adc n .stat) (f : Fld) : e.b r f = d.b r f := by rw [Dev.b, h.get r hr]; rfl

theorem AdcRuns.adcU (h : AdcRuns n c d) (m : Fin 32) (g : AdcSt → AdcSt) : AdcRuns n c (d.adcU m g) := h.trans ⟨fun _ _ => rfl, fun _ _ => rfl⟩

theorem AdcRuns.running (h : AdcRuns n c d) (v : Bool) : AdcRuns n c (adcRunSet n v d) := by
  refine h.trans ⟨fun r hr => Dev.get_setF_ne d hr _ _, fun f hf => ?_⟩
  simp only [adcApart, Bool.and_eq_true] at hf
  exact Dev.b_setB_apart d _ hf.1.1 (by decide) hf.1.2 v

theorem AdcRuns.pend (h : AdcRuns n c d) (v : Bool) : AdcRuns n c (d.setB (.adc n .stat) ADC_STAT.PEND v) := by
  refine h.trans ⟨fun r hr => Dev.get_setF_ne d hr _ _, fun f hf => ?_⟩
  simp only [adcApart, Bool.and_eq_true] at hf
  exact Dev.b_setB_apart d _ hf.1.1 (by decide) hf.2 v

@[simp] theorem adcRunSet_adc (v : Bool) : (adcRunSet n v d).adc = d.adc := rfl

theorem adcRunSet_running (v : Bool) : (adcRunSet n v d).b (.adc n .stat) ADC_STAT.RUNNING = v := Dev.b_setB d _ (by decide) v

theorem adcGo_runs (t : Nat) : AdcRuns n d (adcGo n t d) := ((AdcRuns.refl d).adcU n _).running true

theorem adcGo_adc (t : Nat) : (adcGo n t d).adc[n] =
    { d.adc[n] with run := .cont t 0 none, armed := false, startW := false, seq0 := d.get (.adc n (.seq 0)) } :=
  Dev.adcU_adc_same d n fun a => { a with run := .cont t 0 none, armed := false, startW := false, seq0 := d.get (.adc n (.seq 0)) }

theorem adcGo_running (t : Nat) : (adcGo n t d).b (.adc n .stat) ADC_STAT.RUNNING = true := adcRunSet_running true

theorem adcStart_runs : AdcRuns n d (adcStart n d) := by
  unfold adcStart
  repeat' split
  · exact (AdcRuns.refl d).adcU n _
  · exact (AdcRuns.refl d).adcU n _
  · exact .refl d
  · exact adcGo_runs _
  · exact (AdcRuns.refl d).running true
  · exact .refl d

/-- An idle converter in continuous mode begins a run on the next cycle. -/
theorem adcStart_idle (mode : adcMode d n = 1) (idle : d.adc[n].run = .idle) : adcStart n d = adcGo n (acUp d.now) d := by
  simp only [adcStart, mode, idle]

theorem adcStart_triggered (mode : adcMode d n = 2) : adcStart n d = adcRunSet n true d := by
  simp only [adcStart, mode]

theorem adcEnable_runs : AdcRuns n d (adcEnable n d) := by
  unfold adcEnable
  split
  · exact (AdcRuns.refl d).adcU n _
  · exact adcStart_runs

theorem adcDisable_runs : AdcRuns n d (adcDisable n d) := by
  unfold adcDisable
  dsimp only
  split
  · exact ((AdcRuns.refl d).adcU n _).adcU n _
  · exact ((((AdcRuns.refl d).adcU n _).adcU n _).pend false).running false
  · exact ((((AdcRuns.refl d).adcU n _).adcU n _).pend false).running false

/-- A stop of an idle converter: nothing waits any more. -/
theorem adcDisable_idle (idle : d.adc[n].run = .idle) : (adcDisable n d).adc[n].armed = false ∧ (adcDisable n d).adc[n].pend = none ∧
    (adcDisable n d).b (.adc n .stat) ADC_STAT.RUNNING = false := by
  unfold adcDisable
  simp only [idle]
  simp only [adcRunSet_adc, Dev.setB_adc, Dev.adcU_adc_same, adcRunSet_running, and_self]

/-- A stop of a continuous run: the last hold is the one that the stop gives, or the one before it that an earlier stop gave. -/
theorem adcDisable_cont {t0 h : Nat} {stop : Option Nat} (cont : d.adc[n].run = .cont t0 h stop) : (adcDisable n d).adc[n] =
    { d.adc[n] with armed := false, startW := false, wake := false,
                    run := .cont t0 h (some (min (adcLastHold d n t0 h) (stop.getD (adcLastHold d n t0 h)))) } := by
  unfold adcDisable
  simp only [cont, Dev.adcU_adc_same]

/-- A stop that ends a pass: the last hold is that of the pass in progress (R103). -/
theorem adcLastHold_pass {t0 h : Nat} (mode : d.b (.adc n .ctl) ADC_CTL.STOPMODE = false) (inside : h = 0 ∨ h % adcLen d n ≠ 0) :
    adcLastHold d n t0 h = h / adcLen d n * adcLen d n + adcLen d n - 1 := by
  unfold adcLastHold
  dsimp only
  rw [mode, if_neg Bool.false_ne_true]
  rcases inside with rfl | inside
  · simp
  · have : h ≠ 0 := fun e => inside (by simp [e])
    rw [if_neg this, if_neg inside]

/-- A stop at once: the last hold is the one taken, or the one in tracking (R103). -/
theorem adcLastHold_le {t0 h : Nat} (mode : d.b (.adc n .ctl) ADC_CTL.STOPMODE = true) : adcLastHold d n t0 h ≤ h := by
  unfold adcLastHold
  dsimp only
  rw [if_pos mode]
  repeat' split
  all_goals omega

end

/-! ### A write of ADCn_CTL (R121) -/

/-- The fields that no write changes while the converter is enabled or runs, or to a value that is none. -/
def adcKeep (old : Word) (f : Fld) (w : Word) : Word := f.put (f.get old) w

theorem adcKeep_get {f : Fld} (h : f.ok = true) (old w : Word) : f.get (adcKeep old f w) = f.get old := by
  rw [adcKeep, Fld.get_put h, Nat.mod_eq_of_lt (Fld.get_lt f old)]

/-- The word that a write of v leaves, but for a start that is refused. -/
def adcCtlWord (locked : Bool) (old v : Word) : Word :=
  let v1 := if locked then adcKeep old ADC_CTL.MODE (adcKeep old ADC_CTL.LEN (adcKeep old ADC_CTL.SKEW v)) else v
  let v2 := if ADC_CTL.MODE.get v1 = 3 then adcKeep old ADC_CTL.MODE v1 else v1
  if 20 ≤ ADC_CTL.SKEW.get v2 then adcKeep old ADC_CTL.SKEW v2 else v2

theorem adcCtlWord_bit {f : Fld} (hf : f.ok = true) (mode : f.apart ADC_CTL.MODE = true) (len : f.apart ADC_CTL.LEN = true)
    (skew : f.apart ADC_CTL.SKEW = true) (locked : Bool) (old v : Word) : f.bit (adcCtlWord locked old v) = f.bit v := by
  unfold adcCtlWord adcKeep
  dsimp only
  repeat' split
  all_goals simp only [Fld.bit_put_apart hf (by decide) mode, Fld.bit_put_apart hf (by decide) len,
    Fld.bit_put_apart hf (by decide) skew]

theorem adcKeep_get_apart {f g : Fld} (hf : f.ok = true) (hg : g.ok = true) (h : f.apart g = true) (old w : Word) :
    f.get (adcKeep old g w) = f.get w := Fld.get_put_apart hf hg h _ w

/-- A free converter takes its mode from the write. -/
theorem adcCtlWord_mode_free {old v : Word} (h : ADC_CTL.MODE.get v ≠ 3) :
    ADC_CTL.MODE.get (adcCtlWord false old v) = ADC_CTL.MODE.get v := by
  simp only [adcCtlWord, Bool.false_eq_true, if_false, if_neg h]
  split
  · exact adcKeep_get_apart (by decide) (by decide) (by decide) ..
  · rfl

/-- One that is locked keeps the length of its sequence. -/
theorem adcCtlWord_len_locked (old v : Word) : ADC_CTL.LEN.get (adcCtlWord true old v) = ADC_CTL.LEN.get old := by
  have len : ADC_CTL.LEN.get (adcKeep old ADC_CTL.MODE (adcKeep old ADC_CTL.LEN (adcKeep old ADC_CTL.SKEW v))) = ADC_CTL.LEN.get old := by
    rw [adcKeep_get_apart (by decide) (by decide) (by decide), adcKeep_get (by decide)]
  simp only [adcCtlWord, if_true]
  repeat' split
  all_goals simp only [adcKeep_get_apart (f := ADC_CTL.LEN) (g := ADC_CTL.MODE) (by decide) (by decide) (by decide),
    adcKeep_get_apart (f := ADC_CTL.LEN) (g := ADC_CTL.SKEW) (by decide) (by decide) (by decide), adcKeep_get (f := ADC_CTL.LEN) (by decide)]

/-- The register is written, and CFG_REJ set where c says so. -/
def adcCtlPut (n : Fin 32) (w : Word) (c : Bool) (d : Dev) : Dev := (d.wr (.adc n .ctl) w).flagIf c (.adc n .stat) ADC_STAT.CFG_REJ

/-- MODE, LEN and SKEW are locked. -/
def adcLocked (n : Fin 32) (d : Dev) : Bool :=
  d.b (.adc n .ctl) ADC_CTL.EN || d.b (.adc n .stat) ADC_STAT.RUNNING || d.b (.adc n .stat) ADC_STAT.BUSY

section
variable {n : Fin 32} {w : Word} {c : Bool} {d : Dev}

@[simp] theorem adcCtlPut_now : (adcCtlPut n w c d).now = d.now := by simp [adcCtlPut]
@[simp] theorem adcCtlPut_adc : (adcCtlPut n w c d).adc = d.adc := by simp [adcCtlPut]

theorem adcCtlPut_ctl : (adcCtlPut n w c d).get (.adc n .ctl) = plainWrite (AdcReg.access .ctl) (d.get (.adc n .ctl)) w := by
  unfold adcCtlPut Dev.flagIf
  split
  · exact (Dev.get_setF_ne _ (by simp) _ _).trans (Dev.get_wr_same ..)
  · exact Dev.get_wr_same ..

theorem adcCtlPut_b {f : Fld} (hf : f.ok = true) (hw : (AdcReg.access .ctl).writes f = true) :
    (adcCtlPut n w c d).b (.adc n .ctl) f = f.bit w := by rw [Dev.b, adcCtlPut_ctl, Fld.bit_plainWrite hf hw]

theorem adcCtlPut_f {f : Fld} (hf : f.ok = true) (hw : (AdcReg.access .ctl).writes f = true) :
    (adcCtlPut n w c d).f (.adc n .ctl) f = f.get w := by rw [Dev.f, adcCtlPut_ctl, Fld.get_plainWrite hf hw]

theorem adcCtlPut_stat {f : Fld} (hf : f.ok = true) (h : f.apart ADC_STAT.CFG_REJ = true) :
    (adcCtlPut n w c d).b (.adc n .stat) f = d.b (.adc n .stat) f := by
  have wr : (d.wr (.adc n .ctl) w).b (.adc n .stat) f = d.b (.adc n .stat) f := by rw [Dev.b, Dev.get_wr_ne d (by simp)]; rfl
  unfold adcCtlPut Dev.flagIf
  split
  · exact (Dev.b_setB_apart _ _ hf (by decide) h _).trans wr
  · exact wr

theorem adcCtlPut_rejected : (adcCtlPut n w true d).b (.adc n .stat) ADC_STAT.CFG_REJ = true := Dev.b_flag _ _ (by decide)

variable {v : Word}

/-- EN is written from 0 to 1 (R101), and is not while a calibration runs (R116). -/
theorem adcWriteCtl_starts (off : d.b (.adc n .ctl) ADC_CTL.EN = false) (en : ADC_CTL.EN.bit v = true)
    (free : d.b (.adc n .stat) ADC_STAT.CALBUSY = false) :
    ∃ c, adcWriteCtl n v d = adcEnable n (adcCtlPut n (adcCtlWord (adcLocked n d) (d.get (.adc n .ctl)) v) c d) := by
  have bit := (adcCtlWord_bit (f := ADC_CTL.EN) (by decide) (by decide) (by decide) (by decide) (adcLocked n d) (d.get (.adc n .ctl)) v).trans en
  obtain ⟨e, made⟩ : ∃ e, adcWriteCtl n v d = e := ⟨_, rfl⟩
  rw [made]
  unfold adcWriteCtl at made
  extract_lets old en' locked keep differs guard v1 v2 v3 calRej v4 d1 at made
  have off' : en' = false := off
  have rej : calRej = false := by simp only [calRej, free, Bool.and_false]
  have word : v4 = adcCtlWord (adcLocked n d) (d.get (.adc n .ctl)) v := by simp only [v4, rej, Bool.false_eq_true, if_false]; rfl
  rw [if_pos (by rw [word, bit, off']; rfl)] at made
  refine ⟨guard || calRej, ?_⟩
  rw [← made, ← word]
  rfl

theorem adcWriteCtl_refused (off : d.b (.adc n .ctl) ADC_CTL.EN = false) (en : ADC_CTL.EN.bit v = true)
    (busy : d.b (.adc n .stat) ADC_STAT.CALBUSY = true) : ∃ w, ADC_CTL.EN.bit w = false ∧ adcWriteCtl n v d =
      if d.b (.adc n .stat) ADC_STAT.RUNNING then adcDisable n (adcCtlPut n w true d) else adcCtlPut n w true d := by
  have bit := (adcCtlWord_bit (f := ADC_CTL.EN) (by decide) (by decide) (by decide) (by decide) (adcLocked n d) (d.get (.adc n .ctl)) v).trans en
  have zero : ADC_CTL.EN.bit (ADC_CTL.EN.put 0 (adcCtlWord (adcLocked n d) (d.get (.adc n .ctl)) v)) = false := Fld.bit_put (by decide) ..
  refine ⟨_, zero, ?_⟩
  unfold adcWriteCtl
  extract_lets old en' locked keep differs guard v1 v2 v3 calRej v4 d1
  have word : v3 = adcCtlWord (adcLocked n d) (d.get (.adc n .ctl)) v := rfl
  have off' : en' = false := off
  have rej : calRej = true := by simp only [calRej, word, bit, off', busy]; rfl
  have word4 : v4 = ADC_CTL.EN.put 0 (adcCtlWord (adcLocked n d) (d.get (.adc n .ctl)) v) := by simp only [v4, rej, if_true, word]
  have put : d1 = adcCtlPut n v4 true d := by simp only [d1, rej, Bool.or_true]; rfl
  rw [put, word4, zero, off']
  simp only [Bool.false_eq_true, if_false, Bool.false_or, Bool.not_false, Bool.and_true]

/-- EN is written to 0 on a converter that is enabled or runs (R103). -/
theorem adcWriteCtl_stops (on : d.b (.adc n .ctl) ADC_CTL.EN = true ∨ d.b (.adc n .stat) ADC_STAT.RUNNING = true)
    (off : ADC_CTL.EN.bit v = false) :
    ∃ c, adcWriteCtl n v d = adcDisable n (adcCtlPut n (adcCtlWord true (d.get (.adc n .ctl)) v) c d) := by
  have bit := (adcCtlWord_bit (f := ADC_CTL.EN) (by decide) (by decide) (by decide) (by decide) true (d.get (.adc n .ctl)) v).trans off
  have on : (d.b (.adc n .ctl) ADC_CTL.EN || d.b (.adc n .stat) ADC_STAT.RUNNING) = true := by simpa using on
  obtain ⟨e, made⟩ : ∃ e, adcWriteCtl n v d = e := ⟨_, rfl⟩
  rw [made]
  unfold adcWriteCtl at made
  extract_lets old en locked keep differs guard v1 v2 v3 calRej v4 d1 at made
  have on' : (en || d.b (.adc n .stat) ADC_STAT.RUNNING) = true := on
  have lock : locked = true := by simp only [locked, on', Bool.true_or]
  have word3 : v3 = adcCtlWord true (d.get (.adc n .ctl)) v := by simp only [v3, v2, v1, lock]; rfl
  have rej : calRej = false := by simp only [calRej, word3, bit, Bool.false_and]
  have word : v4 = adcCtlWord true (d.get (.adc n .ctl)) v := by simp only [v4, rej, Bool.false_eq_true, if_false, word3]
  rw [if_neg (by simp [word, bit]), if_pos (by simp only [on', word, bit]; rfl)] at made
  refine ⟨guard || calRej, ?_⟩
  rw [← made, ← word]
  rfl

end

end Sys2Proof.Machine
end

section
/-!
SUPPORT. ADC_ENABLE, ADC_DISABLE, ADCGSTART and ADCGSTOP (R101-R103).
-/
set_option Elab.async false
namespace Sys2Proof.Machine
open Sys2Proof

/-- What one converter does within itself leaves the timebases, the instant and the locks of the PLLs. -/
theorem tbs_of_others {n : Fin 32} {d e : Dev} (h : ∀ m, n ≠ m → e.adcView m = d.adcView m) : e.tbs = d.tbs :=
  tbs_of_adcView (h (n + 1) (by simp))

@[simp] theorem asked_adcView {by_ : Requester} {m : Fin 32} {d : Dev} : (asked by_ d).adcView m = d.adcView m := by
  simp [asked, Dev.tagPulse]

theorem Dev.now_of_adcView {m : Fin 32} {d e : Dev} (h : e.adcView m = d.adcView m) : e.now = d.now := Dev.now_of_tbs (tbs_of_adcView h)

/-- The clause of a command that writes ADCn_CTL. -/
theorem Does.of_writeCtl {i : Instr} {s : State} {by_ : Requester} {n : Fin 32} {v : Word} {P : Dev → Prop}
    (answer : exec i s = act (writeBy by_ (.adc n .ctl) v) s) (asks : Asks by_ s (.adc n .ctl))
    (h : ∀ q : Dev, q.adcView n = s.adcView n → P (settle (adcWriteCtl n v q))) : Does i s P := by
  have now : (adcWriteCtl n v (asked by_ s.toDev)).now = s.now :=
    (Dev.now_of_tbs (tbs_of_others fun m hm => adcWriteCtl_adcView hm v)).trans (asked_now ..)
  exact .of_write answer asks (by simp [heldMask]) rfl (asks.up.calm (Nat.le_of_eq now)) (h _ asked_adcView)

/-! ### ADC_ENABLE -/

section
variable {s : State} {by_ : Requester} {n : Fin 32} {v : Word} (asks : Asks by_ s (.adc n .ctl))
  (off : s.f (.adc n .ctl) ADC_CTL.EN = 0)
include asks off

theorem adcEnable_refused (stopped : s.b (.adc n .stat) ADC_STAT.RUNNING = false) (busy : s.b (.adc n .stat) ADC_STAT.CALBUSY = true) :
    Does (.adcEnable by_ n v) s fun t => t.b (.adc n .ctl) ADC_CTL.EN = false ∧ t.b (.adc n .stat) ADC_STAT.CFG_REJ = true ∧
      t.adc[n] = s.adc[n] := by
  refine .of_writeCtl rfl asks fun q hq => ?_
  obtain ⟨w, zero, made⟩ := adcWriteCtl_refused (v := ADC_CTL.EN.put 1 v) ((b_of_adcView hq ..).trans (Fld.bit_of_get_zero off))
    (Fld.bit_put (by decide) ..) ((b_of_adcView hq ..).trans busy)
  rw [made, b_of_adcView hq, stopped, if_neg Bool.false_ne_true, settle_b, settle_b, settle_adc, adcCtlPut_adc, adc_of_adcView hq]
  exact ⟨(adcCtlPut_b (by decide) (by decide)).trans zero, adcCtlPut_rejected, rfl⟩

/-- A free converter that no calibration holds is enabled with the other fields of the write. -/
theorem adcEnable_of {P : Dev → Prop} (stopped : s.b (.adc n .stat) ADC_STAT.RUNNING = false) (idle : s.b (.adc n .stat) ADC_STAT.BUSY = false)
    (free : s.b (.adc n .stat) ADC_STAT.CALBUSY = false)
    (h : ∀ x : Dev, x.now = s.now → x.adc[n] = s.adc[n] → x.b (.adc n .ctl) ADC_CTL.EN = true →
      x.b (.adc n .ctl) ADC_CTL.STEN = ADC_CTL.STEN.bit v → (ADC_CTL.MODE.get v ≠ 3 → adcMode x n = ADC_CTL.MODE.get v) →
      x.b (.adc n .stat) ADC_STAT.RUNNING = false → P (settle (adcEnable n x))) : Does (.adcEnable by_ n v) s P := by
  refine .of_writeCtl rfl asks fun q hq => ?_
  have off' : q.b (.adc n .ctl) ADC_CTL.EN = false := (b_of_adcView hq ..).trans (Fld.bit_of_get_zero off)
  have unlocked : adcLocked n q = false := by rw [adcLocked, off', b_of_adcView hq, stopped, b_of_adcView hq, idle]; rfl
  obtain ⟨c, made⟩ := adcWriteCtl_starts (v := ADC_CTL.EN.put 1 v) off' (Fld.bit_put (by decide) ..) ((b_of_adcView hq ..).trans free)
  rw [made, unlocked]
  have mode : ADC_CTL.MODE.get (ADC_CTL.EN.put 1 v) = ADC_CTL.MODE.get v := Fld.get_put_apart (by decide) (by decide) (by decide) ..
  refine h _ (adcCtlPut_now.trans (Dev.now_of_adcView hq)) (by rw [adcCtlPut_adc, adc_of_adcView hq]) ?_ ?_ (fun ne => ?_) ?_
  · rw [adcCtlPut_b (by decide) (by decide), adcCtlWord_bit (by decide) (by decide) (by decide) (by decide)]
    exact Fld.bit_put (by decide) ..
  · rw [adcCtlPut_b (by decide) (by decide), adcCtlWord_bit (by decide) (by decide) (by decide) (by decide)]
    exact Fld.bit_put_apart (by decide) (by decide) (by decide) ..
  · rw [adcMode, adcCtlPut_f (by decide) (by decide), adcCtlWord_mode_free (by rwa [mode]), mode]
  · exact (adcCtlPut_stat (by decide) (by decide)).trans ((b_of_adcView hq ..).trans stopped)

variable (stopped : s.b (.adc n .stat) ADC_STAT.RUNNING = false) (idle : s.b (.adc n .stat) ADC_STAT.BUSY = false)
  (free : s.b (.adc n .stat) ADC_STAT.CALBUSY = false)
include stopped idle free

theorem adcEnable_continuous (mode : ADC_CTL.MODE.get v = 1) (sten : ADC_CTL.STEN.bit v = false) (none : s.adc[n].run = .idle) :
    Does (.adcEnable by_ n v) s fun t => t.b (.adc n .ctl) ADC_CTL.EN = true ∧ t.b (.adc n .stat) ADC_STAT.RUNNING = true ∧
      t.adc[n].run = .cont (acUp s.now) 0 .none := by
  refine adcEnable_of asks off stopped idle free fun x now adc en sten' mode' _ => ?_
  have mode1 : adcMode x n = 1 := (mode' (by omega)).trans mode
  have made : adcEnable n x = adcGo n (acUp s.now) x := by
    rw [adcEnable, sten', sten, Bool.and_false, if_neg Bool.false_ne_true, adcStart_idle mode1 (by rw [adc, none]), now]
  rw [made, settle_b, settle_b, settle_adc, adcGo_adc, (adcGo_runs _).b (by simp)]
  exact ⟨en, adcGo_running _, rfl⟩

theorem adcEnable_task (mode : ADC_CTL.MODE.get v = 1) (sten : ADC_CTL.STEN.bit v = true) :
    Does (.adcEnable by_ n v) s fun t => t.adc[n].armed = true ∧ t.b (.adc n .stat) ADC_STAT.RUNNING = false := by
  refine adcEnable_of asks off stopped idle free fun x _ _ _ sten' mode' run => ?_
  have mode1 : adcMode x n = 1 := (mode' (by omega)).trans mode
  have made : adcEnable n x = x.adcU n fun a => { a with armed := true } := by rw [adcEnable, mode1, sten', sten]; rfl
  rw [made, settle_b, settle_adc, Dev.adcU_adc_same]
  exact ⟨rfl, run⟩

theorem adcEnable_triggered (mode : ADC_CTL.MODE.get v = 2) :
    Does (.adcEnable by_ n v) s fun t => t.b (.adc n .stat) ADC_STAT.RUNNING = true ∧ t.adc[n] = s.adc[n] := by
  refine adcEnable_of asks off stopped idle free fun x _ adc _ _ mode' _ => ?_
  have mode2 : adcMode x n = 2 := (mode' (by omega)).trans mode
  have made : adcEnable n x = adcRunSet n true x := by rw [adcEnable, mode2, adcStart_triggered mode2]; rfl
  rw [made, settle_b, settle_adc, adcRunSet_adc, adc]
  exact ⟨adcRunSet_running true, rfl⟩

end

/-! ### ADC_DISABLE -/

section
variable {s : State} {by_ : Requester} {n : Fin 32} {v : Word} (asks : Asks by_ s (.adc n .ctl))
include asks

/-- A converter that is enabled or runs stops, with the other fields of the write but for those that are locked. -/
theorem adcDisable_of {P : Dev → Prop} (on : s.b (.adc n .ctl) ADC_CTL.EN = true ∨ s.b (.adc n .stat) ADC_STAT.RUNNING = true)
    (h : ∀ x : Dev, x.adc[n] = s.adc[n] → x.b (.adc n .ctl) ADC_CTL.EN = false →
      x.b (.adc n .ctl) ADC_CTL.STOPMODE = ADC_CTL.STOPMODE.bit v → adcLen x n = adcLen s.toDev n → P (settle (adcDisable n x))) :
    Does (.adcDisable by_ n v) s P := by
  refine .of_writeCtl rfl asks fun q hq => ?_
  have on' : q.b (.adc n .ctl) ADC_CTL.EN = true ∨ q.b (.adc n .stat) ADC_STAT.RUNNING = true := by
    rwa [b_of_adcView hq, b_of_adcView hq]
  obtain ⟨c, made⟩ := adcWriteCtl_stops (v := ADC_CTL.EN.put 0 v) on' (Fld.bit_put (by decide) ..)
  rw [made]
  refine h _ (by rw [adcCtlPut_adc, adc_of_adcView hq]) ?_ ?_ ?_
  · rw [adcCtlPut_b (by decide) (by decide), adcCtlWord_bit (by decide) (by decide) (by decide) (by decide)]
    exact Fld.bit_put (by decide) ..
  · rw [adcCtlPut_b (by decide) (by decide), adcCtlWord_bit (by decide) (by decide) (by decide) (by decide)]
    exact Fld.bit_put_apart (by decide) (by decide) (by decide) ..
  · rw [adcLen, adcLen, adcCtlPut_f (by decide) (by decide), adcCtlWord_len_locked, get_of_adcView hq]
    rfl

theorem adcDisable_rest (en : s.f (.adc n .ctl) ADC_CTL.EN = 1) (none : s.adc[n].run = .idle) :
    Does (.adcDisable by_ n v) s fun t => t.b (.adc n .ctl) ADC_CTL.EN = false ∧ t.b (.adc n .stat) ADC_STAT.RUNNING = false ∧
      t.adc[n].armed = false ∧ t.adc[n].pend = .none := by
  refine adcDisable_of asks (.inl (Fld.bit_of_get_one en)) fun x adc off _ _ => ?_
  obtain ⟨armed, pend, stopped⟩ := adcDisable_idle (n := n) (d := x) (by rw [adc, none])
  rw [settle_b, settle_b, settle_adc, adcDisable_runs.b (by simp)]
  exact ⟨off, stopped, armed, pend⟩

theorem adcDisable_pass (en : s.f (.adc n .ctl) ADC_CTL.EN = 1) (t0 h : Nat) (cont : s.adc[n].run = .cont t0 h none)
    (mode : ADC_CTL.STOPMODE.bit v = false) (inside : h = 0 ∨ h % adcLen s.toDev n ≠ 0) :
    Does (.adcDisable by_ n v) s fun t => t.b (.adc n .ctl) ADC_CTL.EN = false ∧
      t.adc[n].run = .cont t0 h (some (h / adcLen s.toDev n * adcLen s.toDev n + adcLen s.toDev n - 1)) ∧ t.adc[n].startW = false := by
  refine adcDisable_of asks (.inl (Fld.bit_of_get_one en)) fun x adc off mode' len => ?_
  rw [settle_b, settle_adc, adcDisable_cont (by rw [adc, cont]), adcDisable_runs.b (by simp),
    adcLastHold_pass (mode'.trans mode) (by rwa [len]), len]
  exact ⟨off, by simp, rfl⟩

theorem adcDisable_sooner (running : s.b (.adc n .stat) ADC_STAT.RUNNING = true) (t0 h last : Nat)
    (cont : s.adc[n].run = .cont t0 h (some last)) (mode : ADC_CTL.STOPMODE.bit v = true) :
    Does (.adcDisable by_ n v) s fun t => ∃ l, t.adc[n].run = .cont t0 h (some l) ∧ l ≤ last ∧ l ≤ h := by
  refine adcDisable_of asks (.inr running) fun x adc _ mode' _ => ?_
  rw [settle_adc, adcDisable_cont (by rw [adc, cont])]
  exact ⟨_, rfl, min_le_right .., (min_le_left ..).trans (adcLastHold_le (mode'.trans mode))⟩

end

/-! ### ADCGSTART and ADCGSTOP -/

/-- While PLL A is not locked, the bits of ADCGSTART and ADCGSTOP wait. -/
theorem exec_of_waits {i : Instr} {s : State} {by_ : Requester} {r : Reg} {v : Word} (answer : exec i s = act (writeBy by_ r v) s)
    (up : Up s) (tag : tagsFull s.toDev (reqHolder by_) = false) (open_ : regWaits (asked by_ s.toDev) r = false)
    (held : heldMask (asked by_ s.toDev) r = BitVec.allOnes 32) (some_ : v ≠ 0) :
    exec i s = after s { asked by_ s.toDev with sys := { (asked by_ s.toDev).sys with
      waits := (asked by_ s.toDev).sys.waits ++ [{ by_ := by_, addr := w32 (Reg.addr r), val := some v, since := s.now }] } } := by
  have all : v &&& BitVec.allOnes 32 = v := BitVec.and_allOnes
  refine exec_of_act answer up ?_ (up.calm (le_refl _))
  rw [writeBy, asks_eq tag, writeReg, open_, if_neg Bool.false_ne_true, writePart, held, all, if_neg some_,
    if_pos (by simp)]
  rfl

section
variable {s : State} {by_ : Requester} {v : Word} (asks : Asks by_ s (.adcg .adcgstart)) (unlocked : s.sys.pllA = false) (some_ : v ≠ 0)
include asks unlocked some_

theorem adcgstart_waits : exec (.adcgstart by_ v) s = after s { asked by_ s.toDev with sys := { (asked by_ s.toDev).sys with
    waits := (asked by_ s.toDev).sys.waits ++ [{ by_ := by_, addr := w32 (Reg.addr (.adcg .adcgstart)), val := some v, since := s.now }] } } :=
  exec_of_waits rfl asks.up asks.2 rfl (by rw [heldMask, Dev.pllA_of_tbs asked_tbs, unlocked]; rfl) some_

theorem adcgstop_waits : exec (.adcgstop by_ v) s = after s { asked by_ s.toDev with sys := { (asked by_ s.toDev).sys with
    waits := (asked by_ s.toDev).sys.waits ++ [{ by_ := by_, addr := w32 (Reg.addr (.adcg .adcgstop)), val := some v, since := s.now }] } } :=
  exec_of_waits rfl asks.up asks.2 rfl (by rw [heldMask, Dev.pllA_of_tbs asked_tbs, unlocked]; rfl) some_

end

/-- What a converter's bit in ADCGSTART does to EN: a start during a calibration is refused (R116). -/
theorem adcGstartOne_en (m : Fin 32) (d : Dev) :
    (adcGstartOne m d).b (.adc m .ctl) ADC_CTL.EN = (d.b (.adc m .ctl) ADC_CTL.EN || !d.b (.adc m .stat) ADC_STAT.CALBUSY) ∧
    (d.b (.adc m .stat) ADC_STAT.CALBUSY = true → (adcGstartOne m d).b (.adc m .stat) ADC_STAT.CFG_REJ = true) := by
  have bit : ADC_CTL.EN.bit (d.get (.adc m .ctl) ||| 1) = true := by simp [Fld.bit, ADC_CTL.EN]
  unfold adcGstartOne
  cases en : d.b (.adc m .ctl) ADC_CTL.EN <;> cases busy : d.b (.adc m .stat) ADC_STAT.CALBUSY <;>
    simp only [if_true, Bool.false_eq_true, if_false]
  case true.true =>
    exact ⟨(Dev.b_setB_ne d (by simp) ..).trans en, fun _ => Dev.b_flag _ _ (by decide)⟩
  case true.false =>
    exact ⟨(adcEnable_runs.b (by simp) _).trans en, fun h => (nomatch h)⟩
  case false.false =>
    obtain ⟨c, made⟩ := adcWriteCtl_starts en bit busy
    refine ⟨?_, fun h => (nomatch h)⟩
    rw [made, adcEnable_runs.b (by simp), adcCtlPut_b (by decide) (by decide),
      adcCtlWord_bit (by decide) (by decide) (by decide) (by decide), bit]
    rfl
  case false.true =>
    obtain ⟨w, zero, made⟩ := adcWriteCtl_refused en bit busy
    have runs : AdcRuns m (adcCtlPut m w true d) (adcWriteCtl m (d.get (.adc m .ctl) ||| 1) d) := by
      rw [made]
      split
      · exact adcDisable_runs
      · exact .refl _
    exact ⟨(runs.b (by simp) _).trans ((adcCtlPut_b (by decide) (by decide)).trans zero),
      fun _ => (runs.flag _ (by decide)).trans adcCtlPut_rejected⟩

theorem adcGstopOne_en (m : Fin 32) (d : Dev) : (adcGstopOne m d).b (.adc m .ctl) ADC_CTL.EN = false := by
  unfold adcGstopOne
  split
  · exact (adcDisable_runs.b (by simp) _).trans (Dev.b_setB _ _ (by decide) _)
  · next h =>
    simp only [Bool.or_eq_true, not_or] at h
    exact Bool.eq_false_iff.2 h.1

/-- The clause of a write that does something to each converter it names. -/
theorem Does.of_named {i : Instr} {s : State} {by_ : Requester} {r : AdcgReg} {v : Word} {f : Fin 32 → Dev → Dev} {P : Fin 32 → Dev → Prop}
    (answer : exec i s = act (writeBy by_ (.adcg r) v) s) (asks : Asks by_ s (.adcg r))
    (held : v &&& heldMask (asked by_ s.toDev) (.adcg r) = 0)
    (made : writeNow by_ (.adcg r) v (asked by_ s.toDev) = (asked by_ s.toDev).each (finsIn 32 v.toNat) f)
    (others : ∀ {n m}, n ≠ m → ∀ d, (f n d).adcView m = d.adcView m)
    (named : ∀ m, v.getLsbD m.val = true → ∀ x t : Dev, x.adcView m = s.adcView m → t.adcView m = (f m x).adcView m → P m t)
    (unnamed : ∀ m, v.getLsbD m.val = false → ∀ t : Dev, t.adcView m = s.adcView m → P m t) : Does i s fun t => ∀ m, P m t := by
  have now : ((asked by_ s.toDev).each (finsIn 32 v.toNat) f).now = s.now :=
    Dev.now_of_tbs (Dev.each_kept (π := Dev.tbs) (fun n _ d => tbs_of_others fun m h => others h d) _ |>.trans asked_tbs)
  refine .of_write answer asks held made (asks.up.calm (Nat.le_of_eq now)) fun m => ?_
  cases bit : v.getLsbD m.val with
  | true =>
    obtain ⟨x, hx, hm⟩ := each_adcView_of_mem (finsIn_nodup 32 _) (mem_finsIn.2 bit) (fun n h d => others h d) (asked by_ s.toDev)
    exact named m bit x _ (hx.trans asked_adcView) (settle_adcView.trans hm)
  | false =>
    have out : m ∉ finsIn 32 v.toNat := fun h => Bool.false_ne_true (bit.symm.trans (mem_finsIn.1 h))
    exact unnamed m bit _ (settle_adcView.trans ((each_adcView_of_notMem out fun n h d => others h d).trans asked_adcView))

section
variable {s : State} {by_ : Requester} {v : Word} (locked : s.sys.pllA = true)
include locked

theorem adcgstart_does (asks : Asks by_ s (.adcg .adcgstart)) : Does (.adcgstart by_ v) s fun t => ∀ m : Fin 32,
    (v.getLsbD m.val = false → t.adc[m] = s.adc[m] ∧ t.get (.adc m .ctl) = s.get (.adc m .ctl)) ∧
    (v.getLsbD m.val = true → t.b (.adc m .ctl) ADC_CTL.EN = (s.b (.adc m .ctl) ADC_CTL.EN || !s.b (.adc m .stat) ADC_STAT.CALBUSY) ∧
      (s.b (.adc m .stat) ADC_STAT.CALBUSY = true → t.b (.adc m .stat) ADC_STAT.CFG_REJ = true)) := by
  refine .of_named rfl asks (by rw [heldMask, Dev.pllA_of_tbs asked_tbs, locked]; simp) (f := adcGstartOne) rfl
    (fun h d => adcGstartOne_adcView h) (fun m bit x t hx ht => ?_) fun m bit t ht => ?_
  · have h := adcGstartOne_en m x
    rw [b_of_adcView hx, b_of_adcView hx] at h
    refine ⟨fun off => absurd (bit.symm.trans off) (by simp), fun _ => ?_⟩
    rw [b_of_adcView ht, b_of_adcView ht]
    exact h
  · exact ⟨fun _ => ⟨adc_of_adcView ht, get_of_adcView ht _⟩, fun on => absurd (on.symm.trans bit) (by simp)⟩

theorem adcgstop_does (asks : Asks by_ s (.adcg .adcgstop)) : Does (.adcgstop by_ v) s fun t => ∀ m : Fin 32,
    (v.getLsbD m.val = false → t.adc[m] = s.adc[m] ∧ t.get (.adc m .ctl) = s.get (.adc m .ctl)) ∧
    (v.getLsbD m.val = true → t.b (.adc m .ctl) ADC_CTL.EN = false) := by
  refine .of_named rfl asks (by rw [heldMask, Dev.pllA_of_tbs asked_tbs, locked]; simp) (f := adcGstopOne) rfl
    (fun h d => adcGstopOne_adcView h) (fun m bit x t hx ht => ?_) fun m bit t ht => ?_
  · refine ⟨fun off => absurd (bit.symm.trans off) (by simp), fun _ => ?_⟩
    rw [b_of_adcView ht, adcGstopOne_en]
  · exact ⟨fun _ => ⟨adc_of_adcView ht, get_of_adcView ht _⟩, fun on => absurd (on.symm.trans bit) (by simp)⟩

end

end Sys2Proof.Machine
end

section
/-!
SUPPORT. Tasks that start and trigger converters (R101, R105, R106), and the lock of PLL A, for which a start waits (R38, R42).
-/
set_option Elab.async false
namespace Sys2Proof.Machine
open Sys2Proof

theorem Dev.at_b (d : Dev) (t : Nat) (r : Reg) (f : Fld) : (d.at t).b r f = d.b r f := rfl

/-- The clause of a clocked task that takes no time: it acts as of the instant at which its activation is received. -/
theorem Does.of_task {i : Instr} {s : State} {k : TaskKind} {ch : Fin 256} {e : Nat} {f : Dev → Dev} {P : Dev → Prop}
    (answer : exec i s = act (fabTask k ch f) s) (up : Up s) (at_ : fabTaskAt s.toDev k ch = some e) (clocked : k.clocked = true)
    (still : ∀ d, (f d).now = d.now) (calm : Calm s (max e ((fabGot s.toDev ch e).getD (max s.now e))))
    (h : P (settle ((f (fabFound k ch e s.toDev)).at (max s.now e)))) : Does i s P := by
  have made := fabTask_clocked at_ clocked f
  refine .of_act answer up ?_ (by rwa [made])
  have now : (f (fabFound k ch e s.toDev)).now = (fabGot s.toDev ch e).getD (max s.now e) := still _
  rw [made, Dev.at_now, now, max_left_comm, calm_max, max_comm]
  exact calm

/-- Something that a task does to each of several converters takes no time where what one does leaves what the others show. -/
theorem each_now_of_others {l : List (Fin 32)} {f : Fin 32 → Dev → Dev} (others : ∀ {n m}, n ≠ m → ∀ d, (f n d).adcView m = d.adcView m)
    (d : Dev) : (d.each l f).now = d.now :=
  Dev.now_of_tbs (Dev.each_kept (π := Dev.tbs) (fun _ _ d => tbs_of_others fun _ h => others h d) d)

/-! ### ADC_START_TASK -/

/-- A task starts an armed converter, or leaves its start to wait for PLL A. -/
def adcTaskStartOne (locked : Bool) (n : Fin 32) (x : Dev) : Dev :=
  if locked then adcStart n (x.adcU n fun a => { a with armed := false }) else x.adcU n fun a => { a with armed := false, wake := true }

/-- The converters that a task of channel ch starts. -/
def adcsArmed (ch : Nat) (d : Dev) : List (Fin 32) :=
  (fins 32).filter fun n => d.adc[n].armed && d.b (.adc n .ctl) ADC_CTL.STEN && d.f (.adc n .ctl) ADC_CTL.STCH == ch

theorem adcTaskStart_eq (ch : Nat) (d : Dev) : adcTaskStart ch d = d.each (adcsArmed ch d) (adcTaskStartOne d.sys.pllA) := rfl

theorem adcTaskStartOne_adcView {n m : Fin 32} (h : n ≠ m) (locked : Bool) (d : Dev) :
    (adcTaskStartOne locked n d).adcView m = d.adcView m := by
  unfold adcTaskStartOne
  split
  · rw [adcStart_adcView h, Dev.adcU_adcView h]
  · exact Dev.adcU_adcView h _

section
variable {s : State} {n : Fin 32} {ch : Fin 256} {e : Nat} (up : Up s) (at_ : fabTaskAt s.toDev .adcStart ch = some e)
  (armed : s.adc[n].armed = true) (sten : s.f (.adc n .ctl) ADC_CTL.STEN = 1) (stch : s.f (.adc n .ctl) ADC_CTL.STCH = ch.val)
  (calm : Calm s (max e ((fabGot s.toDev ch e).getD (max s.now e))))
include up at_ armed sten stch calm

theorem adcStartTask_of {P : Dev → Prop} (h : ∀ x t : Dev, x.now = (fabGot s.toDev ch e).getD (max s.now e) → x.adc[n] = s.adc[n] →
    (∀ r, x.get (.adc n r) = s.get (.adc n r)) → t.adc[n] = (adcTaskStartOne s.sys.pllA n x).adc[n] →
    (∀ r f, t.b (.adc n r) f = (adcTaskStartOne s.sys.pllA n x).b (.adc n r) f) → P t) : Does (.adcStartTask ch) s P := by
  have others {k m : Fin 32} (h : k ≠ m) (d : Dev) := adcTaskStartOne_adcView h s.sys.pllA d
  refine .of_task (f := adcTaskStart ch.val) rfl up at_ rfl
    (fun d => each_now_of_others (fun h d => adcTaskStartOne_adcView h _ d) d) calm ?_
  have mem : n ∈ adcsArmed ch.val (fabFound .adcStart ch e s.toDev) :=
    List.mem_filter.2 ⟨mem_fins n, by
      show (s.adc[n].armed && s.b (.adc n .ctl) ADC_CTL.STEN && s.f (.adc n .ctl) ADC_CTL.STCH == ch.val) = true
      rw [armed, stch, Dev.b, Fld.bit_of_get_one sten]
      simp⟩
  obtain ⟨x, hx, ht⟩ := each_adcView_of_mem ((fins_nodup 32).filter _) mem (fun _ h d => others h d) (fabFound .adcStart ch e s.toDev)
  refine h x _ (Dev.now_of_adcView hx) ((adc_of_adcView hx).trans rfl) (fun r => (get_of_adcView hx r).trans rfl) ?_ fun r f => ?_
  · rw [settle_adc, Dev.at_adc, adcTaskStart_eq]
    exact adc_of_adcView ht
  · rw [settle_b, Dev.at_b, adcTaskStart_eq]
    exact b_of_adcView ht r f

theorem adcStartTask_runs (mode : s.f (.adc n .ctl) ADC_CTL.MODE = 1) (idle : s.adc[n].run = .idle) (locked : s.sys.pllA = true) :
    Does (.adcStartTask ch) s fun t => t.adc[n].run = .cont (acUp ((fabGot s.toDev ch e).getD (max s.now e))) 0 none ∧
      t.adc[n].armed = false ∧ t.b (.adc n .stat) ADC_STAT.RUNNING = true := by
  refine adcStartTask_of up at_ armed sten stch calm fun x t now adc get tadc tb => ?_
  have start : adcTaskStartOne s.sys.pllA n x = adcGo n (acUp x.now) (x.adcU n fun a => { a with armed := false }) := by
    rw [adcTaskStartOne, locked, if_pos rfl, adcStart_idle]
    · rfl
    · exact (congrArg ADC_CTL.MODE.get (get .ctl)).trans mode
    · rw [Dev.adcU_adc_same, adc, idle]
  rw [tadc, tb, start, adcGo_adc, now]
  exact ⟨rfl, rfl, adcGo_running _⟩

theorem adcStartTask_waits (unlocked : s.sys.pllA = false) : Does (.adcStartTask ch) s fun t =>
    t.adc[n] = { s.adc[n] with armed := false, wake := true } ∧ t.b (.adc n .stat) ADC_STAT.RUNNING = s.b (.adc n .stat) ADC_STAT.RUNNING := by
  refine adcStartTask_of up at_ armed sten stch calm fun x t now adc get tadc tb => ?_
  have waits : adcTaskStartOne s.sys.pllA n x = x.adcU n fun a => { a with armed := false, wake := true } := by
    rw [adcTaskStartOne, unlocked, if_neg Bool.false_ne_true]
  rw [tadc, tb, waits, Dev.adcU_adc_same, adc]
  exact ⟨rfl, congrArg ADC_STAT.RUNNING.bit (get .stat)⟩

end

/-! ### PLL_LOCK -/

/-- The clause of a command that depends on the present instant and the converters alone, whatever the shroud has had to do (R19). -/
theorem Does.of_adcs {i : Instr} {s : State} {f : Dev → Dev} {P : Dev → Prop} (answer : exec i s = act f s) (up : Up s)
    (h : ∀ q : Dev, q.now = s.now → q.adcs = s.adcs → P (settle (f q))) : Does i s P := by
  refine ⟨_, answer, rfl, ?_⟩
  simp only [up.1, Option.isSome_none, Bool.false_eq_true, if_false, catchUp_eq up.2, timely]
  split
  · exact h _ rfl rfl
  · exact h _ rfl catchUp_adcs

/-- A start that waited for PLL A is made. -/
def adcWoken (n : Fin 32) (x : Dev) : Dev := adcStart n (x.adcU n fun a => { a with wake := false })

theorem adcWoken_adcView {n m : Fin 32} (h : n ≠ m) (d : Dev) : (adcWoken n d).adcView m = d.adcView m := by
  rw [adcWoken, adcStart_adcView h, Dev.adcU_adcView h]

theorem adcPllLock_starts {n : Fin 32} {d : Dev} (wake : d.adc[n].wake = true) (idle : d.adc[n].run = .idle) (mode : adcMode d n = 1) :
    (adcPllLock d).adc[n].run = .cont (acUp d.now) 0 none ∧ (adcPllLock d).adc[n].wake = false ∧
      (adcPllLock d).b (.adc n .stat) ADC_STAT.RUNNING = true := by
  have mem : n ∈ (fins 32).filter fun n => d.adc[n].wake := List.mem_filter.2 ⟨mem_fins n, wake⟩
  obtain ⟨x, hx, ht⟩ := each_adcView_of_mem ((fins_nodup 32).filter _) mem (fun _ h d => adcWoken_adcView h d) d
  have start : adcWoken n x = adcGo n (acUp x.now) (x.adcU n fun a => { a with wake := false }) := by
    rw [adcWoken, adcStart_idle]
    · rfl
    · exact (f_of_adcView hx ..).trans mode
    · rw [Dev.adcU_adc_same, adc_of_adcView hx, idle]
  have made : adcPllLock d = d.each ((fins 32).filter fun n => d.adc[n].wake) adcWoken := rfl
  rw [made, adc_of_adcView ht, b_of_adcView ht, start, adcGo_adc, Dev.now_of_adcView hx, Dev.adcU_adc_same]
  exact ⟨rfl, rfl, adcGo_running _⟩

theorem pllLock_starts {s : State} {n : Fin 32} (up : Up s) (wake : s.adc[n].wake = true) (idle : s.adc[n].run = .idle)
    (mode : s.f (.adc n .ctl) ADC_CTL.MODE = 1) : Does (.pllLock false) s fun t =>
      t.adc[n].run = .cont (acUp s.now) 0 none ∧ t.adc[n].wake = false ∧ t.b (.adc n .stat) ADC_STAT.RUNNING = true := by
  refine .of_adcs rfl up fun q now adcs => ?_
  obtain ⟨d, made, hd, hnow⟩ : ∃ d : Dev, lnkPllLock (pllLock false q) = lnkPllLock (tbPllLock false (adcPllLock d)) ∧ d.adcs = q.adcs ∧
      d.now = q.now := by
    refine ⟨_, rfl, ?_, by simp⟩
    simp only [Dev.flagIf_adcs (r := .sys .sysstat) (by simp), Dev.lineOff_adcs, Dev.flag_adcs (r := .sys (.ready 0)) (by simp)]
    rfl
  have same : d.adcs = s.adcs := hd.trans adcs
  obtain ⟨run, woken, running⟩ := adcPllLock_starts (n := n) (d := d) (by rw [adc_of_adcs same, wake]) (by rw [adc_of_adcs same, idle])
    ((f_of_adcs same ..).trans mode)
  have after : (lnkPllLock (pllLock false q)).adcs = (adcPllLock d).adcs := by rw [made, lnkPllLock_adcs, tbPllLock_adcs]
  show (settle (lnkPllLock (pllLock false q))).adc[n].run = _ ∧ (settle (lnkPllLock (pllLock false q))).adc[n].wake = _ ∧
    (settle (lnkPllLock (pllLock false q))).b (.adc n .stat) ADC_STAT.RUNNING = _
  rw [settle_adc, settle_b, adc_of_adcs after, b_of_adcs after, run, hnow, now]
  exact ⟨rfl, woken, running⟩

/-! ### ADC_TRIGGER_TASK -/

section
variable {n : Fin 32} {t : Nat} {d : Dev} (ready : (adcMode d n = 2 && d.b (.adc n .ctl) ADC_CTL.EN && d.tbRun (adcTb d n)) = true)
include ready

theorem adcTrigger_free (free : d.b (.adc n .stat) ADC_STAT.BUSY = false) : adcTrigger n t d = adcPass n (t + adcDelay d n) d := by
  rw [adcTrigger, ready, if_pos rfl, free]
  rfl

theorem adcTrigger_pends (busy : d.b (.adc n .stat) ADC_STAT.BUSY = true) (none : d.adc[n].pend = .none) :
    adcTrigger n t d = (d.adcU n fun a => { a with pend := some t }).flag (.adc n .stat) ADC_STAT.PEND := by
  rw [adcTrigger, ready, if_pos rfl, busy, if_neg (by simp), if_pos none]

theorem adcTrigger_drops (busy : d.b (.adc n .stat) ADC_STAT.BUSY = true) (some_ : d.adc[n].pend ≠ .none) :
    adcTrigger n t d =
      (((d.flag (.adc n .stat) ADC_STAT.OVERRUN).bump (.adc n .cnt) ADC_CNT.OVERRUN_CNT).raise (224 + n.val)).pulse (160 + n.val) := by
  rw [adcTrigger, ready, if_pos rfl, busy, if_neg (by simp), if_neg some_]

end

theorem adcPass_adc (n : Fin 32) (h0 : Nat) (d : Dev) : (adcPass n h0 d).adc[n] = { d.adc[n] with run := .pass h0 0 } := by
  rw [adcPass, Dev.flag_adc, Dev.adcU_adc_same]

theorem adcPass_busy (n : Fin 32) (h0 : Nat) (d : Dev) : (adcPass n h0 d).b (.adc n .stat) ADC_STAT.BUSY = true :=
  Dev.b_flag _ _ (by decide)

section
variable {s : State} {n : Fin 32} {ch : Fin 256} {e : Nat} (up : Up s) (at_ : fabTaskAt s.toDev .adcTrig ch = some e)
  (tsrc : s.b (.adc n .trig) ADC_TRIG.TSRC = false) (tch : s.f (.adc n .trig) ADC_TRIG.TCH = ch.val)
  (mode : s.f (.adc n .ctl) ADC_CTL.MODE = 2) (en : s.f (.adc n .ctl) ADC_CTL.EN = 1) (run : s.tbRun (adcTb s.toDev n) = true)
  (calm : Calm s (max e ((fabGot s.toDev ch e).getD (max s.now e))))
include up at_ tsrc tch mode en run calm

/-- The tick on which a converter takes a trigger. -/
def adcTick (s : State) (n : Fin 32) (ch : Fin 256) (e : Nat) : Nat :=
  tickUp (tbB s.toDev (adcTb s.toDev n)) ((fabGot s.toDev ch e).getD (max s.now e))

theorem adcTriggerTask_of {P : Dev → Prop} (h : ∀ x t : Dev, x.adcView n = (fabFound .adcTrig ch e s.toDev).adcView n →
    (adcMode x n = 2 && x.b (.adc n .ctl) ADC_CTL.EN && x.tbRun (adcTb x n)) = true →
    t.adc[n] = (adcTrigger n (adcTick s n ch e) x).adc[n] →
    (∀ r f, t.b (.adc n r) f = (adcTrigger n (adcTick s n ch e) x).b (.adc n r) f) →
    (160 + n.val ∈ (adcTrigger n (adcTick s n ch e) x).fc.fresh → 160 + n.val ∈ t.fc.fresh) → P t) :
    Does (.adcTriggerTask ch) s P := by
  have others {k m : Fin 32} (h : k ≠ m) (d : Dev) : (adcTrigger k (tickUp (tbB d (adcTb d k)) d.now) d).adcView m = d.adcView m :=
    adcTrigger_adcView h _
  refine .of_task (f := adcTaskTrigger ch.val) rfl up at_ rfl
    (fun d => each_now_of_others (f := fun k x => adcTrigger k (tickUp (tbB x (adcTb x k)) x.now) x) (fun h d => others h d) d) calm ?_
  have mem : n ∈ (fins 32).filter fun n => !(s.b (.adc n .trig) ADC_TRIG.TSRC) && s.f (.adc n .trig) ADC_TRIG.TCH == ch.val :=
    List.mem_filter.2 ⟨mem_fins n, by rw [tsrc, tch]; simp⟩
  obtain ⟨x, hx, ht⟩ := each_adcView_of_mem (f := fun k x => adcTrigger k (tickUp (tbB x (adcTb x k)) x.now) x)
    ((fins_nodup 32).filter _) mem (fun _ h d => others h d) (fabFound .adcTrig ch e s.toDev)
  have tbs := tbs_of_adcView hx
  have tb : adcTb x n = adcTb s.toDev n := by rw [adcTb, f_of_adcView hx]; rfl
  have tick : tickUp (tbB x (adcTb x n)) x.now = adcTick s n ch e := by
    rw [tb, tbB_of_tbs tbs, Dev.now_of_tbs tbs]
    rfl
  have ready : (adcMode x n = 2 && x.b (.adc n .ctl) ADC_CTL.EN && x.tbRun (adcTb x n)) = true := by
    have mode' : adcMode x n = 2 := (f_of_adcView hx ..).trans mode
    have en' : x.b (.adc n .ctl) ADC_CTL.EN = true := (b_of_adcView hx ..).trans (Fld.bit_of_get_one en)
    have run' : x.tbRun (adcTb x n) = true := by rw [tb, Dev.tbRun_of_tbs tbs]; exact run
    rw [mode', en', run']
    rfl
  rw [tick] at ht
  refine h x _ hx ready ?_ (fun r f => ?_) fun fresh => ?_
  · rw [settle_adc, Dev.at_adc]
    exact adc_of_adcView ht
  · rw [settle_b, Dev.at_b]
    exact b_of_adcView ht r f
  · rw [settle_fc]
    exact (fresh_of_adcView ht (by simp [adcLine]; omega)).2 fresh

theorem adcTriggerTask_free (free : s.b (.adc n .stat) ADC_STAT.BUSY = false) : Does (.adcTriggerTask ch) s fun t =>
    t.b (.adc n .stat) ADC_STAT.BUSY = true ∧ t.adc[n].run = .pass (adcTick s n ch e + adcDelay s.toDev n) 0 := by
  refine adcTriggerTask_of up at_ tsrc tch mode en run calm fun x t hx ready adc b _ => ?_
  have delay : adcDelay x n = adcDelay s.toDev n := by rw [adcDelay, b_of_adcView hx, f_of_adcView hx]; rfl
  rw [adc, b, adcTrigger_free ready ((b_of_adcView hx ..).trans free), adcPass_adc, delay]
  exact ⟨adcPass_busy .., rfl⟩

theorem adcTriggerTask_pends (busy : s.b (.adc n .stat) ADC_STAT.BUSY = true) (none : s.adc[n].pend = .none) :
    Does (.adcTriggerTask ch) s fun t => t.adc[n].pend = some (adcTick s n ch e) ∧ t.adc[n].run = s.adc[n].run ∧
      t.b (.adc n .stat) ADC_STAT.PEND = true := by
  refine adcTriggerTask_of up at_ tsrc tch mode en run calm fun x t hx ready adc b _ => ?_
  have adcx : x.adc[n] = s.adc[n] := (adc_of_adcView hx).trans rfl
  rw [adc, b, adcTrigger_pends ready ((b_of_adcView hx ..).trans busy) (by rw [adcx, none]), Dev.flag_adc, Dev.adcU_adc_same, adcx]
  exact ⟨rfl, rfl, Dev.b_flag _ _ (by decide)⟩

theorem adcTriggerTask_drops (busy : s.b (.adc n .stat) ADC_STAT.BUSY = true) (some_ : s.adc[n].pend ≠ .none) :
    Does (.adcTriggerTask ch) s fun t => t.adc[n] = s.adc[n] ∧ t.b (.adc n .stat) ADC_STAT.OVERRUN = true ∧ 160 + n.val ∈ t.fc.fresh := by
  refine adcTriggerTask_of up at_ tsrc tch mode en run calm fun x t hx ready adc b fresh => ?_
  have adcx : x.adc[n] = s.adc[n] := (adc_of_adcView hx).trans rfl
  have drops := adcTrigger_drops (t := adcTick s n ch e) ready ((b_of_adcView hx ..).trans busy) (by rwa [adcx])
  rw [drops] at adc b fresh
  rw [adc, b, Dev.pulse_adc, Dev.raise_adc, Dev.bump_adc, Dev.flag_adc, adcx, Dev.b, Dev.get_pulse, Dev.get_congr (Dev.raise_regs ..),
    Dev.bump, Dev.bumpBy, Dev.get_setF_ne _ (by simp)]
  exact ⟨rfl, Dev.b_flag _ _ (by decide), fresh (mem_insLine ..)⟩

end

end Sys2Proof.Machine
end

section
/-!
SUPPORT. ADC_HOLD, and the end of a busy period (R96, R100, R105, R106, R121).
-/
set_option Elab.async false
namespace Sys2Proof.Machine
open Sys2Proof

/-! ### ADC_HOLD -/

/-- A write falls within the 10 ns before an instant. -/
theorem justBefore_eq (w : Option Nat) (t : Nat) : justBefore w t = w.any fun x => decide (t < x + 10 * tuNs) := by cases w <;> rfl

/-- The conversion of hold h at instant t, by entry w of the sequence. -/
def adcTaken (d : Dev) (n : Fin 32) (w : Word) (h t : Nat) (raw : Int) : AdcConv :=
  let lo : Int := if ADC_SEQ.SRC.get w ∈ [4, 5] then -32768 else 0
  let late (x : Option Nat) : Bool := x.any fun y => decide (t < y + 10 * tuNs)
  { entry := Fin.ofNat 16 (h % adcLen d n), seq := w, raw := max lo (min (lo + 65535) raw), at_ := t, ts := d.stamp t, tv := d.ctv,
    last := h % adcLen d n == adcLen d n - 1, skip := ADC_SEQ.SRC.get w == 7,
    openV := late d.adc[n].seqAt[(Fin.ofNat 16 (h % adcLen d n) : Fin 16)] ||
      (ADC_SEQ.SRC.get w == 6 && ADC_SEQ.ICH.get w == 3 && late d.sys.vioAt) }

theorem adcTake_of_analog {n : Fin 32} {h t : Nat} {raw : Int} {d : Dev} (analog : d.b (.sys (.ready 0)) READY0.ANALOG = true)
    (signal : seqGround d (adcSeqFor d n h) = false) :
    adcTake n h t raw d = (d.at t).adcU n fun a => { a with conv := a.conv ++ [adcTaken d n (adcSeqFor d n h) h t raw] } := by
  simp only [adcTake, analog, signal, Bool.not_true, Bool.or_false, Bool.false_eq_true, if_false, adcTaken, justBefore_eq, clampI, seqVio,
    seqDiff, List.mem_cons, List.not_mem_nil, or_false, Bool.or_eq_true, beq_iff_eq]
  rfl

section
variable {s : State} {n : Fin 32} {raw : Int} (up : Up s)
include up

theorem adcHold_idle (idle : s.adc[n].run = .idle) : exec (.adcHold n raw) s = after s s.toDev :=
  exec_of_act (f := adcHold n raw) rfl up (by simp only [adcHold, idle]) (up.calm (le_refl _))

/-- A hold is taken by entry w at instant t, and the run goes on. -/
theorem adcHold_takes {w : Word} {h t : Nat} {run : AdcRun} (analog : s.b (.sys (.ready 0)) READY0.ANALOG = true)
    (entry : adcSeqFor s.toDev n h = w) (signal : seqGround s.toDev w = false) (calm : Calm s t)
    (made : adcHold n raw s.toDev = (adcTake n h t raw s.toDev).adcU n fun a => { a with run }) :
    Does (.adcHold n raw) s fun u => u.adc[n].run = run ∧ u.now = max s.now t ∧
      u.adc[n].conv = s.adc[n].conv ++ [adcTaken s.toDev n w h t raw] := by
  rw [adcTake_of_analog analog (by rwa [entry]), entry] at made
  have now : (adcHold n raw s.toDev).now = max s.now t := by rw [made]; rfl
  refine .of_act (f := adcHold n raw) rfl up (by rw [now]; exact calm_max.2 calm) ?_
  rw [settle_now, settle_adc, now, made, Dev.adcU_adc_same, Dev.adcU_adc_same]
  exact ⟨rfl, rfl, rfl⟩

theorem adcHold_continuous (analog : s.b (.sys (.ready 0)) READY0.ANALOG = true) (t0 h : Nat) (cont : s.adc[n].run = .cont t0 h none)
    (signal : seqGround s.toDev (if h = 0 then s.adc[n].seq0 else s.get (.adc n (.seq (Fin.ofNat 16 (h % adcLen s.toDev n))))) = false)
    (calm : Calm s (adcHoldAt s.toDev n t0 h)) :
    Does (.adcHold n raw) s fun u => u.adc[n].run = .cont t0 (h + 1) none ∧ u.now = max s.now (adcHoldAt s.toDev n t0 h) ∧
      u.adc[n].conv = s.adc[n].conv ++ [adcTaken s.toDev n
        (if h = 0 then s.adc[n].seq0 else s.get (.adc n (.seq (Fin.ofNat 16 (h % adcLen s.toDev n))))) h (adcHoldAt s.toDev n t0 h) raw] :=
  adcHold_takes up analog (by simp only [adcSeqFor, cont]) signal calm (by simp only [adcHold, cont, if_true])

theorem adcHold_triggered (analog : s.b (.sys (.ready 0)) READY0.ANALOG = true) (h0 h : Nat) (pass : s.adc[n].run = .pass h0 h)
    (more : h < adcLen s.toDev n) (signal : seqGround s.toDev (s.get (.adc n (.seq (Fin.ofNat 16 (h % adcLen s.toDev n))))) = false)
    (calm : Calm s (h0 + h * (80 * tuTick))) :
    Does (.adcHold n raw) s fun u => u.adc[n].run = .pass h0 (h + 1) ∧ u.now = max s.now (h0 + h * (80 * tuTick)) ∧
      u.adc[n].conv = s.adc[n].conv ++ [adcTaken s.toDev n (s.get (.adc n (.seq (Fin.ofNat 16 (h % adcLen s.toDev n))))) h
        (h0 + h * (80 * tuTick)) raw] :=
  adcHold_takes up analog (by simp only [adcSeqFor, pass]) signal calm (by simp only [adcHold, pass, if_pos more])

end

/-! ### ADC_BUSY_END -/

/-- DEFER tells that a pass begins later than its trigger asked for. -/
def adcDeferred (n : Fin 32) (late : Bool) (d : Dev) : Dev :=
  if late then (d.flag (.adc n .stat) ADC_STAT.DEFER).bump (.adc n .cnt) ADC_CNT.DEFER_CNT else d

theorem adcDeferred_adc {n : Fin 32} (late : Bool) (d : Dev) : (adcDeferred n late d).adc = d.adc := by unfold adcDeferred; split <;> rfl

theorem adcDeferred_now {n : Fin 32} (late : Bool) (d : Dev) : (adcDeferred n late d).now = d.now := by unfold adcDeferred; split <;> rfl

theorem adcDeferred_b {n : Fin 32} {f : Fld} (hf : f.ok = true) (apart : f.apart ADC_STAT.DEFER = true) (late : Bool) (d : Dev) :
    (adcDeferred n late d).b (.adc n .stat) f = d.b (.adc n .stat) f := by
  unfold adcDeferred
  split
  · exact (congrArg f.bit (Dev.get_setF_ne _ (by simp) _ _)).trans (Dev.b_setB_apart d _ hf (by decide) apart true)
  · rfl

theorem adcDeferred_late {n : Fin 32} (d : Dev) : (adcDeferred n true d).b (.adc n .stat) ADC_STAT.DEFER = true :=
  (congrArg ADC_STAT.DEFER.bit (Dev.get_setF_ne _ (by simp) _ _)).trans (Dev.b_flag d _ (by decide))

section
variable {s : State} {n : Fin 32} (up : Up s) (h0 h : Nat) (pass : s.adc[n].run = .pass h0 h) (full : adcLen s.toDev n ≤ h)
  (calm : Calm s (h0 + adcLen s.toDev n * (80 * tuTick)))
include up pass full calm

theorem adcBusyEnd_rests (none : s.adc[n].pend = none) : Does (.adcBusyEnd n) s fun t => t.adc[n].run = .idle ∧
    t.b (.adc n .stat) ADC_STAT.BUSY = false ∧ t.now = max s.now (h0 + adcLen s.toDev n * (80 * tuTick)) := by
  have made : adcBusyEnd n s.toDev = ((s.toDev.at (h0 + adcLen s.toDev n * (80 * tuTick))).adcU n fun a => { a with run := .idle }).setB
      (.adc n .stat) ADC_STAT.BUSY false := by simp only [adcBusyEnd, pass, if_pos full, none]
  refine .of_act (f := adcBusyEnd n) rfl up (by rw [made]; exact calm_max.2 calm) ?_
  rw [made, settle_adc, settle_b, settle_now, Dev.setB_adc, Dev.adcU_adc_same]
  exact ⟨rfl, Dev.b_setB _ _ (by decide) _, rfl⟩

theorem adcBusyEnd_goes_on (tp : Nat) (some_ : s.adc[n].pend = some tp) : Does (.adcBusyEnd n) s fun t => t.adc[n].pend = none ∧
    t.b (.adc n .stat) ADC_STAT.PEND = false ∧ t.b (.adc n .stat) ADC_STAT.BUSY = true ∧
    t.adc[n].run = .pass (max (tp + adcDelay s.toDev n) (h0 + adcLen s.toDev n * (80 * tuTick))) 0 ∧
    (tp + adcDelay s.toDev n < h0 + adcLen s.toDev n * (80 * tuTick) → t.b (.adc n .stat) ADC_STAT.DEFER = true) := by
  obtain ⟨d1, hd1⟩ : ∃ d1, d1 = ((s.toDev.at (h0 + adcLen s.toDev n * (80 * tuTick))).adcU n fun a => { a with pend := none }).setB
    (.adc n .stat) ADC_STAT.PEND false := ⟨_, rfl⟩
  have made : adcBusyEnd n s.toDev = adcPass n (max (tp + adcDelay s.toDev n) (h0 + adcLen s.toDev n * (80 * tuTick)))
      (adcDeferred n (decide (tp + adcDelay s.toDev n < h0 + adcLen s.toDev n * (80 * tuTick))) d1) := by
    simp only [adcBusyEnd, pass, if_pos full, some_, adcDeferred, decide_eq_true_eq, hd1]
  have busy {f : Fld} (hf : f.ok = true) (apart : f.apart ADC_STAT.BUSY = true) (t : Nat) (d : Dev) :
      (adcPass n t d).b (.adc n .stat) f = d.b (.adc n .stat) f := Dev.b_setB_apart _ _ hf (by decide) apart true
  have adc : d1.adc[n] = { s.adc[n] with pend := none } := by rw [hd1, Dev.setB_adc, Dev.adcU_adc_same]; rfl
  refine .of_act (f := adcBusyEnd n) rfl up ?_ ?_
  · have now : (adcBusyEnd n s.toDev).now = max s.now (h0 + adcLen s.toDev n * (80 * tuTick)) := by
      rw [made, adcPass, Dev.flag_now, Dev.adcU_now, adcDeferred_now, hd1]
      rfl
    rw [now]
    exact calm_max.2 calm
  · rw [made]
    simp only [settle_b]
    rw [settle_adc, adcPass_adc, adcDeferred_adc, adc]
    refine ⟨rfl, ?_, adcPass_busy .., rfl, fun late => ?_⟩
    · rw [busy (by decide) (by decide), adcDeferred_b (by decide) (by decide), hd1]
      exact Dev.b_setB _ _ (by decide) _
    · rw [busy (by decide) (by decide), decide_eq_true late]
      exact adcDeferred_late _

end

end Sys2Proof.Machine
end

section
/-!
SUPPORT. ADC_RESULT_READY: the correction of a code, the result's registers, the limits, and the end of a run (R97, R103, R110-R114).
-/
set_option Elab.async false
namespace Sys2Proof.Machine
open Sys2Proof

/-! ### The correction (R97) -/

/-- The least result of a coding. -/
def adcLow (diff : Bool) : Int := if diff then -32768 else 0

/-- The corrected code, before it saturates. -/
def adcRounded (calo calg : Word) (x : Int) : Int := rndAway ((x - sextN 16 calo.toNat) * calg.toNat) 32768

/-- A result, saturated at the ends of its coding. -/
def adcOut (diff : Bool) (y : Int) : Int := max (adcLow diff) (min (adcLow diff + 65535) y)

/-- The result saturates, or its code stands at an end of the coding. -/
def adcSat (diff : Bool) (x y : Int) : Bool :=
  decide (y < adcLow diff ∨ adcLow diff + 65535 < y ∨ x ≤ adcLow diff ∨ adcLow diff + 65535 ≤ x)

theorem adcCorrect_eq (calo calg : Word) (diff : Bool) (x : Int) :
    adcCorrect calo calg diff x = (adcOut diff (adcRounded calo calg x), adcSat diff x (adcRounded calo calg x)) := by
  cases diff <;> rfl

/-- The word of a result register (R110). -/
def adcResWord (sat diff : Bool) (out : Int) : Word :=
  (0 : Word) |> ADC_RES.FRESH.put 1 |> ADC_RES.SAT.put (b2n sat) |> ADC_RES.DIFF.put (b2n diff) |> ADC_RES.DATA.put (out % 65536).toNat

/-- The word of ADCn_LAST for the same result. -/
def adcLastWord (c : AdcConv) (res : Word) : Word := res |> ADC_LAST.TV.put (b2n c.tv) |> ADC_LAST.ENTRY.put c.entry.val

/-! ### The end of a run (R103) -/

/-- Converter n may have ended its run, and no more. -/
structure AdcEnds (n : Fin 32) (d e : Dev) : Prop where
  runs : AdcRuns n d e
  now : e.now = d.now
  fc : e.fc = d.fc
  conv : e.adc[n].conv = d.adc[n].conv
  lastTs : e.adc[n].lastTs = d.adc[n].lastTs

theorem AdcEnds.refl (n : Fin 32) (d : Dev) : AdcEnds n d d := ⟨.refl d, rfl, rfl, rfl, rfl⟩

theorem adcRunEnd_ends (n : Fin 32) (d : Dev) : AdcEnds n d (adcRunEnd n d) := by
  have stopped : AdcEnds n d (adcRunSet n false (d.adcU n fun a => { a with run := .idle })) := by
    refine ⟨((AdcRuns.refl d).adcU n _).running false, rfl, rfl, ?_, ?_⟩
    all_goals rw [adcRunSet_adc, Dev.adcU_adc_same]
  have again (t : Nat) {e : Dev} (h : AdcEnds n d e) : AdcEnds n d (adcGo n t e) := by
    obtain ⟨runs, now, fc, conv, lastTs⟩ := h
    exact ⟨runs.trans (adcGo_runs t), now, fc, by rwa [adcGo_adc], by rwa [adcGo_adc]⟩
  unfold adcRunEnd
  split
  · split
    · dsimp only
      split
      · exact again _ stopped
      · exact stopped
    · exact .refl n d
  · exact .refl n d

/-! ### The steps of a result -/

/-- The last entry of a sequence sets EOS. -/
def adcEos (n : Fin 32) (last : Bool) (d : Dev) : Dev := if last then (d.flag (.adc n .stat) ADC_STAT.EOS).raise (160 + n.val) else d

/-- The result of conversion c takes its places. -/
def adcPlaced (n : Fin 32) (c : AdcConv) (res : Word) (d : Dev) : Dev :=
  ((d.put (.adc n (.res c.entry)) res).put (.adc n .last) (adcLastWord c res)).adcU n fun a => { a with lastTs := c.ts }

/-- The result goes to the loop engines, and to the capture engine where the entry asks for it. -/
def adcOffered (n : Fin 32) (c : AdcConv) (sat : Bool) (data : Nat) (d : Dev) : Dev :=
  let d1 := leFromAdc n c.entry.val (seqDiff c.seq) data d
  if ADC_SEQ.CAP.bit c.seq then capAdc n c.entry.val sat c.tv data c.ts d1 else d1

/-- The conversion is no longer under way 48 ns after its hold. -/
def adcConverted (n : Fin 32) (c : AdcConv) (rest : List AdcConv) (d : Dev) : Dev :=
  (d.at (c.at_ + 48 * tuNs)).adcU n fun a => { a with conv := rest }

section
variable {n m : Fin 32} {c : AdcConv} {rest : List AdcConv} {d : Dev}

@[simp] theorem adcOffered_adcView {sat : Bool} {data : Nat} : (adcOffered n c sat data d).adcView m = d.adcView m := by simp [adcOffered]

theorem adcConverted_adc : (adcConverted n c rest d).adc[n] = { d.adc[n] with conv := rest } := by
  rw [adcConverted, Dev.adcU_adc_same]; rfl

theorem adcReady_skips (conv : d.adc[n].conv = c :: rest) (skip : c.skip = true) :
    adcReady n d = adcRunEnd n (adcEos n c.last (adcConverted n c rest d)) := by
  simp only [adcReady, conv, skip, if_true]
  rfl

theorem adcReady_results (conv : d.adc[n].conv = c :: rest) (valid : c.openV = false) (result : c.skip = false) {y : Int}
    (hy : y = adcRounded (d.get (.adc n .calo)) (d.get (.adc n .calg)) c.raw) {sat : Bool} (hsat : sat = adcSat (seqDiff c.seq) c.raw y) :
    adcReady n d = adcRunEnd n (adcOffered n c sat (adcOut (seqDiff c.seq) y % 65536).toNat (adcLimit n c.seq (adcOut (seqDiff c.seq) y)
      (adcEos n c.last (adcPlaced n c (adcResWord sat (seqDiff c.seq) (adcOut (seqDiff c.seq) y)) (adcConverted n c rest d))))) := by
  subst hsat hy
  simp only [adcReady, conv, result, valid, adcCorrect_eq, Bool.false_eq_true, if_false]
  rfl

end

/-! ### What each step leaves -/

section
variable {n : Fin 32} {d : Dev}

@[simp] theorem adcEos_now {last : Bool} : (adcEos n last d).now = d.now := by unfold adcEos; split <;> simp
@[simp] theorem adcEos_adc {last : Bool} : (adcEos n last d).adc = d.adc := by unfold adcEos; split <;> simp

theorem adcEos_get {last : Bool} {r : Reg} (h : r ≠ .adc n .stat) : (adcEos n last d).get r = d.get r := by
  unfold adcEos
  split
  · exact (Dev.get_congr (Dev.raise_regs ..) r).trans (Dev.get_setF_ne d h _ _)
  · rfl

theorem adcEos_set : (adcEos n true d).b (.adc n .stat) ADC_STAT.EOS = true :=
  (congrArg ADC_STAT.EOS.bit (Dev.get_congr (Dev.raise_regs ..) _)).trans (Dev.b_flag d _ (by decide))

/-- A limit of results of a coding, as ADCn_LIM gives it. -/
def adcBound (d : Dev) (n : Fin 32) (diff : Bool) (f : Fld) : Int :=
  if diff then sextN 16 (d.f (.adc n .lim) f) else (d.f (.adc n .lim) f : Int)

/-- A result lies beyond a limit (R113). -/
def adcLimited (n : Fin 32) (d : Dev) : Dev :=
  (((d.flag (.adc n .stat) ADC_STAT.LIMIT).bump (.adc n .cnt) ADC_CNT.LIMIT_CNT).raise (192 + n.val)).pulse (192 + n.val)

variable {seq : Word} {y : Int}

theorem adcLimit_eq : adcLimit n seq y d = if ADC_SEQ.LIMEN.bit seq &&
    decide (y < adcBound d n (seqDiff seq) ADC_LIM.LO ∨ adcBound d n (seqDiff seq) ADC_LIM.HI < y) then adcLimited n d else d := rfl

theorem adcLimited_get {r : Reg} (cnt : r ≠ .adc n .cnt) : (adcLimited n d).get r = (d.flag (.adc n .stat) ADC_STAT.LIMIT).get r := by
  rw [adcLimited, Dev.get_pulse, Dev.get_congr (Dev.raise_regs ..)]
  exact Dev.get_setF_ne _ cnt _ _

@[simp] theorem adcLimit_now : (adcLimit n seq y d).now = d.now := by
  rw [adcLimit_eq]
  split
  · simp [adcLimited]
  · rfl

@[simp] theorem adcLimit_adc : (adcLimit n seq y d).adc = d.adc := by
  rw [adcLimit_eq]
  split
  · simp [adcLimited]
  · rfl

theorem adcLimit_get {r : Reg} (stat : r ≠ .adc n .stat) (cnt : r ≠ .adc n .cnt) : (adcLimit n seq y d).get r = d.get r := by
  rw [adcLimit_eq]
  split
  · exact (adcLimited_get cnt).trans (Dev.get_setF_ne d stat _ _)
  · rfl

theorem adcLimit_stat {f : Fld} (hf : f.ok = true) (apart : f.apart ADC_STAT.LIMIT = true) :
    (adcLimit n seq y d).b (.adc n .stat) f = d.b (.adc n .stat) f := by
  rw [adcLimit_eq]
  split
  · exact (congrArg f.bit (adcLimited_get (by simp))).trans (Dev.b_setB_apart d _ hf (by decide) apart true)
  · rfl

theorem adcLimit_beyond (checked : ADC_SEQ.LIMEN.bit seq = true)
    (beyond : y < adcBound d n (seqDiff seq) ADC_LIM.LO ∨ adcBound d n (seqDiff seq) ADC_LIM.HI < y) :
    (adcLimit n seq y d).b (.adc n .stat) ADC_STAT.LIMIT = true ∧ 192 + n.val ∈ (adcLimit n seq y d).fc.fresh := by
  rw [adcLimit_eq, if_pos (by rw [checked, decide_eq_true beyond]; rfl)]
  exact ⟨(congrArg ADC_STAT.LIMIT.bit (adcLimited_get (by simp))).trans (Dev.b_flag d _ (by decide)), mem_insLine ..⟩

end

/-! ### The command -/

section
variable {s : State} {n : Fin 32}

theorem adcResultReady_none (up : Up s) (none : s.adc[n].conv = []) : exec (.adcResultReady n) s = after s s.toDev :=
  exec_of_act (f := adcReady n) rfl up (by simp only [adcReady, none]) (up.calm (le_refl _))

/-- What a result leaves in the converter. -/
structure AdcResult (d : Dev) (n : Fin 32) (c : AdcConv) (res : Word) (out : Int) (t : Dev) : Prop where
  place : t.get (.adc n (.res c.entry)) = res
  last : t.get (.adc n .last) = adcLastWord c res
  lastTs : t.adc[n].lastTs = c.ts
  limit : ADC_SEQ.LIMEN.bit c.seq = true → out < adcBound d n (seqDiff c.seq) ADC_LIM.LO ∨ adcBound d n (seqDiff c.seq) ADC_LIM.HI < out →
    t.b (.adc n .stat) ADC_STAT.LIMIT = true ∧ 192 + n.val ∈ t.fc.fresh

variable {d e x : Dev} {c : AdcConv} {rest : List AdcConv}

/-- What every result leaves: its conversion has ended, and EOS is set after the last entry. -/
structure AdcConvEnds (n : Fin 32) (c : AdcConv) (rest : List AdcConv) (d e : Dev) : Prop where
  conv : e.adc[n].conv = rest
  now : e.now = max d.now (c.at_ + 48 * tuNs)
  eos : c.last = true → e.b (.adc n .stat) ADC_STAT.EOS = true

theorem AdcConvEnds.runEnd (h : AdcConvEnds n c rest d x) (ends : AdcEnds n x e) : AdcConvEnds n c rest d e where
  conv := ends.conv.trans h.conv
  now := ends.now.trans h.now
  eos last := (ends.runs.flag _ (by decide)).trans (h.eos last)

theorem AdcConvEnds.congr (h : AdcConvEnds n c rest d x) (view : e.adcView n = x.adcView n) : AdcConvEnds n c rest d e where
  conv := by rw [adc_of_adcView view, h.conv]
  now := (Dev.now_of_adcView view).trans h.now
  eos last := (b_of_adcView view ..).trans (h.eos last)

theorem AdcConvEnds.limit (h : AdcConvEnds n c rest d x) (y : Int) : AdcConvEnds n c rest d (adcLimit n c.seq y x) where
  conv := by rw [adcLimit_adc, h.conv]
  now := adcLimit_now.trans h.now
  eos last := (adcLimit_stat (by decide) (by decide)).trans (h.eos last)

theorem adcEos_convEnds (conv : x.adc[n].conv = rest) (now : x.now = max d.now (c.at_ + 48 * tuNs)) :
    AdcConvEnds n c rest d (adcEos n c.last x) where
  conv := by rw [adcEos_adc, conv]
  now := adcEos_now.trans now
  eos last := by rw [last]; exact adcEos_set

theorem AdcResult.runEnd {res : Word} {out : Int} (h : AdcResult d n c res out x) (ends : AdcEnds n x e) : AdcResult d n c res out e where
  place := (ends.runs.get _ (by simp)).trans h.place
  last := (ends.runs.get _ (by simp)).trans h.last
  lastTs := ends.lastTs.trans h.lastTs
  limit checked beyond := by
    obtain ⟨flag, fresh⟩ := h.limit checked beyond
    exact ⟨(ends.runs.flag _ (by decide)).trans flag, by rwa [ends.fc]⟩

theorem AdcResult.congr {res : Word} {out : Int} (h : AdcResult d n c res out x) (view : e.adcView n = x.adcView n) :
    AdcResult d n c res out e where
  place := (get_of_adcView view _).trans h.place
  last := (get_of_adcView view _).trans h.last
  lastTs := by rw [adc_of_adcView view, h.lastTs]
  limit checked beyond := by
    obtain ⟨flag, fresh⟩ := h.limit checked beyond
    exact ⟨(b_of_adcView view ..).trans flag, (fresh_of_adcView view (by simp [adcLine]; omega)).2 fresh⟩

/-- The registers of a result, and its limits. -/
theorem adcLimit_result (res : Word) (out : Int) (lim : x.get (.adc n .lim) = d.get (.adc n .lim)) :
    AdcResult d n c res out (adcLimit n c.seq out (adcEos n c.last (adcPlaced n c res x))) where
  place := by
    rw [adcLimit_get (by simp) (by simp), adcEos_get (by simp)]
    exact (Dev.get_put_ne _ (by simp) _).trans (Dev.get_put_same ..)
  last := by
    rw [adcLimit_get (by simp) (by simp), adcEos_get (by simp)]
    exact Dev.get_put_same ..
  lastTs := by rw [adcLimit_adc, adcEos_adc, adcPlaced, Dev.adcU_adc_same]
  limit checked beyond := by
    have word : (adcEos n c.last (adcPlaced n c res x)).get (.adc n .lim) = d.get (.adc n .lim) := by
      rw [adcEos_get (by simp), ← lim]
      exact (Dev.get_put_ne _ (by simp) _).trans (Dev.get_put_ne _ (by simp) _)
    refine adcLimit_beyond checked ?_
    unfold adcBound Dev.f
    rw [word]
    exact beyond

/-- The conversion of a result ends, and its registers hold what the correction gives. -/
theorem adcReady_does (conv : d.adc[n].conv = c :: rest) (valid : c.openV = false) {y : Int}
    (hy : y = adcRounded (d.get (.adc n .calo)) (d.get (.adc n .calg)) c.raw) {sat : Bool} (hsat : sat = adcSat (seqDiff c.seq) c.raw y) :
    AdcConvEnds n c rest d (adcReady n d) ∧ (c.skip = true → (adcReady n d).get (.adc n .last) = d.get (.adc n .last)) ∧
      (c.skip = false → AdcResult d n c (adcResWord sat (seqDiff c.seq) (adcOut (seqDiff c.seq) y)) (adcOut (seqDiff c.seq) y)
        (adcReady n d)) := by
  have conv0 : (adcConverted n c rest d).adc[n].conv = rest := by rw [adcConverted_adc]
  cases skip : c.skip with
  | true =>
    have ends := adcRunEnd_ends n (adcEos n c.last (adcConverted n c rest d))
    rw [adcReady_skips conv skip]
    refine ⟨(adcEos_convEnds conv0 rfl).runEnd ends, fun _ => ?_, fun h => (nomatch h)⟩
    rw [ends.runs.get _ (by simp), adcEos_get (by simp)]
    rfl
  | false =>
    rw [adcReady_results conv valid skip hy hsat]
    generalize adcResWord sat (seqDiff c.seq) (adcOut (seqDiff c.seq) y) = res
    generalize adcOut (seqDiff c.seq) y = out
    have placed : (adcPlaced n c res (adcConverted n c rest d)).adc[n].conv = rest := by
      rw [adcPlaced, Dev.adcU_adc_same]
      exact conv0
    have ended : AdcConvEnds n c rest d _ := (adcEos_convEnds placed rfl).limit out
    have result : AdcResult d n c res out _ := adcLimit_result (x := adcConverted n c rest d) res out rfl
    exact ⟨(ended.congr adcOffered_adcView).runEnd (adcRunEnd_ends n _), fun h => (nomatch h),
      fun _ => (result.congr adcOffered_adcView).runEnd (adcRunEnd_ends n _)⟩

theorem adcResultReady_does (up : Up s) (conv : s.adc[n].conv = c :: rest) (valid : c.openV = false)
    (calm : Calm s (c.at_ + 48 * tuNs)) {y : Int}
    (hy : y = adcRounded (s.get (.adc n .calo)) (s.get (.adc n .calg)) c.raw) {sat : Bool} (hsat : sat = adcSat (seqDiff c.seq) c.raw y) :
    Does (.adcResultReady n) s fun t => AdcConvEnds n c rest s.toDev t ∧
      (c.skip = true → t.get (.adc n .last) = s.get (.adc n .last)) ∧
      (c.skip = false → AdcResult s.toDev n c (adcResWord sat (seqDiff c.seq) (adcOut (seqDiff c.seq) y)) (adcOut (seqDiff c.seq) y) t) := by
  obtain ⟨ends, skips, results⟩ := adcReady_does conv valid hy hsat
  refine .of_act (f := adcReady n) rfl up (by rw [ends.now]; exact calm_max.2 calm) ⟨ends.congr settle_adcView, fun skip => ?_, fun result => ?_⟩
  · rw [settle_get, skips skip]
  · exact (results result).congr settle_adcView

end

end Sys2Proof.Machine
end

section
/-!
SUPPORT. ADC_CALIBRATE_START, ADC_CALIBRATION_END, and the reads that clear FRESH (R110, R116-R118).
-/
set_option Elab.async false
namespace Sys2Proof.Machine
open Sys2Proof

/-! ### Bits of word-wide registers -/

theorem Dev.getLsbD_setBit (d : Dev) (r : Reg) (m : Fin 32) (v : Bool) : ((d.setBit r m.val v).get r).getLsbD m.val = v :=
  Dev.b_setB d r (g := ⟨m.val, m.val⟩) (by simp [Fld.ok]) v

theorem Dev.get_setBit_ne (d : Dev) {r q : Reg} (h : q ≠ r) (i : Nat) (v : Bool) : (d.setBit r i v).get q = d.get q :=
  Dev.get_setF_ne d h _ _

/-! ### ADC_CALIBRATE_START -/

section
variable {m : Fin 32} {d : Dev}

theorem adcCalOne_skips (h : adcMode d m ≠ 0 ∨ d.b (.adc m .stat) ADC_STAT.CALBUSY = true) :
    adcCalOne m d = d.setBit (.adcg .adccalskip) m.val true := by
  unfold adcCalOne
  refine if_neg fun free => ?_
  simp only [Bool.and_eq_true, decide_eq_true_eq, Bool.not_eq_true'] at free
  exact h.elim (fun mode => mode free.1) fun busy => Bool.false_ne_true (free.2.symm.trans busy)

theorem adcCalOne_starts (mode : adcMode d m = 0) (free : d.b (.adc m .stat) ADC_STAT.CALBUSY = false) (locked : d.sys.pllA = true) :
    adcCalOne m d = (d.adcU m fun a => { a with calEnd := some (acUp d.now + 960000 * tuAc) }).flag (.adc m .stat) ADC_STAT.CALBUSY := by
  unfold adcCalOne
  rw [mode, free, locked]
  rfl

end

theorem adcCalibrateStart_does {s : State} {by_ : Requester} {v : Word} (asks : Asks by_ s (.adcg .adccalstart)) :
    Does (.adcCalibrateStart by_ v) s fun t => ∀ m : Fin 32, v.getLsbD m.val = true →
      (adcMode s.toDev m ≠ 0 ∨ s.b (.adc m .stat) ADC_STAT.CALBUSY = true →
        (t.get (.adcg .adccalskip)).getLsbD m.val = true ∧ t.adc[m] = s.adc[m]) ∧
      (adcMode s.toDev m = 0 → s.b (.adc m .stat) ADC_STAT.CALBUSY = false → s.sys.pllA = true →
        t.b (.adc m .stat) ADC_STAT.CALBUSY = true ∧ t.adc[m].calEnd = some (acUp s.now + 960000 * tuAc)) := by
  refine .of_named rfl asks (by simp [heldMask]) (f := adcCalOne) rfl (fun h d => adcCalOne_adcView h) (fun m bit x t hx ht _ => ?_)
    fun m bit t _ on => absurd (on.symm.trans bit) (by simp)
  have mode : adcMode x m = adcMode s.toDev m := f_of_adcView hx ..
  refine ⟨fun skips => ?_, fun mode0 free locked => ?_⟩
  · rw [adcCalOne_skips (by rwa [mode, b_of_adcView hx])] at ht
    rw [skipped_of_adcView ht, adc_of_adcView ht, ← adc_of_adcView hx]
    exact ⟨Dev.getLsbD_setBit .., rfl⟩
  · rw [adcCalOne_starts (by rwa [mode]) (by rwa [b_of_adcView hx]) (by rwa [Dev.pllA_of_tbs (tbs_of_adcView hx)])] at ht
    rw [b_of_adcView ht, adc_of_adcView ht, Dev.flag_adc, Dev.adcU_adc_same, Dev.now_of_adcView hx]
    exact ⟨Dev.b_flag _ _ (by decide), rfl⟩

/-! ### ADC_CALIBRATION_END -/

section
variable {n : Fin 32} {gain offset : Nat} {d : Dev}

/-- Converter n calibrates no more, whatever the measured factors are. -/
def adcCalOver (n : Fin 32) (d : Dev) : Dev :=
  (((d.adcU n fun a => { a with calEnd := none }).setB (.adc n .stat) ADC_STAT.CALBUSY false).flag (.adc n .stat) ADC_STAT.CALDONE).raise
    (256 + n.val)

/-- The factors are used: CALOK, and READY1. -/
def adcCalUsed (n : Fin 32) (gain offset : Nat) (d : Dev) : Dev :=
  ((((((d.setF (.adc n .calg) ADC_CALG.GAIN gain).setF (.adc n .calo) ADC_CALO.OFFSET offset).flag (.adc n .stat) ADC_STAT.CALOK).setB
    (.adc n .stat) ADC_STAT.CALFAIL false).setBit (.adcg .adccalfail) n.val false).setBit (.sys (.ready 1)) n.val true)

/-- The factors are not used: CALFAIL. -/
def adcCalFailed (n : Fin 32) (d : Dev) : Dev :=
  ((d.flag (.adc n .stat) ADC_STAT.CALFAIL).setBit (.adcg .adccalfail) n.val true).pulse (128 + n.val)

theorem adcCalDone_true : adcCalDone n true gain offset d = adcCalUsed n gain offset (adcCalOver n d) := rfl
theorem adcCalDone_false : adcCalDone n false gain offset d = adcCalFailed n (adcCalOver n d) := rfl

theorem adcCalOver_calEnd : (adcCalOver n d).adc[n].calEnd = none := by
  rw [adcCalOver, Dev.raise_adc, Dev.flag_adc, Dev.setB_adc, Dev.adcU_adc_same]

theorem adcCalOver_now : (adcCalOver n d).now = d.now := by simp [adcCalOver]

theorem adcCalOver_get {r : Reg} (h : r ≠ .adc n .stat) : (adcCalOver n d).get r = d.get r :=
  (Dev.get_congr (Dev.raise_regs ..) r).trans ((Dev.get_setF_ne _ h _ _).trans (Dev.get_setF_ne _ h _ _))

theorem adcCalOver_busy : (adcCalOver n d).b (.adc n .stat) ADC_STAT.CALBUSY = false :=
  (congrArg ADC_STAT.CALBUSY.bit (Dev.get_congr (Dev.raise_regs ..) _)).trans
    ((Dev.b_setB_apart _ _ (by decide) (by decide) (by decide) true).trans (Dev.b_setB _ _ (by decide) _))

theorem adcCalOver_done : (adcCalOver n d).b (.adc n .stat) ADC_STAT.CALDONE = true :=
  (congrArg ADC_STAT.CALDONE.bit (Dev.get_congr (Dev.raise_regs ..) _)).trans (Dev.b_flag _ _ (by decide))

theorem adcCalUsed_b {f : Fld} (hf : f.ok = true) (ok : f.apart ADC_STAT.CALOK = true) (fail : f.apart ADC_STAT.CALFAIL = true) :
    (adcCalUsed n gain offset d).b (.adc n .stat) f = d.b (.adc n .stat) f := by
  rw [adcCalUsed, Dev.b, Dev.get_setBit_ne _ (by simp), Dev.get_setBit_ne _ (by simp)]
  refine (Dev.b_setB_apart _ _ hf (by decide) fail false).trans ((Dev.b_setB_apart _ _ hf (by decide) ok true).trans ?_)
  rw [Dev.b, Dev.get_setF_ne _ (by simp), Dev.get_setF_ne _ (by simp)]
  rfl

theorem adcCalUsed_gain : (adcCalUsed n gain offset d).f (.adc n .calg) ADC_CALG.GAIN = gain % 2 ^ 16 := by
  rw [adcCalUsed, Dev.f, Dev.get_setBit_ne _ (by simp), Dev.get_setBit_ne _ (by simp), Dev.setB, Dev.get_setF_ne _ (by simp), Dev.flag,
    Dev.setB, Dev.get_setF_ne _ (by simp), Dev.get_setF_ne _ (by simp)]
  exact Dev.f_setF _ _ (by decide) _

theorem adcCalUsed_offset : (adcCalUsed n gain offset d).f (.adc n .calo) ADC_CALO.OFFSET = offset % 2 ^ 16 := by
  rw [adcCalUsed, Dev.f, Dev.get_setBit_ne _ (by simp), Dev.get_setBit_ne _ (by simp), Dev.setB, Dev.get_setF_ne _ (by simp), Dev.flag,
    Dev.setB, Dev.get_setF_ne _ (by simp)]
  exact Dev.f_setF _ _ (by decide) _

theorem adcCalUsed_adc : (adcCalUsed n gain offset d).adc = d.adc := by simp [adcCalUsed]
theorem adcCalUsed_now : (adcCalUsed n gain offset d).now = d.now := by simp [adcCalUsed]

theorem adcCalUsed_ready : ((adcCalUsed n gain offset d).get (.sys (.ready 1))).getLsbD n.val = true := Dev.getLsbD_setBit ..

theorem adcCalFailed_get {r : Reg} (stat : r ≠ .adc n .stat) (fail : r ≠ .adcg .adccalfail) : (adcCalFailed n d).get r = d.get r := by
  rw [adcCalFailed, Dev.get_pulse, Dev.get_setBit_ne _ fail, Dev.flag, Dev.setB, Dev.get_setF_ne _ stat]

theorem adcCalFailed_b {f : Fld} (hf : f.ok = true) (fail : f.apart ADC_STAT.CALFAIL = true) :
    (adcCalFailed n d).b (.adc n .stat) f = d.b (.adc n .stat) f := by
  rw [adcCalFailed, Dev.b, Dev.get_pulse, Dev.get_setBit_ne _ (by simp)]
  exact Dev.b_setB_apart _ _ hf (by decide) fail true

theorem adcCalFailed_adc : (adcCalFailed n d).adc = d.adc := by simp [adcCalFailed]
theorem adcCalFailed_now : (adcCalFailed n d).now = d.now := by simp [adcCalFailed]

theorem adcCalFailed_flag : (adcCalFailed n d).b (.adc n .stat) ADC_STAT.CALFAIL = true := by
  rw [adcCalFailed, Dev.b, Dev.get_pulse, Dev.get_setBit_ne _ (by simp)]
  exact Dev.b_flag _ _ (by decide)

/-- A calibration of converter n has ended (R117). -/
structure AdcCalEnds (n : Fin 32) (t : Dev) : Prop where
  calEnd : t.adc[n].calEnd = none
  busy : t.b (.adc n .stat) ADC_STAT.CALBUSY = false
  done : t.b (.adc n .stat) ADC_STAT.CALDONE = true

theorem adcCalDone_ends (pass : Bool) : AdcCalEnds n (adcCalDone n pass gain offset d) ∧ (adcCalDone n pass gain offset d).now = d.now := by
  cases pass with
  | true =>
    rw [adcCalDone_true]
    exact ⟨⟨by rw [adcCalUsed_adc, adcCalOver_calEnd], (adcCalUsed_b (by decide) (by decide) (by decide)).trans adcCalOver_busy,
      (adcCalUsed_b (by decide) (by decide) (by decide)).trans adcCalOver_done⟩, adcCalUsed_now.trans adcCalOver_now⟩
  | false =>
    rw [adcCalDone_false]
    exact ⟨⟨by rw [adcCalFailed_adc, adcCalOver_calEnd], (adcCalFailed_b (by decide) (by decide)).trans adcCalOver_busy,
      (adcCalFailed_b (by decide) (by decide)).trans adcCalOver_done⟩, adcCalFailed_now.trans adcCalOver_now⟩

theorem AdcCalEnds.congr {e : Dev} (h : AdcCalEnds n d) (view : e.adcView n = d.adcView n) : AdcCalEnds n e where
  calEnd := by rw [adc_of_adcView view, h.calEnd]
  busy := (b_of_adcView view ..).trans h.busy
  done := (b_of_adcView view ..).trans h.done

end

section
variable {s : State} {n : Fin 32} {gain : Nat} {offset : Int}

/-- The clause of the end of a calibration, whose answer to a waiting CALIBRATE (R119) does not show in the converter. -/
theorem adcCalibrationEnd_of {P : Dev → Prop} (up : Up s) {tc : Nat} (due : s.adc[n].calEnd = some tc) (calm : Calm s tc)
    (h : ∀ t : Dev, t.adcView n = (adcCalDone n (adcCalOk gain offset) gain (offset % 65536).toNat (s.toDev.at tc)).adcView n → P t) :
    Does (.adcCalibrationEnd n gain offset) s P := by
  have made : adcCalEnd n gain offset s.toDev = adcCalDone n (adcCalOk gain offset) gain (offset % 65536).toNat (s.toDev.at tc) := by
    simp only [adcCalEnd, due]
  have view : (hstFlush (hstCalCheck (adcCalEnd n gain offset s.toDev))).adcView n =
      (adcCalDone n (adcCalOk gain offset) gain (offset % 65536).toNat (s.toDev.at tc)).adcView n := by
    rw [hstFlush_adcView, hstCalCheck_adcView, made]
  refine .of_act (f := fun d => hstFlush (hstCalCheck (adcCalEnd n gain offset d))) rfl up ?_ (h _ (settle_adcView.trans view))
  rw [Dev.now_of_adcView view, (adcCalDone_ends _).2]
  exact calm_max.2 calm

theorem adcCalibrationEnd_does (up : Up s) {tc : Nat} (due : s.adc[n].calEnd = some tc) (calm : Calm s tc) :
    Does (.adcCalibrationEnd n gain offset) s fun t => t.adc[n].calEnd = none ∧ t.b (.adc n .stat) ADC_STAT.CALBUSY = false ∧
      t.b (.adc n .stat) ADC_STAT.CALDONE = true ∧ t.now = max s.now tc ∧
      (0x7333 ≤ gain ∧ gain ≤ 0x8CCD ∧ -2048 ≤ offset ∧ offset ≤ 2047 → t.f (.adc n .calg) ADC_CALG.GAIN = gain ∧
        t.f (.adc n .calo) ADC_CALO.OFFSET = (offset % 65536).toNat ∧ (t.get (.sys (.ready 1))).getLsbD n.val = true) ∧
      (¬ (0x7333 ≤ gain ∧ gain ≤ 0x8CCD ∧ -2048 ≤ offset ∧ offset ≤ 2047) → t.b (.adc n .stat) ADC_STAT.CALFAIL = true ∧
        128 + n.val ∈ t.fc.fresh ∧ t.get (.adc n .calg) = s.get (.adc n .calg)) := by
  refine adcCalibrationEnd_of up due calm fun t view => ?_
  obtain ⟨ends, now⟩ := adcCalDone_ends (n := n) (gain := gain) (offset := (offset % 65536).toNat) (d := s.toDev.at tc) (adcCalOk gain offset)
  obtain ⟨calEnd, busy, done⟩ := ends.congr view
  refine ⟨calEnd, busy, done, (Dev.now_of_adcView view).trans now, fun ok => ?_, fun bad => ?_⟩
  · have pass : adcCalOk gain offset = true := decide_eq_true ok
    rw [pass, adcCalDone_true] at view
    rw [f_of_adcView view, f_of_adcView view, ready_of_adcView view, adcCalUsed_gain, adcCalUsed_offset]
    exact ⟨Nat.mod_eq_of_lt (by omega), Nat.mod_eq_of_lt (by omega), adcCalUsed_ready⟩
  · have fail : adcCalOk gain offset = false := decide_eq_false bad
    rw [fail, adcCalDone_false] at view
    rw [b_of_adcView view, fresh_of_adcView view (by simp [adcLine]; omega), get_of_adcView view,
      adcCalFailed_get (by simp) (by simp), adcCalOver_get (by simp)]
    exact ⟨adcCalFailed_flag, mem_insLine .., rfl⟩

end

/-! ### Reads of ADCn_LAST and ADCn_RESk -/

/-- The device as a read finds it: it holds the tag of the access, and the read waits no more. -/
def askedRead (by_ : Requester) (r : Reg) (d : Dev) : Dev :=
  let d1 := d.tagTake (reqHolder by_) 1
  { d1 with sys := { d1.sys with waits := d1.sys.waits.filter fun w => !isReadWait by_ (w32 r.addr) w } }

/-- The value v is returned. -/
def readGiven (by_ : Requester) (r : Reg) (v : Word) (d : Dev) : Dev :=
  let d1 := match by_ with
    | .core c => d.coreU c fun x => { x with ldWait := x.ldWait.erase r.addr }
    | .host => d
  Dev.tagBack { d1 with sys := { d1.sys with rdData := some v } } (reqHolder by_) 1

theorem Dev.waits_adcView {m : Fin 32} {d : Dev} (l : List WaitAcc) :
    Dev.adcView m { d with sys := { d.sys with waits := l } } = d.adcView m := rfl

@[simp] theorem askedRead_adcView {by_ : Requester} {r : Reg} {m : Fin 32} {d : Dev} : (askedRead by_ r d).adcView m = d.adcView m :=
  (Dev.waits_adcView _).trans Dev.tagTake_adcView

@[simp] theorem readGiven_adcView {by_ : Requester} {r : Reg} {v : Word} {m : Fin 32} {d : Dev} :
    (readGiven by_ r v d).adcView m = d.adcView m := by cases by_ <;> rfl

theorem readGiven_rdData {by_ : Requester} {r : Reg} {v : Word} {d : Dev} : (readGiven by_ r v d).sys.rdData = some v := by
  cases by_ <;> rfl

theorem readBack_tagTake (by_ : Requester) (a : Nat) (d : Dev) (h : Fin 70) (k : Nat) : readBack by_ a (d.tagTake h k) = readBack by_ a d := by
  cases by_ <;> simp [readBack]

/-- A read that does not wait returns what the register gives. -/
theorem readBy_eq {by_ : Requester} {s : State} {r : Reg} (asks : Asks by_ s r) (fresh : hasAsked s.toDev by_ r = false) :
    readBy by_ r s.toDev =
      readGiven by_ r (readNow by_ r (askedRead by_ r s.toDev)).1 (readNow by_ r (askedRead by_ r s.toDev)).2 := by
  obtain ⟨⟨-, runs⟩, tag⟩ := asks
  have back : readBack by_ r.addr (s.toDev.tagTake (reqHolder by_) 1) = none := by
    rw [hasAsked, Bool.or_eq_false_iff, Option.isSome_eq_false_iff, Option.isNone_iff_eq_none] at fresh
    rw [readBack_tagTake, fresh.2]
  have held : regWaits (s.toDev.tagTake (reqHolder by_) 1) r = regWaits (asked by_ s.toDev) r := rfl
  have runs' : regWaits (s.toDev.tagTake (reqHolder by_) 1) r = false := held.trans ((regWaits_asked r).trans runs)
  simp only [readBy, fresh, tag, Bool.false_eq_true, if_false, regReadCmd, readReg, back, runs']
  cases by_ <;> rfl

/-- The clause of a read of a converter's register. -/
theorem Does.of_adcRead {i : Instr} {s : State} {by_ : Requester} {n : Fin 32} {q : AdcReg} {P : Dev → Prop}
    (answer : exec i s = act (readBy by_ (.adc n q)) s) (asks : Asks by_ s (.adc n q)) (fresh : hasAsked s.toDev by_ (.adc n q) = false)
    (still : ∀ x, (readNow by_ (.adc n q) x).2.now = x.now)
    (h : ∀ x t : Dev, x.adcView n = s.adcView n → t.sys.rdData = some (readNow by_ (.adc n q) x).1 →
      t.adcView n = (readNow by_ (.adc n q) x).2.adcView n → P t) : Does i s P := by
  have made := readBy_eq asks fresh
  refine .of_act answer asks.up ?_ (h _ _ askedRead_adcView ?_ (settle_adcView.trans (by rw [made, readGiven_adcView])))
  · refine asks.up.calm (Nat.le_of_eq ?_)
    rw [made, Dev.now_of_adcView (readGiven_adcView (m := n)), still, Dev.now_of_adcView (askedRead_adcView (m := n))]
  · rw [settle_sys, made, readGiven_rdData]

/-- Reading clears FRESH (R13, R110). -/
theorem b_clearRC_fresh {r : Reg} (rc : r.access.rc = 0x80000000) (d : Dev) : (d.clearRC r).b r ADC_RES.FRESH = false := by
  rw [Dev.b, Dev.clearRC, Dev.get_put_same, rc, Fld.bit, BitVec.getLsbD_and]
  exact Bool.and_false _

/-- The bits of the result stay. -/
theorem f_clearRC_data {r : Reg} (rc : r.access.rc = 0x80000000) (d : Dev) : (d.clearRC r).f r ADC_RES.DATA = d.f r ADC_RES.DATA := by
  rw [Dev.f, Dev.clearRC, Dev.get_put_same, rc]
  refine Fld.get_congr fun i hi => ?_
  have low : (~~~ (0x80000000 : Word)).getLsbD (ADC_RES.DATA.lo + i) = true := by
    revert i
    decide
  rw [BitVec.getLsbD_and, low, Bool.and_true]

section
variable {s : State} {by_ : Requester} {n : Fin 32}

theorem adcLastRead_does (asks : Asks by_ s (.adc n .last)) (fresh : hasAsked s.toDev by_ (.adc n .last) = false) :
    Does (.adcLastRead by_ n) s fun t => t.sys.rdData = some (s.get (.adc n .last)) ∧ t.b (.adc n .last) ADC_RES.FRESH = false ∧
      t.get (.adc n .ltsl) = lo32 s.adc[n].lastTs ∧ t.get (.adc n .ltsh) = hi32 s.adc[n].lastTs := by
  refine .of_adcRead rfl asks fresh (fun _ => rfl) fun x t hx data ht => ?_
  have read : readNow by_ (.adc n .last) x = (x.get (.adc n .last),
      ((x.clearRC (.adc n .last)).put (.adc n .ltsl) (lo32 x.adc[n].lastTs)).put (.adc n .ltsh) (hi32 x.adc[n].lastTs)) := rfl
  rw [read] at data ht
  rw [data, b_of_adcView ht, get_of_adcView ht, get_of_adcView ht, get_of_adcView hx, ← adc_of_adcView hx]
  refine ⟨rfl, ?_, ?_, Dev.get_put_same ..⟩
  · rw [Dev.b, Dev.get_put_ne _ (by simp), Dev.get_put_ne _ (by simp)]
    exact b_clearRC_fresh rfl x
  · rw [Dev.get_put_ne _ (by simp), Dev.get_put_same]

theorem adcResultRead_does (k : Fin 16) (asks : Asks by_ s (.adc n (.res k))) (fresh : hasAsked s.toDev by_ (.adc n (.res k)) = false) :
    Does (.adcResultRead by_ n k) s fun t => t.sys.rdData = some (s.get (.adc n (.res k))) ∧
      t.b (.adc n (.res k)) ADC_RES.FRESH = false ∧ t.f (.adc n (.res k)) ADC_RES.DATA = s.f (.adc n (.res k)) ADC_RES.DATA := by
  refine .of_adcRead rfl asks fresh (fun _ => rfl) fun x t hx data ht => ?_
  have read : readNow by_ (.adc n (.res k)) x = (x.get (.adc n (.res k)), x.clearRC (.adc n (.res k))) := rfl
  rw [read] at data ht
  rw [data, b_of_adcView ht, f_of_adcView ht, get_of_adcView hx, f_clearRC_data rfl, f_of_adcView hx]
  exact ⟨rfl, b_clearRC_fresh rfl x, rfl⟩

end

end Sys2Proof.Machine
end

section
/-!
PROOF. O39, by command.
-/
set_option Elab.async false
namespace Sys2Proof.Proofs
open Sys2Proof Sys2Proof.Machine

/-- Settles O39: each command acts on its own converter, and the other converters and what a result is offered to leave it alone. -/
theorem converters : Obligations.Converters := by
  unfold Obligations.Converters
  intro s by_ n k v raw ch gain offset up d a ctl stat free len
  refine ⟨fun asks ⟨off, stopped, rests⟩ => ⟨?_, fun noCal => ⟨?_, ?_, ?_⟩⟩, fun asks en => ⟨?_, ?_⟩, ?_,
    fun asks some_ unlocked => ⟨?_, ?_⟩, ?_, ?_, fun e at_ armed sten stch mode idle calm => ⟨?_, ?_⟩, ?_, ⟨?_, fun analog => ⟨?_, ?_⟩⟩, ?_,
    fun c rest conv valid calm => ?_, fun e at_ tsrc tch mode en run calm => ⟨?_, ?_, ?_⟩,
    fun h0 h pass ends calm => ⟨?_, ?_⟩, ?_, fun tc due calm => ?_, ?_, ?_⟩
  · exact fun busy => adcEnable_refused asks off stopped busy
  · exact fun mode sten idle => adcEnable_continuous asks off stopped rests noCal mode sten idle
  · exact fun mode sten _ => adcEnable_task asks off stopped rests noCal mode sten
  · exact fun mode => adcEnable_triggered asks off stopped rests noCal mode
  · exact fun idle => adcDisable_rest asks en idle
  · exact fun t0 h cont mode inside => adcDisable_pass asks en t0 h cont mode inside
  · exact fun asks running t0 h last cont mode => adcDisable_sooner asks running t0 h last cont mode
  · exact adcgstart_waits asks unlocked some_
  · exact adcgstop_waits asks unlocked some_
  · exact fun asks locked => adcgstart_does locked asks
  · exact fun asks locked => adcgstop_does locked asks
  · exact fun locked => adcStartTask_runs up at_ armed sten stch calm mode idle locked
  · exact fun unlocked => adcStartTask_waits up at_ armed sten stch calm unlocked
  · exact fun wake idle mode => pllLock_starts up wake idle mode
  · exact fun idle => adcHold_idle up idle
  · exact fun t0 h cont signal calm => adcHold_continuous up analog t0 h cont signal calm
  · exact fun h0 h pass more signal calm => adcHold_triggered up analog h0 h pass more signal calm
  · exact fun none => adcResultReady_none up none
  · obtain ⟨t, answer, pending, ⟨gone, now, eos⟩, skips, result⟩ := adcResultReady_does up conv valid calm rfl rfl
    refine ⟨t, answer, pending, gone, ?_, skips, eos, fun converts => ?_⟩
    · rw [now]
      exact le_max_right ..
    · obtain ⟨place, last, lastTs, limit⟩ := result converts
      exact ⟨place, last, lastTs, limit⟩
  · exact fun free => adcTriggerTask_free up at_ tsrc tch mode en run calm free
  · exact fun busy none => adcTriggerTask_pends up at_ tsrc tch mode en run calm busy none
  · exact fun busy some_ => adcTriggerTask_drops up at_ tsrc tch mode en run calm busy some_
  · exact fun none => adcBusyEnd_rests up h0 h pass ends calm none
  · exact fun tp some_ => adcBusyEnd_goes_on up h0 h pass ends calm tp some_
  · exact fun asks => adcCalibrateStart_does asks
  · exact adcCalibrationEnd_does up due calm
  · exact fun asks fresh => adcLastRead_does asks fresh
  · exact fun asks fresh => adcResultRead_does k asks fresh

end Sys2Proof.Proofs
end

section
/-!
SUPPORT. What the capture engine, and a value offered to the loop engines, leave as it was: they write within themselves, and of the
registers those of the capture engine, the MSI-X pending bits and the use of tags.
-/
set_option Elab.async false
namespace Sys2Proof.Machine
open Sys2Proof

/-- The registers that the capture engine writes. -/
def capReg : Reg → Bool
  | .capr _ _ => true
  | .hif .msixpba => true
  | .sys (.taguse _) => true
  | _ => false

/-- Two devices agree but for the capture engine, the loop engines' operands, what leaves for the host, and the tags: so do their registers
but for those of `capReg`, and the collector's lines but for those of the capture engine. -/
structure CapSide (d e : Dev) : Prop where
  now : e.now = d.now
  pllA : e.sys.pllA = d.sys.pllA
  pllB : e.sys.pllB = d.sys.pllB
  tb : e.tb = d.tb
  leg : e.leg = d.leg
  adc : e.adc = d.adc
  cmp : e.cmp = d.cmp
  pos : e.pos = d.pos
  fab : e.fab = d.fab
  fresh : ∀ l, l < 469 → (l ∈ e.fc.fresh ↔ l ∈ d.fc.fresh)
  get : ∀ r, capReg r = false → e.get r = d.get r

theorem CapSide.refl (d : Dev) : CapSide d d := ⟨rfl, rfl, rfl, rfl, rfl, rfl, rfl, rfl, rfl, fun _ _ => Iff.rfl, fun _ _ => rfl⟩

theorem CapSide.symm {d e : Dev} (h : CapSide d e) : CapSide e d :=
  ⟨h.now.symm, h.pllA.symm, h.pllB.symm, h.tb.symm, h.leg.symm, h.adc.symm, h.cmp.symm, h.pos.symm, h.fab.symm,
    fun l hl => (h.fresh l hl).symm, fun r hr => (h.get r hr).symm⟩

theorem CapSide.trans {c d e : Dev} (h : CapSide c d) (k : CapSide d e) : CapSide c e :=
  ⟨k.now.trans h.now, k.pllA.trans h.pllA, k.pllB.trans h.pllB, k.tb.trans h.tb, k.leg.trans h.leg, k.adc.trans h.adc, k.cmp.trans h.cmp,
    k.pos.trans h.pos, k.fab.trans h.fab, fun l hl => (k.fresh l hl).trans (h.fresh l hl), fun r hr => (k.get r hr).trans (h.get r hr)⟩

/-- A part of a chain of actions that keeps the relation may be left out. -/
theorem CapSide.iff_of {c d e : Dev} (h : CapSide d e) : CapSide c e ↔ CapSide c d := ⟨fun k => k.trans h.symm, fun k => k.trans h⟩

theorem CapSide.tbs {d e : Dev} (h : CapSide d e) : e.tbs = d.tbs := by
  simp only [Dev.tbs, h.now, h.pllA, h.pllB, h.tb, h.get (.tb _ _) rfl]

/-! ### The device's updates -/

section
variable {c d : Dev}

@[simp] theorem capSide_self : CapSide d d ↔ True := iff_true_intro (.refl d)

theorem capSide_put {r : Reg} (h : capReg r = true) {v : Word} : CapSide c (d.put r v) ↔ CapSide c d :=
  CapSide.iff_of ⟨rfl, rfl, rfl, rfl, rfl, rfl, rfl, rfl, rfl, fun _ _ => Iff.rfl,
    fun q hq => Dev.get_put_ne d (fun e => by simp [e, h] at hq) v⟩

@[simp] theorem capSide_putCapr {k : Fin 16} {r : CaprReg} {v : Word} : CapSide c (d.put (.capr k r) v) ↔ CapSide c d := capSide_put rfl
@[simp] theorem capSide_setF {k : Fin 16} {r : CaprReg} {f : Fld} {v : Nat} : CapSide c (d.setF (.capr k r) f v) ↔ CapSide c d :=
  capSide_put rfl
@[simp] theorem capSide_setB {k : Fin 16} {r : CaprReg} {f : Fld} {v : Bool} : CapSide c (d.setB (.capr k r) f v) ↔ CapSide c d :=
  capSide_put rfl
@[simp] theorem capSide_flag {k : Fin 16} {r : CaprReg} {f : Fld} : CapSide c (d.flag (.capr k r) f) ↔ CapSide c d := capSide_put rfl
@[simp] theorem capSide_bumpBy {k : Fin 16} {r : CaprReg} {f : Fld} {i : Nat} : CapSide c (d.bumpBy (.capr k r) f i) ↔ CapSide c d :=
  capSide_put rfl
@[simp] theorem capSide_capU {r : Fin 16} {g : CapSt → CapSt} : CapSide c (d.capU r g) ↔ CapSide c d :=
  CapSide.iff_of ⟨rfl, rfl, rfl, rfl, rfl, rfl, rfl, rfl, rfl, fun _ _ => Iff.rfl, fun _ _ => rfl⟩
@[simp] theorem capSide_leU {n : Fin 64} {g : LeSt → LeSt} : CapSide c (d.leU n g) ↔ CapSide c d :=
  CapSide.iff_of ⟨rfl, rfl, rfl, rfl, rfl, rfl, rfl, rfl, rfl, fun _ _ => Iff.rfl, fun _ _ => rfl⟩
@[simp] theorem capSide_send {o : Outbound} : CapSide c (d.send o) ↔ CapSide c d :=
  CapSide.iff_of ⟨rfl, rfl, rfl, rfl, rfl, rfl, rfl, rfl, rfl, fun _ _ => Iff.rfl, fun _ _ => rfl⟩
@[simp] theorem capSide_free {k : Nat} : CapSide c { d with free := k } ↔ CapSide c d :=
  CapSide.iff_of ⟨rfl, rfl, rfl, rfl, rfl, rfl, rfl, rfl, rfl, fun _ _ => Iff.rfl, fun _ _ => rfl⟩
@[simp] theorem capSide_bumpFree : CapSide c d.bumpFree ↔ CapSide c d := capSide_free
@[simp] theorem capSide_tagTake {h : Fin 70} {k : Nat} : CapSide c (d.tagTake h k) ↔ CapSide c d :=
  CapSide.iff_of ⟨rfl, rfl, rfl, rfl, rfl, rfl, rfl, rfl, rfl, fun _ _ => Iff.rfl,
    fun q hq => Dev.get_setF_ne _ (fun e => by simp [e, capReg] at hq) _ _⟩
@[simp] theorem capSide_pulse {l : Nat} (h : 469 ≤ l) : CapSide c (d.pulse l) ↔ CapSide c d :=
  CapSide.iff_of ⟨rfl, rfl, rfl, rfl, rfl, rfl, rfl, rfl, rfl,
    fun k hk => by
      have : k ≠ l := by omega
      simp [Dev.pulse, mem_insLine_iff, this], fun _ _ => rfl⟩

@[simp] theorem capSide_ite {p : Prop} [Decidable p] {e : Dev} :
    CapSide c (if p then d else e) ↔ if p then CapSide c d else CapSide c e := by split <;> rfl
@[simp] theorem capSide_snd_ite {α : Type} {p : Prop} [Decidable p] {x y : α × Dev} :
    CapSide c (if p then x else y).2 ↔ if p then CapSide c x.2 else CapSide c y.2 := by split <;> rfl

@[simp] theorem capSide_each {α : Type} {l : List α} {f : α → Dev → Dev} (h : ∀ a d, CapSide c (f a d) ↔ CapSide c d) :
    CapSide c (d.each l f) ↔ CapSide c d := by
  induction l generalizing d with
  | nil => rfl
  | cons a l ih => exact ih.trans (h a d)
@[simp] theorem capSide_foldl {α : Type} {l : List α} {f : Dev → α → Dev} (h : ∀ a d, CapSide c (f d a) ↔ CapSide c d) :
    CapSide c (l.foldl f d) ↔ CapSide c d := capSide_each (f := fun a d => f d a) h

/-! ### Lines and records -/

@[simp] theorem capSide_msix {v : Nat} : CapSide c (d.msix v) ↔ CapSide c d := by
  have pending {i : Nat} {b : Bool} : CapSide c (d.setBit (.hif .msixpba) i b) ↔ CapSide c d := capSide_put rfl
  simp [Dev.msix, pending]
@[simp] theorem capSide_capWm {r : Fin 16} : CapSide c (capWm r d) ↔ CapSide c d := by simp [capWm]
@[simp] theorem capSide_capHostErr {r : Fin 16} : CapSide c (capHostErr r d) ↔ CapSide c d := by simp [capHostErr]
@[simp] theorem capSide_capWriteBack {r : Fin 16} : CapSide c (capWriteBack r d) ↔ CapSide c d := by simp [capWriteBack]
@[simp] theorem capSide_capUnreported {r : Fin 16} {before : Bool} {k ts : Nat} :
    CapSide c (capUnreported r before k ts d) ↔ CapSide c d := by simp [capUnreported]
@[simp] theorem capSide_capDrop {r : Fin 16} {before : Bool} {x : CapLine} : CapSide c (capDrop r before x d) ↔ CapSide c d := by
  simp [capDrop]
@[simp] theorem capSide_capWords {r : Fin 16} {ws : List Word} : CapSide c (capWords r ws d).2 ↔ CapSide c d := by simp [capWords]
@[simp] theorem capSide_capIssue {r : Fin 16} {x : CapLine} : CapSide c (capIssue r x d) ↔ CapSide c d := by
  unfold capIssue
  dsimp only
  split <;> simp
@[simp] theorem capSide_capNoRoom {r : Fin 16} : CapSide c (capNoRoom r d).2 ↔ CapSide c d := by simp [capNoRoom]
@[simp] theorem capSide_capCloseOne {r : Fin 16} : CapSide c (capCloseOne r d) ↔ CapSide c d := by simp [capCloseOne]
@[simp] theorem capSide_capClose {r : Fin 16} : CapSide c (capClose r d) ↔ CapSide c d := by simp [capClose]
@[simp] theorem capSide_capOpen {r : Fin 16} {t : Nat} : CapSide c (capOpen r t d) ↔ CapSide c d := by simp [capOpen]
@[simp] theorem capSide_capPut {r : Fin 16} {x : CapRec} {ws : List Word} : CapSide c (capPut r x ws d) ↔ CapSide c d := by simp [capPut]
@[simp] theorem capSide_capPlace {r : Fin 16} {x : CapRec} {ws : List Word} : CapSide c (capPlace r x ws d) ↔ CapSide c d := by
  simp [capPlace]
@[simp] theorem capSide_capPlacePart {r : Fin 16} {x : CapRec} {ws : List Word} : CapSide c (capPlacePart r x ws d) ↔ CapSide c d := by
  simp [capPlacePart]
@[simp] theorem capSide_capPlaceAdc {r : Fin 16} {x : CapRec} {n : Fin 32} {entry data : Nat} {sat tv : Bool} :
    CapSide c (capPlaceAdc r x n entry sat tv data d) ↔ CapSide c d := by simp [capPlaceAdc]
@[simp] theorem capSide_capAgain {r : Fin 16} {x : CapRec} {d : Dev} : CapSide c (capAgain r x d) ↔ CapSide c d := by
  unfold capAgain
  split <;> simp
@[simp] theorem capSide_capRepack {r : Fin 16} : CapSide c (capRepack r d) ↔ CapSide c d := by simp -implicitDefEqProofs [capRepack]
@[simp] theorem capSide_capDropAll {r : Fin 16} {l : List CapLine} : CapSide c (capDropAll r l d) ↔ CapSide c d := by
  unfold capDropAll
  induction l with
  | nil => rfl
  | cons x l ih => simp [ih]
@[simp] theorem capSide_capIssueAll {r : Fin 16} {k : Nat} : CapSide c (capIssueAll r k d) ↔ CapSide c d := by
  induction k generalizing d with
  | zero => rfl
  | succ k ih =>
    unfold capIssueAll
    repeat' split
    all_goals simp [ih]
@[simp] theorem capSide_capPump {r : Fin 16} : CapSide c (capPump r d) ↔ CapSide c d := by simp [capPump]
@[simp] theorem capSide_capTakeIn {r : Fin 16} {ts : Nat} {ws : List Word} : CapSide c (capTakeIn r ts ws d) ↔ CapSide c d := by
  simp [capTakeIn]

/-! ### What is presented to the engines -/

@[simp] theorem capSide_capCmp {n : Fin 64} {sat tv : Bool} {v ts : Nat} : CapSide c (capCmp n sat tv v ts d) ↔ CapSide c d := by
  simp [capCmp]
@[simp] theorem capSide_capPos {n : Fin 8} {tv : Bool} {u : PosUpd} : CapSide c (capPos n tv u d) ↔ CapSide c d := by simp [capPos]
@[simp] theorem capSide_leOfferAll {hit : Word → Bool} {x : Word → Word} : CapSide c (leOfferAll hit x d) ↔ CapSide c d := by
  simp [leOfferAll, leOffer]
@[simp] theorem capSide_leFromCmp {n : Fin 64} {v : Nat} : CapSide c (leFromCmp n v d) ↔ CapSide c d := by simp [leFromCmp]
@[simp] theorem capSide_leFromPos {n : Fin 8} {pos cpr : Nat} {spd : Word} : CapSide c (leFromPos n pos cpr spd d) ↔ CapSide c d := by
  simp [leFromPos]

end

end Sys2Proof.Machine
end

section
/-!
SUPPORT. A comparator's front end and raw path (R155-R157, R163): what shows while its digital path is idle, and what a change of the raw
output leaves.
-/
set_option Elab.async false
namespace Sys2Proof.Machine
open Sys2Proof

/-! ### Registers and flags -/

/-- A flag apart from the field written stands, in whichever register. -/
theorem Dev.b_setB_other (d : Dev) {r q : Reg} {f g : Fld} (hg : g.ok = true) (hf : f.ok = true) (h : g.apart f = true) (v : Bool) :
    (d.setB r f v).b q g = d.b q g := by
  by_cases e : q = r
  · rw [e]
    exact Dev.b_setB_apart d r hg hf h v
  · exact Dev.b_setB_ne d e f g v

theorem Dev.b_setF_ne (d : Dev) {r q : Reg} (h : q ≠ r) (f g : Fld) (v : Nat) : (d.setF r f v).b q g = d.b q g :=
  congrArg g.bit (Dev.get_setF_ne d h f v)

theorem Dev.b_flagIf_other (d : Dev) {r q : Reg} {f g : Fld} (hg : g.ok = true) (hf : f.ok = true) (h : g.apart f = true) (c : Bool) :
    (d.flagIf c r f).b q g = d.b q g := by
  unfold Dev.flagIf
  split
  · exact Dev.b_setB_other d hg hf h true
  · rfl

theorem Dev.get_flagIf_ne (d : Dev) {r q : Reg} (h : q ≠ r) (c : Bool) (f : Fld) : (d.flagIf c r f).get q = d.get q := by
  unfold Dev.flagIf
  split
  · exact Dev.get_setF_ne d h f _
  · rfl

@[simp] theorem Dev.flagIf_tbs {d : Dev} {r : Reg} (h : ∀ b q, r ≠ .tb b q) (c : Bool) (f : Fld) : (d.flagIf c r f).tbs = d.tbs := by
  unfold Dev.flagIf
  split
  · exact Dev.flag_tbs h f
  · rfl

theorem Dev.cmpU_cmp_same (d : Dev) (n : Fin 64) (g : CmpSt → CmpSt) : (d.cmpU n g).cmp[n] = g d.cmp[n] := by simp [Dev.cmpU]

/-! ### What the steps leave of the comparators' state -/

section
variable {n : Fin 64} {d : Dev}

@[simp] theorem cmpWout_cmp {quiet : Bool} : (cmpWout quiet n d).cmp = d.cmp := by simp [cmpWout, apply_ite Dev.cmp]

@[simp] theorem cmpShow_cmp : (cmpShow n d).cmp = d.cmp := by simp [cmpShow]

theorem tripTrack_cmp : ∃ cond tripped, (tripTrack n d).cmp[n] = { d.cmp[n] with cond, tripped } := by
  unfold tripTrack
  repeat' split
  · exact ⟨some d.now, d.cmp[n].tripped, Dev.cmpU_cmp_same ..⟩
  · exact ⟨d.cmp[n].cond, d.cmp[n].tripped, rfl⟩
  · exact ⟨none, false, Dev.cmpU_cmp_same d n fun c => { c with cond := none, tripped := false }⟩

theorem cmpXchange_cmp {x un : Bool} : ∃ runs, (cmpXchange n x un d).cmp[n] = { d.cmp[n] with runs } := by
  unfold cmpXchange
  dsimp only
  generalize woken : d.flagIf _ _ _ = e
  have same : e.cmp = d.cmp := woken ▸ Dev.flagIf_cmp ..
  split
  · exact ⟨runNext d n x d.now un, by rw [Dev.cmpU_cmp_same, same]⟩
  · exact ⟨d.cmp[n].runs, by simp only [cmpShow_cmp, same]⟩

/-- The raw output takes a level; the inputs, the windows and the digital path's being alive stand. -/
theorem cmpRaw_cmp {v : Bool} : ∃ cond tripped runs, (cmpRaw n v d).cmp[n] = { d.cmp[n] with raw := v, cond, tripped, runs } := by
  unfold cmpRaw
  dsimp only
  split
  · next same =>
    subst same
    exact ⟨d.cmp[n].cond, d.cmp[n].tripped, d.cmp[n].runs, rfl⟩
  · obtain ⟨runs, exchanged⟩ := cmpXchange_cmp (n := n) (d := tripTrack n (d.cmpU n fun c => { c with raw := v }))
      (x := cmpX (d.cmpU n fun c => { c with raw := v }) n) (un := false)
    obtain ⟨cond, tripped, tracked⟩ := tripTrack_cmp (n := n) (d := d.cmpU n fun c => { c with raw := v })
    exact ⟨cond, tripped, runs, by rw [exchanged, tracked, Dev.cmpU_cmp_same]⟩

theorem cmpInput_cmp {vp vn : Int} : ∃ cond tripped runs, (cmpInput n vp vn d).cmp[n] =
    { d.cmp[n] with vp, vn, raw := cmpFront d n vp vn d.cmp[n].raw, cond, tripped, runs } := by
  obtain ⟨cond, tripped, runs, h⟩ := cmpRaw_cmp (n := n) (d := d.bumpFree.cmpU n fun c => { c with vp := vp, vn := vn })
    (v := cmpFront d n vp vn d.cmp[n].raw)
  exact ⟨cond, tripped, runs, by rw [cmpInput, h, Dev.cmpU_cmp_same]; rfl⟩

end

/-! ### The timebases, the instant and CMPn_CTL -/

/-- What the timebases see, and CMPn_CTL. -/
def Dev.cmpBase (n : Fin 64) (d : Dev) : TbView × Word := (d.tbs, d.get (.cmp n .ctl))

theorem Dev.cmpBase_eq {n : Fin 64} {d e : Dev} (tbs : e.tbs = d.tbs) (ctl : e.get (.cmp n .ctl) = d.get (.cmp n .ctl)) :
    e.cmpBase n = d.cmpBase n := Prod.ext tbs ctl

section
variable {n : Fin 64} {d e : Dev} (h : e.cmpBase n = d.cmpBase n)
include h

theorem tbs_of_cmpBase : e.tbs = d.tbs := congrArg Prod.fst h
theorem now_of_cmpBase : e.now = d.now := Dev.now_of_tbs (tbs_of_cmpBase h)
theorem ctl_of_cmpBase : e.get (.cmp n .ctl) = d.get (.cmp n .ctl) := congrArg Prod.snd h
theorem f_of_cmpBase (f : Fld) : e.f (.cmp n .ctl) f = d.f (.cmp n .ctl) f := congrArg f.get (ctl_of_cmpBase h)
theorem b_of_cmpBase (f : Fld) : e.b (.cmp n .ctl) f = d.b (.cmp n .ctl) f := congrArg f.bit (ctl_of_cmpBase h)

end

section
variable {n : Fin 64} {d : Dev}

@[simp] theorem cmpWout_base {quiet : Bool} : (cmpWout quiet n d).cmpBase n = d.cmpBase n := by
  refine Dev.cmpBase_eq (cmpWout_tbs ..) ?_
  unfold cmpWout
  dsimp only
  repeat' split
  · rw [Dev.get_congr (Dev.raise_regs ..), Dev.flag, Dev.setB, Dev.setB, Dev.get_setF_ne _ (by simp), Dev.get_setF_ne _ (by simp)]
  · exact Dev.get_setF_ne _ (by simp) _ _
  · exact Dev.get_setF_ne _ (by simp) _ _

@[simp] theorem cmpShow_base : (cmpShow n d).cmpBase n = d.cmpBase n := by
  rw [cmpShow, cmpWout_base]
  exact Dev.cmpBase_eq (by simp) ((Dev.get_setF_ne _ (by simp) _ _).trans (Dev.get_setF_ne _ (by simp) _ _))

@[simp] theorem Dev.cmpU_base {g : CmpSt → CmpSt} : (d.cmpU n g).cmpBase n = d.cmpBase n := rfl

@[simp] theorem tripTrack_regs : (tripTrack n d).regs = d.regs :=
  tripTrack_keeps (π := Dev.regs) (fun _ _ _ => rfl) (fun _ _ => rfl) n d

@[simp] theorem tripTrack_base : (tripTrack n d).cmpBase n = d.cmpBase n :=
  tripTrack_keeps (π := Dev.cmpBase n) (fun _ _ _ => rfl) (fun _ _ => rfl) n d

@[simp] theorem cmpXchange_base {x un : Bool} : (cmpXchange n x un d).cmpBase n = d.cmpBase n := by
  have flagged {c : Bool} : (d.flagIf c (.cmp n .stat) CMP_STAT.WAKEF).cmpBase n = d.cmpBase n :=
    Dev.cmpBase_eq (by simp) (Dev.get_flagIf_ne d (by simp) _ _)
  unfold cmpXchange
  dsimp only
  split <;> simp [flagged]

@[simp] theorem cmpRaw_base {v : Bool} : (cmpRaw n v d).cmpBase n = d.cmpBase n := by
  unfold cmpRaw
  dsimp only
  split <;> simp

@[simp] theorem cmpInput_base {vp vn : Int} : (cmpInput n vp vn d).cmpBase n = d.cmpBase n := by
  rw [cmpInput, cmpRaw_base]
  rfl

end

/-! ### OUT and QOUT -/

/-- A flag of CMPn_STAT that the window monitor has no part in. -/
theorem cmpWout_b {quiet : Bool} {n : Fin 64} {d : Dev} {q : Reg} {f : Fld} (hf : f.ok = true) (wout : f.apart CMP_STAT.WOUT = true)
    (wexit : f.apart CMP_STAT.WEXIT = true) : (cmpWout quiet n d).b q f = d.b q f := by
  unfold cmpWout
  dsimp only
  repeat' split
  · rw [Dev.b_congr (Dev.raise_regs ..), Dev.flag, Dev.b_setB_other _ hf (by decide) wexit, Dev.b_setB_other _ hf (by decide) wout]
  · exact Dev.b_setB_other d hf (by decide) wout _
  · exact Dev.b_setB_other d hf (by decide) wout _

section
variable {n : Fin 64} {d : Dev}

/-- While the digital path is idle, OUT and QOUT show X. -/
theorem cmpShow_shows : (cmpShow n d).b (.cmp n .stat) CMP_STAT.OUT = cmpX d n ∧ (cmpShow n d).b (.cmp n .stat) CMP_STAT.QOUT = cmpX d n := by
  rw [cmpShow, cmpWout_b (by decide) (by decide) (by decide), cmpWout_b (by decide) (by decide) (by decide)]
  refine ⟨?_, Dev.b_setB _ _ (by decide) _⟩
  exact (Dev.b_setB_apart _ _ (by decide) (by decide) (by decide) _).trans (Dev.b_setB _ _ (by decide) _)

theorem cmpX_eq (n : Fin 64) (d : Dev) : cmpX d n = (d.cmp[n].raw ^^ d.b (.cmp n .ctl) CMP_CTL.INV) := rfl

/-- The raw output has taken a level, and the trip path has followed it. -/
def cmpRawTaken (n : Fin 64) (v : Bool) (d : Dev) : Dev := tripTrack n (d.cmpU n fun c => { c with raw := v })

theorem cmpRawTaken_cmp {v : Bool} : ∃ cond tripped, (cmpRawTaken n v d).cmp[n] = { d.cmp[n] with raw := v, cond, tripped } := by
  obtain ⟨cond, tripped, h⟩ := tripTrack_cmp (n := n) (d := d.cmpU n fun c => { c with raw := v })
  exact ⟨cond, tripped, by rw [cmpRawTaken, h, Dev.cmpU_cmp_same]⟩

theorem cmpRawTaken_regs {v : Bool} : (cmpRawTaken n v d).regs = d.regs := by simp [cmpRawTaken]

theorem cmpRawTaken_lnk {v : Bool} : (cmpRawTaken n v d).lnk = d.lnk :=
  tripTrack_keeps (π := Dev.lnk) (fun _ _ _ => rfl) (fun _ _ => rfl) n _

theorem cmpRawTaken_now {v : Bool} : (cmpRawTaken n v d).now = d.now :=
  tripTrack_keeps (π := Dev.now) (fun _ _ _ => rfl) (fun _ _ => rfl) n _

theorem cmpRaw_of_change {v : Bool} (change : d.cmp[n].raw ≠ v) :
    cmpRaw n v d = cmpXchange n (v ^^ d.b (.cmp n .ctl) CMP_CTL.INV) false (cmpRawTaken n v d) := by
  rw [cmpRaw, if_neg change]
  dsimp only
  rw [cmpX_eq, Dev.cmpU_cmp_same]
  rfl

/-- While the digital path is idle, a change of X shows at once. -/
theorem cmpXchange_idle {x un : Bool} (idle : d.cmp[n].live = false) :
    (cmpXchange n x un d).b (.cmp n .stat) CMP_STAT.OUT = cmpX d n ∧ (cmpXchange n x un d).b (.cmp n .stat) CMP_STAT.QOUT = cmpX d n := by
  have same (c : Bool) : cmpX (d.flagIf c (.cmp n .stat) CMP_STAT.WAKEF) n = cmpX d n := by
    rw [cmpX_eq, Dev.flagIf_cmp, Dev.b_flagIf_other _ (by decide) (by decide) (by decide)]
    rfl
  simp only [cmpXchange, idle, Bool.false_eq_true, if_false]
  rw [← same]
  exact cmpShow_shows

theorem cmpRaw_idle {v : Bool} (change : d.cmp[n].raw ≠ v) (idle : d.cmp[n].live = false) :
    (cmpRaw n v d).b (.cmp n .stat) CMP_STAT.OUT = (v ^^ d.b (.cmp n .ctl) CMP_CTL.INV) ∧
      (cmpRaw n v d).b (.cmp n .stat) CMP_STAT.QOUT = (v ^^ d.b (.cmp n .ctl) CMP_CTL.INV) := by
  obtain ⟨cond, tripped, taken⟩ := cmpRawTaken_cmp (n := n) (v := v) (d := d)
  have x : cmpX (cmpRawTaken n v d) n = (v ^^ d.b (.cmp n .ctl) CMP_CTL.INV) := by rw [cmpX_eq, taken, Dev.b_congr cmpRawTaken_regs]
  rw [cmpRaw_of_change change, ← x]
  exact cmpXchange_idle (by rw [taken]; exact idle)

/-! ### Filter runs -/

theorem Dev.stamp_congr {d e : Dev} (h : e.lnk = d.lnk) (t : Nat) : e.stamp t = d.stamp t := by
  simp only [Dev.stamp, Dev.devTime, Dev.timeQ, Dev.phaseBy, h]

/-- Where no run is in progress, a change of X to another value than F's begins one. -/
theorem runNext_first {x un : Bool} {t : Nat} (none : d.cmp[n].runs = []) (differs : x ≠ d.b (.cmp n .stat) CMP_STAT.OUT) :
    runNext d n x t un = [{ val := x, at_ := t, ts := d.stamp t, tv := d.ctv, un := un }] := by
  simp only [runNext, none, List.getLast?_nil, if_neg differs, List.nil_append]

/-- Where the path is alive and no run is in progress, a change of X begins one, and OUT stays (R157). -/
theorem cmpXchange_live {x un : Bool} (live : d.cmp[n].live = true) (none : d.cmp[n].runs = [])
    (differs : x ≠ d.b (.cmp n .stat) CMP_STAT.OUT) :
    (cmpXchange n x un d).cmp[n].runs = [{ val := x, at_ := d.now, ts := d.stamp d.now, tv := d.ctv, un := un }] ∧
      (cmpXchange n x un d).b (.cmp n .stat) CMP_STAT.OUT = d.b (.cmp n .stat) CMP_STAT.OUT := by
  simp only [cmpXchange, live, if_true]
  refine ⟨?_, Dev.b_flagIf_other d (by decide) (by decide) (by decide) _⟩
  rw [Dev.cmpU_cmp_same]
  exact runNext_first none differs

theorem cmpRaw_live {v : Bool} (change : d.cmp[n].raw ≠ v) (live : d.cmp[n].live = true) (none : d.cmp[n].runs = [])
    (differs : (v ^^ d.b (.cmp n .ctl) CMP_CTL.INV) ≠ d.b (.cmp n .stat) CMP_STAT.OUT) :
    (cmpRaw n v d).cmp[n].runs =
        [{ val := v ^^ d.b (.cmp n .ctl) CMP_CTL.INV, at_ := d.now, ts := d.stamp d.now, tv := d.ctv, un := false }] ∧
      (cmpRaw n v d).b (.cmp n .stat) CMP_STAT.OUT = d.b (.cmp n .stat) CMP_STAT.OUT := by
  obtain ⟨cond, tripped, taken⟩ := cmpRawTaken_cmp (n := n) (v := v) (d := d)
  have out : (cmpRawTaken n v d).b (.cmp n .stat) CMP_STAT.OUT = d.b (.cmp n .stat) CMP_STAT.OUT := Dev.b_congr cmpRawTaken_regs ..
  have h := cmpXchange_live (x := v ^^ d.b (.cmp n .ctl) CMP_CTL.INV) (un := false) (n := n) (d := cmpRawTaken n v d)
    (by rw [taken]; exact live) (by rw [taken]; exact none) (by rwa [out])
  have ctv : (cmpRawTaken n v d).ctv = d.ctv := Dev.b_congr cmpRawTaken_regs ..
  rwa [← cmpRaw_of_change change, cmpRawTaken_now, Dev.stamp_congr cmpRawTaken_lnk, ctv, out] at h

end

end Sys2Proof.Machine
end

section
/-!
SUPPORT. CMP_RAW_CHANGE (R155, R157, R163).
-/
set_option Elab.async false
namespace Sys2Proof.Machine
open Sys2Proof

/-- The clause of an event of the board that passes over nothing. -/
theorem Does.of_board {i : Instr} {s : State} {f : Dev → Dev} {P : Dev → Prop} (answer : exec i s = actBoard f s) (up : Up s)
    (calm : Calm s (f s.toDev).now) (h : P (settle (f s.toDev))) : Does i s P :=
  ⟨_, answer.trans (actBoard_free up calm), rfl, h⟩

theorem exec_of_board {i : Instr} {s : State} {f : Dev → Dev} {d : Dev} (answer : exec i s = actBoard f s) (up : Up s)
    (hf : f s.toDev = d) (calm : Calm s d.now) : exec i s = after s d := by
  subst hf
  exact answer.trans (actBoard_free up calm)

/-- Half the hysteresis of comparator n, in units of 0.1 mV. -/
def cmpHalf (d : Dev) (n : Fin 64) : Int := ([0, 25, 50, 100] : List Int).getD (d.f (.cmp n .ctl) CMP_CTL.HYST) 0

/-- Without hysteresis, the inputs differ by no more than the offset. -/
def CmpOffset (d : Dev) (n : Fin 64) (vp vn : Int) : Prop := cmpHalf d n = 0 ∧ -30 ≤ vp - vn ∧ vp - vn ≤ 30

/-- The level that the inputs give (R155). -/
def cmpLevel (d : Dev) (n : Fin 64) (vp vn : Int) : Bool :=
  if vn + cmpHalf d n < vp then true else if vp < vn - cmpHalf d n then false else d.cmp[n].raw

theorem cmpFront_of_beyond {d : Dev} {n : Fin 64} {vp vn : Int} (h : ¬ CmpOffset d n vp vn) :
    cmpFront d n vp vn d.cmp[n].raw = cmpLevel d n vp vn := by
  have lt : d.f (.cmp n .ctl) CMP_CTL.HYST < 4 := Fld.get_lt CMP_CTL.HYST _
  unfold CmpOffset at h
  unfold cmpFront cmpLevel
  unfold cmpHalf at h ⊢
  generalize d.f (.cmp n .ctl) CMP_CTL.HYST = k at lt h ⊢
  interval_cases k
  all_goals exact if_neg h

section
variable {s : State} {n : Fin 64} {vp vn : Int} {t : Nat} (up : Up s) (calm : Calm s t)
include up calm

theorem cmpRawChange_of {P : Dev → Prop} (h : P (settle (cmpInput n vp vn (s.toDev.at t)))) : Does (.cmpRawChange n (vp, vn) t) s P := by
  refine .of_board (f := fun d => cmpInput n vp vn (d.at t)) rfl up ?_ h
  rw [now_of_cmpBase cmpInput_base]
  exact calm_max.2 calm

theorem cmpRawChange_takes : Does (.cmpRawChange n (vp, vn) t) s fun u => u.cmp[n].vp = vp ∧ u.cmp[n].vn = vn ∧ u.now = max s.now t ∧
    (¬ CmpOffset s.toDev n vp vn → u.cmp[n].raw = cmpLevel s.toDev n vp vn) := by
  refine cmpRawChange_of up calm ?_
  obtain ⟨cond, tripped, runs, taken⟩ := cmpInput_cmp (n := n) (vp := vp) (vn := vn) (d := s.toDev.at t)
  rw [settle_cmp, settle_now, now_of_cmpBase cmpInput_base, taken]
  exact ⟨rfl, rfl, rfl, fun beyond => cmpFront_of_beyond (d := s.toDev.at t) beyond⟩

variable (beyond : ¬ CmpOffset s.toDev n vp vn)
include beyond

/-- Once the inputs are taken, the raw output takes their level. -/
theorem cmpRawChange_raw {P : Dev → Prop}
    (h : ∀ x : Dev, x.now = max s.now t → x.regs = s.regs → x.lnk = s.lnk → x.cmp[n] = { s.cmp[n] with vp, vn } →
      P (settle (cmpRaw n (cmpLevel s.toDev n vp vn) x))) : Does (.cmpRawChange n (vp, vn) t) s P := by
  refine cmpRawChange_of up calm ?_
  rw [cmpInput, cmpFront_of_beyond (d := s.toDev.at t) beyond]
  exact h _ rfl rfl rfl (Dev.cmpU_cmp_same ..)

theorem cmpRawChange_same (same : cmpLevel s.toDev n vp vn = s.cmp[n].raw) : Does (.cmpRawChange n (vp, vn) t) s fun u =>
    u.get (.cmp n .stat) = s.get (.cmp n .stat) ∧ u.cmp[n].runs = s.cmp[n].runs := by
  refine cmpRawChange_raw up calm beyond fun x _ regs _ cmp => ?_
  rw [cmpRaw, if_pos (by rw [cmp, same]), settle_get, settle_cmp, cmp]
  exact ⟨Dev.get_congr regs _, rfl⟩

variable (change : cmpLevel s.toDev n vp vn ≠ s.cmp[n].raw)
include change

theorem cmpRawChange_idle (idle : s.cmp[n].live = false) : Does (.cmpRawChange n (vp, vn) t) s fun u =>
    u.b (.cmp n .stat) CMP_STAT.OUT = (cmpLevel s.toDev n vp vn ^^ s.b (.cmp n .ctl) CMP_CTL.INV) ∧
    u.b (.cmp n .stat) CMP_STAT.QOUT = (cmpLevel s.toDev n vp vn ^^ s.b (.cmp n .ctl) CMP_CTL.INV) := by
  refine cmpRawChange_raw up calm beyond fun x _ regs _ cmp => ?_
  rw [settle_b, settle_b, ← Dev.b_congr regs]
  exact cmpRaw_idle (by rw [cmp]; exact change.symm) (by rw [cmp]; exact idle)

theorem cmpRawChange_live (live : s.cmp[n].live = true) (none : s.cmp[n].runs = [])
    (differs : (cmpLevel s.toDev n vp vn ^^ s.b (.cmp n .ctl) CMP_CTL.INV) ≠ s.b (.cmp n .stat) CMP_STAT.OUT) :
    Does (.cmpRawChange n (vp, vn) t) s fun u =>
      u.cmp[n].runs = [{ val := cmpLevel s.toDev n vp vn ^^ s.b (.cmp n .ctl) CMP_CTL.INV, at_ := max s.now t,
                         ts := s.stamp (max s.now t), tv := s.ctv, un := false }] ∧
      u.b (.cmp n .stat) CMP_STAT.OUT = s.b (.cmp n .stat) CMP_STAT.OUT := by
  refine cmpRawChange_raw up calm beyond fun x now regs lnk cmp => ?_
  have h := cmpRaw_live (n := n) (d := x) (v := cmpLevel s.toDev n vp vn) (by rw [cmp]; exact change.symm) (by rw [cmp]; exact live)
    (by rw [cmp]; exact none) (by rwa [Dev.b_congr regs, Dev.b_congr regs])
  have ctv : x.ctv = s.ctv := Dev.b_congr regs ..
  rw [now, Dev.stamp_congr lnk, ctv, Dev.b_congr regs, Dev.b_congr regs] at h
  rwa [settle_cmp, settle_b]

end

end Sys2Proof.Machine
end

section
/-!
SUPPORT. CMP_FILTER_CHANGE (R157) and BLANK_WINDOW_CLOSE (R156, R158): what a change of F and of Q leaves.
-/
set_option Elab.async false
namespace Sys2Proof.Machine
open Sys2Proof

/-! ### Beside the comparators -/

/-- The instant, the comparators and their registers. -/
def Dev.cmps (d : Dev) : Nat × Vector CmpSt 64 × (Fin 64 → CmpReg → Word) := (d.now, d.cmp, fun n r => d.get (.cmp n r))

theorem Dev.cmps_eq {d e : Dev} (now : e.now = d.now) (cmp : e.cmp = d.cmp) (get : ∀ n r, e.get (.cmp n r) = d.get (.cmp n r)) :
    e.cmps = d.cmps := by simp only [Dev.cmps, now, cmp, get]

section
variable {d e : Dev} (h : e.cmps = d.cmps)
include h

theorem now_of_cmps : e.now = d.now := congrArg Prod.fst h
theorem cmp_of_cmps : e.cmp = d.cmp := congrArg (·.2.1) h
theorem get_of_cmps (n : Fin 64) (r : CmpReg) : e.get (.cmp n r) = d.get (.cmp n r) := congrArg (·.2.2 n r) h
theorem b_of_cmps (n : Fin 64) (r : CmpReg) (f : Fld) : e.b (.cmp n r) f = d.b (.cmp n r) f := congrArg f.bit (get_of_cmps h n r)

end

theorem CapSide.cmps {d e : Dev} (h : CapSide d e) : e.cmps = d.cmps := Dev.cmps_eq h.now h.cmp fun n r => h.get (.cmp n r) rfl

theorem Dev.setF_cmps (d : Dev) {r : Reg} (h : ∀ n q, r ≠ .cmp n q) (f : Fld) (v : Nat) : (d.setF r f v).cmps = d.cmps :=
  Dev.cmps_eq rfl rfl fun n q => Dev.get_setF_ne d (h n q).symm f v

theorem Dev.flag_cmps (d : Dev) {r : Reg} (h : ∀ n q, r ≠ .cmp n q) (f : Fld) : (d.flag r f).cmps = d.cmps := Dev.setF_cmps d h f 1

theorem Dev.legU_cmps (d : Dev) (n : Fin 96) (g : LegSt → LegSt) : (d.legU n g).cmps = d.cmps := rfl

/-- The measurements of adaptive dead-time stay within the legs (R88). -/
theorem adtCrossOne_cmps {m : Fin 64} {level : Bool} {st ts : Nat} {n : Fin 96} {d : Dev} : (adtCrossOne m level st ts n d).cmps = d.cmps := by
  have measured (f g : Fld) (t : Nat) (u : LegSt → LegSt) :
      (((d.setF (.leg n .adtmeas) f t).flag (.leg n .adtmeas) g).legU n u).cmps = d.cmps := by
    rw [Dev.legU_cmps, Dev.flag_cmps _ (by simp), Dev.setF_cmps _ (by simp)]
  unfold adtCrossOne
  dsimp only
  repeat' split
  · exact measured ..
  · exact measured ..
  all_goals rfl

/-! ### Captures -/

/-- A flag of CMPn_STAT that a capture and the window monitor have no part in. -/
def cmpNoted (f : Fld) : Bool := f.ok && f.apart CMP_STAT.WOUT && f.apart CMP_STAT.WEXIT && f.apart CMP_STAT.CAPF

/-- What a change of Q leads to leaves the instant, the filter runs, the window, and the flags but for those of captures and of the window
monitor. -/
structure CmpNotes (n : Fin 64) (d e : Dev) : Prop where
  now : e.now = d.now
  runs : e.cmp[n].runs = d.cmp[n].runs
  win : e.cmp[n].win = d.cmp[n].win
  flag : ∀ f, cmpNoted f = true → e.b (.cmp n .stat) f = d.b (.cmp n .stat) f

section
variable {n : Fin 64} {c d e : Dev}

theorem CmpNotes.refl (d : Dev) : CmpNotes n d d := ⟨rfl, rfl, rfl, fun _ _ => rfl⟩

theorem CmpNotes.trans (h : CmpNotes n c d) (k : CmpNotes n d e) : CmpNotes n c e :=
  ⟨k.now.trans h.now, k.runs.trans h.runs, k.win.trans h.win, fun f hf => (k.flag f hf).trans (h.flag f hf)⟩

theorem CmpNotes.of_cmps (h : e.cmps = d.cmps) : CmpNotes n d e :=
  ⟨now_of_cmps h, by rw [cmp_of_cmps h], by rw [cmp_of_cmps h], fun _ _ => b_of_cmps h ..⟩

theorem CmpNotes.of_cmpU {g : CmpSt → CmpSt} (runs : (g d.cmp[n]).runs = d.cmp[n].runs) (win : (g d.cmp[n]).win = d.cmp[n].win) :
    CmpNotes n d (d.cmpU n g) := ⟨rfl, by rw [Dev.cmpU_cmp_same, runs], by rw [Dev.cmpU_cmp_same, win], fun _ _ => rfl⟩

theorem cmpWout_notes {quiet : Bool} : CmpNotes n d (cmpWout quiet n d) := by
  refine ⟨now_of_cmpBase cmpWout_base, by rw [cmpWout_cmp], by rw [cmpWout_cmp], fun f hf => ?_⟩
  simp only [cmpNoted, Bool.and_eq_true] at hf
  obtain ⟨⟨⟨ok, wout⟩, wexit⟩, -⟩ := hf
  exact cmpWout_b ok wout wexit

/-- The word of a capture of t fine units (R161). -/
def cmpCapWord (d : Dev) (n : Fin 64) (t : Nat) (tv : Bool) : Word :=
  (0 : Word) |> CMP_CAP.FRESH.put 1 |> CMP_CAP.SAT.put (b2n (cmpValue d n t).2) |> CMP_CAP.TV.put (b2n tv) |>
    CMP_CAP.VALUE.put (cmpValue d n t).1

/-- A capture stands in CMPn_CAP, and is still to be presented. -/
def cmpCapStored (n : Fin 64) (w : Word) (ts : Nat) (d : Dev) : Dev :=
  ((d.put (.cmp n .cap) w).flag (.cmp n .stat) CMP_STAT.CAPF).cmpU n fun c => { c with capTs := ts }

theorem cmpCapture_side {t ts : Nat} {tv : Bool} : CapSide (cmpCapStored n (cmpCapWord d n t tv) ts d) (cmpCapture n t ts tv d) := by
  have offered {v : Nat} : CapSide (cmpCapStored n (cmpCapWord d n t tv) ts d) (leFromCmp n v (cmpCapStored n (cmpCapWord d n t tv) ts d)) := by
    simp
  unfold cmpCapture
  dsimp only
  split
  · exact capSide_capCmp.2 offered
  · exact offered

theorem cmpCapture_notes {t ts : Nat} {tv : Bool} : CmpNotes n d (cmpCapture n t ts tv d) := by
  have stored (w : Word) : CmpNotes n d (cmpCapStored n w ts d) := by
    refine CmpNotes.trans ?_ (.of_cmpU rfl rfl)
    refine ⟨rfl, rfl, rfl, fun f hf => ?_⟩
    simp only [cmpNoted, Bool.and_eq_true] at hf
    obtain ⟨⟨⟨ok, -⟩, -⟩, capf⟩ := hf
    exact (Dev.b_setB_apart _ _ ok (by decide) capf true).trans (congrArg f.bit (Dev.get_put_ne d (by simp) w))
  exact (stored _).trans (.of_cmps cmpCapture_side.cmps)

theorem cmpCapMode_notes {v tv : Bool} {st ts : Nat} : CmpNotes n d (cmpCapMode n v st ts tv d) := by
  unfold cmpCapMode
  extract_lets c edge qual d1
  have h1 : CmpNotes n d d1 := by
    simp only [d1]
    repeat' split
    · exact cmpCapture_notes
    · exact .refl d
    · exact cmpCapture_notes
    · exact .refl d
    · exact .refl d
    · exact .refl d
    · exact cmpCapture_notes
    · exact .refl d
    · exact .refl d
  exact h1.trans (.of_cmpU rfl rfl)

/-! ### Q changes -/

/-- A flag of CMPn_STAT that a change of Q has no part in. -/
def cmpQuiet (f : Fld) : Bool := cmpNoted f && f.apart CMP_STAT.QOUT && f.apart CMP_STAT.RISE && f.apart CMP_STAT.FALL

/-- Q has taken value v on its ready tick (R160). -/
structure CmpQTaken (n : Fin 64) (v : Bool) (d e : Dev) : Prop where
  now : e.now = d.now
  runs : e.cmp[n].runs = d.cmp[n].runs
  win : e.cmp[n].win = d.cmp[n].win
  qout : e.b (.cmp n .stat) CMP_STAT.QOUT = v
  edge : e.b (.cmp n .stat) (if v then CMP_STAT.RISE else CMP_STAT.FALL) = true
  flag : ∀ f, cmpQuiet f = true → e.b (.cmp n .stat) f = d.b (.cmp n .stat) f

theorem CmpQTaken.notes {v : Bool} (h : CmpQTaken n v c d) (k : CmpNotes n d e) : CmpQTaken n v c e where
  now := k.now.trans h.now
  runs := k.runs.trans h.runs
  win := k.win.trans h.win
  qout := (k.flag _ (by decide)).trans h.qout
  edge := (k.flag _ (by cases v <;> decide)).trans h.edge
  flag f hf := by
    have noted : cmpNoted f = true := by
      simp only [cmpQuiet, Bool.and_eq_true] at hf
      exact hf.1.1.1
    exact (k.flag f noted).trans (h.flag f hf)

/-- QOUT, the edge's flag and its count. -/
theorem cmpQ_taken {v : Bool} {cnt : Fld} : CmpQTaken n v d
    (((d.setB (.cmp n .stat) CMP_STAT.QOUT v).flag (.cmp n .stat) (if v then CMP_STAT.RISE else CMP_STAT.FALL)).bump (.cmp n .cnt) cnt) := by
  have ok : (if v then CMP_STAT.RISE else CMP_STAT.FALL : Fld).ok = true := by cases v <;> decide
  have counted (x : Dev) (f : Fld) : (x.bump (.cmp n .cnt) cnt).b (.cmp n .stat) f = x.b (.cmp n .stat) f := Dev.b_setF_ne x (by simp) ..
  refine ⟨rfl, rfl, rfl, ?_, (counted ..).trans (Dev.b_flag _ _ ok), fun f hf => ?_⟩
  · rw [counted, Dev.flag, Dev.b_setB_apart _ _ (by decide) ok (by cases v <;> decide)]
    exact Dev.b_setB d _ (by decide) v
  · simp only [cmpQuiet, cmpNoted, Bool.and_eq_true] at hf
    obtain ⟨⟨⟨⟨⟨⟨okf, -⟩, -⟩, -⟩, qout⟩, rise⟩, fall⟩ := hf
    have apart : f.apart (if v then CMP_STAT.RISE else CMP_STAT.FALL) = true := by cases v <;> assumption
    rw [counted, Dev.flag, Dev.b_setB_apart _ _ okf ok apart, Dev.b_setB_apart _ _ okf (by decide) qout]

theorem cmpQset_taken {v tv : Bool} {st ts : Nat} : CmpQTaken n v d (cmpQset n v st ts tv d) := by
  have raised (x : Dev) (c : Bool) (p : Nat) : CmpNotes n x (x.raiseIf c p) := by
    unfold Dev.raiseIf
    split
    · exact ⟨by simp, by simp, by simp, fun f _ => Dev.b_congr (Dev.raise_regs ..) ..⟩
    · exact .refl x
  unfold cmpQset
  extract_lets d1 d2 sel d3
  have h2 : CmpQTaken n v d d2 := by cases v <;> exact cmpQ_taken
  exact ((h2.notes (raised ..)).notes cmpWout_notes).notes cmpCapMode_notes

/-! ### F changes -/

/-- F takes value v: OUT shows it, and the legs that watch it measure. -/
def cmpFTaken (n : Fin 64) (r : CmpRun) (d : Dev) : Dev :=
  (d.setB (.cmp n .stat) CMP_STAT.OUT r.val).each (fins 96) (adtCrossOne n r.val r.at_ r.ts)

theorem cmpFTaken_cmps {r : CmpRun} : (cmpFTaken n r d).cmps = (d.setB (.cmp n .stat) CMP_STAT.OUT r.val).cmps :=
  Dev.each_kept (fun _ _ _ => adtCrossOne_cmps) _

/-- F's change reaches Q outside a window. -/
theorem cmpFset_eq {r : CmpRun} (defined_ : r.un = false) (ready : Nat) : cmpFset n r ready d =
    if d.cmp[n].win.any (decide <| ready < ·) || decide (d.b (.cmp n .stat) CMP_STAT.QOUT = r.val) then cmpFTaken n r d
    else cmpQset n r.val r.at_ r.ts r.tv (cmpFTaken n r d) := by
  have qout : cmpQ (cmpFTaken n r d) n = d.b (.cmp n .stat) CMP_STAT.QOUT :=
    (b_of_cmps cmpFTaken_cmps ..).trans (Dev.b_setB_apart d _ (by decide) (by decide) (by decide) _)
  rw [← qout]
  simp only [cmpFset, defined_, Bool.false_eq_true, if_false]
  cases d.cmp[n].win <;> rfl

end

end Sys2Proof.Machine
end

section
/-!
SUPPORT. The clauses of CMP_FILTER_CHANGE (R157) and BLANK_WINDOW_CLOSE (R156, R158).
-/
set_option Elab.async false
namespace Sys2Proof.Machine
open Sys2Proof

/-! ### CMP_FILTER_CHANGE -/

section
variable {s : State} {n : Fin 64}

theorem cmpFilterChange_none (up : Up s) (none : s.cmp[n].runs = []) : exec (.cmpFilterChange n) s = after s s.toDev :=
  exec_of_act (f := cmpRunDone n) rfl up (by simp only [cmpRunDone, none]) (up.calm (le_refl _))

variable {r : CmpRun} {rest : List CmpRun} (up : Up s) (runs : s.cmp[n].runs = r :: rest) (defined_ : r.un = false)
  (calm : Calm s (runReady s.toDev n r.at_))

/-- F changes on the run's ready tick, the run taken off. -/
def cmpFDue (s : State) (n : Fin 64) (r : CmpRun) (rest : List CmpRun) : Dev :=
  cmpFTaken n r ((s.toDev.at (runReady s.toDev n r.at_)).cmpU n fun c => { c with runs := rest })

theorem cmpFDue_notes (f : Fld) (hf : f.ok = true) (out : f.apart CMP_STAT.OUT = true) :
    (cmpFDue s n r rest).b (.cmp n .stat) f = s.b (.cmp n .stat) f :=
  (b_of_cmps cmpFTaken_cmps ..).trans (Dev.b_setB_apart _ _ hf (by decide) out _)

theorem cmpFDue_out : (cmpFDue s n r rest).b (.cmp n .stat) CMP_STAT.OUT = r.val :=
  (b_of_cmps cmpFTaken_cmps ..).trans (Dev.b_setB _ _ (by decide) _)

theorem cmpFDue_runs : (cmpFDue s n r rest).cmp[n].runs = rest := by
  rw [cmpFDue, cmp_of_cmps cmpFTaken_cmps, Dev.setB_cmp, Dev.cmpU_cmp_same]

theorem cmpFDue_now : (cmpFDue s n r rest).now = max s.now (runReady s.toDev n r.at_) := now_of_cmps cmpFTaken_cmps

include up runs calm defined_

/-- The clause of a filter run that completes: Q follows F, unless a window blanks it or it has F's value. -/
theorem cmpFilterChange_does : Does (.cmpFilterChange n) s fun t => t.cmp[n].runs = rest ∧ t.now = max s.now (runReady s.toDev n r.at_) ∧
    t.b (.cmp n .stat) CMP_STAT.OUT = r.val ∧
    (s.cmp[n].win = none → t.b (.cmp n .stat) CMP_STAT.QOUT = r.val ∧
      (s.b (.cmp n .stat) CMP_STAT.QOUT = false → r.val = true → t.b (.cmp n .stat) CMP_STAT.RISE = true) ∧
      (s.b (.cmp n .stat) CMP_STAT.QOUT = true → r.val = false → t.b (.cmp n .stat) CMP_STAT.FALL = true)) ∧
    (∀ e, s.cmp[n].win = some e → runReady s.toDev n r.at_ < e →
      t.b (.cmp n .stat) CMP_STAT.QOUT = s.b (.cmp n .stat) CMP_STAT.QOUT) := by
  have made : cmpRunDone n s.toDev = if s.cmp[n].win.any (decide <| runReady s.toDev n r.at_ < ·) ||
      decide (s.b (.cmp n .stat) CMP_STAT.QOUT = r.val) then cmpFDue s n r rest
      else cmpQset n r.val r.at_ r.ts r.tv (cmpFDue s n r rest) := by
    have win : ((s.toDev.at (runReady s.toDev n r.at_)).cmpU n fun c => { c with runs := rest }).cmp[n].win = s.cmp[n].win := by
      rw [Dev.cmpU_cmp_same]
      rfl
    simp only [cmpRunDone, runs]
    rw [cmpFset_eq defined_, win]
    rfl
  have qout := cmpFDue_notes (s := s) (n := n) (r := r) (rest := rest) CMP_STAT.QOUT (by decide) (by decide)
  rcases h : s.cmp[n].win.any (decide <| runReady s.toDev n r.at_ < ·) || decide (s.b (.cmp n .stat) CMP_STAT.QOUT = r.val) with _ | _
  · -- Q takes the value
    rw [h, if_neg Bool.false_ne_true] at made
    have taken : CmpQTaken n r.val (cmpFDue s n r rest) (cmpRunDone n s.toDev) := by rw [made]; exact cmpQset_taken
    have now := taken.now.trans cmpFDue_now
    refine .of_act (f := cmpRunDone n) rfl up (by rw [now]; exact calm_max.2 calm) ?_
    simp only [settle_cmp, settle_now, settle_b]
    rw [taken.runs, cmpFDue_runs, now, taken.flag _ (by decide), cmpFDue_out, taken.qout]
    refine ⟨rfl, rfl, rfl, fun _ => ⟨rfl, fun _ rise => ?_, fun _ fall => ?_⟩, fun e open_ early => ?_⟩
    · have edge := taken.edge
      rwa [rise] at edge
    · have edge := taken.edge
      rwa [fall] at edge
    · rw [open_] at h
      simp [early] at h
  · -- Q keeps its value
    rw [h, if_pos rfl] at made
    refine .of_act (f := cmpRunDone n) rfl up (by rw [made, cmpFDue_now]; exact calm_max.2 calm) ?_
    simp only [settle_cmp, settle_now, settle_b, made]
    rw [cmpFDue_runs, cmpFDue_now, cmpFDue_out, qout]
    refine ⟨rfl, rfl, rfl, fun closed => ?_, fun _ _ _ => rfl⟩
    have same : s.b (.cmp n .stat) CMP_STAT.QOUT = r.val := by
      rw [closed] at h
      simpa using h
    exact ⟨same, fun low high => absurd (low.symm.trans (same.trans high)) (by decide),
      fun high low => absurd (high.symm.trans (same.trans low)) (by decide)⟩

end

/-! ### BLANK_WINDOW_CLOSE, on the digital path -/

section
variable {s : State} {n : Fin 64}

theorem blankWindowClose_none (up : Up s) (none : s.cmp[n].win = none) : exec (.blankWindowClose n false) s = after s s.toDev :=
  exec_of_act (f := cmpWinEnd n false) rfl up (by simp only [cmpWinEnd, none, Bool.false_eq_true, if_false]) (up.calm (le_refl _))

/-- The window has closed, and Q is still to take F. -/
def cmpWinShut (n : Fin 64) (d : Dev) : Dev := d.cmpU n fun c => { c with win := none }

theorem cmpWinClose_eq (n : Fin 64) (t : Nat) (d : Dev) : cmpWinClose n t d =
    if d.b (.cmp n .stat) CMP_STAT.OUT = d.b (.cmp n .stat) CMP_STAT.QOUT then cmpWinShut n d
    else cmpQset n (d.b (.cmp n .stat) CMP_STAT.OUT) t (d.stamp t) d.ctv ((cmpWinShut n d).flag (.cmp n .stat) CMP_STAT.BLEDGE) := rfl

theorem cmpWinShut_win (d : Dev) : (cmpWinShut n d).cmp[n].win = none := by rw [cmpWinShut, Dev.cmpU_cmp_same]

theorem blankWindowClose_digital {e : Nat} (up : Up s) (open_ : s.cmp[n].win = some e) (calm : Calm s e) :
    Does (.blankWindowClose n false) s fun t => t.cmp[n].win = none ∧ t.now = max s.now e ∧
      t.b (.cmp n .stat) CMP_STAT.QOUT = s.b (.cmp n .stat) CMP_STAT.OUT ∧
      (s.b (.cmp n .stat) CMP_STAT.OUT ≠ s.b (.cmp n .stat) CMP_STAT.QOUT → t.b (.cmp n .stat) CMP_STAT.BLEDGE = true) := by
  have made : cmpWinEnd n false s.toDev = cmpWinClose n e (s.toDev.at e) := by
    simp only [cmpWinEnd, open_, Bool.false_eq_true, if_false]
  rw [cmpWinClose_eq] at made
  by_cases same : s.b (.cmp n .stat) CMP_STAT.OUT = s.b (.cmp n .stat) CMP_STAT.QOUT
  · rw [if_pos (by exact same)] at made
    refine .of_act (f := cmpWinEnd n false) rfl up (by rw [made]; exact calm_max.2 calm) ?_
    rw [settle_cmp, settle_now, settle_b, settle_b, made, cmpWinShut_win]
    exact ⟨rfl, rfl, same.symm, fun differs => absurd same differs⟩
  · rw [if_neg (by exact same)] at made
    have taken : CmpQTaken n (s.b (.cmp n .stat) CMP_STAT.OUT) ((cmpWinShut n (s.toDev.at e)).flag (.cmp n .stat) CMP_STAT.BLEDGE)
        (cmpWinEnd n false s.toDev) := by rw [made]; exact cmpQset_taken
    have now : (cmpWinEnd n false s.toDev).now = max s.now e := taken.now
    refine .of_act (f := cmpWinEnd n false) rfl up (by rw [now]; exact calm_max.2 calm) ?_
    rw [settle_cmp, settle_now, settle_b, settle_b, now, taken.win, Dev.flag_cmp, cmpWinShut_win, taken.qout, taken.flag _ (by decide)]
    exact ⟨rfl, rfl, rfl, fun _ => Dev.b_flag _ _ (by decide)⟩

end

/-! ### BLANK_WINDOW_CLOSE, on the trip path -/

section
variable {s : State} {n : Fin 64}

theorem blankWindowClose_tripNone (up : Up s) (none : s.cmp[n].twin = none) : exec (.blankWindowClose n true) s = after s s.toDev :=
  exec_of_act (f := cmpWinEnd n true) rfl up (by simp only [cmpWinEnd, none, if_true]) (up.calm (le_refl _))

/-- From a window's end on, the trip path presents the raw output. -/
theorem tripLevel_of_past {d : Dev} (analog : d.b (.sys (.ready 0)) READY0.ANALOG = true)
    (past : ∀ w, d.cmp[n].twin = some w → tripEnd d w ≤ d.now) : tripLevel d n = d.cmp[n].raw := by
  unfold tripLevel
  rw [analog]
  simp only [Bool.not_true, Bool.false_eq_true, if_false]
  split
  · next w open_ => exact if_neg (Nat.not_lt.2 (past w open_))
  · rfl

theorem blankWindowClose_trip {w : TripWin} (up : Up s) (open_ : s.cmp[n].twin = some w) (calm : Calm s (tripEnd s.toDev w)) :
    Does (.blankWindowClose n true) s fun t => t.now = max s.now (tripEnd s.toDev w) ∧
      t.cmp[n].twin = (if w.till ≤ t.now then none else some w) ∧
      (s.b (.sys (.ready 0)) READY0.ANALOG = true → tripLevel t n = s.cmp[n].raw) := by
  obtain ⟨t, ht⟩ : ∃ t, t = cmpWinEnd n true s.toDev := ⟨_, rfl⟩
  have made : t = tripTrack n ((s.toDev.at (tripEnd s.toDev w)).cmpU n fun c =>
      { c with twin := if w.till ≤ max s.now (tripEnd s.toDev w) then none else some w }) := by
    rw [ht]
    simp only [cmpWinEnd, open_, if_true]
    rfl
  have now : t.now = max s.now (tripEnd s.toDev w) := by rw [made]; exact now_of_cmpBase tripTrack_base
  have regs : t.regs = s.regs := by rw [made]; exact tripTrack_regs
  obtain ⟨cond, tripped, cmp⟩ : ∃ cond tripped, t.cmp[n] =
      { s.cmp[n] with twin := if w.till ≤ max s.now (tripEnd s.toDev w) then none else some w, cond, tripped } := by
    obtain ⟨cond, tripped, h⟩ := tripTrack_cmp (n := n) (d := (s.toDev.at (tripEnd s.toDev w)).cmpU n fun c =>
      { c with twin := if w.till ≤ max s.now (tripEnd s.toDev w) then none else some w })
    rw [Dev.cmpU_cmp_same] at h
    exact ⟨cond, tripped, by rw [made, h]; rfl⟩
  refine .of_act (f := cmpWinEnd n true) rfl up (by rw [← ht, now]; exact calm_max.2 calm) ?_
  rw [← ht, settle_now, settle_cmp, now, cmp]
  refine ⟨rfl, rfl, fun analog => ?_⟩
  rw [tripLevel_of_past ((settle_b ..).trans ((Dev.b_congr regs ..).trans analog)), settle_cmp, cmp]
  intro x still
  rw [settle_cmp, cmp] at still
  have same : x = w := by
    revert still
    dsimp only
    split
    · exact fun h => nomatch h
    · exact fun h => (Option.some.inj h).symm
  have limit : tripEnd (settle t) x = tripEnd s.toDev w := by rw [tripEnd, settle_f, Dev.f_congr regs, same]; rfl
  rw [limit, settle_now, now]
  exact le_max_right ..

end

end Sys2Proof.Machine
end

section
/-!
SUPPORT. CMP_ENABLE (R163) and CMP_CAP_READ (R162).
-/
set_option Elab.async false
namespace Sys2Proof.Machine
open Sys2Proof

/-! ### The digital path follows EN and its timebase -/

section
variable {n : Fin 64} {d : Dev}

/-- An idle path starts where the comparator is enabled and its timebase runs, and OUT and QOUT show X. -/
theorem cmpPath_of_idle (idle : d.cmp[n].live = false) :
    (cmpPath n d).cmp[n].live = (d.b (.cmp n .ctl) CMP_CTL.EN && d.tbRun (cmpTb d n)) ∧ (cmpPath n d).cmp[n].raw = d.cmp[n].raw ∧
      (cmpPath n d).b (.cmp n .stat) CMP_STAT.OUT = cmpX d n ∧ (cmpPath n d).b (.cmp n .stat) CMP_STAT.QOUT = cmpX d n := by
  rcases on : d.b (.cmp n .ctl) CMP_CTL.EN && d.tbRun (cmpTb d n) with _ | _
  · have made : cmpPath n d = cmpShow n d := by
      simp only [cmpPath, on, idle]
      rfl
    rw [made, cmpShow_cmp]
    exact ⟨idle, rfl, cmpShow_shows⟩
  · obtain ⟨e, he⟩ : ∃ e, e = d.cmpU n fun c =>
        { c with live := true, runs := [], win := none, lastQ := none, lastRise := none } := ⟨_, rfl⟩
    have made : cmpPath n d = cmpShow n e := by
      simp only [cmpPath, on, idle, he]
      rfl
    have x : cmpX e n = cmpX d n := by rw [cmpX_eq, he, Dev.cmpU_cmp_same]; rfl
    rw [made, cmpShow_cmp, ← x]
    refine ⟨?_, ?_, cmpShow_shows⟩
    all_goals rw [he, Dev.cmpU_cmp_same]

@[simp] theorem cmpPath_base : (cmpPath n d).cmpBase n = d.cmpBase n := by
  unfold cmpPath
  dsimp only
  repeat' split
  · rw [cmpShow_base, Dev.cmpU_base]
  · rfl
  · exact cmpShow_base

/-! ### A write of CMPn_CTL that enables -/

/-- The word that a write of v leaves in CMPn_CTL, where it neither meets a guarded field nor joins a pair: an odd comparator has no WIN. -/
def cmpCtlWord (n : Fin 64) (v : Word) : Word := if n.val % 2 = 1 then CMP_CTL.WIN.put 0 v else v

theorem cmpCtlWord_get {f : Fld} (hf : f.ok = true) (win : f.apart CMP_CTL.WIN = true) (v : Word) : f.get (cmpCtlWord n v) = f.get v := by
  unfold cmpCtlWord
  split
  · exact Fld.get_put_apart hf (by decide) win 0 v
  · rfl

theorem cmpCtlWord_bit {f : Fld} (hf : f.ok = true) (win : f.apart CMP_CTL.WIN = true) (v : Word) : f.bit (cmpCtlWord n v) = f.bit v := by
  unfold cmpCtlWord
  split
  · exact Fld.bit_put_apart hf (by decide) win 0 v
  · rfl

theorem cmpCtlWord_win {v : Word} (win : CMP_CTL.WIN.bit v = false) : CMP_CTL.WIN.bit (cmpCtlWord n v) = false := by
  unfold cmpCtlWord
  split
  · exact Fld.bit_put (by decide) 0 v
  · exact win

/-- The raw path follows a write that makes CMPn_CTL what it is: of INV, if it changed it, and of HYST, where the new thresholds meet the
inputs that stand. -/
def cmpFollows (n : Fin 64) (inv hyst : Bool) (vp vn : Int) (d : Dev) : Dev :=
  let d4 := if inv then cmpXchange n (cmpX d n) true d else d
  if hyst then cmpInput n vp vn d4 else d4

theorem cmpFollows_base {inv hyst : Bool} {vp vn : Int} : (cmpFollows n inv hyst vp vn d).cmpBase n = d.cmpBase n := by
  unfold cmpFollows
  dsimp only
  repeat' split
  all_goals simp

theorem cmpFollows_live {inv hyst : Bool} {vp vn : Int} : (cmpFollows n inv hyst vp vn d).cmp[n].live = d.cmp[n].live := by
  obtain ⟨d4, hd4⟩ : ∃ d4, d4 = if inv then cmpXchange n (cmpX d n) true d else d := ⟨_, rfl⟩
  have live : d4.cmp[n].live = d.cmp[n].live := by
    rw [hd4]
    split
    · obtain ⟨runs, h⟩ := cmpXchange_cmp (n := n) (x := cmpX d n) (un := true) (d := d)
      rw [h]
    · rfl
  have made : cmpFollows n inv hyst vp vn d = if hyst then cmpInput n vp vn d4 else d4 := by rw [hd4]; rfl
  rw [made, ← live]
  split
  · obtain ⟨cond, tripped, runs, h⟩ := cmpInput_cmp (n := n) (vp := vp) (vn := vn) (d := d4)
    rw [h]
  · rfl

theorem cmpFollows_raw {inv : Bool} {vp vn : Int} : (cmpFollows n inv false vp vn d).cmp[n].raw = d.cmp[n].raw := by
  simp only [cmpFollows, Bool.false_eq_true, if_false]
  split
  · obtain ⟨runs, h⟩ := cmpXchange_cmp (n := n) (x := cmpX d n) (un := true) (d := d)
    rw [h]
  · rfl

/-- EN is written from 0 to 1, and no window monitor is asked for. -/
theorem cmpWriteCtl_enables {v : Word} (off : d.b (.cmp n .ctl) CMP_CTL.EN = false) (en : CMP_CTL.EN.bit v = true)
    (win : CMP_CTL.WIN.bit v = false) :
    cmpWriteCtl n v d = cmpWout false n (cmpPath n (cmpFollows n
      (CMP_CTL.INV.bit (d.get (.cmp n .ctl)) != CMP_CTL.INV.bit (cmpCtlWord n v))
      (CMP_CTL.HYST.get (d.get (.cmp n .ctl)) != CMP_CTL.HYST.get (cmpCtlWord n v)) d.cmp[n].vp d.cmp[n].vn
      (d.wr (.cmp n .ctl) (cmpCtlWord n v)))) := by
  obtain ⟨e, made⟩ : ∃ e, cmpWriteCtl n v d = e := ⟨_, rfl⟩
  rw [made]
  have off' : CMP_CTL.EN.bit (d.get (.cmp n .ctl)) = false := off
  unfold cmpWriteCtl at made
  extract_lets old guard v1 v2 o winOk winRej v3 d1 d1' d2 touched d3 d4 d5 at made
  have hguard : guard = false := by simp only [guard, old, off', Bool.false_and]
  have word2 : v2 = cmpCtlWord n v := by simp only [v2, v1, hguard, Bool.false_eq_true, if_false]; rfl
  have hrej : winRej = false := by simp only [winRej, word2, cmpCtlWord_win win, Bool.and_false, Bool.false_and]
  have word3 : v3 = cmpCtlWord n v := by simp only [v3, hrej, Bool.false_eq_true, if_false, word2]
  have hen : CMP_CTL.EN.bit (cmpCtlWord n v) = true := (cmpCtlWord_bit (by decide) (by decide) v).trans en
  have htouched : touched = false := by simp only [touched, old, off', Bool.false_and]
  have put : d3 = d.wr (.cmp n .ctl) (cmpCtlWord n v) := by
    simp only [d3, htouched, d2, hen, d1', d1, hguard, hrej, Bool.false_and, Bool.or_false, Dev.flagIf, Bool.false_eq_true, if_false, if_true,
      word3]
  rw [← made, ← put, ← word3]
  rfl

end

section
variable {s : State} {by_ : Requester} {n : Fin 64} {v : Word}

theorem cmpEnable_does (asks : Asks by_ s (.cmp n .ctl)) (off : s.b (.cmp n .ctl) CMP_CTL.EN = false) (idle : s.cmp[n].live = false)
    (win : CMP_CTL.WIN.bit v = false) :
    Does (.cmpEnable by_ n v) s fun t => t.b (.cmp n .ctl) CMP_CTL.EN = true ∧
      t.cmp[n].live = s.tbRun (Fin.ofNat 32 (CMP_CTL.TB.get v)) ∧
      (CMP_CTL.HYST.get v = s.f (.cmp n .ctl) CMP_CTL.HYST → t.cmp[n].raw = s.cmp[n].raw) ∧
      t.b (.cmp n .stat) CMP_STAT.OUT = (t.cmp[n].raw ^^ CMP_CTL.INV.bit v) ∧
      t.b (.cmp n .stat) CMP_STAT.QOUT = (t.cmp[n].raw ^^ CMP_CTL.INV.bit v) := by
  have ctl : (asked by_ s.toDev).get (.cmp n .ctl) = s.get (.cmp n .ctl) := get_asked (by simp)
  have en : CMP_CTL.EN.bit (CMP_CTL.EN.put 1 v) = true := Fld.bit_put (by decide) 1 v
  have win' : CMP_CTL.WIN.bit (CMP_CTL.EN.put 1 v) = false := (Fld.bit_put_apart (by decide) (by decide) (by decide) 1 v).trans win
  -- the word written, and the device once the raw path has followed it
  obtain ⟨w, hw⟩ : ∃ w, w = cmpCtlWord n (CMP_CTL.EN.put 1 v) := ⟨_, rfl⟩
  have field {f : Fld} (hf : f.ok = true) (win : f.apart CMP_CTL.WIN = true) (en : f.apart CMP_CTL.EN = true) : f.get w = f.get v := by
    rw [hw, cmpCtlWord_get hf win, Fld.get_put_apart hf (by decide) en]
  obtain ⟨x, hx⟩ : ∃ x, x = cmpFollows n (CMP_CTL.INV.bit (s.get (.cmp n .ctl)) != CMP_CTL.INV.bit w)
    (CMP_CTL.HYST.get (s.get (.cmp n .ctl)) != CMP_CTL.HYST.get w) s.cmp[n].vp s.cmp[n].vn ((asked by_ s.toDev).wr (.cmp n .ctl) w) := ⟨_, rfl⟩
  have base : x.cmpBase n = ((asked by_ s.toDev).wr (.cmp n .ctl) w).cmpBase n := by rw [hx, cmpFollows_base]
  have made : writeNow by_ (.cmp n .ctl) (CMP_CTL.EN.put 1 v) (asked by_ s.toDev) = cmpWout false n (cmpPath n x) := by
    rw [hx, ← ctl, hw]
    exact cmpWriteCtl_enables ((congrArg CMP_CTL.EN.bit ctl).trans off) en win'
  have word {f : Fld} (hf : f.ok = true) (rw_ : (CmpReg.access .ctl).writes f = true) :
      x.f (.cmp n .ctl) f = f.get w ∧ x.b (.cmp n .ctl) f = f.bit w := by
    have put : x.get (.cmp n .ctl) = plainWrite (CmpReg.access .ctl) ((asked by_ s.toDev).get (.cmp n .ctl)) w :=
      (ctl_of_cmpBase base).trans (Dev.get_wr_same ..)
    rw [Dev.f, Dev.b, put, Fld.get_plainWrite hf rw_, Fld.bit_plainWrite hf rw_]
    exact ⟨rfl, rfl⟩
  have enabled : x.b (.cmp n .ctl) CMP_CTL.EN = true := by
    rw [(word (by decide) (by decide)).2, hw, cmpCtlWord_bit (by decide) (by decide), en]
  have tb : cmpTb x n = Fin.ofNat 32 (CMP_CTL.TB.get v) := by
    rw [cmpTb, (word (by decide) (by decide)).1, field (by decide) (by decide) (by decide)]
  have tbs : x.tbs = s.tbs := by
    rw [tbs_of_cmpBase base, Dev.wr, Dev.put_tbs (by simp), asked_tbs]
  have inv : x.b (.cmp n .ctl) CMP_CTL.INV = CMP_CTL.INV.bit v := by
    rw [(word (by decide) (by decide)).2, hw, cmpCtlWord_bit (by decide) (by decide), Fld.bit_put_apart (by decide) (by decide) (by decide)]
  have idle' : x.cmp[n].live = false := by rw [hx, cmpFollows_live]; exact idle
  obtain ⟨live, raw, out, qout⟩ := cmpPath_of_idle idle'
  rw [cmpX_eq, inv] at out qout
  refine .of_write rfl asks (by simp [heldMask]) made (asks.up.calm (Nat.le_of_eq ?_)) ?_
  · rw [now_of_cmpBase (cmpWout_base.trans cmpPath_base)]
    exact Dev.now_of_tbs tbs
  · simp only [settle_b, settle_cmp, cmpWout_cmp]
    rw [cmpWout_b (by decide) (by decide) (by decide), cmpWout_b (by decide) (by decide) (by decide),
      cmpWout_b (by decide) (by decide) (by decide), live, raw, out, qout, b_of_cmpBase cmpPath_base, enabled, tb, Dev.tbRun_of_tbs tbs]
    refine ⟨rfl, rfl, fun same => ?_, rfl, rfl⟩
    have keeps : (CMP_CTL.HYST.get (s.get (.cmp n .ctl)) != CMP_CTL.HYST.get w) = false := by
      rw [field (by decide) (by decide) (by decide), same]
      exact bne_self_eq_false _
    rw [hx, keeps, cmpFollows_raw]
    rfl

end

/-! ### Reads -/

/-- The clause of a read that is made at once: it finds the device's state and registers but for the use of tags, and its value is given. -/
theorem Does.of_read {i : Instr} {s : State} {by_ : Requester} {r : Reg} {P : Dev → Prop} (answer : exec i s = act (readBy by_ r) s)
    (asks : Asks by_ s r) (fresh : hasAsked s.toDev by_ r = false) (still : ∀ x, (readNow by_ r x).2.now = x.now)
    (h : P (settle (readGiven by_ r (readNow by_ r (askedRead by_ r s.toDev)).1 (readNow by_ r (askedRead by_ r s.toDev)).2))) :
    Does i s P := by
  have made := readBy_eq asks fresh
  have given (v : Word) (d : Dev) : (readGiven by_ r v d).now = d.now := by cases by_ <;> rfl
  refine .of_act answer asks.up (asks.up.calm (Nat.le_of_eq ?_)) (by rwa [made])
  rw [made, given, still]
  rfl

theorem get_askedRead {by_ : Requester} {q r : Reg} {d : Dev} (h : ∀ k, r ≠ .sys (.taguse k)) : (askedRead by_ q d).get r = d.get r :=
  (Dev.get_setF_ne _ (h _) _ _ : (d.tagTake (reqHolder by_) 1).get r = _)

theorem get_readGiven {by_ : Requester} {q r : Reg} {v : Word} {d : Dev} : (readGiven by_ q v d).get r = d.get r := by cases by_ <;> rfl

theorem cmpCapRead_does {s : State} {by_ : Requester} {n : Fin 64} (asks : Asks by_ s (.cmp n .cap))
    (fresh : hasAsked s.toDev by_ (.cmp n .cap) = false) : Does (.cmpCapRead by_ n) s fun t =>
      t.sys.rdData = some (s.get (.cmp n .cap)) ∧ t.b (.cmp n .cap) CMP_CAP.FRESH = false ∧
      t.get (.cmp n .ctsl) = lo32 s.cmp[n].capTs ∧ t.get (.cmp n .ctsh) = hi32 s.cmp[n].capTs := by
  refine .of_read rfl asks fresh (fun _ => rfl) ?_
  have read (x : Dev) : readNow by_ (.cmp n .cap) x = (x.get (.cmp n .cap),
      ((x.clearRC (.cmp n .cap)).put (.cmp n .ctsl) (lo32 x.cmp[n].capTs)).put (.cmp n .ctsh) (hi32 x.cmp[n].capTs)) := rfl
  rw [read]
  dsimp only
  rw [settle_sys, readGiven_rdData, settle_b, settle_get, settle_get, Dev.b, get_readGiven, get_readGiven, get_readGiven,
    get_askedRead (by simp)]
  refine ⟨rfl, ?_, ?_, Dev.get_put_same ..⟩
  · rw [Dev.get_put_ne _ (by simp), Dev.get_put_ne _ (by simp)]
    exact b_clearRC_fresh rfl _
  · rw [Dev.get_put_ne _ (by simp), Dev.get_put_same]
    rfl

end Sys2Proof.Machine
end

section
/-!
PROOF. O41, by command.
-/
set_option Elab.async false
namespace Sys2Proof.Proofs
open Sys2Proof Sys2Proof.Machine

/-- Settles O41: what a change of the raw output, of F or of Q leads to leaves the comparator's other state alone, and so do the trip path,
the legs that measure, and what a capture is presented to. -/
theorem comparators : Obligations.Comparators := by
  unfold Obligations.Comparators
  intro s by_ n v vp vn at_ up d c stat half offset level x
  refine ⟨?_, ?_, fun calm beyond change => ⟨?_, ?_⟩, ?_, fun r rest runs defined_ => ?_, ?_, fun e open_ calm => ?_, ?_,
    fun w open_ => ?_, ?_, ?_⟩
  · exact fun calm => cmpRawChange_takes up calm
  · exact fun calm beyond same => cmpRawChange_same up calm beyond same
  · exact fun idle => cmpRawChange_idle up calm beyond change idle
  · exact fun live none differs => cmpRawChange_live up calm beyond change live none differs
  · exact fun none => cmpFilterChange_none up none
  · exact fun calm => cmpFilterChange_does up runs defined_ calm
  · exact fun none => blankWindowClose_none up none
  · exact blankWindowClose_digital up open_ calm
  · exact fun none => blankWindowClose_tripNone up none
  · exact fun calm => blankWindowClose_trip up open_ calm
  · exact fun asks off idle win => cmpEnable_does asks off idle win
  · exact fun asks fresh => cmpCapRead_does asks fresh

end Sys2Proof.Proofs
end

section
/-!
SUPPORT. Position channels (R166-R181): what shows of one channel, what a channel leaves of the others, and what an update leaves of its own.
-/
set_option Elab.async false
namespace Sys2Proof.Machine
open Sys2Proof

/-! ### What shows of one channel -/

/-- Channel n as others find it: its state, its registers and the timebases. -/
def Dev.posView (n : Fin 8) (d : Dev) : TbView × PosSt × (PosReg → Word) := (d.tbs, d.pos[n], fun r => d.get (.pos n r))

theorem Dev.posView_eq {n : Fin 8} {d e : Dev} (tbs : e.tbs = d.tbs) (st : e.pos[n] = d.pos[n])
    (get : ∀ r, e.get (.pos n r) = d.get (.pos n r)) : e.posView n = d.posView n := by simp only [Dev.posView, tbs, st, get]

section
variable {n : Fin 8} {d e : Dev} (h : e.posView n = d.posView n)
include h

theorem tbs_of_posView : e.tbs = d.tbs := congrArg Prod.fst h
theorem pos_of_posView : e.pos[n] = d.pos[n] := congrArg (·.2.1) h
theorem get_of_posView (r : PosReg) : e.get (.pos n r) = d.get (.pos n r) := congrArg (·.2.2 r) h
theorem f_of_posView (r : PosReg) (f : Fld) : e.f (.pos n r) f = d.f (.pos n r) f := congrArg f.get (get_of_posView h r)
theorem b_of_posView (r : PosReg) (f : Fld) : e.b (.pos n r) f = d.b (.pos n r) f := congrArg f.bit (get_of_posView h r)
theorem posTb_of_posView : posTb e n = posTb d n := by rw [posTb, f_of_posView h]; rfl
theorem posOn_of_posView : posOn e n = posOn d n := by
  rw [posOn, b_of_posView h, posTb_of_posView h, Dev.tbRun_of_tbs (tbs_of_posView h)]
  rfl
theorem posMode_of_posView : posMode e n = posMode d n := f_of_posView h ..

end

theorem CapSide.posView {n : Fin 8} {d e : Dev} (h : CapSide d e) : e.posView n = d.posView n :=
  Dev.posView_eq h.tbs (by rw [h.pos]) fun r => h.get (.pos n r) rfl

theorem Dev.posU_pos_same (d : Dev) (n : Fin 8) (g : PosSt → PosSt) : (d.posU n g).pos[n] = g d.pos[n] := by simp [Dev.posU]

section
variable {m n : Fin 8} (h : m ≠ n) {d : Dev}
include h

theorem Dev.posU_posView_ne {g : PosSt → PosSt} : (d.posU m g).posView n = d.posView n :=
  Dev.posView_eq rfl (by simp [Dev.posU, Fin.val_ne_of_ne h]) fun _ => rfl

theorem Dev.put_posView_ne {r : PosReg} {v : Word} : (d.put (.pos m r) v).posView n = d.posView n :=
  Dev.posView_eq (by simp) rfl fun _ => Dev.get_put_ne d (by simp [h.symm]) v

end

theorem Dev.raise_posView {n : Fin 8} {d : Dev} {p : Nat} : (d.raise p).posView n = d.posView n :=
  Dev.posView_eq Dev.raise_tbs (by rw [Dev.raise_pos]) fun _ => Dev.get_congr (Dev.raise_regs ..) _

/-! ### Updates -/

/-- What an update stores, flags and produces, once its speed is known (R172). -/
def posStored (n : Fin 8) (spd : Word) (stamp : Nat) (d : Dev) : Dev :=
  ((((d.put (.pos n .spd) spd).put (.pos n .upos) (d.get (.pos n .pos))).flag (.pos n .stat) POS_STAT.UPD).posU n fun p =>
    { p with upd := { pos := d.get (.pos n .pos), rev := d.get (.pos n .rev), spd := spd, ts := stamp } }).raise (448 + n.val)

theorem posUpdate_side {n : Fin 8} {t stamp : Nat} {tv : Bool} {d : Dev} :
    ∃ spd, CapSide (posStored n spd stamp d) (posUpdate n t stamp tv d) := by
  unfold posUpdate
  extract_lets p k spd d1 u d2 d3
  have offered : CapSide (posStored n spd stamp d) d3 := capSide_leFromPos.2 (.refl _)
  refine ⟨spd, ?_⟩
  split
  · exact capSide_capPos.2 offered
  · exact offered

/-- Channel n has been updated with a stamp (R172). -/
structure PosUpdated (n : Fin 8) (stamp : Nat) (d e : Dev) : Prop where
  tbs : e.tbs = d.tbs
  st : ∃ u : PosUpd, u.ts = stamp ∧ e.pos[n] = { d.pos[n] with upd := u }
  upos : e.get (.pos n .upos) = d.get (.pos n .pos)
  upd : e.b (.pos n .stat) POS_STAT.UPD = true
  stat : ∀ f, f.ok = true → f.apart POS_STAT.UPD = true → e.b (.pos n .stat) f = d.b (.pos n .stat) f
  get : ∀ r, r ≠ .spd → r ≠ .upos → r ≠ .stat → e.get (.pos n r) = d.get (.pos n r)
  raised : ∃ x ∈ e.fab.raised, x.val = 448 + n.val

/-- The registers that an update writes. -/
def posStoredRegs (n : Fin 8) (spd : Word) (d : Dev) : Dev :=
  ((d.put (.pos n .spd) spd).put (.pos n .upos) (d.get (.pos n .pos))).flag (.pos n .stat) POS_STAT.UPD

theorem posStored_regs (n : Fin 8) (spd : Word) (stamp : Nat) (d : Dev) : (posStored n spd stamp d).regs = (posStoredRegs n spd d).regs :=
  Dev.raise_regs ..

theorem posStored_pos (n : Fin 8) (spd : Word) (stamp : Nat) (d : Dev) : (posStored n spd stamp d).pos[n] =
    { d.pos[n] with upd := { pos := d.get (.pos n .pos), rev := d.get (.pos n .rev), spd := spd, ts := stamp } } :=
  (congrArg (·[n]) (Dev.raise_pos ..)).trans (Dev.posU_pos_same ..)

theorem posStoredRegs_upos (n : Fin 8) (spd : Word) (d : Dev) : (posStoredRegs n spd d).get (.pos n .upos) = d.get (.pos n .pos) :=
  (Dev.get_setF_ne _ (by simp) _ _).trans (Dev.get_put_same ..)

theorem posStoredRegs_stat (n : Fin 8) (spd : Word) (d : Dev) {f : Fld} (ok : f.ok = true) (apart : f.apart POS_STAT.UPD = true) :
    (posStoredRegs n spd d).b (.pos n .stat) f = d.b (.pos n .stat) f := by
  refine (Dev.b_setB_apart _ _ ok (by decide) apart true).trans (congrArg f.bit ?_)
  rw [Dev.get_put_ne _ (by simp), Dev.get_put_ne _ (by simp)]

theorem posStoredRegs_get (n : Fin 8) (spd : Word) (d : Dev) {r : PosReg} (hs : r ≠ .spd) (hu : r ≠ .upos) (ht : r ≠ .stat) :
    (posStoredRegs n spd d).get (.pos n r) = d.get (.pos n r) := by
  refine (Dev.get_setF_ne _ (by simp [ht]) _ _).trans ?_
  rw [Dev.get_put_ne _ (by simp [hu]), Dev.get_put_ne _ (by simp [hs])]

theorem posStored_updated (n : Fin 8) (spd : Word) (stamp : Nat) (d : Dev) : PosUpdated n stamp d (posStored n spd stamp d) where
  tbs := Dev.raise_tbs.trans (by simp)
  st := ⟨_, rfl, posStored_pos ..⟩
  upos := (Dev.get_congr (posStored_regs ..) _).trans (posStoredRegs_upos ..)
  upd := (Dev.b_congr (posStored_regs ..) ..).trans (Dev.b_flag _ _ (by decide))
  stat _ ok apart := (Dev.b_congr (posStored_regs ..) ..).trans (posStoredRegs_stat n spd d ok apart)
  get _ hs hu ht := (Dev.get_congr (posStored_regs ..) _).trans (posStoredRegs_get n spd d hs hu ht)
  raised := mem_raised_raise _ (by omega)

theorem posUpdate_updated (n : Fin 8) (t stamp : Nat) (tv : Bool) (d : Dev) : PosUpdated n stamp d (posUpdate n t stamp tv d) := by
  obtain ⟨spd, side⟩ := posUpdate_side (n := n) (t := t) (stamp := stamp) (tv := tv) (d := d)
  obtain ⟨tbs, ⟨u, ts, st⟩, upos, upd, stat, get, raised⟩ := posStored_updated n spd stamp d
  have view := side.posView (n := n)
  exact ⟨side.tbs.trans tbs, ⟨u, ts, (pos_of_posView view).trans st⟩, (get_of_posView view _).trans upos, (b_of_posView view ..).trans upd,
    fun f ok apart => (b_of_posView view ..).trans (stat f ok apart),
    fun r hs hu ht => (get_of_posView view _).trans (get r hs hu ht), by rwa [side.fab]⟩

theorem posUpdate_posView_ne {m n : Fin 8} (h : m ≠ n) {t stamp : Nat} {tv : Bool} {d : Dev} :
    (posUpdate m t stamp tv d).posView n = d.posView n := by
  obtain ⟨spd, side⟩ := posUpdate_side (n := m) (t := t) (stamp := stamp) (tv := tv) (d := d)
  rw [side.posView, posStored, Dev.raise_posView, Dev.posU_posView_ne h, Dev.flag, Dev.setB, Dev.setF, Dev.put_posView_ne h,
    Dev.put_posView_ne h, Dev.put_posView_ne h]

/-! ### Triggers -/

theorem posTrigger_posView_ne {m n : Fin 8} (h : m ≠ n) {t : Nat} {d : Dev} : (posTrigger m t d).posView n = d.posView n := by
  unfold posTrigger
  repeat' split
  · rfl
  · exact (Dev.put_posView_ne h).trans (Dev.posU_posView_ne h)
  · exact (Dev.put_posView_ne h).trans (Dev.put_posView_ne h)
  · exact posUpdate_posView_ne h
  · rfl

section
variable {n : Fin 8} {t : Nat} {d : Dev} (on : posOn d n = true)
include on

theorem posTrigger_decoding (decodes : posMode d n < 2) (usrc : d.b (.pos n .ctl) POS_CTL.USRC = true) :
    posTrigger n t d = posUpdate n t (d.stamp t) d.ctv d := by
  have serial : posSerial d n = false := decide_eq_false (Nat.not_le.2 decodes)
  simp only [posTrigger, on, serial, usrc, Bool.not_true, Bool.false_eq_true, if_false, if_true]

variable (serial : 2 ≤ posMode d n)
include serial

theorem posTrigger_idle (idle : d.pos[n].frame = .idle) :
    posTrigger n t d = (d.posU n fun p => { p with frame := .waiting t }).flag (.pos n .stat) POS_STAT.SHIFT := by
  have serial : posSerial d n = true := decide_eq_true serial
  simp only [posTrigger, on, serial, idle, Bool.not_true, Bool.false_eq_true, if_false, if_true]

theorem posTrigger_busy (busy : d.pos[n].frame ≠ .idle) :
    posTrigger n t d = (d.flag (.pos n .stat) POS_STAT.TRIGDROP).bump (.pos n .cnt) POS_CNT.DROP_CNT := by
  have serial : posSerial d n = true := decide_eq_true serial
  simp only [posTrigger, on, serial, Bool.not_true, Bool.false_eq_true, if_false, if_true]

end

/-! ### POS_TRIGGER_TASK (R172) -/

/-- A trigger reaches channel n on the next tick of its timebase. -/
def posTicked (n : Fin 8) (d : Dev) : Dev := posTrigger n (tickUp (tbB d (posTb d n)) d.now) d

section
variable {s : State} {n : Fin 8} {ch : Fin 256} {e : Nat} (up : Up s) (at_ : fabTaskAt s.toDev .posTrig ch = some e)
  (tsrc : s.b (.pos n .trig) POS_TRIG.TSRC = false) (tch : s.f (.pos n .trig) POS_TRIG.TCH = ch.val)
  (calm : Calm s (max e ((fabGot s.toDev ch e).getD (max s.now e)))) (on : posOn s.toDev n = true)
include up at_ tsrc tch calm on

/-- The tick on which a channel takes a trigger. -/
def posTick (s : State) (n : Fin 8) (ch : Fin 256) (e : Nat) : Nat :=
  tickUp (tbB s.toDev (posTb s.toDev n)) ((fabGot s.toDev ch e).getD (max s.now e))

theorem posTriggerTask_of {P : Dev → Prop} (h : ∀ x t : Dev, x.posView n = (fabFound .posTrig ch e s.toDev).posView n →
    posOn x n = true → t.posView n = (posTrigger n (posTick s n ch e) x).posView n →
    (∀ y ∈ (posTrigger n (posTick s n ch e) x).fab.raised, y ∈ t.fab.raised) → P (settle (t.at (max s.now e)))) :
    Does (.posTriggerTask ch) s P := by
  have others {k : Fin 8} (h : k ≠ n) (d : Dev) : (posTicked k d).posView n = d.posView n := posTrigger_posView_ne h
  have heard (k : Fin 8) (d : Dev) : Heard d (posTicked k d) := posTrigger_heard ..
  refine .of_task (f := posTask ch.val) rfl up at_ rfl (fun d => Dev.now_of_tbs (Heard.each heard d).tbs) calm ?_
  have mem : n ∈ (fins 8).filter fun n => !(s.b (.pos n .trig) POS_TRIG.TSRC) && s.f (.pos n .trig) POS_TRIG.TCH == ch.val :=
    List.mem_filter.2 ⟨mem_fins n, by rw [tsrc, tch]; simp⟩
  obtain ⟨l1, l2, out1, out2, split⟩ := Dev.each_split ((fins_nodup 8).filter _) mem posTicked (fabFound .posTrig ch e s.toDev)
  obtain ⟨x, hx⟩ : ∃ x, x = (fabFound .posTrig ch e s.toDev).each l1 posTicked := ⟨_, rfl⟩
  have view : x.posView n = (fabFound .posTrig ch e s.toDev).posView n := by
    rw [hx]
    exact Dev.each_kept (π := Dev.posView n) (fun k hk d => others (out1 k hk) d) _
  have tick : posTicked n x = posTrigger n (posTick s n ch e) x := by
    rw [posTicked, posTb_of_posView view, tbB_of_tbs (tbs_of_posView view), Dev.now_of_tbs (tbs_of_posView view)]
    rfl
  have made : posTask ch.val (fabFound .posTrig ch e s.toDev) = (posTrigger n (posTick s n ch e) x).each l2 posTicked := by
    rw [← tick, hx]
    exact split
  rw [made]
  exact h x _ view ((posOn_of_posView view).trans on) (Dev.each_kept (π := Dev.posView n) (fun k hk d => others (out2 k hk) d) _)
    (Heard.each heard _).raised

theorem posTriggerTask_decoding (decodes : s.f (.pos n .ctl) POS_CTL.MODE < 2) (usrc : s.b (.pos n .ctl) POS_CTL.USRC = true) :
    Does (.posTriggerTask ch) s fun t => t.get (.pos n .upos) = s.get (.pos n .pos) ∧ t.b (.pos n .stat) POS_STAT.UPD = true ∧
      ∃ x ∈ t.fab.raised, x.val = 448 + n.val := by
  refine posTriggerTask_of up at_ tsrc tch calm on fun x t view on ht raised => ?_
  rw [posTrigger_decoding on (by rwa [posMode_of_posView view]) ((b_of_posView view ..).trans usrc)] at ht raised
  have updated := posUpdate_updated n (posTick s n ch e) (x.stamp (posTick s n ch e)) x.ctv x
  obtain ⟨y, hy, val⟩ := updated.raised
  rw [settle_get, settle_b, settle_fab]
  exact ⟨(get_of_posView ht _).trans (updated.upos.trans (get_of_posView view _)), (b_of_posView ht ..).trans updated.upd, y, raised y hy, val⟩

variable (serial : 2 ≤ s.f (.pos n .ctl) POS_CTL.MODE)
include serial

theorem posTriggerTask_idle (idle : s.pos[n].frame = .idle) : Does (.posTriggerTask ch) s fun t =>
    t.pos[n].frame = .waiting (posTick s n ch e) ∧ t.b (.pos n .stat) POS_STAT.SHIFT = true := by
  refine posTriggerTask_of up at_ tsrc tch calm on fun x t view on ht _ => ?_
  have idle' : x.pos[n].frame = .idle := by rw [pos_of_posView view]; exact idle
  rw [posTrigger_idle on (by rwa [posMode_of_posView view]) idle'] at ht
  rw [settle_pos, settle_b]
  refine ⟨?_, (b_of_posView ht ..).trans (Dev.b_flag _ _ (by decide))⟩
  have st : t.pos[n] = _ := pos_of_posView ht
  show t.pos[n].frame = _
  rw [st, Dev.flag_pos, Dev.posU_pos_same]

theorem posTriggerTask_busy (busy : s.pos[n].frame ≠ .idle) : Does (.posTriggerTask ch) s fun t =>
    t.pos[n] = s.pos[n] ∧ t.b (.pos n .stat) POS_STAT.TRIGDROP = true := by
  refine posTriggerTask_of up at_ tsrc tch calm on fun x t view on ht _ => ?_
  have busy' : x.pos[n].frame ≠ .idle := by rw [pos_of_posView view]; exact busy
  rw [posTrigger_busy on (by rwa [posMode_of_posView view]) busy'] at ht
  rw [settle_pos, settle_b]
  refine ⟨?_, (b_of_posView ht ..).trans ?_⟩
  · show t.pos[n] = _
    rw [pos_of_posView ht, Dev.bump_pos, Dev.flag_pos]
    exact (pos_of_posView view).trans rfl
  · exact (Dev.b_setF_ne _ (by simp) ..).trans (Dev.b_flag _ _ (by decide))

end

end Sys2Proof.Machine
end

section
/-!
SUPPORT. POS_INPUT_CHANGE (R157, R167-R170, R174): what a change of a channel's inputs counts.
-/
set_option Elab.async false
namespace Sys2Proof.Machine
open Sys2Proof

/-! ### What counting leaves of the inputs -/

/-- The instant, and the inputs that channel n has taken. -/
def Dev.posIns (n : Fin 8) (d : Dev) : Nat × Bool × Bool × Bool × Option Nat :=
  (d.now, d.pos[n].a, d.pos[n].b, d.pos[n].z, d.pos[n].moved)

section
variable {n : Fin 8} {d : Dev}

theorem Dev.posIns_eq {e : Dev} {p : PosSt} (now : e.now = d.now) (st : e.pos[n] = p) (a : p.a = d.pos[n].a) (b : p.b = d.pos[n].b)
    (z : p.z = d.pos[n].z) (moved : p.moved = d.pos[n].moved) : e.posIns n = d.posIns n := by
  simp only [Dev.posIns, now, st, a, b, z, moved]

/-- The inputs have been taken. -/
def posTaken (n : Fin 8) (a b z : Bool) (moved : Option Nat) (d : Dev) : Dev :=
  d.posU n fun p => { p with a := a, b := b, z := z, moved := moved }

theorem posTaken_pos {a b z : Bool} {moved : Option Nat} : (posTaken n a b z moved d).pos[n] = { d.pos[n] with a, b, z, moved } :=
  Dev.posU_pos_same ..

theorem posTaken_ins {a b z : Bool} {moved : Option Nat} : (posTaken n a b z moved d).posIns n = (d.now, a, b, z, moved) := by
  rw [Dev.posIns, posTaken_pos]
  rfl

theorem posUpdate_ins {t stamp : Nat} {tv : Bool} : (posUpdate n t stamp tv d).posIns n = d.posIns n := by
  have updated := posUpdate_updated n t stamp tv d
  obtain ⟨u, -, st⟩ := updated.st
  exact Dev.posIns_eq (Dev.now_of_tbs updated.tbs) st rfl rfl rfl rfl

theorem posMove_st {up : Bool} : (posMove n up d).now = d.now ∧ (posMove n up d).pos = d.pos := by
  unfold posMove
  dsimp only
  repeat' split
  all_goals exact ⟨rfl, rfl⟩

/-! ### A counted step -/

/-- The position and the turn count after one count (R170). -/
def posCounted (n : Fin 8) (up : Bool) (d : Dev) : Word × Word :=
  let p := (d.get (.pos n .pos)).toNat
  let r := d.get (.pos n .rev)
  if up then if p + 1 = posCpr d n then (0, r + 1) else (w32 (p + 1), r)
  else if p = 0 then (w32 (posCpr d n - 1), r - 1) else (w32 (p - 1), r)

theorem posMove_counted (n : Fin 8) (up : Bool) (d : Dev) :
    ((posMove n up d).get (.pos n .pos), (posMove n up d).get (.pos n .rev)) = posCounted n up d := by
  unfold posMove posCounted
  dsimp only
  repeat' split
  all_goals simp [Dev.get_put_ne]

/-- A step has been counted, its speed and its interval taken, and it is still to be recorded. -/
theorem posStep_from (n : Fin 8) (fwd : Bool) (t : Nat) (d : Dev) : ∃ e : Dev, e.posIns n = d.posIns n ∧
    (∀ r, r ≠ .spd → e.get (.pos n r) = (((posMove n (fwd != d.b (.pos n .ctl) POS_CTL.DIR) d).setB (.pos n .stat) POS_STAT.LASTDIR
      (!(fwd != d.b (.pos n .ctl) POS_CTL.DIR))).setB (.pos n .stat) POS_STAT.SPDZERO false).get (.pos n r)) ∧
    posStep n fwd t d = if d.b (.pos n .ctl) POS_CTL.USRC then e else posUpdate n t (d.stamp t) d.ctv e := by
  unfold posStep
  extract_lets p up lastUp timed dt d1 d2 d3 d4
  obtain ⟨now, st⟩ := posMove_st (n := n) (up := up) (d := d)
  have kept : d3.now = d2.now ∧ d3.pos = d2.pos ∧ ∀ r, r ≠ .spd → d3.get (.pos n r) = d2.get (.pos n r) := by
    clear_value dt
    cases dt with
    | some k => exact ⟨rfl, rfl, fun r hr => Dev.get_put_ne _ (by simp [hr]) _⟩
    | none => exact ⟨rfl, rfl, fun _ _ => rfl⟩
  obtain ⟨now3, st3, get3⟩ := kept
  have st3' : d3.pos[n] = d.pos[n] := by rw [st3, ← st]; rfl
  refine ⟨d4, Dev.posIns_eq (now3.trans now) (Dev.posU_pos_same ..) ?_ ?_ ?_ ?_, get3, rfl⟩
  all_goals rw [st3']

theorem posStep_ins {fwd : Bool} {t : Nat} : (posStep n fwd t d).posIns n = d.posIns n := by
  obtain ⟨e, ins, -, made⟩ := posStep_from n fwd t d
  rw [made]
  split
  · exact ins
  · exact posUpdate_ins.trans ins

theorem posStep_does (n : Fin 8) (fwd : Bool) (t : Nat) (d : Dev) :
    (posStep n fwd t d).b (.pos n .stat) POS_STAT.LASTDIR = !(fwd != d.b (.pos n .ctl) POS_CTL.DIR) ∧
      ((posStep n fwd t d).get (.pos n .pos), (posStep n fwd t d).get (.pos n .rev)) =
        posCounted n (fwd != d.b (.pos n .ctl) POS_CTL.DIR) d := by
  obtain ⟨e, -, get, made⟩ := posStep_from n fwd t d
  have lastdir : e.b (.pos n .stat) POS_STAT.LASTDIR = !(fwd != d.b (.pos n .ctl) POS_CTL.DIR) := by
    rw [Dev.b, get _ (by simp)]
    exact (Dev.b_setB_apart _ _ (by decide) (by decide) (by decide) _).trans (Dev.b_setB _ _ (by decide) _)
  have counted : (e.get (.pos n .pos), e.get (.pos n .rev)) = posCounted n (fwd != d.b (.pos n .ctl) POS_CTL.DIR) d := by
    rw [get _ (by simp), get _ (by simp), ← posMove_counted]
    simp only [Dev.setB]
    rw [Dev.get_setF_ne _ (by simp), Dev.get_setF_ne _ (by simp), Dev.get_setF_ne _ (by simp), Dev.get_setF_ne _ (by simp)]
  rw [made]
  split
  · exact ⟨lastdir, counted⟩
  · have updated := posUpdate_updated n t (d.stamp t) d.ctv e
    rw [updated.stat _ (by decide) (by decide), updated.get _ (by simp) (by simp) (by simp), updated.get _ (by simp) (by simp) (by simp)]
    exact ⟨lastdir, counted⟩

/-! ### An illegal change, an index, a change that comes too soon -/

theorem posIllegal_pos : (posIllegal n d).pos[n] = { d.pos[n] with timed := false } := by
  refine (Dev.posU_pos_same ..).trans ?_
  rw [Dev.pulse_pos, Dev.raise_pos]
  rfl

theorem posIllegal_now : (posIllegal n d).now = d.now := by simp [posIllegal]

theorem posIllegal_ins : (posIllegal n d).posIns n = d.posIns n := Dev.posIns_eq posIllegal_now posIllegal_pos rfl rfl rfl rfl

theorem posIllegal_regs :
    (posIllegal n d).regs = ((d.flag (.pos n .stat) POS_STAT.ILLEGAL).bump (.pos n .cnt) POS_CNT.ILLEGAL_CNT).regs := by simp [posIllegal]

theorem posIllegal_does (n : Fin 8) (d : Dev) : (posIllegal n d).get (.pos n .pos) = d.get (.pos n .pos) ∧
    (posIllegal n d).b (.pos n .stat) POS_STAT.ILLEGAL = true ∧ 320 + n.val ∈ (posIllegal n d).fc.fresh := by
  rw [Dev.get_congr posIllegal_regs, Dev.b_congr posIllegal_regs]
  refine ⟨?_, (Dev.b_setF_ne _ (by simp) ..).trans (Dev.b_flag _ _ (by decide)), mem_insLine ..⟩
  exact (Dev.get_setF_ne _ (by simp) _ _).trans (Dev.get_setF_ne _ (by simp) _ _)

theorem posIndex_ins : (posIndex n d).posIns n = d.posIns n := by
  have flagged : ((d.flag (.pos n .stat) POS_STAT.INDEX).raise (456 + n.val)).posIns n = d.posIns n :=
    Dev.posIns_eq (by simp) (by rw [Dev.raise_pos]; rfl) rfl rfl rfl rfl
  unfold posIndex
  dsimp only
  split <;> exact flagged

theorem posMoved_ins {k t : Nat} : (posMoved n k t d).posIns n = d.posIns n := by
  unfold posMoved
  repeat' split
  · exact posStep_ins
  · exact posStep_ins
  · exact posIllegal_ins
  · rfl

theorem posRushed_ins {ill : Bool} {t : Nat} : (posRushed n ill t d).posIns n = d.posIns n := posMoved_ins.trans rfl

end

/-! ### A change that reaches an incremental channel -/

section
variable {n : Fin 8} {a b z : Bool} {t : Nat} {d : Dev}

/-- The quadrature inputs are the same as before. -/
def posSame (d : Dev) (n : Fin 8) (a b : Bool) : Bool := a == d.pos[n].a && b == d.pos[n].b

/-- How far the quadrature inputs have gone on in their cycle (R168). -/
def posCycle (d : Dev) (n : Fin 8) (a b : Bool) : Nat := (quadPos a b + 4 - quadPos d.pos[n].a d.pos[n].b) % 4

theorem posInput_counts (mode : posMode d n = 0) (level : z = d.pos[n].z) (slow : posRush d n t = false) :
    posInput n a b z t d = posMoved n (posCycle d n a b) t (posTaken n a b z (if posSame d n a b then d.pos[n].moved else some t) d) := by
  have rises : (z && !d.pos[n].z) = false := by rw [level, Bool.and_not_self]
  simp only [posInput, mode, slow, rises, Bool.and_false, Bool.false_and, Bool.false_eq_true, if_false]
  rfl

theorem posInput_rushed (mode : posMode d n = 0) (differs : a ≠ d.pos[n].a ∨ b ≠ d.pos[n].b) (rush : posRush d n t = true) :
    (posInput n a b z t d).posIns n = (d.now, a, b, z, some t) := by
  have differs : (a == d.pos[n].a && b == d.pos[n].b) = false := by
    rw [Bool.and_eq_false_iff, beq_eq_false_iff_ne, beq_eq_false_iff_ne]
    exact differs
  have taken : (posRushed n (posCycle d n a b == 2) t (posTaken n a b z (some t) d)).posIns n = (d.now, a, b, z, some t) :=
    posRushed_ins.trans posTaken_ins
  simp only [posInput, mode, differs, rush, Bool.not_false, Bool.and_true, Bool.false_eq_true, if_false, if_true]
  split
  · exact posIndex_ins.trans taken
  · exact taken

end

/-! ### POS_INPUT_CHANGE -/

/-- What the inputs taken show. -/
theorem takes_of_ins {n : Fin 8} {a b z : Bool} {now : Nat} {moved : Option Nat} {d : Dev} (h : d.posIns n = (now, a, b, z, moved)) :
    (settle d).pos[n].a = a ∧ (settle d).pos[n].b = b ∧ (settle d).pos[n].z = z ∧ (settle d).now = now := by
  simp only [Dev.posIns, Prod.mk.injEq] at h
  obtain ⟨hnow, ha, hb, hz, -⟩ := h
  rw [settle_pos, settle_now]
  exact ⟨ha, hb, hz, hnow⟩

section
variable {s : State} {n : Fin 8} {a b z : Bool} {t till : Nat} (up : Up s)
include up

theorem posInputChange_short (on : posOn s.toDev n = true) (short : till < posRunEnd s.toDev n t) :
    exec (.posInputChange n a b z (t, till)) s = after s s.toDev :=
  exec_of_board (f := posInputs n a b z t till) rfl up (by rw [posInputs, if_pos on, if_pos short]) (up.calm (le_refl _))

theorem posInputChange_off (off : posOn s.toDev n = false) (calm : Calm s t) : exec (.posInputChange n a b z (t, till)) s =
    after s ((s.toDev.at t).posU n fun x => { x with a := a, b := b, z := z }) :=
  exec_of_board (f := posInputs n a b z t till) rfl up (by rw [posInputs, off, if_neg Bool.false_ne_true]) (calm_max.2 calm)

variable (on : posOn s.toDev n = true) (held : posRunEnd s.toDev n t ≤ till) (calm : Calm s (posReady s.toDev n t))
include on held calm

/-- A change that its filter run lets through reaches the channel on the run's ready tick. -/
theorem posInputChange_of {P : Dev → Prop}
    (now : (posInput n a b z t (s.toDev.at (posReady s.toDev n t))).now = max s.now (posReady s.toDev n t))
    (h : P (settle (posInput n a b z t (s.toDev.at (posReady s.toDev n t))))) : Does (.posInputChange n a b z (t, till)) s P := by
  have made : posInputs n a b z t till s.toDev = posInput n a b z t (s.toDev.at (posReady s.toDev n t)) := by
    rw [posInputs, if_pos on, if_neg (Nat.not_lt.2 held)]
  refine .of_board (f := posInputs n a b z t till) rfl up ?_ (by rwa [made])
  rw [made, now]
  exact calm_max.2 calm

end

end Sys2Proof.Machine
end

section
/-!
SUPPORT. The clauses of POS_INPUT_CHANGE where its change reaches the channel (R168-R170, R174).
-/
set_option Elab.async false
namespace Sys2Proof.Machine
open Sys2Proof

/-! ### Counts -/

/-- One count takes the position and the turn count from p and r to p' and r' (R170). -/
structure PosCounts (cpr : Nat) (up : Bool) (p : Nat) (r : Word) (p' r' : Word) : Prop where
  upWrap : up = true → p + 1 = cpr → p' = 0 ∧ r' = r + 1
  upStep : up = true → p + 1 ≠ cpr → p' = w32 (p + 1) ∧ r' = r
  downWrap : up = false → p = 0 → p' = w32 (cpr - 1) ∧ r' = r - 1
  downStep : up = false → p ≠ 0 → p' = w32 (p - 1) ∧ r' = r

theorem posCounted_counts {n : Fin 8} {up : Bool} {d : Dev} {p' r' : Word} (h : (p', r') = posCounted n up d) :
    PosCounts (posCpr d n) up (d.get (.pos n .pos)).toNat (d.get (.pos n .rev)) p' r' := by
  refine ⟨fun u w => ?_, fun u w => ?_, fun u w => ?_, fun u w => ?_⟩
  all_goals
    simp only [posCounted, u, w, Bool.false_eq_true, if_true, if_false] at h
    exact Prod.mk.inj h

theorem posMoved_step {n : Fin 8} {k t : Nat} {d : Dev} (h : k = 1 ∨ k = 3) : posMoved n k t d = posStep n (k == 1) t d := by
  rcases h with rfl | rfl <;> rfl

/-! ### SLO of a serial channel -/

theorem posInput_biss {n : Fin 8} {a b z : Bool} {t : Nat} {d : Dev} (mode : posMode d n = 3) (differs : (a != d.pos[n].a) = true) :
    posInput n a b z t d = posSlo n a (posReady d n t) (posTaken n a b z d.pos[n].moved d) := by
  simp only [posInput, mode, differs, if_true]
  rfl

/-- The start transition of SLO: its delay behind the clock edge before it is taken (R174). -/
theorem posSlo_start {d : Dev} {ts start stamp tr : Nat} {tv : Bool} (frame : d.pos[n].frame = .shifting ts start tv stamp)
    (low : d.pos[n].low = true) (none : d.pos[n].slo = none) {k y : Nat}
    (hk : k = ((tr - start - 1) / (posHalf d n * tuTick) - 1) / 2)
    (hy : y = (tr - (start + (2 * k + 1) * (posHalf d n * tuTick))) / tuTick)
    (edge : start + posHalf d n * tuTick < tr) (range : y ≤ 4095) :
    posSlo n true tr d = (d.posU n fun p => { p with slo := some (k, y), undef := p.undef || false }).setF (.pos n .sdly) POS_SDLY.DELAY y := by
  have half : 0 < posHalf d n * tuTick := Nat.mul_pos (Nat.succ_pos _) (by decide)
  have edges : ((tr - start - 1) / (posHalf d n * tuTick) == 0) = false := by
    rw [beq_eq_false_iff_ne]
    exact Nat.ne_of_gt (Nat.div_pos (by omega) half)
  have inside : decide (4095 < y) = false := decide_eq_false (by omega)
  rw [hy, hk] at inside
  simp only [posSlo, frame, low, none, edges, inside, Bool.not_true, Bool.false_eq_true, Bool.and_self, Option.isNone_none, Bool.or_self,
    if_false, if_true, hk, hy]

/-! ### The clauses -/

section
variable {s : State} {n : Fin 8} {a b z : Bool} {t till : Nat} (up : Up s) (on : posOn s.toDev n = true)
  (held : posRunEnd s.toDev n t ≤ till) (calm : Calm s (posReady s.toDev n t))
include up on held calm

section
variable (mode : s.f (.pos n .ctl) POS_CTL.MODE = 0)
include mode

/-- A step counts the position and shows its direction, and an illegal change shows and fails. -/
theorem posInputChange_counts (level : z = s.pos[n].z) (slow : posRush s.toDev n t = false) {fwd : Bool}
    (dir : fwd = ((posCycle s.toDev n a b == 1) != s.b (.pos n .ctl) POS_CTL.DIR)) : Does (.posInputChange n a b z (t, till)) s fun u =>
      (u.pos[n].a = a ∧ u.pos[n].b = b ∧ u.pos[n].z = z ∧ u.now = max s.now (posReady s.toDev n t)) ∧
      (posCycle s.toDev n a b = 0 → u.get (.pos n .pos) = s.get (.pos n .pos) ∧ u.get (.pos n .rev) = s.get (.pos n .rev)) ∧
      (posCycle s.toDev n a b = 1 ∨ posCycle s.toDev n a b = 3 → u.b (.pos n .stat) POS_STAT.LASTDIR = !fwd ∧
        PosCounts (posCpr s.toDev n) fwd (s.get (.pos n .pos)).toNat (s.get (.pos n .rev)) (u.get (.pos n .pos)) (u.get (.pos n .rev))) ∧
      (posCycle s.toDev n a b = 2 → u.get (.pos n .pos) = s.get (.pos n .pos) ∧ u.b (.pos n .stat) POS_STAT.ILLEGAL = true ∧
        320 + n.val ∈ u.fc.fresh) := by
  obtain ⟨x, hx⟩ : ∃ x, x = posTaken n a b z (if posSame s.toDev n a b then s.pos[n].moved else some t)
      (s.toDev.at (posReady s.toDev n t)) := ⟨_, rfl⟩
  obtain ⟨k, hk⟩ : ∃ k, k = posCycle s.toDev n a b := ⟨_, rfl⟩
  have made : posInput n a b z t (s.toDev.at (posReady s.toDev n t)) = posMoved n k t x := by
    rw [hx, hk]
    exact posInput_counts (d := s.toDev.at (posReady s.toDev n t)) mode level slow
  have regs : x.regs = s.regs := by rw [hx]; rfl
  have ins : (posMoved n k t x).posIns n = (max s.now (posReady s.toDev n t), a, b, z, if posSame s.toDev n a b then s.pos[n].moved else some t) := by
    rw [posMoved_ins, hx]
    exact posTaken_ins
  refine posInputChange_of up on held calm ?_ ?_
  · rw [made]
    exact congrArg Prod.fst ins
  · rw [made, ← hk]
    refine ⟨takes_of_ins ins, fun none => ?_, fun steps => ?_, fun illegal => ?_⟩
    · rw [settle_get, settle_get, none]
      exact ⟨Dev.get_congr regs _, Dev.get_congr regs _⟩
    · have moved : posMoved n k t x = posStep n (k == 1) t x := posMoved_step steps
      have fwd' : ((k == 1) != x.b (.pos n .ctl) POS_CTL.DIR) = fwd := by rw [Dev.b_congr regs, dir, hk]
      obtain ⟨lastdir, counted⟩ := posStep_does n (k == 1) t x
      rw [fwd'] at lastdir counted
      have counts := posCounted_counts counted
      rw [posCpr, Dev.get_congr regs, Dev.get_congr regs, Dev.get_congr regs] at counts
      rw [settle_b, settle_get, settle_get, moved]
      exact ⟨lastdir, counts⟩
    · have moved : posMoved n k t x = posIllegal n x := by rw [illegal]; rfl
      obtain ⟨pos, flag, fresh⟩ := posIllegal_does n x
      rw [settle_get, settle_b, settle_fc, moved, pos]
      exact ⟨Dev.get_congr regs _, flag, fresh⟩

theorem posInputChange_rushed (differs : a ≠ s.pos[n].a ∨ b ≠ s.pos[n].b) (rush : posRush s.toDev n t = true) :
    Does (.posInputChange n a b z (t, till)) s fun u =>
      (u.pos[n].a = a ∧ u.pos[n].b = b ∧ u.pos[n].z = z ∧ u.now = max s.now (posReady s.toDev n t)) ∧ u.pos[n].moved = some t := by
  have ins := posInput_rushed (z := z) (d := s.toDev.at (posReady s.toDev n t)) mode differs rush
  refine posInputChange_of up on held calm (congrArg Prod.fst ins) ⟨takes_of_ins ins, ?_⟩
  rw [settle_pos]
  exact congrArg (·.2.2.2.2) ins

end

theorem posInputChange_slo (mode : s.f (.pos n .ctl) POS_CTL.MODE = 3) (rises : a = true) (was : s.pos[n].a = false)
    (low : s.pos[n].low = true) (none : s.pos[n].slo = none) {ts start stamp : Nat} {tv : Bool}
    (frame : s.pos[n].frame = .shifting ts start tv stamp) {k y : Nat}
    (hk : k = ((posReady s.toDev n t - start - 1) / (posHalf s.toDev n * tuTick) - 1) / 2)
    (hy : y = (posReady s.toDev n t - (start + (2 * k + 1) * (posHalf s.toDev n * tuTick))) / tuTick)
    (edge : start + posHalf s.toDev n * tuTick < posReady s.toDev n t) (range : y ≤ 4095) :
    Does (.posInputChange n a b z (t, till)) s fun u =>
      (u.pos[n].a = a ∧ u.pos[n].b = b ∧ u.pos[n].z = z ∧ u.now = max s.now (posReady s.toDev n t)) ∧
      u.pos[n].slo = some (k, y) ∧ u.f (.pos n .sdly) POS_SDLY.DELAY = y := by
  obtain ⟨x, hx⟩ : ∃ x, x = posTaken n a b z s.pos[n].moved (s.toDev.at (posReady s.toDev n t)) := ⟨_, rfl⟩
  have st : x.pos[n] = { s.pos[n] with a, b, z, moved := s.pos[n].moved } := by rw [hx]; exact posTaken_pos
  have made : posInput n a b z t (s.toDev.at (posReady s.toDev n t)) = posSlo n true (posReady s.toDev n t) x := by
    rw [hx, rises]
    exact posInput_biss (d := s.toDev.at (posReady s.toDev n t)) mode (congrArg (true != ·) was)
  have half : posHalf x n = posHalf s.toDev n := by rw [hx]; rfl
  have slo := posSlo_start (tr := posReady s.toDev n t) (k := k) (y := y) (by rw [st]; exact frame) (by rw [st]; exact low) (by rw [st]; exact none)
    (by rw [half]; exact hk) (by rw [half]; exact hy) (by rw [half]; exact edge) range
  rw [slo] at made
  have now : x.now = max s.now (posReady s.toDev n t) := by rw [hx]; rfl
  refine posInputChange_of up on held calm (by rw [made]; exact now) ?_
  rw [made, settle_pos, settle_now, settle_f, Dev.f_setF _ _ (by decide), Dev.setF_pos, Dev.posU_pos_same, st]
  exact ⟨⟨rfl, rfl, rfl, now⟩, rfl, Nat.mod_eq_of_lt (Nat.lt_succ_of_le range)⟩

end

end Sys2Proof.Machine
end

section
/-!
SUPPORT. Serial frames (R174-R177, R179): what ends one, what a failed one leaves, and what a valid one updates.
-/
set_option Elab.async false
namespace Sys2Proof.Machine
open Sys2Proof

/-! ### Flags stay set -/

theorem Fld.bit_put_one_of_set {f g : Fld} (hf : f.ok = true) (single : g.hi = g.lo) {w : Word} (set : f.bit w = true) :
    f.bit (g.put 1 w) = true := by
  simp only [Fld.ok, decide_eq_true_eq] at hf
  have inside : f.lo < 32 := by omega
  have width : g.width = 1 := by simp only [Fld.width, single]; omega
  rw [Fld.bit, Fld.getLsbD_put, decide_eq_true inside, Bool.true_and, width]
  split
  · next at_ =>
    have same : f.lo - g.lo = 0 := by omega
    rw [same]
    rfl
  · exact set

theorem Dev.b_flag_of_set {d : Dev} {r q : Reg} {f g : Fld} (hf : f.ok = true) (single : g.hi = g.lo) (set : d.b q f = true) :
    (d.flag r g).b q f = true := by
  by_cases e : q = r
  · subst e
    rw [Dev.b, Dev.flag, Dev.setB, Dev.setF, Dev.get_put_same]
    exact Fld.bit_put_one_of_set hf single set
  · rwa [Dev.flag, Dev.setB, Dev.b_setF_ne d e]

/-! ### A frame fails -/

/-- The flags of a frame's errors. -/
def posErrs : List Fld := [POS_STAT.ERR_FORMAT, POS_STAT.ERR_CRC, POS_STAT.ERR_ENC, POS_STAT.ERR_TIMEOUT]

theorem posErrs_single {f : Fld} (h : f ∈ posErrs) : f.ok = true ∧ f.hi = f.lo ∧ POS_STAT.SHIFT.apart f = true := by
  revert f
  decide

/-- A frame of channel n has failed: its errors show, and its error line is asserted. -/
structure PosFailed (n : Fin 8) (fls : List Fld) (d e : Dev) : Prop where
  now : e.now = d.now
  st : e.pos = d.pos
  get : ∀ r, r ≠ .stat → r ≠ .cnt → e.get (.pos n r) = d.get (.pos n r)
  set : ∀ f ∈ fls, e.b (.pos n .stat) f = true
  kept : ∀ f, f.ok = true → d.b (.pos n .stat) f = true → e.b (.pos n .stat) f = true
  shift : e.b (.pos n .stat) POS_STAT.SHIFT = d.b (.pos n .stat) POS_STAT.SHIFT
  fresh : 320 + n.val ∈ e.fc.fresh

/-- The flags of a list are set. -/
def posFlagged (n : Fin 8) (fls : List Fld) (d : Dev) : Dev := d.each fls fun fl x => x.flag (.pos n .stat) fl

section
variable {n : Fin 8} {fls : List Fld} {d : Dev}

theorem posFlagged_kept (h : ∀ f ∈ fls, f ∈ posErrs) {f : Fld} (hf : f.ok = true) (set : d.b (.pos n .stat) f = true) :
    (posFlagged n fls d).b (.pos n .stat) f = true :=
  Dev.each_inv (p := fun x => x.b (.pos n .stat) f = true) (fun g hg _ set => Dev.b_flag_of_set hf (posErrs_single (h g hg)).2.1 set) set

theorem posFlagged_set (h : ∀ f ∈ fls, f ∈ posErrs) {f : Fld} (hf : f ∈ fls) : (posFlagged n fls d).b (.pos n .stat) f = true := by
  induction fls generalizing d with
  | nil => cases hf
  | cons g fls ih =>
    have rest : ∀ f ∈ fls, f ∈ posErrs := fun k hk => h k (by simp [hk])
    rcases List.mem_cons.1 hf with rfl | later
    · have ok := (posErrs_single (h f (by simp))).1
      exact posFlagged_kept rest ok (Dev.b_flag d _ ok)
    · exact ih rest later

theorem posFlagged_shift (h : ∀ f ∈ fls, f ∈ posErrs) :
    (posFlagged n fls d).b (.pos n .stat) POS_STAT.SHIFT = d.b (.pos n .stat) POS_STAT.SHIFT :=
  Dev.each_kept (π := fun x => x.b (.pos n .stat) POS_STAT.SHIFT) (fun g hg x => by
    obtain ⟨ok, -, apart⟩ := posErrs_single (h g hg)
    exact Dev.b_setB_apart x _ (by decide) ok apart true) d

theorem posFrameErr_failed (h : ∀ f ∈ fls, f ∈ posErrs) : PosFailed n fls d (posFrameErr n fls d) := by
  have regs : (posFrameErr n fls d).regs = ((posFlagged n fls d).bump (.pos n .cnt) POS_CNT.ERR_CNT).regs := Dev.raise_regs ..
  have stat (f : Fld) : (posFrameErr n fls d).b (.pos n .stat) f = (posFlagged n fls d).b (.pos n .stat) f :=
    (Dev.b_congr regs ..).trans (Dev.b_setF_ne _ (by simp) ..)
  have now : (posFlagged n fls d).now = d.now := Dev.each_kept (π := Dev.now) (f := fun fl x => x.flag (.pos n .stat) fl) (fun _ _ _ => rfl) d
  have st : (posFlagged n fls d).pos = d.pos := Dev.each_kept (π := Dev.pos) (f := fun fl x => x.flag (.pos n .stat) fl) (fun _ _ _ => rfl) d
  refine ⟨(Dev.raise_now ..).trans now, (Dev.raise_pos ..).trans st, fun r hs hc => ?_, fun f hf => (stat f).trans (posFlagged_set h hf),
    fun f hf set => (stat f).trans (posFlagged_kept h hf set), (stat _).trans (posFlagged_shift h), ?_⟩
  · rw [Dev.get_congr regs]
    refine (Dev.get_setF_ne _ (by simp [hc]) _ _).trans ?_
    exact Dev.each_kept (π := fun x => x.get (.pos n r)) (fun _ _ x => Dev.get_setF_ne x (by simp [hs]) _ _) d
  · rw [posFrameErr, Dev.raise_fc]
    exact mem_insLine ..

/-! ### A frame ends -/

theorem posFrameEnd_pos : (posFrameEnd n d).pos[n] = { d.pos[n] with frame := .idle, undef := false, low := false, slo := none } :=
  (congrArg (·[n]) (Dev.setB_pos ..)).trans (Dev.posU_pos_same ..)

theorem posFrameEnd_get {r : PosReg} (h : r ≠ .stat) : (posFrameEnd n d).get (.pos n r) = d.get (.pos n r) :=
  Dev.get_setF_ne _ (by simp [h]) _ _

theorem posFrameEnd_stat {f : Fld} (ok : f.ok = true) (apart : f.apart POS_STAT.SHIFT = true) :
    (posFrameEnd n d).b (.pos n .stat) f = d.b (.pos n .stat) f := Dev.b_setB_apart _ _ ok (by decide) apart false

theorem posFrameEnd_shift : (posFrameEnd n d).b (.pos n .stat) POS_STAT.SHIFT = false := Dev.b_setB _ _ (by decide) false

/-- A frame that has timed out (R177). -/
theorem posFrameLate_does (n : Fin 8) (ts : Nat) (d : Dev) : (posFrameLate n ts d).now = max d.now (ts + posTimeout d n) ∧
    (posFrameLate n ts d).pos[n].frame = .idle ∧ (posFrameLate n ts d).b (.pos n .stat) POS_STAT.SHIFT = false ∧
    (posFrameLate n ts d).b (.pos n .stat) POS_STAT.ERR_TIMEOUT = true ∧
    (posFrameLate n ts d).get (.pos n .pos) = d.get (.pos n .pos) ∧ 320 + n.val ∈ (posFrameLate n ts d).fc.fresh := by
  have failed := posFrameErr_failed (n := n) (fls := [POS_STAT.ERR_TIMEOUT]) (d := d.at (ts + posTimeout d n)) (by decide)
  rw [posFrameLate, posFrameEnd_shift, posFrameEnd_stat (by decide) (by decide), posFrameEnd_get (by simp), posFrameEnd_pos,
    failed.get _ (by simp) (by simp)]
  exact ⟨failed.now, rfl, rfl, failed.set _ (by simp), rfl, failed.fresh⟩

/-! ### A frame is valid -/

/-- A frame of a binary position: the position is taken, and an update follows (R176). -/
theorem posFrameGood_does {raw start stamp : Nat} {tv : Bool} (binary : d.b (.pos n .scfg) POS_SCFG.GRAY = false) :
    ∃ e : Dev, e.now = d.now ∧ e.pos[n] = { d.pos[n] with lastFr := some start } ∧
      e.get (.pos n .pos) = w32 (raw % 2 ^ min (len64 (d.f (.pos n .scfg) POS_SCFG.STBITS)) (posDlen d n) % posCpr d n) ∧
      (∀ r, r ≠ .pos → r ≠ .rev → r ≠ .spd → e.get (.pos n r) = d.get (.pos n r)) ∧
      posFrameGood n raw start stamp tv d = posUpdate n start stamp tv e := by
  unfold posFrameGood
  extract_lets p dl stb v cpr pos rev posN half delta revN turns dc spd d1
  have hv : v = raw := by simp only [v, binary, Bool.false_eq_true, if_false]
  have hpos : posN = raw % 2 ^ min (len64 (d.f (.pos n .scfg) POS_SCFG.STBITS)) (posDlen d n) % posCpr d n := by simp only [posN, hv]; rfl
  clear_value posN spd revN
  refine ⟨d1.posU n fun p => { p with lastFr := some start }, rfl, Dev.posU_pos_same .., ?_, fun r hp hr hs => ?_, rfl⟩
  · rw [← hpos]
    refine (Dev.get_put_ne _ (by simp) _).trans ((Dev.get_put_ne _ (by simp) _).trans (Dev.get_put_same ..))
  · refine (Dev.get_put_ne _ (by simp [hs]) _).trans ((Dev.get_put_ne _ (by simp [hr]) _).trans (Dev.get_put_ne _ (by simp [hp]) _))

/-! ### A frame is checked -/

/-- What the check of a frame leaves before its value is used or refused (R174, R175). -/
def posChecked (n : Fin 8) (raw : Nat) (enc warn : Bool) (d : Dev) : Dev :=
  ((posFrameEnd n ((d.put (.pos n .srawl) (w32 (raw % 2 ^ 32))).put (.pos n .srawh) (w32 (raw / 2 ^ 32)))).flagIf enc (.pos n .stat)
    POS_STAT.ERR_ENC).flagIf warn (.pos n .stat) POS_STAT.WARN

section
variable {raw : Nat} {enc warn : Bool}

theorem posChecked_now : (posChecked n raw enc warn d).now = d.now := by simp [posChecked, posFrameEnd]

theorem posChecked_pos : (posChecked n raw enc warn d).pos[n] = { d.pos[n] with frame := .idle, undef := false, low := false, slo := none } := by
  rw [posChecked, Dev.flagIf_pos, Dev.flagIf_pos]
  exact posFrameEnd_pos

theorem posChecked_raw {r : PosReg} (h : r ≠ .stat) : (posChecked n raw enc warn d).get (.pos n r) =
    ((d.put (.pos n .srawl) (w32 (raw % 2 ^ 32))).put (.pos n .srawh) (w32 (raw / 2 ^ 32))).get (.pos n r) := by
  rw [posChecked, Dev.get_flagIf_ne _ (by simp [h]), Dev.get_flagIf_ne _ (by simp [h]), posFrameEnd_get h]

theorem posChecked_get {r : PosReg} (h : r ≠ .stat) (hl : r ≠ .srawl) (hh : r ≠ .srawh) :
    (posChecked n raw enc warn d).get (.pos n r) = d.get (.pos n r) := by
  rw [posChecked_raw h, Dev.get_put_ne _ (by simp [hh]), Dev.get_put_ne _ (by simp [hl])]

theorem posChecked_srawl : (posChecked n raw enc warn d).get (.pos n .srawl) = w32 (raw % 2 ^ 32) := by
  rw [posChecked_raw (by simp), Dev.get_put_ne _ (by simp), Dev.get_put_same]

theorem posChecked_shift : (posChecked n raw enc warn d).b (.pos n .stat) POS_STAT.SHIFT = false := by
  rw [posChecked, Dev.b_flagIf_other _ (by decide) (by decide) (by decide), Dev.b_flagIf_other _ (by decide) (by decide) (by decide)]
  exact posFrameEnd_shift

theorem posChecked_enc (h : enc = true) : (posChecked n raw enc warn d).b (.pos n .stat) POS_STAT.ERR_ENC = true := by
  subst h
  rw [posChecked, Dev.b_flagIf_other _ (by decide) (by decide) (by decide)]
  exact Dev.b_flag _ _ (by decide)

theorem posChecked_warn (h : warn = true) : (posChecked n raw enc warn d).b (.pos n .stat) POS_STAT.WARN = true := by
  subst h
  exact Dev.b_flag _ _ (by decide)

end

theorem posFrameBad_errs {data : Nat} {cds nE nW : Bool} {crc : BitVec 6} {par : Bool} :
    ∀ f ∈ posFrameBad d n data cds nE nW crc par, f ∈ posErrs := by
  intro f hf
  simp only [posFrameBad] at hf
  simp only [posErrs, List.mem_cons, List.not_mem_nil, or_false]
  split at hf
  · rw [List.mem_append, List.mem_append, List.mem_ite_nil_right, List.mem_ite_nil_right, List.mem_ite_nil_right, List.mem_singleton,
      List.mem_singleton, List.mem_singleton] at hf
    rcases hf with (⟨-, hf⟩ | ⟨-, hf⟩) | ⟨-, hf⟩
    · exact .inl hf
    · exact .inr (.inl hf)
    · exact .inr (.inr (.inl hf))
  · rw [List.mem_ite_nil_right, List.mem_singleton] at hf
    exact .inr (.inl hf.2)

section
variable {ts start stamp last data : Nat} {tv cds nE nW : Bool} {crc : BitVec 6} {par : Bool}
  (frame : d.pos[n].frame = .shifting ts start tv stamp) (on : posOn d n = true) (sampled : posLastSample d n start = some last)
include frame on sampled

theorem posFrameCheck_late (late : ts + posTimeout d n < last) : posFrameCheck n data cds nE nW crc par d = posFrameLate n ts d := by
  simp only [posFrameCheck, frame, on, sampled, Bool.not_true, Bool.false_eq_true, if_false, if_pos late]

/-- A frame received in time is used or refused. -/
theorem posFrameCheck_timely (timely : last ≤ ts + posTimeout d n) (defined_ : d.pos[n].undef = false) {e : Dev}
    (he : e = posChecked n (data % 2 ^ posDlen d n) (decide (posMode d n = 3) && !nE) (decide (posMode d n = 3) && !nW)
      (d.at (last + 2 * tuTick))) : posFrameCheck n data cds nE nW crc par d =
    if (posFrameBad d n data cds nE nW crc par).isEmpty then posFrameGood n (data % 2 ^ posDlen d n) start stamp tv e
    else posFrameErr n (posFrameBad d n data cds nE nW crc par) e := by
  subst he
  simp only [posFrameCheck, frame, on, sampled, defined_, Bool.not_true, Bool.false_eq_true, if_false, if_neg (Nat.not_lt.2 timely)]
  rfl

end

end

end Sys2Proof.Machine
end

section
/-!
SUPPORT. POS_FRAME_START, POS_FRAME_CHECK and POS_FRAME_TIMEOUT (R174-R177).
-/
set_option Elab.async false
namespace Sys2Proof.Machine
open Sys2Proof

section
variable {s : State} {n : Fin 8} (up : Up s)
include up

/-! ### POS_FRAME_START -/

theorem posFrameStart_none {t : Nat} (idle : s.pos[n].frame = .idle) : exec (.posFrameStart n t) s = after s s.toDev :=
  exec_of_act (f := posFrameStart n t) rfl up (by simp only [posFrameStart, idle]) (up.calm (le_refl _))

theorem posFrameStart_does {ts t : Nat} (waits : s.pos[n].frame = .waiting ts) (on : posOn s.toDev n = true)
    (calm : Calm s (tickUp (tbB s.toDev (posTb s.toDev n)) (max ts (max t s.now)))) : Does (.posFrameStart n t) s fun u =>
      u.pos[n].frame = .shifting ts (tickUp (tbB s.toDev (posTb s.toDev n)) (max ts (max t s.now))) s.ctv
        (s.stamp (tickUp (tbB s.toDev (posTb s.toDev n)) (max ts (max t s.now)))) ∧
      u.now = max s.now (tickUp (tbB s.toDev (posTb s.toDev n)) (max ts (max t s.now))) := by
  obtain ⟨start, hs⟩ : ∃ start, start = tickUp (tbB s.toDev (posTb s.toDev n)) (max ts (max t s.now)) := ⟨_, rfl⟩
  have made : posFrameStart n t s.toDev = (s.toDev.at start).posU n fun p =>
      { p with frame := .shifting ts start s.ctv (s.stamp start), low := !p.a, slo := none } := by
    simp only [posFrameStart, waits, on, if_true, hs]
  rw [← hs] at calm ⊢
  refine .of_act (f := posFrameStart n t) rfl up (by rw [made]; exact calm_max.2 calm) ?_
  rw [made, settle_pos, settle_now, Dev.posU_pos_same]
  exact ⟨rfl, rfl⟩

/-! ### POS_FRAME_TIMEOUT -/

theorem posFrameTimeout_none (idle : s.pos[n].frame = .idle) : exec (.posFrameTimeout n) s = after s s.toDev :=
  exec_of_act (f := posLate n) rfl up (by simp only [posLate, idle]) (up.calm (le_refl _))

theorem posFrameTimeout_timely {ts start stamp last : Nat} {tv : Bool} (frame : s.pos[n].frame = .shifting ts start tv stamp)
    (sampled : posLastSample s.toDev n start = some last) (timely : last ≤ ts + posTimeout s.toDev n) :
    exec (.posFrameTimeout n) s = after s s.toDev := by
  refine exec_of_act (f := posLate n) rfl up ?_ (up.calm (le_refl _))
  simp only [posLate, frame, sampled, Option.any_some, decide_eq_true timely, if_true]

theorem posFrameTimeout_does {ts : Nat} (open_ : s.pos[n].frame = .waiting ts ∨ ∃ start tv stamp, s.pos[n].frame = .shifting ts start tv stamp ∧
      ∀ last, posLastSample s.toDev n start = some last → ts + posTimeout s.toDev n < last) (calm : Calm s (ts + posTimeout s.toDev n)) :
    Does (.posFrameTimeout n) s fun t => t.pos[n].frame = .idle ∧ t.b (.pos n .stat) POS_STAT.SHIFT = false ∧
      t.b (.pos n .stat) POS_STAT.ERR_TIMEOUT = true ∧ t.now = max s.now (ts + posTimeout s.toDev n) ∧ 320 + n.val ∈ t.fc.fresh := by
  have made : posLate n s.toDev = posFrameLate n ts s.toDev := by
    rcases open_ with waits | ⟨start, tv, stamp, frame, late⟩
    · simp only [posLate, waits]
    · have late : (posLastSample s.toDev n start).any (decide <| · ≤ ts + posTimeout s.toDev n) = false := by
        rw [Option.any_eq_false_iff_get]
        intro h
        exact decide_eq_false (Nat.not_le.2 (late _ (Option.some_get h).symm))
      simp only [posLate, frame, late, Bool.false_eq_true, if_false]
  obtain ⟨now, idle, shift, err, -, fresh⟩ := posFrameLate_does n ts s.toDev
  refine .of_act (f := posLate n) rfl up (by rw [made, now]; exact calm_max.2 calm) ?_
  rw [made, settle_pos, settle_b, settle_b, settle_now, settle_fc, now]
  exact ⟨idle, shift, err, rfl, fresh⟩

/-! ### POS_FRAME_CHECK -/

section
variable {ts start stamp : Nat} {tv cds nE nW par : Bool} {hi lo : Word} {crc : BitVec 6}
  (frame : s.pos[n].frame = .shifting ts start tv stamp) (on : posOn s.toDev n = true)
include frame on

theorem posFrameCheck_none (none : posLastSample s.toDev n start = none) :
    exec (.posFrameCheck n hi lo cds nE nW crc par) s = after s s.toDev := by
  refine exec_of_act (f := posFrameCheck n (hi.toNat * 2 ^ 32 + lo.toNat) cds nE nW crc par) rfl up ?_ (up.calm (le_refl _))
  simp only [posFrameCheck, frame, on, none, Bool.not_true, Bool.false_eq_true, if_false]

variable {last : Nat} (sampled : posLastSample s.toDev n start = some last)
include sampled

theorem posFrameCheck_timesOut (late : ts + posTimeout s.toDev n < last) (calm : Calm s (ts + posTimeout s.toDev n)) :
    Does (.posFrameCheck n hi lo cds nE nW crc par) s fun t =>
      (t.pos[n].frame = .idle ∧ t.b (.pos n .stat) POS_STAT.SHIFT = false) ∧ t.b (.pos n .stat) POS_STAT.ERR_TIMEOUT = true ∧
      t.get (.pos n .pos) = s.get (.pos n .pos) ∧ 320 + n.val ∈ t.fc.fresh := by
  have made := posFrameCheck_late (data := hi.toNat * 2 ^ 32 + lo.toNat) (cds := cds) (nE := nE) (nW := nW) (crc := crc) (par := par)
    (d := s.toDev) frame on sampled late
  obtain ⟨now, idle, shift, err, pos, fresh⟩ := posFrameLate_does n ts s.toDev
  refine .of_act (f := posFrameCheck n (hi.toNat * 2 ^ 32 + lo.toNat) cds nE nW crc par) rfl up
    (by rw [made, now]; exact calm_max.2 calm) ?_
  rw [made, settle_pos, settle_b, settle_b, settle_get, settle_fc]
  exact ⟨⟨idle, shift⟩, err, pos, fresh⟩

variable (timely : last ≤ ts + posTimeout s.toDev n) (defined_ : s.pos[n].undef = false) (calm : Calm s (last + 2 * tuTick))
include timely defined_ calm

theorem posFrameCheck_valid (valid : posFrameBad s.toDev n (hi.toNat * 2 ^ 32 + lo.toNat) cds nE nW crc par = [])
    (binary : s.b (.pos n .scfg) POS_SCFG.GRAY = false) {raw : Nat}
    (hraw : raw = (hi.toNat * 2 ^ 32 + lo.toNat) % 2 ^ posDlen s.toDev n) : Does (.posFrameCheck n hi lo cds nE nW crc par) s fun t =>
      (t.pos[n].frame = .idle ∧ t.b (.pos n .stat) POS_STAT.SHIFT = false) ∧ t.now = max s.now (last + 2 * tuTick) ∧
      t.get (.pos n .pos) = w32 (raw % 2 ^ min (len64 (s.f (.pos n .scfg) POS_SCFG.STBITS)) (posDlen s.toDev n) % posCpr s.toDev n) ∧
      t.get (.pos n .srawl) = w32 (raw % 2 ^ 32) ∧ t.get (.pos n .upos) = t.get (.pos n .pos) ∧ t.pos[n].upd.ts = stamp := by
  obtain ⟨x, hx⟩ : ∃ x, x = posChecked n raw (decide (posMode s.toDev n = 3) && !nE) (decide (posMode s.toDev n = 3) && !nW)
      (s.toDev.at (last + 2 * tuTick)) := ⟨_, rfl⟩
  have same {r : PosReg} (h : r ≠ .stat) (hl : r ≠ .srawl) (hh : r ≠ .srawh) : x.get (.pos n r) = s.get (.pos n r) := by
    rw [hx]
    exact posChecked_get h hl hh
  obtain ⟨e, now, st, pos, get, good⟩ := posFrameGood_does (n := n) (raw := raw) (start := start) (stamp := stamp) (tv := tv) (d := x)
    (by rw [Dev.b, same (by simp) (by simp) (by simp)]; exact binary)
  have made : posFrameCheck n (hi.toNat * 2 ^ 32 + lo.toNat) cds nE nW crc par s.toDev = posUpdate n start stamp tv e := by
    rw [posFrameCheck_timely frame on sampled timely defined_ (hx.trans (by rw [hraw])), valid, ← hraw, ← good]
    rfl
  have updated := posUpdate_updated n start stamp tv e
  obtain ⟨u, hts, hu⟩ := updated.st
  have now' : (posUpdate n start stamp tv e).now = max s.now (last + 2 * tuTick) := by
    rw [Dev.now_of_tbs updated.tbs, now, hx, posChecked_now]
    rfl
  have shift : (posUpdate n start stamp tv e).b (.pos n .stat) POS_STAT.SHIFT = false := by
    rw [updated.stat _ (by decide) (by decide), Dev.b, get _ (by simp) (by simp) (by simp), hx]
    exact posChecked_shift
  have idle : (posUpdate n start stamp tv e).pos[n].frame = .idle := by
    rw [hu, st, hx, posChecked_pos]
  refine .of_act (f := posFrameCheck n (hi.toNat * 2 ^ 32 + lo.toNat) cds nE nW crc par) rfl up
    (by rw [made, now']; exact calm_max.2 calm) ?_
  rw [made, settle_pos, settle_b, settle_now, settle_get, settle_get, settle_get, updated.upos]
  rw [updated.get .pos (by simp) (by simp) (by simp), updated.get .srawl (by simp) (by simp) (by simp)]
  refine ⟨⟨idle, shift⟩, now', ?_, ?_, rfl, by rw [hu]; exact hts⟩
  · rw [pos, Dev.f, posDlen, Dev.f, posCpr, same (by simp) (by simp) (by simp), same (by simp) (by simp) (by simp)]
    rfl
  · rw [get _ (by simp) (by simp) (by simp), hx, posChecked_srawl]

theorem posFrameCheck_refused (bad : posFrameBad s.toDev n (hi.toNat * 2 ^ 32 + lo.toNat) cds nE nW crc par ≠ []) :
    Does (.posFrameCheck n hi lo cds nE nW crc par) s fun t =>
      (t.pos[n].frame = .idle ∧ t.b (.pos n .stat) POS_STAT.SHIFT = false) ∧
      (∀ fl ∈ posFrameBad s.toDev n (hi.toNat * 2 ^ 32 + lo.toNat) cds nE nW crc par, t.b (.pos n .stat) fl = true) ∧
      (s.f (.pos n .ctl) POS_CTL.MODE = 3 → nE = false → t.b (.pos n .stat) POS_STAT.ERR_ENC = true) ∧
      (s.f (.pos n .ctl) POS_CTL.MODE = 3 → nW = false → t.b (.pos n .stat) POS_STAT.WARN = true) ∧
      t.get (.pos n .pos) = s.get (.pos n .pos) ∧ 320 + n.val ∈ t.fc.fresh := by
  obtain ⟨x, hx⟩ : ∃ x, x = posChecked n ((hi.toNat * 2 ^ 32 + lo.toNat) % 2 ^ posDlen s.toDev n) (decide (posMode s.toDev n = 3) && !nE)
      (decide (posMode s.toDev n = 3) && !nW) (s.toDev.at (last + 2 * tuTick)) := ⟨_, rfl⟩
  obtain ⟨t, ht⟩ : ∃ t, t = posFrameErr n (posFrameBad s.toDev n (hi.toNat * 2 ^ 32 + lo.toNat) cds nE nW crc par) x := ⟨_, rfl⟩
  have made : posFrameCheck n (hi.toNat * 2 ^ 32 + lo.toNat) cds nE nW crc par s.toDev = t := by
    rw [posFrameCheck_timely frame on sampled timely defined_ hx, if_neg (by simpa using bad), ht]
  have failed : PosFailed n (posFrameBad s.toDev n (hi.toNat * 2 ^ 32 + lo.toNat) cds nE nW crc par) x t := by
    rw [ht]
    exact posFrameErr_failed posFrameBad_errs
  have now : t.now = max s.now (last + 2 * tuTick) := by
    rw [failed.now, hx, posChecked_now]
    rfl
  have noted {enc : Bool} (mode : s.f (.pos n .ctl) POS_CTL.MODE = 3) (low : enc = false) : (decide (posMode s.toDev n = 3) && !enc) = true := by
    rw [low, Bool.not_false, Bool.and_true]
    exact decide_eq_true mode
  refine .of_act (f := posFrameCheck n (hi.toNat * 2 ^ 32 + lo.toNat) cds nE nW crc par) rfl up
    (by rw [made, now]; exact calm_max.2 calm) ?_
  rw [made]
  simp only [settle_b]
  rw [settle_pos, settle_get, settle_fc, failed.st, failed.shift, failed.get _ (by simp) (by simp), hx, posChecked_pos, posChecked_shift,
    posChecked_get (by simp) (by simp) (by simp)]
  refine ⟨⟨rfl, rfl⟩, failed.set, fun mode low => failed.kept _ (by decide) ?_, fun mode low => failed.kept _ (by decide) ?_, rfl,
    failed.fresh⟩
  · rw [hx]
    exact posChecked_enc (noted mode low)
  · rw [hx]
    exact posChecked_warn (noted mode low)

end

end

end Sys2Proof.Machine
end

section
/-!
SUPPORT. POS_SPEED_TIMEOUT (R173), POS_ENABLE (R180) and POS_UPOS_READ (R172).
-/
set_option Elab.async false
namespace Sys2Proof.Machine
open Sys2Proof

/-! ### POS_SPEED_TIMEOUT -/

section
variable {s : State} {n : Fin 8} (up : Up s)
include up

theorem posSpeedTimeout_none (none : s.f (.pos n .spdto) POS_SPDTO.TO = 0) : exec (.posSpeedTimeout n) s = after s s.toDev := by
  have off : (posOn s.toDev n && !posSerial s.toDev n && s.f (.pos n .spdto) POS_SPDTO.TO != 0) = false := by rw [none]; simp
  exact exec_of_act (f := posSpeedTimeout n) rfl up (by simp only [posSpeedTimeout, off, Bool.false_eq_true, if_false]) (up.calm (le_refl _))

theorem posSpeedTimeout_does (on : posOn s.toDev n = true) (decodes : s.f (.pos n .ctl) POS_CTL.MODE < 2)
    (limit : s.f (.pos n .spdto) POS_SPDTO.TO ≠ 0) (calm : Calm s (s.pos[n].zeroAt + s.f (.pos n .spdto) POS_SPDTO.TO * tuUs)) :
    Does (.posSpeedTimeout n) s fun t => t.get (.pos n .spd) = 0 ∧ t.b (.pos n .stat) POS_STAT.SPDZERO = true := by
  have due : (posOn s.toDev n && !posSerial s.toDev n && s.f (.pos n .spdto) POS_SPDTO.TO != 0) = true := by
    have serial : posSerial s.toDev n = false := decide_eq_false (Nat.not_le.2 decodes)
    rw [on, serial, bne_iff_ne.2 limit]
    rfl
  have made : posSpeedTimeout n s.toDev =
      (((s.toDev.at (s.pos[n].zeroAt + s.f (.pos n .spdto) POS_SPDTO.TO * tuUs)).put (.pos n .spd) 0).flag (.pos n .stat)
        POS_STAT.SPDZERO).posU n fun p => { p with timed := false, lastDt := none } := by
    simp only [posSpeedTimeout, due, if_true]
  refine .of_act (f := posSpeedTimeout n) rfl up (by rw [made]; exact calm_max.2 calm) ?_
  rw [made, settle_get, settle_b, Dev.get_congr (Dev.posU_regs ..), Dev.b_congr (Dev.posU_regs ..)]
  exact ⟨(Dev.get_setF_ne _ (by simp) _ _).trans (Dev.get_put_same ..), Dev.b_flag _ _ (by decide)⟩

end

/-! ### POS_ENABLE -/

section
variable {n : Fin 8} {d : Dev}

/-- The registers of a channel that is enabled. -/
theorem posEnable_get (n : Fin 8) (d : Dev) : (posEnable n d).get (.pos n .pos) = 0 ∧ (posEnable n d).get (.pos n .rev) = 0 ∧
    (posEnable n d).get (.pos n .spd) = 0 ∧ (posEnable n d).get (.pos n .ctl) = d.get (.pos n .ctl) := by
  have zeroed {r : PosReg} (h : r ≠ .stat) : (posEnable n d).get (.pos n r) =
      (((d.put (.pos n .pos) 0).put (.pos n .rev) 0).put (.pos n .spd) 0).get (.pos n r) :=
    (Dev.get_congr (Dev.posU_regs ..) _).trans (Dev.get_setF_ne _ (by simp [h]) _ _)
  rw [zeroed (by simp), zeroed (by simp), zeroed (by simp), zeroed (by simp)]
  simp [Dev.get_put_ne]

theorem posEnable_tbs : (posEnable n d).tbs = d.tbs := by simp [posEnable]

theorem posEnable_frame : (posEnable n d).pos[n].frame = .idle := by rw [posEnable, Dev.posU_pos_same]

theorem posPath_st : (posPath n d).now = d.now ∧ (posPath n d).pos = d.pos := ⟨rfl, rfl⟩

theorem posPath_get {r : PosReg} (h : r ≠ .stat) : (posPath n d).get (.pos n r) = d.get (.pos n r) := Dev.get_setF_ne _ (by simp [h]) _ _

theorem posPath_running : (posPath n d).b (.pos n .stat) POS_STAT.RUNNING = posOn d n := Dev.b_setB _ _ (by decide) _

theorem lePosChanged_side (c : Nat) (d : Dev) : CapSide d (lePosChanged c d) := by simp [lePosChanged]

/-- EN is written from 0 to 1. -/
theorem posWriteCtl_enables {v : Word} (off : d.b (.pos n .ctl) POS_CTL.EN = false) (en : POS_CTL.EN.bit v = true) :
    ∃ e, CapSide (d.wr (.pos n .ctl) v) e ∧ posWriteCtl n v d = posPath n (posEnable n e) := by
  have off' : POS_CTL.EN.bit (d.get (.pos n .ctl)) = false := off
  simp only [posWriteCtl, off', en, Dev.flagIf, Bool.false_and, Bool.not_false, Bool.and_true, Bool.false_eq_true, if_false, if_true]
  refine ⟨_, ?_, rfl⟩
  split
  · exact lePosChanged_side ..
  · exact .refl _

end

theorem posEnable_does {s : State} {by_ : Requester} {n : Fin 8} {v : Word} (asks : Asks by_ s (.pos n .ctl))
    (off : s.b (.pos n .ctl) POS_CTL.EN = false) : Does (.posEnable by_ n v) s fun t =>
      t.b (.pos n .ctl) POS_CTL.EN = true ∧ t.get (.pos n .pos) = 0 ∧ t.get (.pos n .rev) = 0 ∧ t.get (.pos n .spd) = 0 ∧
      t.pos[n].frame = .idle ∧ t.b (.pos n .stat) POS_STAT.RUNNING = s.tbRun (Fin.ofNat 32 (POS_CTL.TB.get v)) := by
  obtain ⟨e, side, made⟩ := posWriteCtl_enables (n := n) (d := asked by_ s.toDev) (v := POS_CTL.EN.put 1 v)
    ((b_asked (by simp) _).trans off) (Fld.bit_put (by decide) 1 v)
  obtain ⟨pos, rev, spd, ctl⟩ := posEnable_get n e
  have tbs : (posEnable n e).tbs = s.tbs := by rw [posEnable_tbs, side.tbs, Dev.wr, Dev.put_tbs (by simp), asked_tbs]
  have word : (posEnable n e).get (.pos n .ctl) =
      plainWrite (PosReg.access .ctl) ((asked by_ s.toDev).get (.pos n .ctl)) (POS_CTL.EN.put 1 v) :=
    ctl.trans ((side.get (.pos n .ctl) rfl).trans (Dev.get_wr_same ..))
  have en : (posEnable n e).b (.pos n .ctl) POS_CTL.EN = true := by
    rw [Dev.b, word, Fld.bit_plainWrite (by decide) (by decide)]
    exact Fld.bit_put (by decide) 1 v
  have tb : posTb (posEnable n e) n = Fin.ofNat 32 (POS_CTL.TB.get v) := by
    rw [posTb, Dev.f, word, Fld.get_plainWrite (by decide) (by decide), Fld.get_put_apart (by decide) (by decide) (by decide)]
  have running : posOn (posEnable n e) n = s.tbRun (Fin.ofNat 32 (POS_CTL.TB.get v)) := by
    rw [posOn, en, tb, Dev.tbRun_of_tbs tbs, Bool.true_and]
  refine .of_write rfl asks (by simp [heldMask]) made (asks.up.calm (Nat.le_of_eq ?_)) ?_
  · rw [posPath_st.1]
    exact Dev.now_of_tbs tbs
  · rw [settle_b, settle_get, settle_get, settle_get, settle_pos, settle_b, posPath_running, Dev.b, posPath_get (by simp),
      posPath_get (by simp), posPath_get (by simp), posPath_get (by simp), posPath_st.2, pos, rev, spd, running]
    exact ⟨en, rfl, rfl, rfl, posEnable_frame, rfl⟩

/-! ### POS_UPOS_READ -/

theorem posUposRead_does {s : State} {by_ : Requester} {n : Fin 8} (asks : Asks by_ s (.pos n .upos))
    (fresh : hasAsked s.toDev by_ (.pos n .upos) = false) : Does (.posUposRead by_ n) s fun t =>
      t.sys.rdData = some (s.get (.pos n .upos)) ∧ t.get (.pos n .urev) = s.pos[n].upd.rev ∧ t.get (.pos n .uspd) = s.pos[n].upd.spd ∧
      t.get (.pos n .utsl) = lo32 s.pos[n].upd.ts ∧ t.get (.pos n .utsh) = hi32 s.pos[n].upd.ts := by
  refine .of_read rfl asks fresh (fun _ => rfl) ?_
  have read (x : Dev) : readNow by_ (.pos n .upos) x = (x.get (.pos n .upos),
      (((x.put (.pos n .urev) x.pos[n].upd.rev).put (.pos n .uspd) x.pos[n].upd.spd).put (.pos n .utsl) (lo32 x.pos[n].upd.ts)).put
        (.pos n .utsh) (hi32 x.pos[n].upd.ts)) := rfl
  have st : (askedRead by_ (.pos n .upos) s.toDev).pos[n] = s.pos[n] := rfl
  rw [read]
  dsimp only
  rw [settle_sys, readGiven_rdData, settle_get, settle_get, settle_get, settle_get, get_readGiven, get_readGiven, get_readGiven,
    get_readGiven, get_askedRead (by simp), st]
  simp [Dev.get_put_ne]

end Sys2Proof.Machine
end

section
/-!
PROOF. O42, by command.
-/
set_option Elab.async false
namespace Sys2Proof.Proofs
open Sys2Proof Sys2Proof.Machine

/-- Settles O42: what a channel does to its own position, frame and update stands apart from the other channels' and from what an update is
offered to. -/
theorem positions : Obligations.Positions := by
  unfold Obligations.Positions
  intro s by_ n v a b z at_ till hi lo cds nE nW par crc ch up d data p mode pos cpr filtered takes due
  refine ⟨?_, ?_, ?_, ?_, ?_, fun e task tsrc tch => ?_, fun ts waits on => ?_, ?_, fun ts start tv stamp last frame sampled on defined_ => ?_,
    fun idle => ⟨?_, ?_⟩, ?_, ?_, ?_, ?_, ?_, ?_⟩
  · exact fun on short => posInputChange_short up on short
  · intro on held biss rises was low none _ ts start tv stamp frame calm half k y edge range
    exact posInputChange_slo up on held calm biss rises was low none frame rfl rfl edge range
  · exact fun off calm => posInputChange_off up off calm
  · intro on held calm quad level slow step fwd
    refine does_mono (posInputChange_counts up on held calm quad level slow rfl) fun u h => ?_
    obtain ⟨taken, rests, steps, illegal⟩ := h
    refine ⟨taken, rests, fun one => ?_, illegal⟩
    obtain ⟨lastdir, counts⟩ := steps one
    exact ⟨lastdir, counts.upWrap, counts.upStep, counts.downWrap, counts.downStep⟩
  · exact fun on held calm quad differs rush => posInputChange_rushed up on held calm quad differs rush
  · intro got calm on
    refine ⟨?_, ?_, ?_⟩
    · exact fun decodes usrc => posTriggerTask_decoding up task tsrc tch calm on decodes usrc
    · exact fun serial idle => posTriggerTask_idle up task tsrc tch calm on serial idle
    · exact fun serial busy => posTriggerTask_busy up task tsrc tch calm on serial busy
  · exact fun calm => posFrameStart_does up waits on calm
  · exact fun ts start tv stamp frame on none => posFrameCheck_none up frame on none
  · intro calm raw ended
    refine ⟨fun late => ?_, fun timely valid binary => ?_, fun timely bad => ?_⟩
    · exact posFrameCheck_timesOut up frame on sampled late (by rwa [if_pos late] at calm)
    · exact posFrameCheck_valid up frame on sampled timely defined_ (by rwa [if_neg (Nat.not_lt.2 timely)] at calm) valid binary rfl
    · exact posFrameCheck_refused up frame on sampled timely defined_ (by rwa [if_neg (Nat.not_lt.2 timely)] at calm) bad
  · exact posFrameTimeout_none up idle
  · exact posFrameStart_none up idle
  · exact fun ts start tv stamp last frame sampled timely => posFrameTimeout_timely up frame sampled timely
  · exact fun ts open_ calm => posFrameTimeout_does up open_ calm
  · exact fun on decodes limit calm => posSpeedTimeout_does up on decodes limit calm
  · exact fun none => posSpeedTimeout_none up none
  · exact fun asks off => posEnable_does asks off
  · exact fun asks fresh => posUposRead_does asks fresh

end Sys2Proof.Proofs
end

section
/-!
SUPPORT. The interrupt controller follows its sources (R201, R211): what following moves, and that it leaves every source in line.
-/
set_option Elab.async false
namespace Sys2Proof.Machine
open Sys2Proof

/-! ### What following moves -/

/-- The controller alone has moved on: of a source all but its service, of a target its window, the count of withheld events and whether
its core has been woken. -/
structure Tracks (d e : Dev) : Prop where
  only : e = { d with ic := e.ic }
  serve : ∀ s, (icSrc e s).serve = (icSrc d s).serve
  tgt : ∀ c : Fin 5, ∃ win withheld woke, e.ic.tgt[c] = { d.ic.tgt[c] with win, withheld, woke }

theorem Tracks.refl (d : Dev) : Tracks d d := ⟨rfl, fun _ => rfl, fun _ => ⟨_, _, _, rfl⟩⟩

theorem Tracks.trans {c d e : Dev} (h : Tracks c d) (k : Tracks d e) : Tracks c e where
  only := by rw [k.only, h.only]
  serve s := (k.serve s).trans (h.serve s)
  tgt b := by
    obtain ⟨_, _, _, h⟩ := h.tgt b
    obtain ⟨win, withheld, woke, k⟩ := k.tgt b
    exact ⟨win, withheld, woke, by rw [k, h]⟩

section
variable {d e : Dev} (h : Tracks d e)
include h

theorem Tracks.regs : e.regs = d.regs := by rw [h.only]
theorem Tracks.core : e.core = d.core := by rw [h.only]
theorem Tracks.mem : e.mem = d.mem := by rw [h.only]
theorem Tracks.get (r : Reg) : e.get r = d.get r := Dev.get_congr h.regs r

end

theorem icSrc_srcU_same (d : Dev) (s : Nat) (g : SrcSt → SrcSt) : icSrc (d.srcU s g) s = g (icSrc d s) := by simp [icSrc, Dev.srcU]

theorem icSrc_srcU_ne (d : Dev) {s j : Nat} (hs : s < 384) (hj : j < 384) (h : j ≠ s) (g : SrcSt → SrcSt) :
    icSrc (d.srcU s g) j = icSrc d j := by
  simp [icSrc, Dev.srcU, Nat.mod_eq_of_lt hs, Nat.mod_eq_of_lt hj, h.symm]

theorem tgtU_tgt_same (d : Dev) (c : Fin 5) (g : TgtSt → TgtSt) : (d.tgtU c g).ic.tgt[c] = g d.ic.tgt[c] := by simp [Dev.tgtU]

theorem tgtU_tgt_ne (d : Dev) {b c : Fin 5} (h : b ≠ c) (g : TgtSt → TgtSt) : (d.tgtU c g).ic.tgt[b] = d.ic.tgt[b] := by
  simp [Dev.tgtU, Fin.val_ne_of_ne h.symm]

/-- A source keeps its service under an update that does. -/
theorem serve_srcU {d : Dev} {s : Nat} {g : SrcSt → SrcSt} (h : (g (icSrc d s)).serve = (icSrc d s).serve) (j : Nat) :
    (icSrc (d.srcU s g) j).serve = (icSrc d j).serve := by
  by_cases e : s % 384 = j % 384
  · simpa [icSrc, Dev.srcU, e] using h
  · simp [icSrc, Dev.srcU, e]

theorem tracks_srcU {d : Dev} {s : Nat} {g : SrcSt → SrcSt} (h : (g (icSrc d s)).serve = (icSrc d s).serve) : Tracks d (d.srcU s g) :=
  ⟨rfl, serve_srcU h, fun _ => ⟨_, _, _, rfl⟩⟩

theorem tracks_tgtU {d : Dev} {c : Fin 5} {g : TgtSt → TgtSt}
    (h : ∃ win withheld woke, g d.ic.tgt[c] = { d.ic.tgt[c] with win, withheld, woke }) : Tracks d (d.tgtU c g) := by
  refine ⟨rfl, fun _ => rfl, fun b => ?_⟩
  by_cases e : b = c
  · rw [e, tgtU_tgt_same]
    exact h
  · rw [tgtU_tgt_ne d e]
    exact ⟨_, _, _, rfl⟩

theorem tracks_each {α : Type} {l : List α} {f : α → Dev → Dev} (h : ∀ a d, Tracks d (f a d)) (d : Dev) : Tracks d (d.each l f) :=
  Dev.each_rel Tracks.refl Tracks.trans (fun a _ => h a) d

theorem icCloseWin_tracks (c : Fin 5) (d : Dev) : Tracks d (icCloseWin c d) := by
  have closes : Tracks d (d.tgtU c fun t => { t with win := none }) := tracks_tgtU ⟨_, _, _, rfl⟩
  unfold icCloseWin
  repeat' split
  · exact .refl d
  · exact closes
  · exact closes
  · exact .refl d

theorem icModEvent_tracks (c : Fin 5) (d : Dev) : Tracks d (icModEvent c d) := by
  unfold icModEvent
  extract_lets d1
  split
  · exact .refl d
  · exact .refl d
  · refine .trans (tracks_tgtU ?_) (icCloseWin_tracks c d1)
    split <;> exact ⟨_, _, _, rfl⟩

theorem icBecome_tracks (s : Nat) (resamp : Bool) (d : Dev) : Tracks d (icBecome s resamp d) := by
  unfold icBecome
  extract_lets c d1
  have seen : Tracks d d1 := tracks_srcU rfl
  split
  · exact seen.trans (icModEvent_tracks c d1)
  · exact seen

theorem icFollow_tracks (s : Nat) (d : Dev) : Tracks d (icFollow s d) := by
  unfold icFollow
  extract_lets x
  repeat' split
  · exact icBecome_tracks s false d
  · exact .refl d
  · exact tracks_srcU rfl
  · exact .refl d

theorem icWake_tracks (c : Fin 5) (d : Dev) : Tracks d (icWake c d) := by
  unfold icWake
  split
  · exact tracks_tgtU ⟨_, _, _, rfl⟩
  · exact .refl d

/-- The device once the controller has followed every source, closed its windows and presented its requests. -/
def icFollowed (d : Dev) : Dev := ((d.each (List.range 384) icFollow).each (fins 5) icCloseWin).each (fins 5) icWake

theorem icFollowed_tracks (d : Dev) : Tracks d (icFollowed d) :=
  ((tracks_each icFollow_tracks d).trans (tracks_each icCloseWin_tracks _)).trans (tracks_each icWake_tracks _)

/-- Where there is something to follow, the controller follows it; the rest of the device stands of itself. -/
theorem settle_eq (d : Dev) : settle d = if icWatch d then icFollowed d else d := by
  unfold settle
  split
  · exact (icFollowed_tracks d).only.symm
  · rfl

theorem settle_tracks (d : Dev) : Tracks d (settle d) := by
  rw [settle_eq]
  split
  · exact icFollowed_tracks d
  · exact .refl d

/-! ### Every source is in line -/

/-- Source s has the instant at which it became pending exactly while it is pending. -/
def InLine (d : Dev) (s : Nat) : Prop := (icSrc d s).pendAt.isSome = icPending d s

theorem icEnabled_congr {d e : Dev} (h : e.regs = d.regs) (s : Nat) : icEnabled e s = icEnabled d s := by
  rw [icEnabled, Dev.get_congr h]; rfl

theorem icAsserted_congr {d e : Dev} (h : e.regs = d.regs) (s : Nat) : icAsserted e s = icAsserted d s := by
  have get : e.get = d.get := funext (Dev.get_congr h)
  unfold icAsserted anyBoth Dev.b Dev.f
  rw [get]

theorem icPending_congr {d e : Dev} (h : e.regs = d.regs) {s : Nat} (k : (icSrc e s).serve = (icSrc d s).serve) :
    icPending e s = icPending d s := by
  rw [icPending, icEnabled_congr h, icAsserted_congr h, k]; rfl

theorem Tracks.pending {d e : Dev} (h : Tracks d e) (s : Nat) : icPending e s = icPending d s := icPending_congr h.regs (h.serve s)

/-- A step of the controller that leaves a source's instant leaves the source in line. -/
theorem InLine.mono {d e : Dev} {s : Nat} (h : InLine d s) (k : Tracks d e) (same : (icSrc e s).pendAt = (icSrc d s).pendAt) : InLine e s := by
  rw [InLine, same, k.pending]
  exact h

theorem icCloseWin_src (c : Fin 5) (d : Dev) : (icCloseWin c d).ic.src = d.ic.src := by
  unfold icCloseWin
  repeat' split
  all_goals rfl

theorem icModEvent_src (c : Fin 5) (d : Dev) : (icModEvent c d).ic.src = d.ic.src := by
  unfold icModEvent
  extract_lets d1
  split
  · rfl
  · rfl
  · exact icCloseWin_src c d1

theorem icWake_src (c : Fin 5) (d : Dev) : (icWake c d).ic.src = d.ic.src := by
  unfold icWake
  split <;> rfl

theorem icSrc_congr {d e : Dev} (h : e.ic.src = d.ic.src) (s : Nat) : icSrc e s = icSrc d s := by rw [icSrc, h]; rfl

/-- A source that is seen to become pending has the instant of it; no other source is touched. -/
theorem icBecome_src (s : Nat) (resamp : Bool) (d : Dev) : (icBecome s resamp d).ic.src = (d.srcU s fun x =>
    { x with pendAt := some d.now, pendTs := d.stamp (fabEdge d d.now), pendTv := d.ctv, resamp := resamp, heldQ := false }).ic.src := by
  unfold icBecome
  extract_lets c d1
  split
  · exact icModEvent_src c d1
  · rfl

theorem icFollow_inLine (s : Nat) (d : Dev) : InLine (icFollow s d) s := by
  rw [InLine, (icFollow_tracks s d).pending]
  unfold icFollow
  extract_lets x
  split
  · next pending =>
    rw [pending]
    split
    · rw [icSrc_congr (icBecome_src s false d), icSrc_srcU_same]; rfl
    · next old => simpa [x, Option.isSome_iff_ne_none] using old
  · next idle =>
    rw [Bool.not_eq_true] at idle
    rw [idle]
    split
    · rw [icSrc_srcU_same]; rfl
    · next none => simpa [x] using none

theorem icFollow_src_ne {s j : Nat} (hs : s < 384) (hj : j < 384) (h : j ≠ s) (d : Dev) : icSrc (icFollow s d) j = icSrc d j := by
  unfold icFollow
  extract_lets x
  repeat' split
  · rw [icSrc_congr (icBecome_src s false d), icSrc_srcU_ne d hs hj h]
  · rfl
  · exact icSrc_srcU_ne d hs hj h _
  · rfl

theorem icFollow_keeps_inLine {s j : Nat} (hs : s < 384) (hj : j < 384) {d : Dev} (h : InLine d j) : InLine (icFollow s d) j := by
  by_cases e : j = s
  · rw [e]
    exact icFollow_inLine s d
  · exact h.mono (icFollow_tracks s d) (by rw [icFollow_src_ne hs hj e])

/-- Each source that is followed is in line in the end. -/
theorem each_icFollow_inLine {α : Type} {l : List α} {num : α → Nat} (bound : ∀ a ∈ l, num a < 384) {a : α} (ha : a ∈ l) (d : Dev) :
    InLine (d.each l fun a => icFollow (num a)) (num a) := by
  induction l generalizing d with
  | nil => simp at ha
  | cons b l ih =>
    have rest : ∀ x ∈ l, num x < 384 := fun x hx => bound x (by simp [hx])
    rcases List.mem_cons.1 ha with rfl | ha
    · exact Dev.each_inv (p := (InLine · (num a))) (fun x hx d => icFollow_keeps_inLine (rest x hx) (bound a (by simp))) (icFollow_inLine (num a) d)
    · exact ih rest ha _

/-- What acts on targets alone leaves the sources in line. -/
theorem InLine.each_targets {s : Nat} {f : Fin 5 → Dev → Dev} (tracks : ∀ c d, Tracks d (f c d)) (src : ∀ c d, (f c d).ic.src = d.ic.src)
    {d : Dev} (h : InLine d s) : InLine (d.each (fins 5) f) s :=
  Dev.each_inv (p := (InLine · s)) (fun c _ d hd => hd.mono (tracks c d) (by rw [icSrc_congr (src c d)])) h

theorem icFollowed_inLine (d : Dev) {s : Nat} (hs : s < 384) : InLine (icFollowed d) s := by
  have followed : InLine (d.each (List.range 384) icFollow) s :=
    each_icFollow_inLine (num := id) (fun _ => List.mem_range.1) (List.mem_range.2 hs) d
  exact (followed.each_targets icCloseWin_tracks icCloseWin_src).each_targets icWake_tracks icWake_src

/-- Where the controller has nothing to follow, it is as it was. -/
theorem settle_followed (d : Dev) : Followed (settle d) := by
  rw [settle_eq]
  split
  · exact fun _ s hs => icFollowed_inLine d hs
  · next idle => exact fun watch => absurd watch idle

/-- Time alone moves no source. -/
theorem tick_followed {d : Dev} (h : Followed d) : Followed d.tick := fun watch s hs =>
  (h watch s hs).trans (icPending_congr (d := d.tick) (e := d) rfl rfl)

theorem idle_followed {s : State} (h : Followed s.toDev) : Followed (idle s).toDev := by
  unfold idle
  dsimp only
  split
  · exact tick_followed h
  · exact settle_followed _

theorem step_followed {s t : State} (h : Followed s.toDev) (ht : step s = .next t) : Followed t.toDev := by
  unfold step at ht
  split at ht
  · cases ht
    exact idle_followed h
  · next i rest _ =>
    obtain ⟨d, hd⟩ := exec_settles i { s with pending := rest }
    rw [hd] at ht
    cases ht
    exact settle_followed d

end Sys2Proof.Machine
end

section
/-!
PROOF. O54.
-/
set_option Elab.async false
namespace Sys2Proof.Proofs
open Sys2Proof Sys2Proof.Machine

/-- Settles O54: every command ends with the controller following its sources, and a tick under a held reset moves none of them. -/
theorem sourcesFollowed : Obligations.SourcesFollowed := fun _ _ => step_followed

end Sys2Proof.Proofs
end

section
/-!
SUPPORT. The event fabric's channels (R189-R193): what a sample in one channel touches, and what an activation leaves.
-/
set_option Elab.async false
namespace Sys2Proof.Machine
open Sys2Proof

/-! ### Counters and channels -/

/-- A counter that counts one stays below its field's size. -/
theorem Dev.f_bump_same (d : Dev) (r : Reg) {f : Fld} (h : f.ok = true) :
    (d.bump r f).f r f = min (2 ^ f.width - 1) (d.f r f + 1) := by
  have pos : 0 < 2 ^ f.width := Nat.two_pow_pos _
  rw [Dev.bump, Dev.bumpBy, Dev.f_setF d r h]
  exact Nat.mod_eq_of_lt (by unfold satAdd; omega)

theorem chanU_chan_same (d : Dev) (c : Fin 256) (g : ChanSt → ChanSt) : (d.chanU c g).fab.chan[c] = g d.fab.chan[c] := by
  simp [Dev.chanU]

theorem chanU_chan_ne (d : Dev) {b c : Fin 256} (h : b ≠ c) (g : ChanSt → ChanSt) : (d.chanU c g).fab.chan[b] = d.fab.chan[b] := by
  simp [Dev.chanU, Fin.val_ne_of_ne h.symm]

/-! ### What sampling touches -/

/-- The registers that sampling writes: CHn_CNT, and the flags of the activations. -/
def fabReg : Reg → Bool
  | .ch _ .cnt => true
  | .ev (.chflag _) => true
  | _ => false

/-- Events have been sampled in channels of `P` alone; tasks have been added to those on their way. -/
structure Sampled (P : Fin 256 → Prop) (d e : Dev) : Prop where
  now : e.now = d.now
  sys : e.sys = d.sys
  raised : e.fab.raised = d.fab.raised
  last : e.fab.last = d.fab.last
  held : e.fab.held = d.fab.held
  get : ∀ r, fabReg r = false → e.get r = d.get r
  cnt : ∀ b, ¬ P b → e.get (.ch b .cnt) = d.get (.ch b .cnt)
  chan : ∀ b : Fin 256, ¬ P b → e.fab.chan[b] = d.fab.chan[b]
  tasks : ∀ x ∈ d.fab.tasks, x ∈ e.fab.tasks

theorem Sampled.refl (P : Fin 256 → Prop) (d : Dev) : Sampled P d d :=
  ⟨rfl, rfl, rfl, rfl, rfl, fun _ _ => rfl, fun _ _ => rfl, fun _ _ => rfl, fun _ h => h⟩

theorem Sampled.trans {P : Fin 256 → Prop} {c d e : Dev} (h : Sampled P c d) (k : Sampled P d e) : Sampled P c e :=
  ⟨k.now.trans h.now, k.sys.trans h.sys, k.raised.trans h.raised, k.last.trans h.last, k.held.trans h.held,
    fun r hr => (k.get r hr).trans (h.get r hr), fun b hb => (k.cnt b hb).trans (h.cnt b hb),
    fun b hb => (k.chan b hb).trans (h.chan b hb), fun x hx => k.tasks x (h.tasks x hx)⟩

theorem Sampled.mono {P Q : Fin 256 → Prop} {d e : Dev} (h : Sampled P d e) (hPQ : ∀ b, P b → Q b) : Sampled Q d e :=
  { h with cnt := fun b hb => h.cnt b fun hp => hb (hPQ b hp), chan := fun b hb => h.chan b fun hp => hb (hPQ b hp) }

section
variable {P : Fin 256 → Prop} {d e : Dev} (h : Sampled P d e)
include h

theorem Sampled.f {r : Reg} (hr : fabReg r = false) (f : Fld) : e.f r f = d.f r f := congrArg f.get (h.get r hr)
theorem Sampled.b {r : Reg} (hr : fabReg r = false) (f : Fld) : e.b r f = d.b r f := congrArg f.bit (h.get r hr)
theorem Sampled.strobe : fabStrobe e = fabStrobe d := by rw [fabStrobe, h.sys]; rfl
theorem Sampled.hold (c : Fin 256) : fabHold e c = fabHold d c := by rw [fabHold, h.b rfl, h.strobe]; rfl
theorem Sampled.fabLast (p : Fin 512) : fabLast e p = fabLast d p := by rw [Machine.fabLast, h.last]; rfl

theorem Sampled.named (k : TaskKind) (c : Fin 256) : fabNamed e k c = fabNamed d k c := by
  cases k <;> simp only [fabNamed, h.b (show fabReg (.leg _ _) = false from rfl), h.f (show fabReg (.leg _ _) = false from rfl),
    h.b (show fabReg (.tb _ _) = false from rfl), h.f (show fabReg (.tb _ _) = false from rfl),
    h.b (show fabReg (.adc _ _) = false from rfl), h.f (show fabReg (.adc _ _) = false from rfl),
    h.b (show fabReg (.pos _ _) = false from rfl), h.f (show fabReg (.pos _ _) = false from rfl),
    h.b (show fabReg (.le _ _) = false from rfl), h.f (show fabReg (.le _ _) = false from rfl),
    h.b (show fabReg (.capr _ _) = false from rfl), h.f (show fabReg (.capr _ _) = false from rfl)]

end

/-! ### One channel's sample -/

section
variable {c : Fin 256} {d : Dev}

theorem sampled_chanU {g : ChanSt → ChanSt} : Sampled (· = c) d (d.chanU c g) :=
  ⟨rfl, rfl, rfl, rfl, rfl, fun _ _ => rfl, fun _ _ => rfl, fun _ hb => chanU_chan_ne d hb g, fun _ h => h⟩

theorem sampled_bump {f : Fld} : Sampled (· = c) d (d.bump (.ch c .cnt) f) :=
  ⟨rfl, rfl, rfl, rfl, rfl, fun r hr => Dev.get_setF_ne d (by rintro rfl; simp [fabReg] at hr) f _,
    fun _ hb => Dev.get_setF_ne d (by simpa using hb) f _, fun _ _ => rfl, fun _ h => h⟩

theorem sampled_chflag {w : Fin 8} {i : Nat} {v : Bool} : Sampled (· = c) d (d.setBit (.ev (.chflag w)) i v) :=
  ⟨rfl, rfl, rfl, rfl, rfl, fun r hr => Dev.get_setF_ne d (by rintro rfl; simp [fabReg] at hr) _ _,
    fun _ _ => Dev.get_setF_ne d (by simp) _ _, fun _ _ => rfl, fun _ h => h⟩

theorem sampled_tasks {l : List (TaskKind × Fin 256 × Nat)} :
    Sampled (· = c) d { d with fab := { d.fab with tasks := d.fab.tasks ++ l } } :=
  ⟨rfl, rfl, rfl, rfl, rfl, fun _ _ => rfl, fun _ _ => rfl, fun _ _ => rfl, fun _ h => List.mem_append_left l h⟩

/-- The activation as its channel shows it, before its tasks go out. -/
def fabShown (c : Fin 256) (e : Nat) (d : Dev) : Dev :=
  let d1 := (d.chanU c fun _ => { act := some e, pend := false }).bump (.ch c .cnt) CH_CNT.ACT_CNT
  if d1.b (.ch c .ctl) CH_CTL.IFLAG then d1.setBit (.ev (.chflag (Fin.ofNat 8 (c.val / 32)))) (c.val % 32) true else d1

/-- The tasks of an activation of channel c on edge e: one for each kind of consumer that names the channel. -/
def fabTasks (c : Fin 256) (e : Nat) (d : Dev) : List (TaskKind × Fin 256 × Nat) :=
  (taskKinds.filter fun k => fabNamed d k c).map fun k => (k, c, e)

theorem fabActivate_eq (e : Nat) : fabActivate c e d =
    { fabShown c e d with fab := { (fabShown c e d).fab with tasks := (fabShown c e d).fab.tasks ++ fabTasks c e (fabShown c e d) } } := rfl

theorem fabShown_sampled (e : Nat) : Sampled (· = c) d (fabShown c e d) := by
  unfold fabShown
  extract_lets d1
  have counted : Sampled (· = c) d d1 := sampled_chanU.trans sampled_bump
  split
  · exact counted.trans sampled_chflag
  · exact counted

theorem fabActivate_sampled (e : Nat) : Sampled (· = c) d (fabActivate c e d) := by
  rw [fabActivate_eq]
  exact (fabShown_sampled e).trans sampled_tasks

/-- Channel c has activated on edge e: the channel, its counter and the tasks on their way to the consumers that name it (R189, R192). -/
structure Activated (c : Fin 256) (e : Nat) (d t : Dev) : Prop where
  chan : t.fab.chan[c] = { act := some e, pend := false }
  cnt : t.f (.ch c .cnt) CH_CNT.ACT_CNT = min (2 ^ CH_CNT.ACT_CNT.width - 1) (d.f (.ch c .cnt) CH_CNT.ACT_CNT + 1)
  tasks : ∀ k, fabNamed d k c = true → (k, c, e) ∈ t.fab.tasks

theorem mem_taskKinds (k : TaskKind) : k ∈ taskKinds := by cases k <;> decide

theorem fabShown_chan (e : Nat) : (fabShown c e d).fab.chan[c] = { act := some e, pend := false } := by
  unfold fabShown
  extract_lets d1
  have shown : d1.fab.chan[c] = { act := some e, pend := false } := chanU_chan_same d c fun _ => { act := some e, pend := false }
  split <;> exact shown

theorem fabShown_cnt (e : Nat) : (fabShown c e d).f (.ch c .cnt) CH_CNT.ACT_CNT =
    min (2 ^ CH_CNT.ACT_CNT.width - 1) (d.f (.ch c .cnt) CH_CNT.ACT_CNT + 1) := by
  unfold fabShown
  extract_lets d1
  have counted : d1.f (.ch c .cnt) CH_CNT.ACT_CNT = min (2 ^ CH_CNT.ACT_CNT.width - 1) (d.f (.ch c .cnt) CH_CNT.ACT_CNT + 1) :=
    Dev.f_bump_same _ _ (by decide)
  split
  · rw [← counted]
    exact congrArg CH_CNT.ACT_CNT.get (Dev.get_setF_ne d1 (by simp) _ _)
  · exact counted

theorem fabActivate_activated (e : Nat) : Activated c e d (fabActivate c e d) where
  chan := fabShown_chan e
  cnt := fabShown_cnt e
  tasks k named := by
    rw [fabActivate_eq]
    refine List.mem_append_right _ (List.mem_map.2 ⟨k, List.mem_filter.2 ⟨mem_taskKinds k, ?_⟩, rfl⟩)
    rwa [(fabShown_sampled e).named]

theorem fabNamed_congr {d y : Dev} (h : y.regs = d.regs) (k : TaskKind) (c : Fin 256) : fabNamed y k c = fabNamed d k c := by
  have get : y.get = d.get := funext (Dev.get_congr h)
  unfold fabNamed Dev.b Dev.f
  rw [get]

/-- Of the device before it, an activation sees the registers alone. -/
theorem Activated.of_regs {e : Nat} {d y t : Dev} (h : Activated c e y t) (regs : y.regs = d.regs) : Activated c e d t where
  chan := h.chan
  cnt := by rw [h.cnt, Dev.f, Dev.get_congr regs]; rfl
  tasks k named := h.tasks k (by rwa [fabNamed_congr regs])

/-- Samples in other channels, before and after, take nothing from an activation. -/
theorem Activated.beside {e : Nat} {d y z t : Dev} (h : Activated c e y z) (before : Sampled (· ≠ c) d y) (later : Sampled (· ≠ c) z t) :
    Activated c e d t where
  chan := (later.chan c (by simp)).trans h.chan
  cnt := by rw [Dev.f, later.cnt c (by simp), ← Dev.f, h.cnt, Dev.f, before.cnt c (by simp)]; rfl
  tasks k named := later.tasks _ (h.tasks k (by rwa [before.named]))

theorem fabIssue_sampled (e : Nat) : Sampled (· = c) d (fabIssue c e d) := by
  unfold fabIssue
  repeat' split
  · exact fabActivate_sampled _
  · exact .refl _ d
  · exact .refl _ d

theorem fabSample_sampled (e : Nat) : Sampled (· = c) d (fabSample e c d) := by
  unfold fabSample
  extract_lets d1
  refine (fabIssue_sampled e).trans (show Sampled (· = c) d1 _ from ?_)
  repeat' split
  · exact sampled_bump
  · exact sampled_bump
  · exact sampled_chanU
  · exact fabActivate_sampled e
  · exact fabActivate_sampled e

/-- Where no activation is pending, none issues before the sample (R190). -/
theorem fabIssue_of_no_pend (h : d.fab.chan[c].pend = false) (e : Nat) : fabIssue c e d = d := by
  unfold fabIssue
  rw [h]
  split <;> rfl

theorem fabIssue_of_idle (h : d.fab.chan[c].act = none) (e : Nat) : fabIssue c e d = d := by
  unfold fabIssue
  rw [h]

/-- A channel that has never activated activates on the sample's edge (R189). -/
theorem fabSample_idle (h : d.fab.chan[c].act = none) (e : Nat) : fabSample e c d = fabActivate c e d := by
  unfold fabSample
  rw [fabIssue_of_idle h]
  dsimp only
  rw [h]

section
variable {a : Nat} (act : d.fab.chan[c].act = some a) (rests : d.fab.chan[c].pend = false)
include act rests

/-- A sample on the edge of the channel's own activation merges into it (R189). -/
theorem fabSample_merges : fabSample a c d = d.bump (.ch c .cnt) CH_CNT.MERGE := by
  unfold fabSample
  rw [fabIssue_of_no_pend rests]
  dsimp only
  rw [act]
  exact if_pos rfl

/-- A sample once the holdoff has ended activates, one before that pends (R190). -/
theorem fabSample_held {e : Nat} (late : a < e) (soon : e < a + fabHold d c) :
    fabSample e c d = d.chanU c fun x => { x with pend := true } := by
  unfold fabSample
  rw [fabIssue_of_no_pend rests]
  dsimp only
  rw [act]
  dsimp only
  rw [if_neg (Nat.ne_of_gt late), if_pos soon, rests]
  rfl

theorem fabSample_activates {e : Nat} (late : a < e) (ended : a + fabHold d c ≤ e) : fabSample e c d = fabActivate c e d := by
  unfold fabSample
  rw [fabIssue_of_no_pend rests]
  dsimp only
  rw [act]
  dsimp only
  rw [if_neg (Nat.ne_of_gt late), if_neg (Nat.not_lt.2 ended)]

end

end

/-! ### A presented event -/

/-- A presented event is its producer's latest. -/
def fabStamped (p : Fin 512) (d : Dev) : Dev :=
  { d with fab := { d.fab with last := (p, d.now) :: d.fab.last.filter fun x => x.1 ≠ p } }

/-- The channels that enable producer p. -/
def fabHearing (d : Dev) (p : Fin 512) : List (Fin 256) := (fins 256).filter fun c => fabEnabled d c p

theorem fabPresent_eq (p : Fin 512) (d : Dev) :
    fabPresent p d = (fabStamped p d).each (fabHearing d p) (fabSample (fabEdge d d.now)) := rfl

theorem fabStamped_last (p : Fin 512) (d : Dev) : fabLast (fabStamped p d) p = some d.now := by simp [fabLast, fabStamped]

theorem each_fabSample_sampled (e : Nat) (l : List (Fin 256)) (d : Dev) : Sampled (· ∈ l) d (d.each l (fabSample e)) :=
  Dev.each_rel (Sampled.refl _) Sampled.trans (fun a ha d => (fabSample_sampled e).mono fun b hb => by rwa [hb]) d

theorem fabPresent_sampled (p : Fin 512) (d : Dev) : Sampled (· ∈ fabHearing d p) (fabStamped p d) (fabPresent p d) := by
  rw [fabPresent_eq]
  exact each_fabSample_sampled ..

theorem mem_fabHearing {d : Dev} {p : Fin 512} {c : Fin 256} : c ∈ fabHearing d p ↔ fabEnabled d c p = true := by
  simp [fabHearing, mem_fins]

/-- In a channel that enables the producer the event is sampled once, beside samples in other channels (R189). -/
theorem fabPresent_split {p : Fin 512} {c : Fin 256} {d : Dev} (on : fabEnabled d c p = true) :
    ∃ y, Sampled (· ≠ c) (fabStamped p d) y ∧ Sampled (· ≠ c) (fabSample (fabEdge d d.now) c y) (fabPresent p d) := by
  obtain ⟨l1, l2, before, later, made⟩ :=
    Dev.each_split ((fins_nodup 256).filter _) (mem_fabHearing.2 on) (fabSample (fabEdge d d.now)) (fabStamped p d)
  refine ⟨_, (each_fabSample_sampled (fabEdge d d.now) l1 (fabStamped p d)).mono before, ?_⟩
  rw [fabPresent_eq, fabHearing, made]
  exact (each_fabSample_sampled ..).mono later

end Sys2Proof.Machine
end

section
/-!
SUPPORT. PRODUCER_EVENT, HOLDOFF_END and PRODUCER_HOLD_END (R188-R190).
-/
set_option Elab.async false
namespace Sys2Proof.Machine
open Sys2Proof

@[simp] theorem settle_fabLast (d : Dev) (p : Fin 512) : fabLast (settle d) p = fabLast d p := by rw [fabLast, settle_fab]; rfl

theorem Activated.settled {c : Fin 256} {e : Nat} {d t : Dev} (h : Activated c e d t) : Activated c e d (settle t) :=
  ⟨by rw [settle_fab]; exact h.chan, by rw [settle_f]; exact h.cnt, by rw [settle_fab]; exact h.tasks⟩

/-! ### What becomes of a producer's event -/

/-- The event of producer p is taken from those that wait. -/
def fabTaken (p : Fin 512) (d : Dev) : Dev := { d with fab := { d.fab with raised := d.fab.raised.erase p } }

/-- Less than 3 strobe periods have passed since the producer's previous event (R188). -/
def TooSoon (d : Dev) (p : Fin 512) : Prop := ∃ t0, fabLast d p = some t0 ∧ d.now < t0 + 3 * fabStrobe d

section
variable {p : Fin 512} {d : Dev}

theorem fabEvent_of_not_raised (h : p ∉ d.fab.raised) : fabEvent p d = d := by simp [fabEvent, h]

section
variable (raised : p ∈ d.fab.raised)
include raised

theorem fabEvent_of_held (held : p ∈ d.fab.held) : fabEvent p d = (fabTaken p d).bump (.ev .evcnt) EVCNT.PMERGE := by
  simp [fabEvent, raised, held, fabTaken]

theorem fabEvent_of_soon (free : p ∉ d.fab.held) (soon : TooSoon d p) :
    fabEvent p d = { fabTaken p d with fab := { (fabTaken p d).fab with held := d.fab.held ++ [p] } } := by
  obtain ⟨t0, last, soon⟩ := soon
  simp [fabEvent, raised, free, last, soon, fabTaken]

theorem fabEvent_presents (free : p ∉ d.fab.held) (apart : ¬ TooSoon d p) : fabEvent p d = fabPresent p (fabTaken p d) := by
  have raised' : d.fab.raised.contains p = true := by simpa using raised
  have free' : d.fab.held.contains p = false := by simpa using free
  unfold fabEvent
  rw [raised', free']
  cases last : fabLast d p with
  | none => rfl
  | some t0 =>
    have late : ¬ d.now < t0 + 3 * fabStrobe d := fun soon => apart ⟨t0, last, soon⟩
    simp [late, fabTaken]

end

/-- Where the producer's event is presented, a channel that does not enable it stands. -/
theorem fabPresent_chan_off {c : Fin 256} (off : fabEnabled d c p = false) : (fabPresent p d).fab.chan[c] = d.fab.chan[c] :=
  (fabPresent_sampled p d).chan c (by simp [mem_fabHearing, off])

/-- A channel as the samples before its own leave it. -/
structure SameChan (c : Fin 256) (d y : Dev) : Prop where
  chan : y.fab.chan[c] = d.fab.chan[c]
  cnt : y.get (.ch c .cnt) = d.get (.ch c .cnt)
  hold : fabHold y c = fabHold d c

theorem Sampled.sameChan {c : Fin 256} {y : Dev} (h : Sampled (· ≠ c) d y) : SameChan c d y :=
  ⟨h.chan c (by simp), h.cnt c (by simp), h.hold c⟩

/-- An event that its channel takes at once activates it, whatever else it is sampled in. -/
theorem fabPresent_activates {c : Fin 256} (on : fabEnabled d c p = true)
    (takes : ∀ y, SameChan c d y → fabSample (fabEdge d d.now) c y = fabActivate c (fabEdge d d.now) y) :
    Activated c (fabEdge d d.now) d (fabPresent p d) := by
  obtain ⟨y, before, later⟩ := fabPresent_split on
  rw [takes y ⟨before.sameChan.chan, before.sameChan.cnt, before.sameChan.hold⟩] at later
  exact ((fabActivate_activated (fabEdge d d.now)).beside before later).of_regs rfl

/-- A sample during the holdoff pends. -/
theorem fabPresent_pends {c : Fin 256} (on : fabEnabled d c p = true) {e : Nat} (act : d.fab.chan[c].act = some e)
    (rests : d.fab.chan[c].pend = false) (late : e < fabEdge d d.now) (soon : fabEdge d d.now < e + fabHold d c) :
    (fabPresent p d).fab.chan[c] = { act := some e, pend := true } := by
  obtain ⟨y, before, later⟩ := fabPresent_split on
  have same : y.fab.chan[c] = d.fab.chan[c] := before.sameChan.chan
  have hold : fabHold y c = fabHold d c := before.sameChan.hold
  rw [later.chan c (by simp), fabSample_held (by rw [same, act]) (by rw [same, rests]) late (by rwa [hold]), chanU_chan_same, same, ← act]

/-- A sample on the edge of the channel's own activation merges. -/
theorem fabPresent_merges {c : Fin 256} (on : fabEnabled d c p = true) (act : d.fab.chan[c].act = some (fabEdge d d.now))
    (rests : d.fab.chan[c].pend = false) : (fabPresent p d).fab.chan[c] = d.fab.chan[c] ∧
      (fabPresent p d).f (.ch c .cnt) CH_CNT.MERGE = min (2 ^ CH_CNT.MERGE.width - 1) (d.f (.ch c .cnt) CH_CNT.MERGE + 1) := by
  obtain ⟨y, before, later⟩ := fabPresent_split on
  have same : y.fab.chan[c] = d.fab.chan[c] := before.sameChan.chan
  have merges : fabSample (fabEdge d d.now) c y = y.bump (.ch c .cnt) CH_CNT.MERGE :=
    fabSample_merges (by rw [same, act]) (by rw [same, rests])
  rw [merges] at later
  constructor
  · exact (later.chan c (by simp)).trans same
  · rw [Dev.f, later.cnt c (by simp), ← Dev.f, Dev.f_bump_same _ _ (by decide), Dev.f, before.sameChan.cnt]
    rfl

end

/-! ### PRODUCER_EVENT -/

section
variable {s : State} {p : Fin 512} (up : Up s)
include up

theorem producerEvent_none (h : p ∉ s.fab.raised) : exec (.producerEvent p) s = after s s.toDev :=
  exec_of_act rfl up (fabEvent_of_not_raised h) (up.calm (Nat.le_refl _))

section
variable (raised : p ∈ s.fab.raised)
include raised

theorem producerEvent_merges (held : p ∈ s.fab.held) : Does (.producerEvent p) s fun t =>
    t.fab.held = s.fab.held ∧ t.fab.chan = s.fab.chan ∧
      t.f (.ev .evcnt) EVCNT.PMERGE = min (2 ^ EVCNT.PMERGE.width - 1) (s.f (.ev .evcnt) EVCNT.PMERGE + 1) := by
  have merges := fabEvent_of_held raised held
  refine .of_act (f := fabEvent p) rfl up (up.calm ?_) ?_
  · rw [merges]; rfl
  · rw [merges, settle_fab, settle_f, Dev.f_bump_same _ _ (by decide)]
    exact ⟨rfl, rfl, rfl⟩

theorem producerEvent_holds (free : p ∉ s.fab.held) (soon : TooSoon s.toDev p) : Does (.producerEvent p) s fun t =>
    t.fab.held = s.fab.held ++ [p] ∧ t.fab.chan = s.fab.chan := by
  have holds := fabEvent_of_soon raised free soon
  refine .of_act (f := fabEvent p) rfl up (up.calm ?_) ?_
  · rw [holds]; rfl
  · rw [holds, settle_fab]
    exact ⟨rfl, rfl⟩

/-- The device once the event is presented. -/
theorem producerEvent_presents (free : p ∉ s.fab.held) (apart : ¬ TooSoon s.toDev p) {P : Dev → Prop}
    (h : P (settle (fabPresent p (fabTaken p s.toDev)))) : Does (.producerEvent p) s P := by
  have presents := fabEvent_presents raised free apart
  refine .of_act (f := fabEvent p) rfl up (up.calm (Nat.le_of_eq ?_)) (by rwa [presents])
  rw [presents]
  exact (fabPresent_sampled p (fabTaken p s.toDev)).now

end

/-! ### HOLDOFF_END -/

theorem holdoffEnd_none {c : Fin 256} (idle : s.fab.chan[c].act = none) : exec (.holdoffEnd c) s = after s s.toDev := by
  refine exec_of_act (f := fabHoldoffEnd c) rfl up ?_ (up.calm (Nat.le_refl _))
  rw [fabHoldoffEnd, idle]

section
variable {c : Fin 256} {e : Nat} (act : s.fab.chan[c].act = some e) (calm : Calm s (e + fabHold s.toDev c))
include act calm

theorem holdoffEnd_issues (pend : s.fab.chan[c].pend = true) : Does (.holdoffEnd c) s fun t =>
    Activated c (e + fabHold s.toDev c) s.toDev t ∧ t.now = max s.now (e + fabHold s.toDev c) := by
  have issues : fabHoldoffEnd c s.toDev = fabActivate c (e + fabHold s.toDev c) (s.toDev.at (e + fabHold s.toDev c)) := by
    rw [fabHoldoffEnd, act]
    exact if_pos pend
  have at_ : (fabActivate c (e + fabHold s.toDev c) (s.toDev.at (e + fabHold s.toDev c))).now = max s.now (e + fabHold s.toDev c) :=
    (fabActivate_sampled _).now
  refine .of_act (f := fabHoldoffEnd c) rfl up ?_ ?_
  · rw [issues, at_]
    exact calm_max.2 calm
  · rw [issues]
    exact ⟨.settled (.of_regs (fabActivate_activated (e + fabHold s.toDev c)) rfl), (settle_now _).trans at_⟩

theorem holdoffEnd_rests (rests : s.fab.chan[c].pend = false) :
    exec (.holdoffEnd c) s = after s (s.toDev.at (e + fabHold s.toDev c)) := by
  refine exec_of_act (f := fabHoldoffEnd c) rfl up ?_ (calm_max.2 calm)
  rw [fabHoldoffEnd, act]
  exact if_neg (by rw [rests]; decide)

end

/-! ### PRODUCER_HOLD_END -/

theorem producerHoldEnd_none (free : p ∉ s.fab.held) : exec (.producerHoldEnd p) s = after s s.toDev :=
  exec_of_act (f := fabHoldEnd p) rfl up (by simp [fabHoldEnd, free]) (up.calm (Nat.le_refl _))

theorem producerHoldEnd_presents {t0 : Nat} (held : p ∈ s.fab.held) (last : fabLast s.toDev p = some t0)
    (calm : Calm s (t0 + 3 * fabStrobe s.toDev)) : Does (.producerHoldEnd p) s fun t => t.fab.held = s.fab.held.erase p ∧
      fabLast t p = some (max s.now (t0 + 3 * fabStrobe s.toDev)) ∧ t.now = max s.now (t0 + 3 * fabStrobe s.toDev) := by
  obtain ⟨y, hy⟩ : ∃ y, y = { s.toDev.at (t0 + 3 * fabStrobe s.toDev) with fab := { s.fab with held := s.fab.held.erase p } } := ⟨_, rfl⟩
  have presents : fabHoldEnd p s.toDev = fabPresent p y := by
    have held' : s.fab.held.contains p = true := by simpa using held
    rw [fabHoldEnd, held', last, hy]
    rfl
  have sampled := fabPresent_sampled p y
  have at_ : y.now = max s.now (t0 + 3 * fabStrobe s.toDev) := by rw [hy]; rfl
  have now : (fabPresent p y).now = max s.now (t0 + 3 * fabStrobe s.toDev) := sampled.now.trans at_
  refine .of_act (f := fabHoldEnd p) rfl up ?_ ?_
  · rw [presents, now]
    exact calm_max.2 calm
  · rw [presents, settle_fab, settle_fabLast, settle_now, sampled.held, sampled.fabLast, fabStamped_last, now, at_, hy]
    exact ⟨rfl, rfl, rfl⟩

end

end Sys2Proof.Machine
end

section
/-!
SUPPORT. SWTRIG (R187) and CHANNEL_WRITE (R196).
-/
set_option Elab.async false
namespace Sys2Proof.Machine
open Sys2Proof

@[simp] theorem asked_fab (by_ : Requester) (d : Dev) : (asked by_ d).fab = d.fab := Dev.tagPulse_fab ..

/-! ### SWTRIG -/

theorem raise_raised {d : Dev} {p : Nat} (h : p < 512) : (d.raise p).fab.raised.map Fin.val = d.fab.raised.map Fin.val ++ [p] := by
  simp [Dev.raise, h]

/-- Producers that are raised in turn wait in that order behind those that waited. -/
theorem each_raise_raised {l : List Nat} {num : Nat → Nat} (bound : ∀ b ∈ l, num b < 512) (d : Dev) :
    (d.each l fun b d => d.raise (num b)).fab.raised.map Fin.val = d.fab.raised.map Fin.val ++ l.map num := by
  induction l generalizing d with
  | nil => simp [Dev.each]
  | cons b l ih =>
    have first := raise_raised (d := d) (bound b (by simp))
    have rest := ih (fun x hx => bound x (by simp [hx])) (d.raise (num b))
    rw [first, List.append_assoc] at rest
    exact rest

/-- The bits of a write of SWTRIG that trigger their producers (R187). -/
def swtrigBits (by_ : Requester) (v : Word) : List Nat := (List.range 16).filter fun b => v.getLsbD b && (decide (b < 8) || by_ == .core 4)

theorem swtrigBits_lt {by_ : Requester} {v : Word} {b : Nat} (h : b ∈ swtrigBits by_ v) : 480 + b < 512 := by
  have := List.mem_range.1 (List.mem_filter.1 h).1
  omega

theorem fabSwtrig_eq (by_ : Requester) (v : Word) (d : Dev) : fabSwtrig by_ v d =
    (d.each (swtrigBits by_ v) fun b d => d.raise (480 + b)).flagIf (!(by_ == .core 4) && bitsN v.toNat 15 8 != 0) (.ev .evstat) EVSTAT.SWREJ :=
  rfl

theorem swtrig_does {s : State} {by_ : Requester} {v : Word} (asks : Asks by_ s (.ev .swtrig)) : Does (.swtrig by_ v) s fun t =>
    t.fab.raised.map Fin.val = s.fab.raised.map Fin.val ++ (swtrigBits by_ v).map (480 + ·) ∧
    (by_ ≠ .core 4 → v.toNat / 256 % 256 ≠ 0 → t.b (.ev .evstat) EVSTAT.SWREJ = true) := by
  have still : (fabSwtrig by_ v (asked by_ s.toDev)).now = s.now := by
    rw [fabSwtrig_eq, Dev.flagIf_now, Dev.each_now _ fun _ _ => Dev.raise_now .., asked_now]
  refine .of_write (e := fabSwtrig by_ v (asked by_ s.toDev)) rfl asks (by simp [heldMask]) rfl (asks.up.calm (Nat.le_of_eq still)) ?_
  rw [settle_fab, settle_b, fabSwtrig_eq]
  constructor
  · rw [Dev.flagIf_fab, each_raise_raised fun _ => swtrigBits_lt, asked_fab]
  · intro other closed
    have refused : (!(by_ == .core 4) && bitsN v.toNat 15 8 != 0) = true := by simpa [bitsN] using ⟨other, closed⟩
    rw [refused]
    exact Dev.b_flag _ _ (by decide)

/-! ### CHANNEL_WRITE -/

/-- The owner of channel c admits the requester (R196). -/
def Admits (d : Dev) (by_ : Requester) (c : Fin 256) : Prop :=
  if d.b (.ch c .own) CH_OWN.SEC then by_ = .core 4
  else d.f (.ch c .own) CH_OWN.OWNER = 0 ∨ (d.f (.ch c .own) CH_OWN.OWNER ≠ 7 ∧ d.f (.ch c .own) CH_OWN.OWNER = reqCode by_ + 1)

theorem fabMayWrite_iff {d : Dev} {by_ : Requester} {c : Fin 256} : fabMayWrite d by_ c = true ↔ Admits d by_ c := by
  unfold fabMayWrite Admits
  cases d.b (.ch c .own) CH_OWN.SEC with
  | true => simp
  | false =>
    simp only [Bool.false_eq_true, if_false]
    split
    · next open_ => simp [open_]
    · next none => simp [none]
    · next shared reserved => rw [or_iff_right shared, and_iff_right reserved, beq_iff_eq]

theorem fabMayWrite_asked {d : Dev} {by_ : Requester} {c : Fin 256} : fabMayWrite (asked by_ d) by_ c = fabMayWrite d by_ c := by
  rw [fabMayWrite, b_asked (by simp), f_asked (by simp)]; rfl

/-- A refused write of a channel names the channel and the requester (R196). -/
def chRefused (by_ : Requester) (c : Fin 256) (d : Dev) : Dev :=
  let sec := d.b (.ch c .own) CH_OWN.SEC
  let d1 := d.flag (.ev .evstat) (if sec then EVSTAT.SECREJ else EVSTAT.OWNREJ)
  let d2 := (d1.setF (.ev .evstat) EVSTAT.REJCH c.val).setF (.ev .evstat) EVSTAT.REJREQ (reqCode by_)
  if sec then d2.pulse 408 else d2

theorem chWrite_own (by_ : Requester) (c : Fin 256) (v : Word) (d : Dev) : chWrite by_ c .own v d = d := rfl

theorem chWrite_eq {by_ : Requester} {c : Fin 256} {part : ChanPart} (named : part ≠ .own) (v : Word) (d : Dev) :
    chWrite by_ c (chanReg part) v d = if fabMayWrite d by_ c then d.wr (.ch c (chanReg part)) v else chRefused by_ c d := by
  cases part with
  | en k => rfl
  | ctl => rfl
  | own => exact absurd rfl named

section
variable {by_ : Requester} {c : Fin 256} {d : Dev}

/-- The registers of a device that has refused a write of a channel. -/
theorem chRefused_get (r : Reg) : (chRefused by_ c d).get r =
    (((d.flag (.ev .evstat) (if d.b (.ch c .own) CH_OWN.SEC then EVSTAT.SECREJ else EVSTAT.OWNREJ)).setF (.ev .evstat) EVSTAT.REJCH c.val).setF
      (.ev .evstat) EVSTAT.REJREQ (reqCode by_)).get r := by
  unfold chRefused
  dsimp only
  split <;> rfl

theorem chRefused_now : (chRefused by_ c d).now = d.now := by
  unfold chRefused
  dsimp only
  split <;> rfl

theorem chRefused_get_ne {r : Reg} (h : r ≠ .ev .evstat) : (chRefused by_ c d).get r = d.get r := by
  rw [chRefused_get, Dev.get_setF_ne _ h, Dev.get_setF_ne _ h]
  exact Dev.get_setF_ne _ h _ _

theorem reqCode_lt (by_ : Requester) : reqCode by_ < 8 := by
  cases by_ with
  | core c => exact Nat.lt_trans c.isLt (by decide)
  | host => decide

theorem chRefused_req : (chRefused by_ c d).f (.ev .evstat) EVSTAT.REJREQ = reqCode by_ := by
  rw [Dev.f, chRefused_get, ← Dev.f, Dev.f_setF _ _ (by decide)]
  exact Nat.mod_eq_of_lt (reqCode_lt by_)

theorem chRefused_ch : (chRefused by_ c d).f (.ev .evstat) EVSTAT.REJCH = c.val := by
  rw [Dev.f, chRefused_get, Dev.setF, Dev.get_put_same, Fld.get_put_apart (by decide) (by decide) (by decide), ← Dev.f,
    Dev.f_setF _ _ (by decide)]
  exact Nat.mod_eq_of_lt c.isLt

theorem chRefused_flag : (chRefused by_ c d).b (.ev .evstat) (if d.b (.ch c .own) CH_OWN.SEC then EVSTAT.SECREJ else EVSTAT.OWNREJ) = true := by
  have stands {f : Fld} (hf : f.ok = true) (hc : f.apart EVSTAT.REJCH = true) (hr : f.apart EVSTAT.REJREQ = true) :
      (((d.flag (.ev .evstat) f).setF (.ev .evstat) EVSTAT.REJCH c.val).setF (.ev .evstat) EVSTAT.REJREQ (reqCode by_)).b (.ev .evstat) f = true := by
    rw [Dev.setF, Dev.b_put, if_pos rfl, Fld.bit_put_apart hf (by decide) hr, Dev.setF, Dev.get_put_same, Fld.bit_put_apart hf (by decide) hc]
    exact Dev.b_flag d _ hf
  rw [Dev.b, chRefused_get]
  split
  · exact stands (by decide) (by decide) (by decide)
  · exact stands (by decide) (by decide) (by decide)

end

section
variable {s : State} {by_ : Requester} {c : Fin 256} {part : ChanPart} {v : Word} (asks : Asks by_ s (.ch c (chanReg part)))
include asks

theorem channelWrite_own (own : part = .own) : exec (.channelWrite by_ c part v) s = after s (asked by_ s.toDev) := by
  subst own
  exact exec_of_write rfl asks (by simp [heldMask]) (chWrite_own by_ c v _) (asks.up.calm (by rw [asked_now]))

theorem channelWrite_admitted (named : part ≠ .own) (admits : Admits s.toDev by_ c) :
    exec (.channelWrite by_ c part v) s = after s ((asked by_ s.toDev).wr (.ch c (chanReg part)) v) := by
  refine exec_of_write rfl asks (by simp [heldMask]) ?_ (asks.up.calm (by rw [Dev.wr_now, asked_now]))
  exact (chWrite_eq named v _).trans (if_pos (fabMayWrite_asked.trans (fabMayWrite_iff.2 admits)))

theorem channelWrite_refused (named : part ≠ .own) (other : ¬ Admits s.toDev by_ c) : Does (.channelWrite by_ c part v) s fun t =>
    t.get (.ch c (chanReg part)) = s.get (.ch c (chanReg part)) ∧
    t.b (.ev .evstat) (if s.b (.ch c .own) CH_OWN.SEC then EVSTAT.SECREJ else EVSTAT.OWNREJ) = true ∧
    t.f (.ev .evstat) EVSTAT.REJCH = c.val ∧ t.f (.ev .evstat) EVSTAT.REJREQ = reqCode by_ := by
  have refused : writeNow by_ (.ch c (chanReg part)) v (asked by_ s.toDev) = chRefused by_ c (asked by_ s.toDev) :=
    (chWrite_eq named v _).trans (if_neg fun may => other (fabMayWrite_iff.1 (fabMayWrite_asked.symm.trans may)))
  refine .of_write rfl asks (by simp [heldMask]) refused (asks.up.calm (by rw [chRefused_now, asked_now])) ?_
  have sec : (asked by_ s.toDev).b (.ch c .own) CH_OWN.SEC = s.b (.ch c .own) CH_OWN.SEC := b_asked (by simp) _
  rw [settle_get, settle_b, settle_f, settle_f, chRefused_get_ne (by simp), get_asked (by simp), ← sec]
  exact ⟨rfl, chRefused_flag, chRefused_ch, chRefused_req⟩

end

end Sys2Proof.Machine
end

section
/-!
PROOF. O43, by command.
-/
set_option Elab.async false
namespace Sys2Proof.Proofs
open Sys2Proof Sys2Proof.Machine

/-- Settles O43: a sample touches its own channel alone, so that what the channel does stands apart from the other channels that hear the
same event. -/
theorem eventFabric : Obligations.EventFabric := by
  unfold Obligations.EventFabric
  intro s by_ p c v part up d x strobe edge hold soon count activates
  have active {e : Nat} {t : Dev} (h : Activated c e d t) : activates e t := ⟨h.chan, h.cnt, h.tasks⟩
  refine ⟨producerEvent_none up, fun raised => ⟨producerEvent_merges up raised, producerEvent_holds up raised, fun free apart => ?_⟩,
    holdoffEnd_none up, fun e act calm => ⟨fun pend => ?_, holdoffEnd_rests up act calm⟩, fun t0 => producerHoldEnd_presents up,
    producerHoldEnd_none up, swtrig_does, fun asks => ⟨channelWrite_own asks, channelWrite_admitted asks, channelWrite_refused asks⟩⟩
  · have sampled := fabPresent_sampled p (fabTaken p d)
    refine producerEvent_presents up raised free apart ⟨?_, ?_, fun off => ?_, fun on idle => ?_,
      fun e on act rests late => ⟨fun ended => ?_, fun early => ?_⟩, fun on act rests => ?_⟩
    · rw [settle_fab, sampled.raised]
      rfl
    · rw [settle_fabLast, sampled.fabLast, fabStamped_last]
      rfl
    · rw [settle_fab]
      exact fabPresent_chan_off off
    · refine active (Activated.settled (.of_regs (fabPresent_activates (d := fabTaken p d) on fun y same => ?_) rfl))
      exact fabSample_idle (by rw [same.chan]; exact idle) _
    · refine active (Activated.settled (.of_regs (fabPresent_activates (d := fabTaken p d) on fun y same => ?_) rfl))
      exact fabSample_activates (by rw [same.chan]; exact act) (by rw [same.chan]; exact rests) late (by rw [same.hold]; exact ended)
    · rw [settle_fab]
      exact fabPresent_pends (d := fabTaken p d) on act rests late early
    · rw [settle_fab]
      obtain ⟨chan, merges⟩ := fabPresent_merges (d := fabTaken p d) on act rests
      exact ⟨chan, (settle_f ..).trans merges⟩
  · obtain ⟨t, made, kept, activated, now⟩ := holdoffEnd_issues up act calm pend
    exact ⟨t, made, kept, active activated, now⟩

end Sys2Proof.Proofs
end

section
/-!
SUPPORT. The interrupt controller's enables, software sources and targets (R200, R205, R206, R215), and the end of a moderation window
(R211).
-/
set_option Elab.async false
namespace Sys2Proof.Machine
open Sys2Proof

/-! ### Enables -/

theorem settle_keeps_inLine {d : Dev} {s : Nat} (hs : s < 384) (h : InLine d s) : InLine (settle d) s := by
  rw [settle_eq]
  split
  · exact icFollowed_inLine d hs
  · exact h

theorem icEnable_tracks (k : Fin 12) (v : Word) (d : Dev) : Tracks (d.put (.ic (.icen k)) v) (icEnable k v d) :=
  tracks_each (fun b => icFollow_tracks (32 * k.val + b)) _

theorem icEnable_inLine (k : Fin 12) (v : Word) (d : Dev) {b : Nat} (hb : b < 32) : InLine (icEnable k v d) (32 * k.val + b) :=
  each_icFollow_inLine (num := fun b => 32 * k.val + b) (fun j hj => by have := List.mem_range.1 hj; omega) (List.mem_range.2 hb) _

/-- Enable word k holds w, the other words as they were, and the sources of word k are in line (R200, R201). -/
structure Enabled (k : Fin 12) (w : Word) (d t : Dev) : Prop where
  get : ∀ j, t.get (.ic (.icen j)) = if j = k then w else d.get (.ic (.icen j))
  inLine : ∀ b : Fin 32, InLine t (32 * k.val + b.val)
  core : t.core = d.core
  mem : t.mem = d.mem

theorem icEnable_enabled (k : Fin 12) (w : Word) (d : Dev) : Enabled k w d (settle (icEnable k w d)) where
  get j := by
    rw [settle_get, (icEnable_tracks k w d).get, Dev.get_put]
    simp
  inLine b := settle_keeps_inLine (by omega) (icEnable_inLine k w d b.isLt)
  core := (settle_core _).trans (icEnable_tracks k w d).core
  mem := (settle_mem _).trans (icEnable_tracks k w d).mem

/-- Of the device before it, the clause sees the enables, the cores and the memory. -/
theorem Enabled.of_asked {k : Fin 12} {w : Word} {by_ : Requester} {d t : Dev} (h : Enabled k w (asked by_ d) t) : Enabled k w d t :=
  { h with get := fun j => by rw [h.get, get_asked (by simp)] }

section
variable {s : State} {by_ : Requester} {k : Fin 12} {v : Word}

theorem icenset_does (asks : Asks by_ s (.ic (.icenset k))) : Does (.icenset by_ k v) s
    (Enabled k (s.get (.ic (.icen k)) ||| v) s.toDev) := by
  refine .of_write rfl asks (by simp [heldMask]) (rfl : _ = icEnable k ((asked by_ s.toDev).get (.ic (.icen k)) ||| v) (asked by_ s.toDev))
    (asks.up.calm (by rw [icEnable_now, asked_now])) ?_
  rw [get_asked (by simp)]
  exact (icEnable_enabled ..).of_asked

theorem icenclr_does (asks : Asks by_ s (.ic (.icenclr k))) : Does (.icenclr by_ k v) s
    (Enabled k (s.get (.ic (.icen k)) &&& ~~~ v) s.toDev) := by
  refine .of_write rfl asks (by simp [heldMask]) (rfl : _ = icEnable k ((asked by_ s.toDev).get (.ic (.icen k)) &&& ~~~ v) (asked by_ s.toDev))
    (asks.up.calm (by rw [icEnable_now, asked_now])) ?_
  rw [get_asked (by simp)]
  exact (icEnable_enabled ..).of_asked

/-! ### Software sources -/

theorem iswset_eq (asks : Asks by_ s (.ic .iswset)) : exec (.iswset by_ v) s =
    after s ((asked by_ s.toDev).put (.ic .iswset) (s.get (.ic .iswset) ||| (v &&& 0xFF))) := by
  refine exec_of_write rfl asks (by simp [heldMask]) ?_ (asks.up.calm (by rw [Dev.put_now, asked_now]))
  rw [← get_asked (by_ := by_) (by simp)]
  rfl

theorem iswclr_eq (asks : Asks by_ s (.ic .iswclr)) : exec (.iswclr by_ v) s =
    after s ((asked by_ s.toDev).put (.ic .iswset) (s.get (.ic .iswset) &&& ~~~ v)) := by
  refine exec_of_write rfl asks (by simp [heldMask]) ?_ (asks.up.calm (by rw [Dev.put_now, asked_now]))
  rw [← get_asked (by_ := by_) (by simp)]
  rfl

end

/-! ### Writes of a target's registers -/

/-- The requester may write the registers of target c: those of S from S alone (R215). -/
def Mine (by_ : Requester) (c : Fin 5) : Prop := c ≠ 4 ∨ by_ = .core 4

theorem mine_iff {by_ : Requester} {c : Fin 5} : Mine by_ c ↔ ¬ (c = 4 ∧ by_ ≠ .core 4) := by
  rw [Mine, not_and_or, not_not]

theorem iccWrite_refused {by_ : Requester} {c : Fin 5} (other : ¬ Mine by_ c) (r : IccReg) (v : Word) (d : Dev) :
    iccWrite by_ c r v d = d.flag (.icc c .icstat) ICSTAT.WREJ := if_pos (not_not.1 fun h => other (mine_iff.2 h))

section
variable {by_ : Requester} {c : Fin 5} (mine : Mine by_ c) (v : Word) (d : Dev)
include mine

theorem iccWrite_iceoi : iccWrite by_ c .iceoi v d = icEoi c (ICEOI.SRC.get v) d := if_neg (mine_iff.1 mine)
theorem iccWrite_icqdone : iccWrite by_ c .icqdone v d = icDone c (ICQDONE.SRC.get v) d := if_neg (mine_iff.1 mine)
theorem iccWrite_icqrd : iccWrite by_ c .icqrd v d = icWriteRd c v d := if_neg (mine_iff.1 mine)
theorem iccWrite_iccfg : iccWrite by_ c .iccfg v d = icWriteCfg c v d := if_neg (mine_iff.1 mine)

end

/-! ### ICQRD_WRITE -/

theorem icWriteRd_regs (c : Fin 5) (v : Word) (d : Dev) : (icWriteRd c v d).regs = (d.wr (.icc c .icqrd) v).regs := by
  unfold icWriteRd
  dsimp only
  split <;> rfl

theorem icWriteRd_now (c : Fin 5) (v : Word) (d : Dev) : (icWriteRd c v d).now = d.now := by
  unfold icWriteRd
  dsimp only
  split <;> rfl

theorem icqrdWrite_does {s : State} {by_ : Requester} {c : Fin 5} {v : Word} (asks : Asks by_ s (.icc c .icqrd)) (mine : Mine by_ c) :
    Does (.icqrdWrite by_ c v) s fun t =>
      t.get (.icc c .icqrd) = plainWrite (IccReg.access .icqrd) (s.get (.icc c .icqrd)) v := by
  refine .of_write rfl asks (by simp [heldMask]) (iccWrite_icqrd mine v _) (asks.up.calm (by rw [icWriteRd_now, asked_now])) ?_
  rw [settle_get, Dev.get_congr (icWriteRd_regs ..), Dev.get_wr_same, get_asked (by simp)]
  rfl

/-! ### IC_TARGET_ENABLE -/

/-- The ring of target c, as its registers give it, may be enabled (R205). -/
def RingFits (base q : Nat) : Prop := base % 16 = 0 ∧ 4 ≤ q ∧ q ≤ 12 ∧ 0x20000000 ≤ base ∧ base + 16 * 2 ^ q ≤ 0x20400000

theorem icRingOk_iff {d : Dev} {c : Fin 5} :
    icRingOk d c = true ↔ RingFits (d.get (.icc c .icqbase)).toNat (d.f (.icc c .icqsize) ICQSIZE.QSZ) := by
  simp [icRingOk, RingFits]

theorem icRingOk_asked {by_ : Requester} {d : Dev} {c : Fin 5} : icRingOk (asked by_ d) c = icRingOk d c := by
  rw [icRingOk, get_asked (by simp), f_asked (by simp)]; rfl

/-- The word of ICCFGc that a write leaves. -/
def cfgWord (c : Fin 5) (v : Word) (d : Dev) : Word := plainWrite (IccReg.access .iccfg) (d.get (.icc c .iccfg)) v

theorem cfgWord_en (c : Fin 5) (v : Word) (d : Dev) : ICCFG.EN.bit (cfgWord c (ICCFG.EN.put 1 v) d) = true := by
  rw [cfgWord, Fld.bit_plainWrite (by decide) (by decide), Fld.bit_put (by decide)]
  rfl

theorem cfgWord_mode (c : Fin 5) (v : Word) (d : Dev) : ICCFG.MODE.bit (cfgWord c (ICCFG.EN.put 1 v) d) = ICCFG.MODE.bit v := by
  rw [cfgWord, Fld.bit_plainWrite (by decide) (by decide), Fld.bit_put_apart (by decide) (by decide) (by decide)]

section
variable {c : Fin 5} {v : Word} {d : Dev} (off : icEn d c = false) (en : ICCFG.EN.bit (cfgWord c v d) = true)
include off en

theorem icWriteCfg_direct (direct : ICCFG.MODE.bit (cfgWord c v d) = false) : icWriteCfg c v d = d.put (.icc c .iccfg) (cfgWord c v d) := by
  unfold cfgWord at en direct ⊢
  simp [icWriteCfg, off, en, direct]

theorem icWriteCfg_ring (queue : ICCFG.MODE.bit (cfgWord c v d) = true) (fits : icRingOk d c = true) : icWriteCfg c v d =
    (((d.put (.icc c .iccfg) (cfgWord c v d)).put (.icc c .icqwr) 0).put (.icc c .icqrd) 0).tgtU c fun t => { t with ringOpen := false } := by
  unfold cfgWord at en queue ⊢
  simp [icWriteCfg, off, en, queue, fits]

theorem icWriteCfg_noRing (queue : ICCFG.MODE.bit (cfgWord c v d) = true) (unfit : icRingOk d c = false) : icWriteCfg c v d =
    d.flag (.icc c .icstat) ICSTAT.ENREJ := by
  unfold cfgWord at en queue
  simp [icWriteCfg, off, en, queue, unfit]

end

section
variable {s : State} {by_ : Requester} {c : Fin 5} {v : Word} (asks : Asks by_ s (.icc c .iccfg)) (mine : Mine by_ c)
  (off : s.b (.icc c .iccfg) ICCFG.EN = false)
include asks mine off

/-- The write that asks to enable a target leaves what its configuration's write does. -/
theorem icTargetEnable_of {P : Dev → Prop} {e : Dev}
    (made : icEn (asked by_ s.toDev) c = false → icWriteCfg c (ICCFG.EN.put 1 v) (asked by_ s.toDev) = e) (still : e.now = s.now)
    (h : P (settle e)) : Does (.icTargetEnable by_ c v) s P :=
  .of_write rfl asks (by simp [heldMask]) ((iccWrite_iccfg mine _ _).trans (made ((b_asked (by simp) _).trans off)))
    (asks.up.calm (Nat.le_of_eq still)) h

theorem icTargetEnable_direct (direct : ICCFG.MODE.bit v = false) : Does (.icTargetEnable by_ c v) s fun t =>
    t.b (.icc c .iccfg) ICCFG.EN = true := by
  refine icTargetEnable_of asks mine off (fun off => icWriteCfg_direct off (cfgWord_en ..) ((cfgWord_mode ..).trans direct)) rfl ?_
  rw [settle_b, Dev.b_put, if_pos rfl, cfgWord_en]

section
variable (queue : ICCFG.MODE.bit v = true)
include queue

theorem icTargetEnable_ring (fits : icRingOk s.toDev c = true) : Does (.icTargetEnable by_ c v) s fun t =>
    t.b (.icc c .iccfg) ICCFG.EN = true ∧ t.get (.icc c .icqwr) = 0 ∧ t.get (.icc c .icqrd) = 0 := by
  refine icTargetEnable_of asks mine off
    (fun off => icWriteCfg_ring off (cfgWord_en ..) ((cfgWord_mode ..).trans queue) (icRingOk_asked.trans fits)) rfl ?_
  simp only [settle_get, Dev.b, Dev.get_congr (Dev.tgtU_regs ..)]
  refine ⟨?_, ?_, Dev.get_put_same ..⟩
  · rw [Dev.get_put_ne _ (by simp), Dev.get_put_ne _ (by simp), Dev.get_put_same, cfgWord_en]
  · rw [Dev.get_put_ne _ (by simp), Dev.get_put_same]

theorem icTargetEnable_noRing (unfit : icRingOk s.toDev c = false) : Does (.icTargetEnable by_ c v) s fun t =>
    t.get (.icc c .iccfg) = s.get (.icc c .iccfg) ∧ t.b (.icc c .icstat) ICSTAT.ENREJ = true := by
  refine icTargetEnable_of asks mine off
    (fun off => icWriteCfg_noRing off (cfgWord_en ..) ((cfgWord_mode ..).trans queue) (icRingOk_asked.trans unfit)) rfl ?_
  rw [settle_get, settle_b]
  exact ⟨(Dev.get_setF_ne _ (by simp) _ _).trans (get_asked (by simp)), Dev.b_flag _ _ (by decide)⟩

end

end

/-! ### MODERATION_TIMEOUT -/

section
variable {s : State} {c : Fin 5} (up : Up s)
include up

theorem moderationTimeout_none (closed : s.ic.tgt[c].win = none) : exec (.moderationTimeout c) s = after s s.toDev := by
  refine exec_of_act (f := icModTimeout c) rfl up ?_ (up.calm (Nat.le_refl _))
  rw [icModTimeout, closed]

theorem moderationTimeout_closes {w : ModWin} {n us : Nat} (open_ : s.ic.tgt[c].win = some w) (par : icModPar s.toDev c = some (n, us))
    (timed : us ≠ 0) (calm : Calm s (w.at_ + us * tuUs)) : exec (.moderationTimeout c) s =
      after s ((s.toDev.at (w.at_ + us * tuUs)).tgtU c fun t => { t with win := none }) := by
  refine exec_of_act (f := icModTimeout c) rfl up ?_ (calm_max.2 calm)
  rw [icModTimeout, open_, par]
  exact if_neg timed

end

end Sys2Proof.Machine
end

section
/-!
SUPPORT. The end of service: ICEOI with its stack checks (R203, R213), and ICQDONE (R210).
-/
set_option Elab.async false
namespace Sys2Proof.Machine
open Sys2Proof

/-! ### Stack errors -/

/-- Target c's stack is broken for a cause, the first that was found; its core is to halt, and the line of it is asserted (R213). -/
structure Broke (c : Fin 5) (cause : Nat) (d t : Dev) : Prop where
  broken : t.ic.tgt[c].broken = true
  first : t.ic.tgt[c].cause = if d.ic.tgt[c].broken then d.ic.tgt[c].cause else cause
  halt : t.core[c].haltRq = true
  line : 392 + c.val ∈ t.fc.fresh
  stack : t.ic.tgt[c].stack = d.ic.tgt[c].stack

theorem icBreak_tgt (c : Fin 5) (cause : Nat) (d : Dev) : (icBreak c cause d).ic.tgt[c] =
    { d.ic.tgt[c] with broken := true, cause := if d.ic.tgt[c].broken then d.ic.tgt[c].cause else cause } :=
  tgtU_tgt_same d c fun t => { t with broken := true, cause := if t.broken then t.cause else cause }

theorem icBreak_broke (c : Fin 5) (cause : Nat) (d : Dev) : Broke c cause d (icBreak c cause d) where
  broken := by rw [icBreak_tgt]
  first := by rw [icBreak_tgt]
  halt := by simp [icBreak, Dev.pulse]
  line := mem_insLine ..
  stack := by rw [icBreak_tgt]

theorem Broke.settled {c : Fin 5} {cause : Nat} {d t : Dev} (h : Broke c cause d t) : Broke c cause d (settle t) := by
  obtain ⟨win, withheld, woke, kept⟩ := (settle_tracks t).tgt c
  exact ⟨by rw [kept]; exact h.broken, by rw [kept]; exact h.first, by rw [settle_core]; exact h.halt,
    by rw [settle_fc]; exact h.line, by rw [kept]; exact h.stack⟩

/-! ### A source whose service ends -/

/-- Source s is served no more, before it is looked at again (R204). -/
def icFreed (s : Nat) (d : Dev) : Dev :=
  d.srcU s fun x => { x with serve := .free, pendAt := none, resamp := false, heldQ := false, open_ := false }

/-- Every source has the service that it had, and every target but for its window stands. -/
structure Serves (d e : Dev) : Prop where
  serve : ∀ s, (icSrc e s).serve = (icSrc d s).serve
  tgt : ∀ c : Fin 5, ∃ win withheld woke, e.ic.tgt[c] = { d.ic.tgt[c] with win, withheld, woke }

theorem Tracks.serves {d e : Dev} (h : Tracks d e) : Serves d e := ⟨h.serve, h.tgt⟩

theorem Serves.trans {c d e : Dev} (h : Serves c d) (k : Serves d e) : Serves c e where
  serve s := (k.serve s).trans (h.serve s)
  tgt b := by
    obtain ⟨_, _, _, h⟩ := h.tgt b
    obtain ⟨win, withheld, woke, k⟩ := k.tgt b
    exact ⟨win, withheld, woke, by rw [k, h]⟩

/-- A resample, whatever the storm guard makes of it, leaves the services and the stacks. -/
theorem icResample_serves (s : Nat) (d : Dev) : Serves (icFreed s d) (icResample s d) := by
  have storm (n : Nat) : Tracks (icFreed s d) ((icFreed s d).srcU s fun x => { x with storm := n }) := tracks_srcU rfl
  have resampled (e : Dev) (h : Tracks (icFreed s d) e) : Serves (icFreed s d) (icBecome s true e) :=
    (h.trans (icBecome_tracks s true e)).serves
  unfold icResample
  extract_lets n d0
  repeat' split
  · exact ⟨(storm 0).serve, (storm 0).tgt⟩
  · exact resampled _ (.refl _)
  · exact resampled _ (tracks_srcU rfl)
  · exact (Tracks.refl _).serves
  · exact (storm 0).serves

theorem icResample_free (s : Nat) (d : Dev) : (icSrc (icResample s d) s).serve = .free := by
  rw [(icResample_serves s d).serve, icFreed, icSrc_srcU_same]

/-! ### ICEOI -/

theorem icCheck_closed {d : Dev} {c : Fin 5} (closed : d.ic.tgt[c].chkOpen = false) (bad : Bool) : icCheck c bad d = (bad, d) := by
  rw [icCheck, closed]
  exact if_neg (by decide)

/-- The stack of target c once its top entry is taken. -/
def icPopped (c : Fin 5) (rest : List StkEnt) (d : Dev) : Dev :=
  d.tgtU c fun t => { t with stack := rest, chkOpen := t.chkOpen && !rest.isEmpty }

section
variable {c : Fin 5} {x : Nat} {d : Dev}

theorem icEoi_empty (empty : d.ic.tgt[c].stack = []) : icEoi c x d = icBreak c 2 d := by rw [icEoi, empty]

section
variable {e : StkEnt} {rest : List StkEnt} (top : d.ic.tgt[c].stack = e :: rest)
include top

theorem icParBad_top : icParBad d c = (e.par != icPar e.src e.lvl) := by rw [icParBad, top]; rfl

section
variable (closed : d.ic.tgt[c].chkOpen = false)
include closed

theorem icEoi_parity (bad : e.par ≠ icPar e.src e.lvl) : icEoi c x d = icBreak c 5 d := by
  have wrong : icParBad d c = true := by simpa [icParBad_top top] using bad
  rw [icEoi, top]
  dsimp only
  rw [icCheck_closed closed, if_pos wrong]

section
variable (good : e.par = icPar e.src e.lvl)
include good

theorem icEoi_other (other : e.src ≠ x) : icEoi c x d = icBreak c 1 d := by
  have right : icParBad d c = false := by simpa [icParBad_top top] using good
  rw [icEoi, top]
  dsimp only
  rw [icCheck_closed closed, right, if_neg Bool.false_ne_true, if_pos (by simpa using other)]

theorem icEoi_same (same : e.src = x) : icEoi c x d = if x < 384 then icResample x (icPopped c rest d) else icPopped c rest d := by
  have right : icParBad d c = false := by simpa [icParBad_top top] using good
  rw [icEoi, top]
  dsimp only
  rw [icCheck_closed closed, right, if_neg Bool.false_ne_true, if_neg (by simp [same])]
  rfl

end

end

end

end

/-- Service of source x on target c has ended: its entry is gone, and it is free (R203). -/
structure Ended (c : Fin 5) (x : Nat) (rest : List StkEnt) (d t : Dev) : Prop where
  stack : t.ic.tgt[c].stack = rest
  broken : t.ic.tgt[c].broken = d.ic.tgt[c].broken
  free : x < 384 → (icSrc t x).serve = .free

theorem icPopped_tgt (c : Fin 5) (rest : List StkEnt) (d : Dev) : (icPopped c rest d).ic.tgt[c] =
    { d.ic.tgt[c] with stack := rest, chkOpen := d.ic.tgt[c].chkOpen && !rest.isEmpty } :=
  tgtU_tgt_same d c fun t => { t with stack := rest, chkOpen := t.chkOpen && !rest.isEmpty }

theorem icPopped_ended (c : Fin 5) (x : Nat) (rest : List StkEnt) (d : Dev) :
    Ended c x rest d (if x < 384 then icResample x (icPopped c rest d) else icPopped c rest d) := by
  split
  · obtain ⟨win, withheld, woke, kept⟩ := (icResample_serves x (icPopped c rest d)).tgt c
    have popped : (icFreed x (icPopped c rest d)).ic.tgt[c] = _ := icPopped_tgt c rest d
    rw [popped] at kept
    exact ⟨by rw [kept], by rw [kept], fun _ => icResample_free ..⟩
  · next notSource => exact ⟨by rw [icPopped_tgt], by rw [icPopped_tgt], fun source => absurd source notSource⟩

theorem Ended.settled {c : Fin 5} {x : Nat} {rest : List StkEnt} {d t : Dev} (h : Ended c x rest d t) : Ended c x rest d (settle t) := by
  obtain ⟨win, withheld, woke, kept⟩ := (settle_tracks t).tgt c
  exact ⟨by rw [kept]; exact h.stack, by rw [kept]; exact h.broken, fun source => ((settle_tracks t).serve x).trans (h.free source)⟩

section
variable {s : State} {by_ : Requester} {c : Fin 5} {v : Word} (asks : Asks by_ s (.icc c .iceoi))
include asks

theorem iceoi_refused (other : ¬ Mine by_ c) : exec (.iceoi by_ c v) s =
    after s ((asked by_ s.toDev).flag (.icc c .icstat) ICSTAT.WREJ) :=
  exec_of_write rfl asks (by simp [heldMask]) (iccWrite_refused other .iceoi v _) (asks.up.calm (by rw [Dev.flag_now, asked_now]))

theorem iceoi_of {P : Dev → Prop} (mine : Mine by_ c) {e : Dev} (made : icEoi c (ICEOI.SRC.get v) (asked by_ s.toDev) = e)
    (h : P (settle e)) : Does (.iceoi by_ c v) s P :=
  .of_write rfl asks (by simp [heldMask]) ((iccWrite_iceoi mine v _).trans made)
    (asks.up.calm (by rw [← made, icEoi_now, asked_now])) h

/-- An end of service that finds a stack error breaks the stack. -/
theorem iceoi_breaks (mine : Mine by_ c) {cause : Nat}
    (made : icEoi c (ICEOI.SRC.get v) (asked by_ s.toDev) = icBreak c cause (asked by_ s.toDev)) :
    Does (.iceoi by_ c v) s (Broke c cause s.toDev) := by
  obtain ⟨broken, first, halt, line, stack⟩ := (icBreak_broke c cause (asked by_ s.toDev)).settled
  exact iceoi_of asks mine made ⟨broken, first, halt, line, stack⟩

theorem iceoi_ends (mine : Mine by_ c) {e : StkEnt} {rest : List StkEnt} (top : s.ic.tgt[c].stack = e :: rest)
    (closed : s.ic.tgt[c].chkOpen = false) (good : e.par = icPar e.src e.lvl) (same : e.src = ICEOI.SRC.get v) :
    Does (.iceoi by_ c v) s (Ended c e.src rest s.toDev) := by
  refine iceoi_of asks mine (icEoi_same (d := asked by_ s.toDev) top closed good same) ?_
  rw [← same]
  obtain ⟨stack, broken, free⟩ := (icPopped_ended c e.src rest (asked by_ s.toDev)).settled
  exact ⟨stack, broken, free⟩

end

/-! ### ICQDONE -/

theorem icTarget_asked {by_ : Requester} {d : Dev} {s : Nat} : icTarget (asked by_ d) s = icTarget d s := by
  rw [icTarget, get_asked (by simp), f_asked (by simp)]; rfl

section
variable {s : State} {by_ : Requester} {c : Fin 5} {v : Word} (asks : Asks by_ s (.icc c .icqdone)) (mine : Mine by_ c)
include asks mine

theorem icqdone_frees (source : ICQDONE.SRC.get v < 384) (queued : (icSrc s.toDev (ICQDONE.SRC.get v)).serve = .queued)
    (target : icTarget s.toDev (ICQDONE.SRC.get v) = c) : Does (.icqdone by_ c v) s fun t =>
      (icSrc t (ICQDONE.SRC.get v)).serve = .free := by
  have made : writeNow by_ (.icc c .icqdone) v (asked by_ s.toDev) = icResample (ICQDONE.SRC.get v) (asked by_ s.toDev) :=
    (iccWrite_icqdone mine v _).trans (if_pos ⟨source, queued, icTarget_asked.trans target⟩)
  refine .of_write rfl asks (by simp [heldMask]) made (asks.up.calm (by rw [icResample_now, asked_now])) ?_
  exact ((settle_tracks _).serve _).trans (icResample_free ..)

theorem icqdone_ignored (other : ¬ (ICQDONE.SRC.get v < 384 ∧ (icSrc s.toDev (ICQDONE.SRC.get v)).serve = .queued ∧
    icTarget s.toDev (ICQDONE.SRC.get v) = c)) : exec (.icqdone by_ c v) s = after s (asked by_ s.toDev) := by
  refine exec_of_write rfl asks (by simp [heldMask]) ?_ (asks.up.calm (by rw [asked_now]))
  refine (iccWrite_icqdone mine v _).trans (if_neg fun h => other ?_)
  rwa [icTarget_asked] at h

end

end Sys2Proof.Machine
end

section
/-!
SUPPORT. QUEUE_RECORD (R205-R209): the four words of a record in SRAM, and what a record, a full ring and an empty one leave.
-/
set_option Elab.async false
namespace Sys2Proof.Machine
open Sys2Proof

/-! ### The words of a record -/

theorem eccData_eccEnc (w : Word) : eccData (eccEnc w) = w := by
  apply BitVec.eq_of_toNat_eq
  simp only [eccData, eccEnc, BitVec.toNat_ofNat]
  omega

/-- A word of SRAM is found by the remap entries alone (R319). -/
theorem sramCell_congr {d e : Dev} (remap : ∀ b i, e.get (.sys (.remap b i)) = d.get (.sys (.remap b i))) (a : Nat) :
    sramCell e a = sramCell d a := by
  unfold sramCell Dev.b Dev.f
  simp only [remap]

/-- Memory shows by its words, and by the remap entries of SRAM. -/
theorem memGet_congr {d e : Dev} (mem : e.mem = d.mem) (remap : ∀ b i, e.get (.sys (.remap b i)) = d.get (.sys (.remap b i))) (a : Nat) :
    memGet e a = memGet d a := by
  rw [memGet, sramCell_congr remap, mem]
  rfl

/-- Word i of an aligned record lies i cells after its word 0 (R310, R319). -/
theorem sramCell_word (d : Dev) {a i : Nat} (aligned : a % 16 = 0) (hi : i < 4) : sramCell d (a + 4 * i) = sramCell d a + i := by
  have block : (a + 4 * i) / 64 = a / 64 := by omega
  have bank : sramBank (a + 4 * i) = sramBank a := by rw [sramBank, block]; rfl
  have line : sramLine (a + 4 * i) = sramLine a := by
    unfold sramLine
    omega
  unfold sramCell
  simp only [bank, line]
  split <;> omega

theorem memPut_regs (a : Nat) (v : Ecc) (d : Dev) : (memPut a v d).regs = d.regs := by unfold memPut; split <;> rfl

theorem inLem_of_inSram {a i : Nat} (sram : inSram a = true) (hi : i < 4) : inLem (a + 4 * i) = false := by
  simp only [inSram, inLem, decide_eq_true_eq, decide_eq_false_iff_not] at sram ⊢
  omega

/-- A word of a record that is written reads back, and the others stand. -/
theorem memGet_memWrite_word {a i j : Nat} (aligned : a % 16 = 0) (sram : inSram a = true) (hi : i < 4) (hj : j < 4) (w : Word) (d : Dev) :
    memGet (memWrite (a + 4 * i) w d) (a + 4 * j) = if j = i then eccEnc w else memGet d (a + 4 * j) := by
  split
  · next same => rw [same, memWrite, memGet_memPut_same]
  · next other =>
    have cell : sramCell d (a + 4 * j) ≠ sramCell d (a + 4 * i) := by
      rw [sramCell_word d aligned hi, sramCell_word d aligned hj]
      omega
    unfold memGet memWrite
    rw [inLem_of_inSram sram hj, sramCell_congr fun _ _ => Dev.get_congr (memPut_regs ..) _, memPut, inLem_of_inSram sram hi]
    exact Store.get_set_ne id sramDflt cell _ _

/-- Four words at an address and behind it. -/
def memWrite4 (a : Nat) (w0 w1 w2 w3 : Word) (d : Dev) : Dev :=
  memWrite (a + 12) w3 (memWrite (a + 8) w2 (memWrite (a + 4) w1 (memWrite a w0 d)))

/-- A record in SRAM: its four words (R207). -/
structure RecordAt (a : Nat) (w0 w1 w2 w3 : Word) (t : Dev) : Prop where
  word0 : eccData (memGet t a) = w0
  word1 : eccData (memGet t (a + 4)) = w1
  word2 : eccData (memGet t (a + 8)) = w2
  word3 : eccData (memGet t (a + 12)) = w3

theorem memWrite4_record {a : Nat} (aligned : a % 16 = 0) (sram : inSram a = true) (w0 w1 w2 w3 : Word) (d : Dev) :
    RecordAt a w0 w1 w2 w3 (memWrite4 a w0 w1 w2 w3 d) := by
  have made : memWrite4 a w0 w1 w2 w3 d =
    memWrite (a + 4 * 3) w3 (memWrite (a + 4 * 2) w2 (memWrite (a + 4 * 1) w1 (memWrite (a + 4 * 0) w0 d))) := rfl
  have reads {j : Nat} (hj : j < 4) : eccData (memGet (memWrite4 a w0 w1 w2 w3 d) (a + 4 * j)) =
      if j = 3 then w3 else if j = 2 then w2 else if j = 1 then w1 else if j = 0 then w0 else eccData (memGet d (a + 4 * j)) := by
    rw [made]
    iterate 4 rw [memGet_memWrite_word aligned sram (by decide) hj]
    simp only [apply_ite eccData, eccData_eccEnc]
  exact ⟨reads (j := 0) (by decide), reads (j := 1) (by decide), reads (j := 2) (by decide), reads (j := 3) (by decide)⟩

theorem RecordAt.congr {a : Nat} {w0 w1 w2 w3 : Word} {d t : Dev} (h : RecordAt a w0 w1 w2 w3 d) (mem : t.mem = d.mem)
    (remap : ∀ b i, t.get (.sys (.remap b i)) = d.get (.sys (.remap b i))) : RecordAt a w0 w1 w2 w3 t := by
  have same := memGet_congr mem remap
  exact ⟨by rw [same]; exact h.word0, by rw [same]; exact h.word1, by rw [same]; exact h.word2, by rw [same]; exact h.word3⟩

theorem memWrite4_now (a : Nat) (w0 w1 w2 w3 : Word) (d : Dev) : (memWrite4 a w0 w1 w2 w3 d).now = d.now := by
  simp only [memWrite4, memWrite, memPut_now]

/-! ### What becomes of a ring -/

/-- Where the next record of target c's ring goes (R205). -/
def icNext (d : Dev) (c : Fin 5) : Nat :=
  (d.get (.icc c .icqbase)).toNat + 16 * (d.f (.icc c .icqwr) ICQWR.INDEX % icSlots d c)

/-- Target c records pending sources in a ring, and the next record need not wait. -/
structure RingRuns (d : Dev) (c : Fin 5) : Prop where
  en : d.b (.icc c .iccfg) ICCFG.EN = true
  queue : d.b (.icc c .iccfg) ICCFG.MODE = true
  goes : memWaits d (icNext d c) = false

/-- Word 0 of the record of source x at level l (R207). -/
def recordWord (d : Dev) (c : Fin 5) (x l : Nat) : Word :=
  let wr := d.f (.icc c .icqwr) ICQWR.INDEX
  w32 (2 ^ 31 * (wr / icSlots d c % 2) + 2 ^ 30 * b2n (icSrc d x).pendTv + 2 ^ 29 * b2n (icSrc d x).resamp + 2 ^ 9 * l + x)

/-- Source x of level l stands in target c's ring, before its moderation counts it. -/
def icRecorded (c : Fin 5) (x l : Nat) (d : Dev) : Dev :=
  ((memWrite4 (icNext d c) (recordWord d c x l) 0 (lo32 (icSrc d x).pendTs) (hi32 (icSrc d x).pendTs) d).setF (.icc c .icqwr) ICQWR.INDEX
    (d.f (.icc c .icqwr) ICQWR.INDEX + 1)).srcU x fun x => { x with serve := .queued, pendAt := none, resamp := false, heldQ := false }

/-- The sources that a full ring holds, and counts. -/
def icNewHeld (d : Dev) (c : Fin 5) : List (Nat × Nat) := (icCand d c).filter fun p => !(icSrc d p.1).heldQ

/-- Target c's ring is found full. -/
def icFull (c : Fin 5) (d : Dev) : Dev :=
  (d.tgtU c fun t => { t with full := true, fullCnt := satAdd 0xFFFF t.fullCnt (icNewHeld d c).length }).each (icNewHeld d c) fun p d =>
    d.srcU p.1 fun x => { x with heldQ := true }

section
variable {c : Fin 5} {d : Dev} (runs : RingRuns d c)
include runs

theorem RingRuns.goes_on : (!icEn d c || !icQueue d c || memWaits d ((d.get (.icc c .icqbase)).toNat +
    16 * (d.f (.icc c .icqwr) ICQWR.INDEX % icSlots d c))) = false := by
  have en : icEn d c = true := runs.en
  have queue : icQueue d c = true := runs.queue
  have goes := runs.goes
  rw [icNext] at goes
  rw [en, queue, goes]
  rfl

theorem icRecord_full (full : icLimit d c ≤ icOcc d c) (waits : icCand d c ≠ []) : icRecord c d = icFull c d := by
  have some_ : (icCand d c).isEmpty = false := by simpa using waits
  unfold icRecord
  dsimp only
  rw [runs.goes_on, if_neg Bool.false_ne_true, if_pos full, some_]
  rfl

theorem icRecord_none (room : icOcc d c < icLimit d c) (none : icCand d c = []) : icRecord c d = d := by
  unfold icRecord
  dsimp only
  rw [runs.goes_on, if_neg Bool.false_ne_true, if_neg (Nat.not_le.2 room), none]
  rfl

theorem icRecord_best (known : d.ic.tgt[c].ringOpen = false) (room : icOcc d c < icLimit d c) {x l : Nat}
    (best : icBest (icCand d c) = some (x, l)) : icRecord c d =
      if icModerated d c (d.f (.icc c .iccfg) ICCFG.QLVL) then icModEvent c (icRecorded c x l d) else icRecorded c x l d := by
  unfold icRecord
  dsimp only
  rw [runs.goes_on, if_neg Bool.false_ne_true, if_neg (Nat.not_le.2 room), best]
  dsimp only
  rw [known]
  rfl

end

/-! ### What it leaves -/

theorem each_srcU_keeps {β : Type} {π : Dev → β} (src : ∀ d s g, π (Dev.srcU d s g) = π d) (l : List (Nat × Nat))
    {g : SrcSt → SrcSt} (d : Dev) : π (d.each l fun p d => d.srcU p.1 g) = π d := Dev.each_kept (fun _ _ _ => src ..) d

/-- A full ring takes nothing (R206). -/
structure RingFull (c : Fin 5) (d t : Dev) : Prop where
  full : t.ic.tgt[c].full = true
  index : t.get (.icc c .icqwr) = d.get (.icc c .icqwr)
  mem : t.mem = d.mem

theorem icFull_full (c : Fin 5) (d : Dev) : RingFull c d (icFull c d) where
  full := by
    have targets : (icFull c d).ic.tgt = _ := each_srcU_keeps (π := fun d => d.ic.tgt) (fun _ _ _ => rfl) ..
    rw [targets, tgtU_tgt_same]
  index := Dev.get_congr (each_srcU_keeps (fun _ _ _ => rfl) ..) _
  mem := each_srcU_keeps (fun _ _ _ => rfl) ..

theorem icFull_now (c : Fin 5) (d : Dev) : (icFull c d).now = d.now := each_srcU_keeps (fun _ _ _ => rfl) ..

/-- The ring's index has moved on, and source x is queued by its record at `a` (R207). -/
structure Queued (c : Fin 5) (x l a : Nat) (d t : Dev) : Prop where
  index : t.f (.icc c .icqwr) ICQWR.INDEX = (d.f (.icc c .icqwr) ICQWR.INDEX + 1) % 65536
  serve : (icSrc t x).serve = .queued
  record : RecordAt a (recordWord d c x l) 0 (lo32 (icSrc d x).pendTs) (hi32 (icSrc d x).pendTs) t

theorem icRecorded_queued {c : Fin 5} {x l : Nat} {d : Dev} (aligned : icNext d c % 16 = 0) (sram : inSram (icNext d c) = true) :
    Queued c x l (icNext d c) d (icRecorded c x l d) where
  index := by
    rw [icRecorded, Dev.f, Dev.get_congr (Dev.srcU_regs ..), ← Dev.f, Dev.f_setF _ _ (by decide)]
    rfl
  serve := by rw [icRecorded, icSrc_srcU_same]
  record := by
    refine (memWrite4_record aligned sram ..).congr ((Dev.srcU_mem ..).trans (Dev.setF_mem ..)) fun _ _ => ?_
    exact (Dev.get_congr (Dev.srcU_regs ..) _).trans (Dev.get_setF_ne _ (by simp) _ _)

theorem Queued.mono {c : Fin 5} {x l a : Nat} {d e t : Dev} (h : Queued c x l a d e) (k : Tracks e t) : Queued c x l a d t where
  index := by rw [Dev.f, k.get]; exact h.index
  serve := (k.serve x).trans h.serve
  record := h.record.congr k.mem fun _ _ => k.get _

theorem icRecorded_now (c : Fin 5) (x l : Nat) (d : Dev) : (icRecorded c x l d).now = d.now :=
  memWrite4_now ..

section
variable {s : State} {c : Fin 5} (up : Up s) (runs : RingRuns s.toDev c)
include up runs

theorem queueRecord_full (full : icLimit s.toDev c ≤ icOcc s.toDev c) (waits : icCand s.toDev c ≠ []) :
    Does (.queueRecord c) s (RingFull c s.toDev) := by
  have found := icRecord_full runs full waits
  refine .of_act (f := icRecord c) rfl up (up.calm ?_) ?_
  · rw [found, icFull_now]
  · rw [found]
    obtain ⟨_, _, _, kept⟩ := (settle_tracks (icFull c s.toDev)).tgt c
    have left := icFull_full c s.toDev
    exact ⟨by rw [kept]; exact left.full, (settle_get ..).trans left.index, (settle_mem _).trans left.mem⟩

theorem queueRecord_none (room : icOcc s.toDev c < icLimit s.toDev c) (none : icCand s.toDev c = []) :
    exec (.queueRecord c) s = after s s.toDev :=
  exec_of_act (f := icRecord c) rfl up (icRecord_none runs room none) (up.calm (Nat.le_refl _))

theorem queueRecord_queues (known : s.ic.tgt[c].ringOpen = false) (aligned : icNext s.toDev c % 16 = 0)
    (sram : inSram (icNext s.toDev c) = true) {x l : Nat} (room : icOcc s.toDev c < icLimit s.toDev c)
    (best : icBest (icCand s.toDev c) = some (x, l)) :
    Does (.queueRecord c) s (Queued c x l (icNext s.toDev c) s.toDev) := by
  have recorded := icRecord_best runs known room best
  have moderated : Tracks (icRecorded c x l s.toDev) (icRecord c s.toDev) := by
    rw [recorded]
    split
    · exact icModEvent_tracks ..
    · exact .refl _
  have now : (icRecord c s.toDev).now = s.now := by rw [moderated.only]; exact icRecorded_now ..
  exact .of_act (f := icRecord c) rfl up (up.calm (Nat.le_of_eq now)) ((icRecorded_queued aligned sram).mono (moderated.trans (settle_tracks _)))

end

end Sys2Proof.Machine
end

section
/-!
PROOF. O44, by command.
-/
set_option Elab.async false
namespace Sys2Proof.Proofs
open Sys2Proof Sys2Proof.Machine

/-- Settles O44: whatever a command does to the sources and targets, following the sources afterwards leaves every service, every stack and
every ring as the command left it. -/
theorem interruptController : Obligations.InterruptController := by
  unfold Obligations.InterruptController
  intro s by_ c k v up d g mine enables
  have enabled {w : Word} {t : Dev} (h : Enabled k w d t) : enables w t := ⟨h.get, h.inLine, h.core, h.mem⟩
  have broken {cause : Nat} {t : Dev} (h : Broke c cause d t) :=
    And.intro h.broken (And.intro h.first (And.intro h.halt (And.intro h.line h.stack)))
  refine ⟨fun asks => does_mono (icenset_does asks) fun _ => enabled, fun asks => does_mono (icenclr_does asks) fun _ => enabled,
    iswset_eq, iswclr_eq, fun asks => ⟨iceoi_refused asks, fun mine empty => ?_, fun e rest mine top closed bad same => ?_,
      fun e rest mine top closed good => ⟨fun same => ?_, fun other => ?_⟩⟩,
    fun asks mine => ⟨icqdone_frees asks mine, icqdone_ignored asks mine⟩, icqrdWrite_does,
    fun asks mine off => ⟨icTargetEnable_direct asks mine off, fun queue => ⟨fun fits => ?_, fun unfit => ?_⟩⟩,
    fun en queue goes known aligned sram => ⟨fun full waits => ?_, queueRecord_none up ⟨en, queue, goes⟩, fun x l room best => ?_⟩,
    moderationTimeout_none up, fun w n us => moderationTimeout_closes up⟩
  · exact does_mono (iceoi_breaks asks mine (icEoi_empty (d := asked by_ d) empty)) fun _ => broken
  · exact does_mono (iceoi_breaks asks mine (icEoi_parity (d := asked by_ d) top closed bad)) fun _ => broken
  · exact does_mono (iceoi_ends asks mine top closed good same) fun t ended => ⟨ended.stack, ended.broken, ended.free⟩
  · exact does_mono (iceoi_breaks asks mine (icEoi_other (d := asked by_ d) top closed good other)) fun _ => broken
  · exact icTargetEnable_ring asks mine off queue (icRingOk_iff.2 fits)
  · exact icTargetEnable_noRing asks mine off queue (Bool.eq_false_iff.2 fun ok => unfit (icRingOk_iff.1 ok))
  · exact does_mono (queueRecord_full up ⟨en, queue, goes⟩ full waits) fun t full => ⟨full.full, full.index, full.mem⟩
  · refine does_mono (queueRecord_queues up ⟨en, queue, goes⟩ known aligned sram room best) fun t queued => ?_
    obtain ⟨index, serve, word0, word1, word2, word3⟩ := queued
    exact ⟨index, serve, (congrArg BitVec.toNat word0).trans (BitVec.toNat_ofNat ..), word1, word2, word3⟩

end Sys2Proof.Proofs
end
